-- ==== Sys2Proof/Word.lean ====
section
/-! DEFINITION. The words, granules and fixed names of Gytas HX4 (00_scope.md R2 to R5; 01_hub_architecture.md R16). -/

namespace Sys2Proof

/-- A 64-bit register or a 64-bit field (R10). -/
abbrev Word := BitVec 64

/-- A byte. -/
abbrev Byte := BitVec 8

/-- A granule (R2): 64 bytes, byte k in bits [8k+7:8k]. -/
abbrev Granule := BitVec 512

/-- A status code of R8. -/
abbrev Code := BitVec 8

/-- A function: 0 is PF0, n is VF n (R284). -/
abbrev Fn := BitVec 6

/-- A channel slot, 0 to 16,383 (R4). -/
abbrev Slot := BitVec 14

/-- A sparse array: the entries that differ from their default, by rising index. -/
abbrev Tab (α : Type) := List (Nat × α)

/-- The two Hub Engines (R16). -/
inductive Engine where
  | A
  | B
deriving DecidableEq, Repr

/-- The other engine. -/
def Engine.other : Engine → Engine
  | .A => .B
  | .B => .A

/-- 0 for Engine A and 1 for Engine B, as ENGINE of a record numbers them (R101). -/
def Engine.num : Engine → Nat
  | .A => 0
  | .B => 1

end Sys2Proof
end

