-- ==== Sys2Proof/Syntax.lean ====
section
/-! DEFINITION. The commands the block takes, one constructor per row of spec/opcode_table.json, with each row's operands.
A command is a register access, a message, a pin event, an answer that returns, or a moment of the hub's own sequencers. -/

namespace Sys2Proof

/-- The words of a management descriptor that the hub reads (R30). -/
structure Desc where
  w00 : Word
  w08 : Word
  ringBase : Word
  w18 : Word
deriving DecidableEq, Repr

/-- Why a segment fails (R142). -/
inductive SegFail where
  | timeout
  | poison
  | forbidden
  | masterDisabled
deriving DecidableEq, Repr

/-- The control fields of a function's instance, other than Bus Master Enable and the D-state, as a configuration write leaves them:
Memory Space Enable, MPS, Completion Timeout Value, Relaxed Ordering, 14-bit tags, LTR Mechanism Enable (R327, R396). -/
structure FnCtl where
  mse : Bool
  mps : BitVec 3
  cto : BitVec 4
  ro : Bool
  tag14 : Bool
  ltrEn : Bool
deriving DecidableEq, Repr

/-- What a request TLP from the host is, beside the place it names (R318, R325): a memory or a configuration request, one of the requests the
hub does not support, or one that arrives in error. -/
inductive TlpForm where
  | memory
  | config
  | atomicOp
  | locked
  | io
  | poisoned
  | malformed
  | ecrc
deriving DecidableEq, Repr

/-- The BAR a request names, and what the request is. -/
structure BarAt where
  bar : BitVec 3
  form : TlpForm := .memory
deriving DecidableEq, Repr

/-- A unit that checks itself (R27). -/
inductive HubUnit where
  | mover (m : Fin 48)
  | walker (w : Fin 64)
  | lane (l : Fin 66)
deriving DecidableEq, Repr

/-- A request of an on-die agent to the coherence home (R246, R335): the agent, its tag, the NoC port, the host physical
address, whether it is sent on a CREDIT, POISON, and BE. -/
structure HReq where
  agent : BitVec 11
  tag : BitVec 12
  port : Fin 5
  addr : Word
  onCredit : Bool
  poison : Bool := false
  be : Word := 0xFFFFFFFFFFFFFFFF
deriving DecidableEq, Repr

/-- The header of a holder's answer to a snoop or a SET_FLUSH (R335): the holder, the TAG it echoes, and POISON of its data. -/
structure SnpHdr where
  agent : BitVec 8
  tag : BitVec 12
  poison : Bool := false
deriving DecidableEq, Repr

/-- The header of a transport packet (R268). -/
structure PktHdr where
  hcrc : BitVec 32
  kind : BitVec 4
  last : Bool
  resend : Bool
  route : BitVec 2
  blocks : BitVec 5
  mask : BitVec 16
  srcChip : BitVec 12
  dstChip : BitVec 12
  psn : BitVec 24
  window : BitVec 16
  tag : BitVec 16
  body : Word
  arg : BitVec 32
  /-- The fabric port whose sender dropped valid, or changed the payload, before the packet had all transferred; none of a packet that
  came whole (R332, R341). -/
  cut : Option (Fin 12) := none
  /-- Its sop came before the eop of the packet before it (R341). -/
  early : Bool := false
deriving DecidableEq, Repr

/-- One carried block of a packet: its number, its CRC, its bytes (R268). -/
structure Block where
  k : Fin 16
  crc : BitVec 32
  bytes : List Byte
deriving DecidableEq, Repr

/-- The place of an array word, with the syndrome it gives (R367), or of a hub-store block (R377). The row it lies in is named as the repair map
names one (R386). -/
structure ScrubHit where
  struct_ : Byte
  bank : Byte
  mac : BitVec 16
  row : BitVec 16
  index : BitVec 32
  syndrome : Byte
  /-- Hub store: the slots in error or erased (R387). -/
  slots : BitVec 4 := 0
deriving DecidableEq, Repr

/-- The pieces that the four slots return of a hub-store block, none a piece returned poisoned (R377). -/
structure Pieces where
  p0 : Option (BitVec 256) := none
  p1 : Option (BitVec 256) := none
  p2 : Option (BitVec 256) := none
  p3 : Option (BitVec 256) := none
deriving DecidableEq, Repr

/-- What the arrays, or device memory, give a scrub: an array word, by its place and its syndrome, with whether a whole-word write has reached
it since the hub marked it lost (R367, R369); a hub-store block (R377). -/
inductive ScrubIn where
  | word (h : ScrubHit) (written : Bool)
  | block (p : Pieces)
deriving DecidableEq, Repr

/-- The resources whose quota a PRT register holds (R289, R303). -/
inductive Quota where
  | chan
  | engine
  | l2t
  | sync
  | plan
  | evt
deriving DecidableEq, Repr

/-- The resources that drain (R292, PRT_STATE.DRAINING). -/
inductive Drained where
  | channels
  | movers
  | objects
  | plan
  | targets
deriving DecidableEq, Repr

/-- The registers whose write may remap host lines (R307). -/
inductive RemapReg where
  | groupMap
  | rangeBase
  | rangeLimit
deriving DecidableEq, Repr

/-- A wake condition of D3cold (R400). -/
inductive WakeCond where
  | fabric
  | dronePin
  | thermal
deriving DecidableEq, Repr

/-- A class of NoC message (R334). -/
inductive NocClass where
  | req
  | snp
  | rsp
deriving DecidableEq, Repr

/-- A message on a NoC port that the hub can only discard (R335, R336, R338): a SignalAck, for it sends no CoreSignal; one of an undefined OPC;
one of a defined OPC in the wrong class. -/
inductive NocStray where
  | signalAck (port : Fin 4)
  | undefinedOpc (port : Fin 5) (cls : NocClass) (opc : Byte)
  | wrongClass (port : Fin 5) (cls : NocClass) (opc : Byte)
deriving DecidableEq, Repr

/-- The commands. Each constructor's row has the mnemonic that LAWS.json gives it. -/
inductive Instr where
  -- 02_channels_and_doorbells.md
  | mgmtSubmit (fn : Fn) (v : Word)
  | create (fn : Fn)
  | destroy (fn : Fn)
  | reset (fn : Fn)
  | kill (fn : Fn)
  | modify (fn : Fn)
  | badOp (fn : Fn)
  | mgmtResultObserved (fn : Fn)
  | contextWritten (slot : Slot) (ok : Bool)
  | retireDrained (slot : Slot)
  | retireLimitExpired (slot : Slot)
  | contextLoad (slot : Slot) (ok : List Pieces)
  | dbTail (fn : Fn) (slot : Slot) (v : Word)
  | halt (fn : Fn) (slot : Slot) (gen : Byte)
  | stop (fn : Fn) (slot : Slot) (gen : Byte)
  | resume (fn : Fn) (slot : Slot) (gen : Byte)
  | dbInline (fn : Fn) (slot : Slot) (off : BitVec 12) (len : Nat) (allBytes : Bool) (data : List Granule)
  | ringSlotReturn (slot : Slot) (pos : BitVec 32)
  | ringReread (slot : Slot)
  | ringReadFail (slot : Slot) (pos : BitVec 32)
  -- 03_command_set.md: the dispatch of a channel's next command
  | copy (slot : Slot)
  | copyConvert (slot : Slot)
  | fill (slot : Slot)
  | inlineWrite (slot : Slot)
  | reducePut (slot : Slot)
  | fence (slot : Slot)
  | signal (slot : Slot)
  | wait (slot : Slot)
  | atomic (slot : Slot)
  | nop (slot : Slot)
  | migrateHint (slot : Slot)
  | timestamp (slot : Slot)
  | planArm (slot : Slot)
  -- 06_movers.md
  | segmentDispatch (e : Engine) (urgent : Bool)
  | burstStart (m : Fin 48) (urgent : Bool)
  | segmentComplete (m : Fin 48) (urgent : Bool)
  | segmentFail (m : Fin 48) (urgent : Bool) (why : SegFail)
  | fenceHeld (slot : Slot)
  | stoppedContextIdle (m : Fin 48) (urgent : Bool)
  | reedSlotBoundary
  -- 04_translation.md
  | l2tLookup (k : Nat)
  | walkerAllocate (e : Engine)
  | entryLineReturn (w : Fin 64)
  | lockRetry (k : Nat)
  | lockLimit (k : Nat)
  | xltReq (client : BitVec 10) (tag : BitVec 12) (asid : BitVec 20) (access : BitVec 2) (va : Word)
  | faultRecordObserved (p : Fn)
  | faultRecordWriteFail (p : Fn) (notice : Bool)
  | xltFqHead (fn : Fn) (v : Word)
  | xltFqBase (fn : Fn) (size : Bool) (v : Word)
  | bind (fn : Fn) (asid : BitVec 20)
  | unbind (fn : Fn) (asid : BitVec 20)
  | unbindComplete (fn : Fn)
  | xltPrange (limit : Bool) (v : Word)
  -- 05_invalidation_and_placement.md
  | xltInvSubmit (fn : Fn) (v : Word)
  | invBegin
  | invRange (id : Nat)
  | invAsid (id : Nat)
  | invPartition (id : Nat)
  | badScope (id : Nat)
  | xltInvAck (client : BitVec 10) (invId : BitVec 16)
  | invDrainExpired (id : Nat)
  | invalidationComplete (id : Nat)
  | halvingPass
  | skinkEntriesRead (ticket : Nat)
  | skinkNoticeObserved (p : Fn)
  | skkNqHead (fn : Fn) (v : Word)
  | skkNqBase (fn : Fn) (size : Bool) (v : Word)
  | accept (fn : Fn) (ticket : BitVec 16)
  | decline (fn : Fn) (ticket : BitVec 16)
  | recall (fn : Fn) (frame : BitVec 32)
  | release (fn : Fn) (frame : BitVec 32)
  | ackLimitExpired (ticket : BitVec 16)
  | migrationDrainDone (ticket : BitVec 16)
  | migrationRereadDone (ticket : BitVec 16)
  | migrationCopyDone (ticket : BitVec 16)
  | migrationCasDone (ticket : BitVec 16)
  | recallLockDone (frame : BitVec 32)
  | recallDrainDone (frame : BitVec 32)
  | recallCopyDone (frame : BitVec 32)
  | recallCasDone (frame : BitVec 32)
  | hintProcess
  | thermalNotice (stack : BitVec 3)
  | thermalClear (stack : BitVec 3)
  | mapoutRequest (stack : BitVec 3) (chan : BitVec 5)
  | mapoutAck
  | mapoutReqFall
  -- 06_movers.md and 07_number_formats_and_ccu.md
  | bar4Write (fn : Fn) (off : BitVec 24) (bytes : List (Option Byte)) (link : BitVec 2) (cut : Bool)
  | bar4Read (fn : Fn)
  | movStgArea (v : Word)
  | stagingClearDone (p : Fn)
  | ccuSrSeed (v : Word)
  | laneResidueError (lane : Fin 66)
  | unitSelfCheckFail (u : HubUnit)
  -- 09_sync_objects.md
  | objCreate (fn : Fn) (type : BitVec 2) (slip : Bool)
  | objDestroy (fn : Fn) (handle : BitVec 32)
  | objRead (fn : Fn) (handle : BitVec 32)
  | syncActionApply
  | coreSignal (port : Fin 4) (agent : BitVec 11) (tag : BitVec 12) (scope : BitVec 2) (handle : BitVec 32) (action : BitVec 2)
      (value : BitVec 16)
  | waitReq (client : BitVec 10) (tag : BitVec 12) (scope : BitVec 2) (cond : BitVec 2) (handle : BitVec 32)
      (timeout : BitVec 32)
  | waitExpire (rec : Nat)
  | waitRecordLink (e : Engine)
  -- 10_drone_and_chanter.md
  | chtDroneSet (fn : Fn) (v : Word)
  | droneStep (glitch : Bool)
  | droneTick (glitch : Bool)
  | drone (h : PktHdr)
  | droneBroadcast
  | droneInterpolate (cycles : BitVec 32)
  | droneLost
  | rebase (fn : Fn)
  | chtDroneCfg (fn : Fn) (v : Word)
  | planPulse (handle : BitVec 32)
  | slip (h : PktHdr)
  | slipEnd (h : PktHdr)
  | slipLimitExpired
  | planLoad (fn : Fn)
  | imageReadDone (fn : Fn)
  | planFree (fn : Fn) (handle : BitVec 32) (count : BitVec 17)
  -- 11_coherence_home.md
  | readShared (r : HReq)
  | readUnique (r : HReq)
  | readNoAlloc (r : HReq)
  | writeNoAlloc (r : HReq) (data : Granule)
  | writeBack (r : HReq) (data : Granule)
  | atomicReq (r : HReq) (scope : BitVec 2) (op : BitVec 4) (type : BitVec 4) (operand : Word) (compare : Word)
  | ackS (h : SnpHdr) (addr : Word)
  | ackI (h : SnpHdr) (addr : Word)
  | dataS (h : SnpHdr) (addr : Word) (data : Granule)
  | dataI (h : SnpHdr) (addr : Word) (data : Granule)
  | dataCur (h : SnpHdr) (addr : Word) (data : Granule)
  | miss (h : SnpHdr) (addr : Word)
  | wbPending (h : SnpHdr) (addr : Word)
  | goS (addr : Word) (data : Granule)
  | goE (addr : Word) (data : Granule)
  | goM (addr : Word) (data : Granule)
  | goWritepull (addr : Word)
  | goI (addr : Word)
  | goErr (addr : Word) (data : Granule)
  | hostData (addr : Word) (poison : Bool) (data : Granule)
  | homeAtomicDone (addr : Word)
  | snpInv (link : BitVec 2) (addr : Word)
  | snpData (link : BitVec 2) (addr : Word)
  | snpCur (link : BitVec 2) (addr : Word)
  | creditLimitExpired (addr : Word)
  | snoopLimitExpired (agent : BitVec 8) (addr : Word)
  | hostLimitExpired (addr : Word)
  -- 12_peer_windows_and_transport.md
  | packetData (h : PktHdr) (blocks : List Block)
  | packetReduce (h : PktHdr) (blocks : List Block)
  | packetSignal (h : PktHdr)
  | packetAck (h : PktHdr)
  | packetNack (h : PktHdr)
  | blockApplied (src : BitVec 12) (psn : BitVec 24) (k : Fin 16)
  | resendTimeout (dst : BitVec 12) (psn : BitVec 24)
  | fabricPortDown (f : Fin 12)
  | pxpRoute (v : Word)
  | pwnOwin (fn : Fn) (word : BitVec 2) (v : Word)
  | pwnIwin (fn : Fn) (word : BitVec 2) (v : Word)
  | iwinDrained (i : BitVec 16)
  | windowAllotment (inbound : Bool) (v : Word)
  -- 13_partitions_and_twin_engines.md
  | enable
  | disable
  | disableComplete (p : Fn)
  | quotaWrite (q : Quota) (v : Word)
  | prtDrainExpired (p : Fn) (d : Drained)
  | failureDeclared (e : Engine)
  | quiesceDone
  | quiesceLimitExpired
  | channelAdopt
  | soloA
  | soloB
  | shared
  | engineWithdrawn
  | resetA
  | resetB
  | engineReady (e : Engine) (ok : Bool)
  -- 14_host_link_endpoint.md
  | busMasterDisable (fn : Fn) (link : BitVec 2)
  | vfFlr (fn : Fn) (link : BitVec 2)
  | pfFlr (link : BitVec 2)
  | flrComplete (fn : Fn)
  | vfEnable (fn : Fn) (link : BitVec 2)
  | vfDisable (fn : Fn) (link : BitVec 2)
  | cacheWritebackInvalidate (link : BitVec 2)
  | cacheEnableClear (link : BitVec 2)
  | linkUp (link : BitVec 2) (flit256 : Bool) (speed : BitVec 4) (width : BitVec 5)
  | linkDown (link : BitVec 2)
  | perst (link : BitVec 2)
  | cxlioCompletion (link : BitVec 2) (tag : BitVec 14) (success : Bool) (poison : Bool)
  | completionTimeout (link : BitVec 2) (tag : BitVec 14)
  | hlkRemap (r : RemapReg) (v : Word)
  | remapDone
  | d3hot (fn : Fn) (pmeEn clearPme : Bool)
  | d0Return (fn : Fn) (pmeEn clearPme : Bool)
  -- 16_event_concentrator.md
  | evcSrcRaise (fn : Fn) (v : Word)
  | evcSrcClear (fn : Fn) (v : Word)
  | evcSrcCfg (fn : Fn) (v : Word)
  | evcTgtAssign (v : Word)
  | evcClaim (fn : Fn) (t : Byte)
  | evcComplete (fn : Fn) (t : Byte) (v : Word)
  | sourceEdge (src : BitVec 13)
  -- 17_arbiters.md
  | arbiterRound (a : Fin 35)
  | starveLimit (a : Fin 35) (idx : BitVec 14)
  | arbChanPrio (fn : Fn) (v : Word)
  -- 18_stored_data_protection.md
  | scrubStart (v : Word)
  | scrubDone
  | backgroundScrub (r : ScrubIn)
  | declareLost (slot : BitVec 2)
  | rebuild (slot : BitVec 2)
  | rebuildDone
  | repairLoad (v : Word)
  | repairReadDone
  -- 19_power_reset_and_bringup.md and 21_register_pages.md
  | supplyLow
  | clkOffNominal
  | dozeEntry
  | napEntry
  | hibernateEntry
  | wake
  | pwrWlb (fn : Fn) (v : Word)
  | wakeReq (c : WakeCond)
  | coldReset
  | warmReset (v : Word)
  | hubReady
  | bootClose
  | bootDoorbell (v : Word)
  | clearAll
  | dbgTraceClear
  | cntClear (page : Fin 21)
  -- 15_block_ports.md
  | memRdData (port : Fin 4) (agent : BitVec 11) (tag : BitVec 12) (poison : Bool) (data : Granule)
  | memWrAck (port : Fin 4) (agent : BitVec 11) (tag : BitVec 12) (status : Code)
  | memAtomicAck (port : Fin 4) (agent : BitVec 11) (tag : BitVec 12) (status : Code) (old : Word)
  | signalAck (port : NocStray)
  | nocCreditReturn (port : Fin 5) (cls : NocClass) (slot : Bool)
  | regRd (client : BitVec 10) (tag : BitVec 12) (off : BitVec 25) (size8 : Bool)
  | regWr (client : BitVec 10) (tag : BitVec 12) (off : BitVec 25) (size8 : Bool) (v : Word)
  -- accesses and moments without a chapter row of their own
  | rcRead (fn : Fn) (link : BitVec 2) (bar : BarAt) (off : BitVec 26) (size : Nat)
  | registerWrite (fn : Fn) (link : BitVec 2) (bar : BarAt) (off : BitVec 26) (size : Nat) (v : Word)
  | busMasterEnable (fn : Fn) (link : BitVec 2) (ctl : FnCtl)
  | cacheEnableSet (link : BitVec 2)
  | rebuildBlock
  | rangeScrubBlock (r : ScrubIn)
  | bankCopyDone (code : Byte)
  | slipExpired
  | twinPortError (e : Engine)
deriving DecidableEq, Repr

end Sys2Proof
end

