-- ==== Sys2Proof/Config.lean ====
section
/-! DEFINITION. What a die fixes, and the values the spec leaves open. An opaque constant has no body: no proof can see its
value, so a statement that mentions it holds for every value. -/

namespace Sys2Proof

/-! ## Figures of the X9 die (14_host_link_endpoint.md R317; 00_scope.md) -/

/-- Channel slots. -/
def Config.channels : Nat := 16384
/-- Cores of the die (R57: AGENT 0 to 767 on the X9; DDT key 0x000C). -/
def Config.cores : Nat := 768
/-- Bytes of device memory (DDT key 0x001D). -/
def Config.deviceBytes : Nat := 412316860416
/-- Sync objects (R190). -/
def Config.objects : Nat := 65536
/-- Wait records of one engine's half (R16). -/
def Config.halfRecords : Nat := 65536
/-- Plan entries (R220). -/
def Config.planEntries : Nat := 65536
/-- Reservation rows (R231). -/
def Config.rows : Nat := 512
/-- Contexts the context cache holds (R28). -/
def Config.contextCache : Nat := 2048
/-- Lock-wait table entries (R96). -/
def Config.lockWaits : Nat := 1024
/-- Miss queue entries of one engine (R94). -/
def Config.missQueue : Nat := 512
/-- Bindings of the ASID table (R80). -/
def Config.bindings : Nat := 4096
/-- Regions that may be placed hub-wide (R115). -/
def Config.placedMax : Nat := 131072
/-- Pending-table entries of Skink (R115). -/
def Config.pendingMax : Nat := 256
/-- Regions of the hint queue (R124). -/
def Config.hintQueue : Nat := 1024
/-- Invalidations in progress hub-wide (R105). -/
def Config.invMax : Nat := 64
/-- How long SYN_OBJ_STATUS.BUSY stays set, within its bound, by the number of the free value (09_sync_objects.md R194; log entry 120). -/
opaque Config.objCycles : Nat → Nat

/-- Hub cycles in one microsecond at 4.0 GHz (R25). -/
def Config.usCycles : Nat := 4000
/-- Lowest device-address bit that selects the stack of a frame on the X9 (R116, R315). -/
def Config.stackLsb : Nat := 16
/-- Width of that field on the X9 (R315). -/
def Config.stackBits : Nat := 3

/-! ## Values the spec leaves open -/

/-- Bank of the L2T for an ASID and a 2 MiB region (R90: the hash is not part of the interface). Log entry 3. -/
opaque Config.l2tBank : Nat → Nat → Nat
/-- Set of an L2T bank for a page-size log, an ASID and a page number (R90). Log entry 3. -/
opaque Config.l2tSet : Nat → Nat → Nat → Nat
/-- Bank of the walk cache for an ASID (R91). Log entry 3. -/
opaque Config.walkBank : Nat → Nat
/-- Set of a walk-cache bank for an ASID, a level and a prefix (R91). Log entry 3. -/
opaque Config.walkSet : Nat → Nat → Nat → Nat
/-- Skink's counter index for an ASID and VA bits [56:16] (R114: a hash). Log entry 3. -/
opaque Config.skinkHash : Nat → Nat → Nat
/-- Directory bank from address bits [9:6] and [41:38] (R241: hashed). Log entry 3. -/
opaque Config.dirBank : Nat → Nat → Nat
/-- Device-cache set of a line (R245: 16 banks of 1,024 sets; the choice is not given). Log entry 3. -/
opaque Config.dcSet : Nat → Nat
/-- Victim among a full device-cache set's lines, a fresh value for each count (R245: pseudo-LRU). Log entry 4. -/
opaque Config.dcVictim : Nat → Nat
/-- CCU lane of the n-th stochastic draw (R162: not repeatable). Log entry 5. -/
opaque Config.laneOf : Nat → Nat
/-- Sign of the NaN that a combine of two NaNs of unlike signs gives, from the first's sign (R152 names one NaN input). Log entry 20. -/
opaque Config.twoNanSign : Bool → Bool
/-- Whether the edge of a Drone pin level seen for one sample is counted (R342: the hub does not say). Log entry 6. -/
opaque Config.glitchCounts : Nat → Bool
/-- Memory-controller channel, within its stack, that holds a device-memory frame (R343: the die's rule). Log entry 8. -/
opaque Config.frameChan : Nat → Fin 32
/-- First hub-store block of a channel's context (R28: the place is not given). Log entry 9. -/
opaque Config.contextBlock : Nat → Nat
/-- NoC data port the die assigns to a requester ID (R240, R259 COH_AGENT_CFG.PORT). Log entry 10. -/
opaque Config.agentPort : Nat → Nat
/-- NoC data port that carries a device-memory address (R15, R177: the die's interleave). Log entry 10. -/
opaque Config.devicePort : Nat → Nat
/-- Address of the zero-length read that a FENCE issues on a link for a function (R77: not given). Log entry 27. -/
opaque Config.fenceAddr : Nat → Nat → Word
/-- The ways of its bank that a macro of a set-associative structure holds (R373): by structure code, bank and macro. Log entry 30. -/
opaque Config.macroWays : Nat → Nat → Nat → BitVec 16
/-- The way that holds a line of the directory or the device cache, or a walk-cache entry: by structure code and line or key (R373). Log
entry 30. -/
opaque Config.lineWay : Nat → Nat → Nat
/-- The entry of a structure that an array word belongs to: by structure code, bank and word index (R370). Log entry 30. -/
opaque Config.wordEntry : Nat → Nat → Nat → Nat
/-- The event sources that an array word holds, by bank and word index (R370). Log entry 30. -/
opaque Config.wordSources : Nat → Nat → List Nat
/-- The macro, as bank * 65536 + macro, that holds an entry of the wait-record timers, the event concentrator or a configuration table:
by structure code and entry (R370). Log entry 30. -/
opaque Config.entryMacro : Nat → Nat → Nat
/-- Where Skink's hash spreads the regions of a withdrawn bank of counters (R370). Log entry 3. -/
opaque Config.skinkSpread : Nat → Nat
/-- Spare rows of a macro that the factory used, at most 2: by structure code, bank and macro (R371). Log entry 31. -/
opaque Config.factoryRows : Nat → Nat → Nat → Nat
/-- The syndromes of odd weight above 1 that are columns of the arrays' SEC-DED code, one for each of the 64 data bits (R367: the matrix is not
given). Log entry 139. -/
opaque Config.hsiaoColumn : BitVec 8 → Bool
/-- The bank of the context cache that holds a channel's context, 0 to 3 (01 R22: the place is not given). Log entry 139. -/
opaque Config.ctxBank : Nat → Nat
/-- Where in a context's 1 KiB the second copy of its first 256 bytes stands, as the number of the quarter, 1 to 3, less 1 (R382: the place is
not given). Log entry 139. -/
opaque Config.ctxCopy : Nat
/-- Words of the on-die arrays that a pass of the background walker reads before the hub store (R384). Log entry 32. -/
opaque Config.arrayWords : Nat
/-- The hub-store block that records the placement in a device frame (05 R119 step 10). Log entry 9. -/
opaque Config.skinkBlock : Nat → Nat
/-- The hub-store block that holds a mover's mirror checkpoint (01 R22). Log entry 9. -/
opaque Config.checkpointBlock : Nat → Nat
/-- Byte of a hub-store block the hub writes, at a hub time: the layout of its contents is not given. Log entry 125. -/
opaque Config.storeByte : Word → Nat → Nat → Byte
/-- What a hub-store block holds: 0 contexts, 1 plan spill, 2 Skink spill, 3 mirror checkpoints (R382); the layout is not given. Log
entry 9. -/
opaque Config.storeUse : Nat → Nat
/-- The plan entry, or the device frame, that a hub-store block holds (R382). Log entry 9. -/
opaque Config.storeItem : Nat → Nat
/-- Credits that the NoC allots the hub beyond the first, by port, class and slot (R333: at least one, and maybe more). Log entry 29. -/
opaque Config.nocExtra : Nat → Nat
/-- AGENT of the transport's own requests on the data ports (R240, R335: no ID is given). Log entry 28. -/
opaque Config.peerAgent : Nat
/-- AGENT of the writes through the bootstrap window (R405: no ID is given). Log entry 28. -/
opaque Config.bootAgent : Nat
/-- An 8-byte word of the Device Description Table's ROM that no rule fixes, and in word 1 the hub's revision (R315). Log entry 11. -/
opaque Config.ddtWord : Nat → Word
/-- Free 8-byte words before the page table (0) and the parameter table (1) of the Device Description Table (R315: their places are the
integrator's). Log entry 11. -/
opaque Config.ddtGap : Nat → Nat
/-- The header of a TLP in error, which the header log keeps (R325): the model's TLPs have none. Log entry 137. -/
opaque Config.tlpHeader : Nat → BitVec 128
/-- PF0's Vendor ID (R344 tie_vendor_id). Log entry 11. -/
opaque Config.tieVendorId : BitVec 16
/-- Subsystem Vendor ID and Subsystem ID of every function (R312: the integrator's tie-offs). Log entry 11. -/
opaque Config.tieSubsystem : BitVec 32
/-- A dword of configuration space whose bits are the PCI Express or CXL standard's, or the link controller's: link, function, offset.
Log entry 126. -/
opaque Config.confWord : Nat → Nat → Nat → BitVec 32
/-- Sign of the NaN that an element under an MXFP8 scale of 255 is, by the element's sign (07 R159: left open). Log entry 19. -/
opaque Config.scaleNanSign : Bool → Bool
/-- The hub serial number (R344 tie_serial). Log entry 11. -/
opaque Config.tieSerial : Word

/-- Granules that MOV_CTX_STATUS shows for a segment that was stopped (06 R144: undefined). Log entry 36. -/
opaque Config.stoppedProgress : Nat → Nat
/-- OPS and BYTES of the movers while the last segment of a context was stopped (06 R144: undefined). Log entry 36. -/
opaque Config.stoppedCount : Nat → Word
/-- A word of PF0's CXL component registers (R319: the standard's). Log entry 11. -/
opaque Config.cxlWord : Nat → Word

end Sys2Proof
end

