-- ==== Sys2Proof/Machine/State.lean ====
section
/-! DEFINITION. The state of Gytas HX4 as plain data: every register, table, queue, counter, mode and pin the spec gives it,
chapter by chapter. The default value of a field is its value at reset. Sparse arrays are `Tab`s: the entries that differ from the
array's reset entry, by rising index. -/

namespace Sys2Proof.Machine

/-! ## What the hub puts on its ports -/

/-- A message of a NoC data port, field by field of its header, and its granule (15_block_ports.md R335). -/
structure NocMsg where
  /-- OPC. -/
  opc : Nat
  /-- AGENT. -/
  agent : Nat
  /-- TAG. -/
  tag : Nat := 0
  /-- ADDR. -/
  addr : Word := 0
  /-- STATUS. -/
  status : Code := 0
  /-- POISON. -/
  poison : Bool := false
  /-- SCOPE. -/
  scope : BitVec 2 := 0
  /-- COUNTER of an ArrivalInc. -/
  counter : Nat := 0
  /-- INC of an ArrivalInc. -/
  inc : Nat := 0
  /-- BE. -/
  be : Word := 0xFFFFFFFFFFFFFFFF
  /-- The granule of a message with data. -/
  data : Granule := 0
  /-- OP and DST_FMT of a MemReduce, beside its elements (log entry 23). -/
  red : Byte := 0
deriving DecidableEq, Repr

/-- A message the hub sends on NoC port 4 (15_block_ports.md R338). -/
inductive P4Msg where
  | xltAns (client tag : Nat) (status : Code) (device : Bool) (size : Nat) (rights : BitVec 3) (base : Word)
  | xltInv (client asid : Nat) (whole : Bool) (va : Word) (pages invId : Nat)
  | waitAns (client tag : Nat) (status : Code) (handle : BitVec 32)
  | regRsp (client tag : Nat) (status : Code) (data : Word)
  | evtNotify (target source level : Nat)
deriving DecidableEq, Repr

/-- A packet the hub sends on a fabric port, with the block bytes it carries (12_peer_windows_and_transport.md R268). -/
structure Packet where
  /-- The header. -/
  h : PktHdr
  /-- The carried blocks. -/
  blocks : List (Nat × List Byte) := []
  /-- The CRC-32C that follows each block. -/
  crcs : List (BitVec 32) := []
deriving DecidableEq, Repr

/-- An error that the hub reports in AER (R325). -/
inductive AerErr where
  | correctedInternal
  | headerOverflow
  | malformed
  | poisoned
  | ecrc
  | unsupported
  | cplTimeout
  | unexpectedCpl
  | uncorrectableInternal
deriving DecidableEq, Repr

/-- The message that reports an error (R325). -/
inductive AerMsg where
  | cor
  | nonFatal
  | fatal
deriving DecidableEq, Repr

/-- What the hub puts on a port, or asks of host memory, as one event. -/
inductive Out where
  /-- A message on a NoC data port. -/
  | noc (port : Nat) (m : NocMsg)
  /-- A message on NoC port 4. -/
  | p4 (m : P4Msg)
  /-- An MSI-X write of a vector (16_event_concentrator.md R350). -/
  | msix (link fn vector : Nat) (addr : Word) (data : BitVec 32)
  /-- A posted data write for DST_POSTED, with its Relaxed Ordering and ID-Based Ordering attributes (14_host_link_endpoint.md R308, R320). -/
  | posted (link fn : Nat) (addr : Word) (bytes : List Byte) (ro ido : Bool)
  /-- A zero-length read for FENCE or read-back (14_host_link_endpoint.md R320). -/
  | zeroRead (link fn tag : Nat) (addr : Word)
  /-- A device-to-host request of CXL.cache (11_coherence_home.md R247). -/
  | d2hReq (link : Nat) (op : String) (line : Word)
  /-- A device-to-host snoop response (11_coherence_home.md R255). -/
  | d2hRsp (link : Nat) (rsp : String) (line : Word)
  /-- Device-to-host data. -/
  | d2hData (link : Nat) (line : Word) (poison : Bool) (be : Word) (data : Granule)
  /-- A packet on a fabric port, under a route tag. -/
  | fabric (port tag : Nat) (p : Packet)
  /-- The data of a read of a BAR, answered to the host: the link, where the command names it, the function, the data. -/
  | cpl (link : Option Nat) (fn : Nat) (data : Word)
  /-- A completion with Unsupported Request status (14_host_link_endpoint.md R318, R325). -/
  | unsupported (link fn : Nat)
  /-- A configuration request completes with Request Retry Status while the function's FLR runs (14_host_link_endpoint.md R311): the link, where
  the command names it. -/
  | retry (link : Option Nat) (fn : Nat)
  /-- A write to, or a read of, the hub store in device memory (18_stored_data_protection.md R375). -/
  | hubStore (write : Bool) (block : Nat)
  /-- The bytes of one slot of a hub-store block, written to a stack at a device address (18_stored_data_protection.md R375, R376). -/
  | storePiece (stack : Nat) (addr : Word) (bytes : List Byte)
  /-- A rebuild writes 32 bytes of one slot, solved from the other slots or copied (18 R380). -/
  | storeCopy (slot stack : Nat) (addr : Word)
  /-- The one-cycle pulse boot_go (15_block_ports.md R330). -/
  | bootGo
  /-- A PME message or WAKE# request (19_power_reset_and_bringup.md R399, R400). -/
  | pme (link fn : Nat)
  /-- An LTR message: L in ns, with Requirement set, or none where L is unbounded (19_power_reset_and_bringup.md R396). -/
  | ltr (link : Nat) (latency : Option Nat)
  /-- A bit of evt_out changes (16_event_concentrator.md R348, R350). -/
  | evtOut (k : Nat) (level : Bool)
  /-- coh_hold[8:0] changes (11_coherence_home.md R251). -/
  | cohHold (cycles : BitVec 9)
  /-- mc_mapout_ack changes (15_block_ports.md R343). -/
  | mapoutAck (level : Bool)
  /-- An AER error reported in a function's instance on a link (14_host_link_endpoint.md R325). -/
  | aer (link fn : Nat) (err : AerErr) (msg : AerMsg)
deriving DecidableEq, Repr

/-! ## 21_register_pages.md: headers, GLB, CTX and DBG pages -/

/-- The sticky registers of one view of one page (R418, R419). -/
structure Sticky where
  /-- STICKY, 64 bits (21 R418). Reset 0. -/
  bits : Word := 0
  /-- STICKY_EVENT_EN, 64 bits (21 R420). Reset STICKY_IMPL, 0 in CCU and DBG. -/
  en : Word := 0
  /-- STICKY_FIRST, 64 bits (21 R418). Reset 0. -/
  first : Word := 0
  /-- GLB_TIME of the setting STICKY_FIRST holds, 64 bits, for settings of one hub cycle (21 R419). Reset 0. -/
  firstAt : Word := 0
  /-- Hub cycle of the latest setting, 64 bits: a clearing in that cycle leaves what it set (00 R13). Reset 0. -/
  freshAt : Word := 0
  /-- Bits set in that cycle, 64 bits (00 R13). Reset 0. -/
  fresh : Word := 0
  /-- STICKY_FIRST as that cycle's settings alone would have it, 64 bits (00 R13). Reset 0. -/
  freshFirst : Word := 0
  /-- STICKY_COUNT, 32 bits (21 R418). Reset 0. -/
  count : BitVec 32 := 0
deriving DecidableEq, Repr

/-- The block counters of a page (R421). -/
structure Counts where
  /-- ACTIVE_CYCLES, 64 bits (21 R421). Reset 0. -/
  active : Word := 0
  /-- OPS, 64 bits (21 R421). Reset 0. -/
  ops : Word := 0
  /-- STALL_CYCLES, 64 bits (21 R421). Reset 0. -/
  stall : Word := 0
  /-- BYTES, 64 bits (21 R421). Reset 0. -/
  bytes : Word := 0
  /-- CE, 64 bits (21 R421). Reset 0. -/
  ce : Word := 0
  /-- UE, 64 bits (21 R421). Reset 0. -/
  ue : Word := 0
  /-- RETIRED, 64 bits (21 R421). Reset 0. -/
  retired : Word := 0
deriving DecidableEq, Repr

/-- The block counters of a page, with its CTL and STATUS (R418, R421). -/
structure PageCounters extends Counts where
  /-- CTL.CNT_FREEZE, 1 bit (21 R418). Reset 0. -/
  freeze : Bool := false
  /-- STATUS.DEGRADED, 1 bit (21 R418). Reset 0. -/
  degraded : Bool := false
  /-- GLB_TIME of the last increment, which a clear of that hub cycle keeps (21 R421). Reset 0. -/
  nowAt : Word := 0
  /-- What was counted in that hub cycle (21 R421). Reset 0. -/
  now : Counts := {}
deriving DecidableEq, Repr

/-- One trace entry: its time and its DBG_TRACE_INFO word (R425). -/
structure TraceEntry where
  /-- GLB_TIME of the setting, 64 bits (21 R425). Reset 0. -/
  time : Word := 0
  /-- DBG_TRACE_INFO of the setting, 64 bits (21 R425). Reset 0. -/
  info : Word := 0
deriving DecidableEq, Repr

/-- The GLB, CTX and DBG registers and every page's header. -/
structure Glb where
  /-- GLB_TIME, 64 bits (21 R423). Reset 0. -/
  time : Word := 0
  /-- hub_ready, 1 bit (15 R330, R331). Reset 1: the machine of State.reset has finished reset initialisation (log entry 1). -/
  ready : Bool := true
  /-- HUB_FATAL and hub_fatal, 1 bit (21 R423, 13 R297). Reset 0. -/
  fatal : Bool := false
  /-- The sticky registers by view * 32 + page (21 R418). Reset per `Sticky`. -/
  sticky : Tab Sticky := []
  /-- The block counters by page (21 R421). Reset 0. -/
  blocks : Tab PageCounters := []
  /-- CTX_FETCH_WAIT, 32 bits (21 R424). Reset 0. -/
  ctxFetchWait : BitVec 32 := 0
  /-- CTX_EVICT_COUNT, 32 bits (21 R424). Reset 0. -/
  ctxEvict : BitVec 32 := 0
  /-- CTX_WRITE_COUNT, 32 bits (21 R424). Reset 0. -/
  ctxWrite : BitVec 32 := 0
  /-- DBG_CTL.FREEZE_ALL, 1 bit (21 R425). Reset 0. -/
  freezeAll : Bool := false
  /-- DBG_TRACE_CTL.EN, 1 bit (21 R425). Reset 0. -/
  traceEn : Bool := false
  /-- DBG_TRACE_CTL.BLOCK_MASK, 21 bits (21 R425). Reset 0. -/
  traceMask : BitVec 21 := 0
  /-- DBG_TRACE_PTR[11:0], 12 bits (21 R425). Reset 0. -/
  tracePtr : BitVec 12 := 0
  /-- DBG_TRACE_PTR.WRAPPED, 1 bit (21 R425). Reset 0. -/
  traceWrapped : Bool := false
  /-- DBG_TRACE_IDX, 12 bits (21 R425). Reset 0. -/
  traceIdx : BitVec 12 := 0
  /-- The trace ring of 4,096 entries (21 R425). Reset empty. -/
  trace : Tab TraceEntry := []
  /-- DBG_TRACE_LOST, 32 bits (21 R425). Reset 0. -/
  traceLost : BitVec 32 := 0
  /-- GLB_TIME of the last traced setting, 64 bits (21 R425: two entries in a hub cycle). Reset 0. -/
  traceAt : Word := 0
  /-- Entries traced at that time (21 R425). Reset 0. -/
  traceNow : Nat := 0
deriving DecidableEq, Repr

/-! ## 16_event_concentrator.md -/

/-- A source of the event concentrator (R346, R347). -/
structure Source where
  /-- EN, 1 bit (16 R355). Reset 1 for 0x0001 and 0x0040 to 0x057F, else 0. -/
  en : Bool := false
  /-- LEVEL, 5 bits (16 R355). Reset 31 for those sources, else 0. -/
  level : BitVec 5 := 0
  /-- TARGET, 8 bits (16 R355). Reset 0. -/
  target : Byte := 0
  /-- PENDING, 1 bit (16 R346). Reset 0. -/
  pending : Bool := false
  /-- GLB_TIME of the last edge merged into it (16 R353: a claim of that hub cycle leaves PENDING set). Reset none. -/
  edgeAt : Option Word := none
deriving DecidableEq, Repr

/-- A target of the event concentrator (R348 to R350). -/
structure Target where
  /-- VALID of EVC_TGT_ASSIGN, 1 bit (16 R355, R356). Reset 1 for target 0, else 0. -/
  valid : Bool := false
  /-- PARTITION, 6 bits (16 R356). Reset 0. -/
  part : Fn := 0
  /-- VECTOR, 5 bits (16 R356). Reset 0. -/
  vector : BitVec 5 := 0
  /-- THRESHOLD, 5 bits (16 R356). Reset 0. -/
  thresh : BitVec 5 := 0
  /-- The claim stack, top first: source and level (16 R351). Reset empty. -/
  stack : List (Nat × BitVec 5) := []
  /-- REQUEST, 1 bit (16 R349). Reset 0. -/
  req : Bool := false
  /-- When it was assigned, for the reclaim of the most recent (16 R354). Reset 0. -/
  stamp : Nat := 0
deriving DecidableEq, Repr

/-- The event concentrator. -/
structure Evc where
  /-- The sources that differ from R355, by number (16 R345). -/
  src : Tab Source := []
  /-- The targets that differ from R355, by number (16 R348). -/
  tgt : Tab Target := []
  /-- EVC_TSEL, 8 bits (16 R356). Reset 0. -/
  tsel : Byte := 0
  /-- EVC_SRC_SEL per function, 13 bits (16 R356). Reset 0. -/
  srcSel : Tab (BitVec 13) := []
  /-- EVC_MERGE_COUNT per partition, 32 bits (16 R346, R356). Reset 0. -/
  merge : Tab (BitVec 32) := []
  /-- Assignments made so far (16 R354: the most recently assigned go first). Reset 0. -/
  stamp : Nat := 0
deriving DecidableEq, Repr

/-! ## 14_host_link_endpoint.md -/

/-- One of the eight HLK ranges (R306). -/
structure HlkRange where
  /-- HLK_RANGE_BASE, 64 bits: first frame, GROUP, EN (14 R326). Reset 0. -/
  base : Word := 0
  /-- HLK_RANGE_LIMIT, 64 bits (14 R326). Reset 0. -/
  limit : Word := 0
deriving DecidableEq, Repr

/-- A host link (R306, R340). -/
structure Link where
  /-- HLK_LINK_STATUS.UP, hln_up, 1 bit (14 R326). Reset 0 (log entry 12). -/
  up : Bool := false
  /-- FLIT256, 1 bit (14 R326). Reset 0. -/
  flit256 : Bool := false
  /-- Cache_Enable of PF0's CXL Device DVSEC on the link, 1 bit (14 R306). Reset 0 (log entry 40). -/
  cacheEn : Bool := false
  /-- Cache Invalid of the CXL Device DVSEC, 1 bit (14 R310). Reset 0 (log entry 13). -/
  cacheInvalid : Bool := false
  /-- SPEED, 4 bits (14 R326). Reset 0. -/
  speed : BitVec 4 := 0
  /-- WIDTH, 5 bits (14 R326). Reset 0. -/
  width : BitVec 5 := 0
deriving DecidableEq, Repr

/-- The Advanced Error Reporting registers of one function's instance (R308, R313, R325; their layout is the standard's, log entry 126). -/
structure Aer where
  /-- Uncorrectable Error Status, 32 bits (14 R325). Reset 0 (log entry 137). -/
  unc : BitVec 32 := 0
  /-- Uncorrectable Error Mask, 32 bits (14 R325). Reset 0 (log entry 137). -/
  uncMask : BitVec 32 := 0
  /-- Uncorrectable Error Severity, 32 bits: the fatal errors of the table (14 R325). Reset 0x0046_2010. -/
  uncSev : BitVec 32 := 0x00462010
  /-- Correctable Error Status, 32 bits (14 R325). Reset 0 (log entry 137). -/
  cor : BitVec 32 := 0
  /-- Correctable Error Mask, 32 bits: Corrected Internal Error is masked at reset (14 R325). Reset 0x0000_4000. -/
  corMask : BitVec 32 := 0x4000
  /-- First Error Pointer, 5 bits (14 R325). Reset 0 (log entry 137). -/
  first : BitVec 5 := 0
  /-- ECRC Generation Enable, 1 bit (14 R308). Reset 0 (log entry 137). -/
  ecrcGen : Bool := false
  /-- ECRC Check Enable, 1 bit (14 R308). Reset 0 (log entry 137). -/
  ecrcChk : Bool := false
  /-- Header Log, 128 bits (14 R325). Reset 0 (log entry 137). -/
  header : BitVec 128 := 0
deriving DecidableEq, Repr

/-- The configuration state of one function's instance on one link that the hub acts on (R311, R327). -/
structure Inst where
  /-- Enabled on the link, 1 bit: VF Enable for a VF (14 R311, R327). Reset 0. -/
  en : Bool := false
  /-- Bus Master Enable, 1 bit (14 R321). Reset 0. -/
  bme : Bool := false
  /-- Memory Space Enable, 1 bit (14 R327). Reset 0. -/
  mse : Bool := false
  /-- D-state, 2 bits: 0 D0, 3 D3hot (14 R327). Reset 0. -/
  dstate : BitVec 2 := 0
  /-- MPS, 3 bits (14 R327). Reset 0. -/
  mps : BitVec 3 := 0
  /-- Completion Timeout Value, 4 bits (14 R320). Reset 0. -/
  cto : BitVec 4 := 0
  /-- Relaxed Ordering enabled, 1 bit (14 R327). Reset 0. -/
  ro : Bool := false
  /-- 14-bit tags enabled, 1 bit (14 R327). Reset 0. -/
  tag14 : Bool := false
  /-- LTR Mechanism Enable, 1 bit (19 R396). Reset 0 (log entry 40). -/
  ltrEn : Bool := false
  /-- PME_En, 1 bit (19 R399). Reset 0 (log entry 40). -/
  pmeEn : Bool := false
  /-- PME_Status, 1 bit (19 R399). Reset 0 (log entry 40). -/
  pmeStatus : Bool := false
  /-- ID-Based Ordering enabled for requests, 1 bit (14 R308). Reset 0 (log entry 137). -/
  ido : Bool := false
  /-- MSI-X Enable, 1 bit (14 R308, 16 R350). Reset 0 (log entry 137). -/
  msixEn : Bool := false
  /-- MSI-X Function Mask, 1 bit (14 R308, 16 R350). Reset 0 (log entry 137). -/
  msixMask : Bool := false
  /-- Writable registers of configuration space that the hub holds and does not act on, by offset: BARs among them (14 R312, R313, R318).
  Reset `confRawDflt` (log entry 137). -/
  raw : Tab (BitVec 32) := []
deriving DecidableEq, Repr

/-- What a CXL.io zero-length read is for (R320). -/
inductive NpHolder where
  /-- A FENCE of a channel: its command number (R77). -/
  | fence (slot cmd : Nat)
  /-- The read-back of a segment's posted writes (R73): mover and urgent context. -/
  | readback (mover : Nat) (urgent : Bool)
  /-- Posted writes of stopped work, for an invalidation that waits for them (05 R113). -/
  | stray
  /-- The holder was of an engine that has failed: the completion is discarded (R298). -/
  | gone
deriving DecidableEq, Repr

/-- A CXL.io non-posted request outstanding (R308, R320). -/
structure NpReq where
  /-- The carrying link. -/
  link : Nat
  /-- Its tag on the link. -/
  tag : Nat
  /-- The function. -/
  fn : Nat
  /-- Its holder. -/
  holder : NpHolder
  /-- The holder has failed with 0x42 and the completion is to be discarded (R321). -/
  late : Bool := false
deriving DecidableEq, Repr

/-- One MSI-X table entry (R319: the MSI-X standard). -/
structure MsixEntry where
  /-- Message address, 64 bits (14 R319). Reset 0. -/
  addr : Word := 0
  /-- Message data, 32 bits (14 R319). Reset 0. -/
  data : BitVec 32 := 0
  /-- Vector control mask bit (14 R319). Reset 1 (log entry 14). -/
  mask : Bool := true
  /-- The PBA bit (14 R319). Reset 0. -/
  pending : Bool := false
deriving DecidableEq, Repr

/-- A write of HLK_GROUP_MAP, HLK_RANGE_BASE or HLK_RANGE_LIMIT held while the home drains (R307). -/
structure Remap where
  /-- The register. -/
  reg : RemapReg
  /-- The range HLK_RSEL named. -/
  sel : Nat
  /-- The value. -/
  v : Word
deriving DecidableEq, Repr

/-- The host link block. -/
structure Hlk where
  /-- HLK_GROUP_MAP, 64 bits (14 R326). Reset 0x0000_0000_8080_8080. -/
  groupMap : Word := 0x80808080
  /-- HLK_RSEL, 3 bits (14 R326). Reset 0. -/
  rsel : BitVec 3 := 0
  /-- The eight ranges (14 R306). Reset 0. -/
  ranges : Tab HlkRange := []
  /-- The held remap write; HLK_STATUS.REMAP_BUSY is set while one is held (14 R307). Reset none. -/
  remap : Option Remap := none
  /-- A Cache Writeback and Invalidate in progress (14 R310). Reset 0. -/
  cacheDrain : Bool := false
  /-- HLK_LINK_SEL, 2 bits (14 R326). Reset 0. -/
  linkSel : BitVec 2 := 0
  /-- The four links (14 R305). Reset per `Link`. -/
  links : Tab Link := []
  /-- The instances by link * 64 + function (14 R305). Reset per `Inst`. -/
  inst : Tab Inst := []
  /-- The functions whose FLR runs (14 R311, R322). Reset empty. -/
  flr : List Nat := []
  /-- The enables held until an FLR ends: link and function (14 R311). Reset empty. -/
  heldEnable : List (Nat × Nat) := []
  /-- The CXL.io non-posted requests outstanding (14 R308; HLK_NP_OUTSTANDING counts them). Reset empty. -/
  np : List NpReq := []
  /-- The next CXL.io tag per link (14 R308). Reset 0. -/
  nextTag : Tab Nat := []
  /-- HLK_LATE_CPL_COUNT, 32 bits (14 R326). Reset 0. -/
  lateCpl : BitVec 32 := 0
  /-- HLK_CPL_TIMEOUT_COUNT, 32 bits (14 R326). Reset 0. -/
  cplTimeout : BitVec 32 := 0
  /-- HLK_UNEXP_CPL_COUNT, 32 bits (14 R326). Reset 0. -/
  unexpCpl : BitVec 32 := 0
  /-- EPF_FUNC_SEL, link in [9:8] and function in [5:0] (14 R327). Reset 0. -/
  funcSel : BitVec 10 := 0
  /-- The AER registers of the instances by link * 64 + function (14 R325). Reset per `Aer`. -/
  aer : Tab Aer := []
  /-- TLP headers logged, for the free value of the next (the model's; log entry 137). Reset 0. -/
  headers : Nat := 0
  /-- The MSI-X tables by function * 32 + vector (14 R319). Reset per `MsixEntry`. -/
  msix : Tab MsixEntry := []
deriving DecidableEq, Repr

/-! ## 15_block_ports.md: NoC credits and outstanding requests -/

/-- The credits of one class and slot of a port (R333). -/
structure Credit where
  /-- Credits held (15 R333). Reset 0. -/
  held : Nat := 0
  /-- Credits of the receiver's allotment returned so far (15 R333). Reset 0. -/
  got : Nat := 0
  /-- Credits spent and not yet returned (15 R333). Reset 0. -/
  spent : Nat := 0
deriving DecidableEq, Repr

/-- What a read of a context fetches. -/
inductive RdKind where
  | src | src2 | scale | scale2 | crc
deriving DecidableEq, Repr

/-- What a request the hub sent on a data port is for, so that its response finds its holder (R335). -/
inductive NocFor where
  /-- A read of a mover context: its kind and index. -/
  | read (mover : Nat) (urgent : Bool) (kind : RdKind) (idx : Nat)
  /-- A write or a reduce-write of a mover context, with the epoch of its translation. -/
  | write (mover : Nat) (urgent : Bool) (epoch : BitVec 32)
  /-- The read-back of a segment. -/
  | readback (mover : Nat) (urgent : Bool)
  /-- An ATOMIC sent to the memory-side adders. -/
  | atomic (mover : Nat) (urgent : Bool) (epoch : BitVec 32)
  /-- A write of block `k` of packet `psn` from chip `src`, with the epoch of its translation. -/
  | block (src psn k : Nat) (epoch : BitVec 32)
  /-- The read-back of the last granule of packet `psn` from chip `src`. -/
  | blockBack (src psn : Nat)
  /-- A write through the bootstrap window (19 R405). -/
  | boot (link : Nat)
  /-- The read of granule `idx` of a placed frame by its recall (05 R121 step 4). -/
  | skinkRead (frame idx : Nat)
  /-- The write of granule `idx` of a placement's copy (05 R119 step 7). -/
  | skinkWrite (ticket idx : Nat)
deriving DecidableEq, Repr

/-- A request of the hub on a data port with no response yet (R335). -/
structure NocReq where
  /-- The port. -/
  port : Nat
  /-- AGENT of the request. -/
  agent : Nat
  /-- TAG of the request. -/
  tag : Nat
  /-- Its device address. -/
  addr : Word := 0
  /-- Its holder. -/
  for_ : NocFor
deriving DecidableEq, Repr

/-- The NoC ports. -/
structure Noc where
  /-- Credits the hub holds by (port * 3 + class) * 2 + slot (15 R333). Reset 0. -/
  credit : Tab Credit := []
  /-- Messages issued and waiting for a credit, oldest first (15 R333). Reset empty. -/
  wait : List Out := []
  /-- Requests without a response (15 R335). Reset empty. -/
  reqs : List NocReq := []
  /-- The next TAG (15 R335). Reset 0. -/
  nextTag : Nat := 0
  /-- GLB_TIME of the last message received (15 R333: the credits it spent come back for the next hub cycle). Reset 0. -/
  inAt : Word := 0
  /-- The hub's own credits that messages received in that hub cycle have spent, by port * 3 + class (15 R333). Reset 0. -/
  inUse : Tab Nat := []
deriving DecidableEq, Repr

/-! ## 02_channels_and_doorbells.md and 03_command_set.md: channels and their commands -/

/-- The states of a channel (R39). -/
inductive ChState where
  | free | creating | active | parked | halted | error | killed | retiring
deriving DecidableEq, Repr

/-- How far a command has come (R74). -/
inductive CmdSt where
  /-- Accepted, not dispatched. -/
  | waiting
  /-- Dispatched, not complete. -/
  | dispatched
  /-- Failed, or ended by STOP, RESET, kill or destroy: its contexts drain (R144). -/
  | ended
deriving DecidableEq, Repr

/-- The four words of a window table entry (R260, R263). -/
structure WinEntry where
  /-- Word 0, 64 bits (12 R260, R263). Reset 0. -/
  w0 : Word := 0
  /-- Word 1, 64 bits (12 R260, R263). Reset 0. -/
  w1 : Word := 0
  /-- Word 2, 64 bits (12 R260, R263). Reset 0. -/
  w2 : Word := 0
  /-- Word 3, 64 bits (12 R260, R263). Reset 0. -/
  w3 : Word := 0
  /-- PWN_IWIN_STATUS[31:0]: blocks applied, wrapping (12 R282). Reset 0. -/
  applied : BitVec 32 := 0
  /-- Blocks admitted and not yet applied or refused; BUSY shows them after EN 0 (12 R266). Reset 0. -/
  admitted : Nat := 0
  /-- PWN_IWIN_STATUS.BUSY (12 R266). Reset 0. -/
  busy : Bool := false
deriving DecidableEq, Repr

/-- Where the writes of a data-moving command go, as its dispatch settled it (R262). -/
inductive Dest where
  | local_
  | peer (window : Nat)
deriving DecidableEq, Repr

/-- A command of a channel, or the descriptor of a plan entry in execution, from acceptance to completion (03 R53, R73, R74). -/
structure Cmd where
  /-- Its number in the channel's command order of acceptance. -/
  num : Nat
  /-- OPCODE. -/
  op : Nat
  /-- SEQ of its first slot. -/
  seq : BitVec 16 := 0
  /-- It came through DB_INLINE. -/
  inl : Bool := false
  /-- Ring command: the consumed-slot count of its first slot. Inline command: the count after which it stands (R50). -/
  pos : BitVec 32 := 0
  /-- Its slots, first slot first. -/
  slots : List Granule
  /-- Its state. -/
  st : CmdSt := .waiting
  /-- CLASS in force when it was dispatched (R36, R76). -/
  urgent : Bool := false
  /-- PRIORITY in force when it was dispatched (R36). -/
  prio : BitVec 3 := 0
  /-- Where its writes go. -/
  dest : Dest := .local_
  /-- The outbound window entry its dispatch found, which it keeps (12 R261). -/
  win : WinEntry := {}
  /-- Times the flow to that entry's chip had failed at its dispatch (12 R275). -/
  flowNo : Nat := 0
  /-- Segments in all (R21). -/
  segs : Nat := 1
  /-- The next segment not yet given to a mover. -/
  next : Nat := 0
  /-- Segments to run again: a retired mover's, or a failed engine's (R27, R298). -/
  redo : List Nat := []
  /-- Segments whose writes are all globally observed (R73). -/
  seen : List Nat := []
  /-- Segments complete: the checkpoints the mirror holds (R140). -/
  done : List Nat := []
  /-- CRC-32C state and byte count of each segment converted so far (R61, R164). -/
  crcs : List (Nat × Nat × BitVec 32) := []
  /-- The CRC word has been written and observed, or read and compared (R73). -/
  crcDone : Bool := false
  /-- TIMESTAMP: GLB_TIME and the Drone value at its dispatch (R65). -/
  stamp : Word × Word := (0, 0)
  /-- FENCE: its zero-length reads have been issued (R77). -/
  fenceSent : Bool := false
  /-- FENCE: zero-length reads without a completion. -/
  fenceOut : Nat := 0
  /-- Plan descriptors: the addresses recorded at load are used (R229). -/
  resolved : Bool := false
  /-- Plan descriptors: SRC_PA as it was issued with (R229). -/
  srcPa : Word := 0
  /-- Plan descriptors: DST_PA as it was issued with (R229). -/
  dstPa : Word := 0
  /-- Plan descriptors: EPOCH as it was issued with (R229). -/
  paEpoch : BitVec 32 := 0
deriving DecidableEq, Repr

/-- Where a translation failed (04_translation.md R99, R101). -/
structure XFault where
  /-- The status code. -/
  code : Code
  /-- LEVEL of the entry last judged, 7 when none was. -/
  level : Nat := 7
  /-- That entry. -/
  entry : Word := 0
  /-- Its host address. -/
  entryAddr : Word := 0
  /-- DETAIL. -/
  detail : Word := 0
  /-- ACCESS 3: a table-entry read. -/
  tableRead : Bool := false
  /-- The engine whose walker ran the walk. -/
  engine : Nat := 0
deriving DecidableEq, Repr

/-- A command rejected at fetch or acceptance whose channel has yet to halt: its code, SEQ and INLINE (R44, R49, R55). -/
structure Reject where
  /-- The code. -/
  code : Code
  /-- SEQ for DB_FAULT. -/
  seq : BitVec 16
  /-- INLINE for DB_FAULT. -/
  inl : Bool
deriving DecidableEq, Repr

/-- A ring slot in hand: its position, and its bytes or the code its read failed with (R44, R427). -/
structure HandSlot where
  /-- The consumed-slot count of the slot. -/
  pos : BitVec 32
  /-- Its bytes. -/
  data : Granule := 0
  /-- The failure code of its read, 0 when none (R427). -/
  fail : Code := 0
  /-- Where its translation failed, for a code that kills (R427). -/
  flt : Option XFault := none
deriving DecidableEq, Repr

/-- The operation a channel owes a management RESULT (R34, R37): the function, whether MGMT_DONE is to be raised, the HANDLE. -/
structure Owed where
  /-- The function. -/
  fn : Nat
  /-- EVENT of the descriptor. -/
  event : Bool
  /-- The descriptor's HANDLE, or the handle created. -/
  handle : BitVec 32
deriving DecidableEq, Repr

/-- A channel slot (R28). -/
structure Chan where
  /-- Generation, 8 bits (00 R6). Reset 0: none issued. -/
  gen : Byte := 0
  /-- State, DB_STATUS.STATE, 4 bits (02 R39). Reset FREE. -/
  st : ChState := .free
  /-- Partition, 6 bits (00 R4). Reset 0. -/
  part : Nat := 0
  /-- Owner engine (01 R18). Reset A. -/
  owner : Engine := .A
  /-- RING_BASE, 64 bits (02 R30). Reset 0. -/
  ringBase : Word := 0
  /-- RING_LOG2, 5 bits (02 R30). Reset 0. -/
  ringLog2 : Nat := 0
  /-- ASID, 20 bits (02 R30). Reset 0. -/
  asid : Nat := 0
  /-- CLASS: Urgent, 1 bit (02 R30). Reset 0. -/
  urgent : Bool := false
  /-- PRIORITY, 3 bits (02 R30). Reset 0. -/
  prio : BitVec 3 := 0
  /-- Consumed-slot count F, 32 bits (02 R44). Reset 0. -/
  f : BitVec 32 := 0
  /-- Accepted tail Ta, 17 bits (02 R47). Reset 0. -/
  ta : BitVec 17 := 0
  /-- CODE of the status word, 8 bits (02 R426). Reset 0. -/
  code : Code := 0
  /-- STOPPED, 1 bit (02 R426). Reset 0. -/
  stopped : Bool := false
  /-- DB_FAULT.SEQ, 16 bits (02 R426). Reset 0. -/
  faultSeq : BitVec 16 := 0
  /-- DB_FAULT.INLINE, 1 bit (02 R426). Reset 0. -/
  faultInline : Bool := false
  /-- A translation fault of this channel has been recorded or counted (04 R100). Reset 0. -/
  faulted : Bool := false
  /-- The context is in the context cache, 1 bit (02 R28). Reset 0. -/
  cached : Bool := false
  /-- Last use of the cached context, for its replacement (02 R28). Reset 0. -/
  used : Nat := 0
  /-- A fetch waits for the context to be loaded, 1 bit (02 R28). Reset 0. -/
  loadWait : Bool := false
  /-- Both copies of its stored context have failed (18 R382). Reset 0. -/
  ctxLost : Bool := false
  /-- The accepted commands not complete, in command order (03 R74). Reset empty. -/
  cmds : List Cmd := []
  /-- The next command number. Reset 0. -/
  nextNum : Nat := 0
  /-- Ring slots whose reads wait for a translation (02 R44). Reset empty. -/
  want : List (BitVec 32) := []
  /-- Ring slot reads issued and not returned (02 R44). Reset empty. -/
  reads : List (BitVec 32) := []
  /-- Ring slots in hand (02 R44). Reset empty. -/
  hand : List HandSlot := []
  /-- Re-reads made of the slot being settled (02 R44). Reset 0. -/
  rereads : Nat := 0
  /-- The stale slot whose re-read timer runs (02 R44). Reset none. -/
  stale : Option (BitVec 32) := none
  /-- A RESUME held until INFLIGHT reads 0 (06 R144). Reset 0. -/
  resumeHeld : Bool := false
  /-- The RESULT owed by a CREATE or DESTROY in progress (02 R34, R37). Reset none. -/
  owed : Option Owed := none
  /-- SHARE, 9 bits (06 R137, R149). Reset 0x100. -/
  share : Nat := 0x100
  /-- SHARE in force since the last slot boundary (06 R137). Reset 0x100. -/
  shareNow : Nat := 0x100
  /-- MODIFYs and CREATEs so far, for the order of reclaim (13 R292). Reset 0. -/
  born : Nat := 0
  /-- The channel is of a failed engine and not yet adopted (13 R298). Reset 0. -/
  orphan : Bool := false
  /-- Links that carried posted writes of its commands (03 R77). Reset empty. -/
  posted : List Nat := []
  /-- GLB_TIME of its last move to HALTED, ERROR, KILLED or RETIRING, for triggers of one hub cycle (02 R42). Reset none. -/
  moved : Option Word := none
  /-- CODE before that move, 8 bits (02 R42: RETIRING leaves the code of before the cycle). Reset 0. -/
  codeWas : Code := 0
  /-- GLB_TIME of the last doorbell accepted and the tail before it (02 R42: one that comes in the cycle of a transition is judged
  against the state after it). Reset none. -/
  rang : Option (Word × BitVec 17) := none
  /-- A rejected command waits for those accepted before it to be dispatched, which R74 does as soon as they are accepted (03 R74). Reset
  none. -/
  reject : Option Reject := none
  /-- GLB_TIME of the first inline write accepted in its hub cycle, and the number of its first command (02 R42: one that comes in the cycle
  of a transition is judged against the state after it). Reset none. -/
  inlFrom : Option (Word × Nat) := none
  /-- Fetches begun afresh so far: a ring read of an earlier one is discarded as it returns (02 R40). Reset 0. -/
  fetchNo : Nat := 0
deriving DecidableEq, Repr

/-- A function's management queue and DBL registers (R29, R51). -/
structure Mgmt where
  /-- The queue of descriptor addresses, at most 64 (02 R29). Reset empty. -/
  queue : List Word := []
  /-- The descriptor in hand whose RESULT is not yet observed: its EVENT flag (02 R29). Reset none. -/
  busy : Option Bool := none
  /-- The descriptor in hand still owes its RESULT write (02 R34, R37). Reset 0. -/
  owes : Bool := false
  /-- Virtual address of the descriptor in hand, 64 bits (02 R29). Reset 0. -/
  addr : Word := 0
  /-- What the descriptor in hand awaits: 0 its translation with the read right, 1 with the write right, 2 its read, 3 the translation
  for its RESULT, 4 the RESULT write (02 R29, 04 R87). Reset none. -/
  await : Option Nat := none
  /-- DBL_MGMT_ASID as the descriptor in hand was taken, 20 bits (02 R29). Reset 0. -/
  handAsid : Nat := 0
  /-- The RESULT word to be written, 64 bits (02 R30). Reset 0. -/
  word : Word := 0
  /-- The CLASS and PRIORITY that a MODIFY gives its channel once its RESULT is written, and the channel's slot and generation (02 R36).
  Reset none. -/
  modify : Option (Nat × Byte × Bool × BitVec 3) := none
  /-- DBL_MGMT_ASID, 20 bits (02 R51). Reset 0. -/
  asid : Nat := 0
  /-- DBL_RETIRE_LIMIT, 20 bits (02 R51). Reset 0x64. -/
  retireLimit : BitVec 20 := 0x64
deriving DecidableEq, Repr

/-- The channels and the functions' management queues. -/
structure Dbl where
  /-- The channel slots, by slot (02 R28). Reset per `Chan`. -/
  chan : Tab Chan := []
  /-- The functions' queues, by function (02 R29). Reset per `Mgmt`. -/
  mgmt : Tab Mgmt := []
  /-- Clock of context-cache uses (02 R28). Reset 0. -/
  clock : Nat := 0
  /-- CREATEs so far (13 R292). Reset 0. -/
  born : Nat := 0
deriving DecidableEq, Repr

/-! ## 04_translation.md -/

/-- A profile (R82, R83). -/
structure Profile where
  /-- XLT_PROF_FMT, 64 bits (04 R82). Reset per R82. -/
  fmt : Word := 0
  /-- XLT_PROF_BITS_A, 64 bits (04 R83). Reset per R83. -/
  bitsA : Word := 0
  /-- XLT_PROF_BITS_B, 64 bits (04 R83). Reset per R83. -/
  bitsB : Word := 0
  /-- XLT_PROF_RSV, 64 bits (04 R83). Reset per R83. -/
  rsv : Word := 0
deriving DecidableEq, Repr

/-- An address range of a partition (R88). -/
structure PRange where
  /-- XLT_PRANGE_BASE: first frame in [63:12], EN in [0], 64 bits (04 R88). Reset 0; both ranges 0 of partition 0 enabled. -/
  base : Word := 0
  /-- XLT_PRANGE_LIMIT: last frame in [63:12], 64 bits (04 R88). Reset 0; all ones in both ranges 0 of partition 0. -/
  limit : Word := 0
deriving DecidableEq, Repr

/-- A binding of the ASID table (R80, R109). -/
structure Binding where
  /-- ASID, 20 bits (04 R80). -/
  asid : Nat
  /-- Partition, 6 bits (04 R80). -/
  part : Nat
  /-- Root table's host physical address, 64 bits (04 R80). -/
  root : Word
  /-- Profile, 3 bits (04 R80). -/
  prof : Nat
  /-- SUPERVISOR, 1 bit (04 R80). -/
  sup : Bool
  /-- EPOCH, 32 bits (05 R109): 1 at BIND. -/
  epoch : BitVec 32
  /-- An UNBIND has been accepted and its withdrawal goes on (04 R81). -/
  closing : Bool := false
deriving DecidableEq, Repr

/-- The kinds of requester of a translation (R97, R98, R109). -/
inductive Who where
  /-- A ring slot read. -/
  | ring (slot : Nat) (pos : BitVec 32)
  /-- A mover context. -/
  | mover (m : Nat) (urgent : Bool)
  /-- A core client and its tag. -/
  | client (c tag : Nat)
  /-- Resolution of a plan entry's descriptor: SRC or DST, and its number at the entry (R228). -/
  | resolve (entry : Nat) (dst : Bool) (no : Nat)
  /-- A block of an inbound packet. -/
  | inbound (src psn k : Nat)
  /-- The management descriptor a function has in hand: 0 its read, 1 the write right it needs beside, 2 its RESULT (02 R29). -/
  | mgmt (fn step : Nat)
  /-- Skink's search for the leaf entries of a region being evaluated (05 R115; log entry 107). -/
  | skink (ticket : Nat)
deriving DecidableEq, Repr

/-- A translation request in flight (R89 to R96). -/
structure XReq where
  /-- Its requester. -/
  who : Who
  /-- The partition that must have bound the ASID. -/
  part : Nat
  /-- ASID. -/
  asid : Nat
  /-- Access: 0 read, 1 write, 2 atomic (R87). -/
  access : BitVec 2
  /-- Virtual address of the first byte. -/
  va : Word
  /-- GLB_TIME of its first stall on a locked entry (R96). -/
  since : Option Word := none
  /-- Its walk is to start from the root: a retired walker had it, or an invalidation has passed it (01 R27, 05 R110). -/
  root : Bool := false
  /-- The walker whose state was lost, which its walk is not to take again (18 R370). -/
  avoid : Option Nat := none
deriving DecidableEq, Repr

/-- A successful translation of one page, as a cache holds it (R89, R90). -/
structure Page where
  /-- ASID. -/
  asid : Nat
  /-- Virtual base of the page. -/
  va : Word
  /-- Log2 of the page's bytes: 12, 16 or 21; 30 and 39 in the walk cache. -/
  size : Nat
  /-- Log2 of the bytes of the page a 2 MiB fragment was taken from; 0 for a page that is no fragment (R91). -/
  whole : Nat := 0
  /-- The result is a device address. -/
  device : Bool
  /-- Result address of the page's base. -/
  addr : Word
  /-- READ right under the binding's privilege. -/
  r : Bool
  /-- WRITE right. -/
  w : Bool
  /-- ATOMIC right. -/
  at_ : Bool
  /-- DIRTY is set, or need not be (R86, R92). -/
  dirty : Bool
  /-- Host-valid and MIGRATABLE (R114). -/
  migratable : Bool
  /-- Epoch of the walk (R109). -/
  epoch : BitVec 32
deriving DecidableEq, Repr

/-- An entry of a mover's Eft (R89). -/
structure EftEntry where
  /-- The page; none when invalid (04 R89). Reset none. -/
  page : Option Page := none
  /-- Reference bit (04 R89). Reset 0. -/
  ref : Bool := false
  /-- Tally, 8 bits (05 R114). Reset 0. -/
  tally : Byte := 0
deriving DecidableEq, Repr

/-- A walk-cache entry (R91): a table address, or a leaf larger than 2 MiB. -/
structure WalkEntry where
  /-- ASID. -/
  asid : Nat
  /-- Level of the entry. -/
  level : Nat
  /-- VA bits from 12 + 9 * level upward. -/
  prefix_ : Nat
  /-- The next table's host address. -/
  table : Word
  /-- The leaf, for 1 GiB and 512 GiB pages. -/
  leaf : Option Page
  /-- Epoch of the walk. -/
  epoch : BitVec 32
  /-- Last use (LRU). -/
  used : Nat
deriving DecidableEq, Repr

/-- What a walker awaits (R94, R86). -/
inductive WalkAt where
  /-- The line of the entry at `level`. -/
  | line
  /-- A compare-and-swap that sets ACCESSED or DIRTY of the entry (R86). -/
  | update (entry : Word)
  /-- The walker retries a locked entry in place (R96: the lock-wait table is full). -/
  | locked
deriving DecidableEq, Repr

/-- A walker at work (R94). -/
structure Walk where
  /-- The request that began it. -/
  req : XReq
  /-- Its joiners, at most 32. -/
  joiners : List XReq := []
  /-- The partition charged with the walker. -/
  part : Nat
  /-- Level of the entry being read. -/
  level : Nat
  /-- Host address of the table being read. -/
  table : Word
  /-- Epoch when the walk began (R109). -/
  epoch : BitVec 32
  /-- What it awaits. -/
  at_ : WalkAt := .line
  /-- An invalidation has passed it: it restarts from the root (R110). -/
  discard : Bool := false
  /-- The partition's ranges when the walk began, host 0 to 7, then device 0 to 7 (R88). -/
  ranges : List PRange := []
  /-- The entry last judged: its level, its value, its address (R101). -/
  last : Option (Nat × Word × Word) := none
  /-- The line of the entry being updated (R95). -/
  line : Granule := 0
  /-- Number of its read or update at the home: an answer to another one is not its own. -/
  no : Nat := 0
deriving DecidableEq, Repr

/-- A request parked on a locked entry, with its joiners (R96). -/
structure LockWait where
  /-- The request. -/
  req : XReq
  /-- Its joiners. -/
  joiners : List XReq := []
  /-- Host address of the locked entry's line. -/
  line : Word
  /-- The entry as read. -/
  entry : Word
  /-- Host address of the entry. -/
  entryAddr : Word
  /-- Level of the entry. -/
  level : Nat
  /-- The engine whose walker read the entry (R101). -/
  engine : Engine := .A
deriving DecidableEq, Repr

/-- A record or notice waiting for, or in, its write (R102). -/
structure Record where
  /-- Its eight words with PHASE clear. -/
  words : List Word
  /-- CODE of a record, KIND of a notice: what R103 keeps of a dropped one. -/
  code : Code
  /-- TIME. -/
  time : Word
  /-- It is an OVERFLOW_SUMMARY or SUMMARY. -/
  summary : Bool := false
  /-- A PLACE_REQUEST's ticket: a drop abandons the placement (R118). -/
  ticket : Nat := 0
deriving DecidableEq, Repr

/-- A fault queue or a notice queue (R102, R118). -/
structure Queue where
  /-- BASE register: [63:12] and ENABLE in [0], 64 bits (04 R104, 05 R125). Reset 0. -/
  base : Word := 0
  /-- SIZE register, 5 bits (04 R104, 05 R125). Reset 8. -/
  size : BitVec 5 := 8
  /-- HEAD, 17 bits (04 R102). Reset 0. -/
  head : Nat := 0
  /-- TAIL, 17 bits (04 R102). Reset 0. -/
  tail : Nat := 0
  /-- OVERFLOW, 32 bits (04 R103). Reset 0. -/
  overflow : BitVec 32 := 0
  /-- Code of the first record dropped (04 R103). Reset 0. -/
  firstCode : Code := 0
  /-- Code of the last record dropped (04 R103). Reset 0. -/
  lastCode : Code := 0
  /-- TIME of the first record dropped (04 R103). Reset 0. -/
  firstTime : Word := 0
  /-- TIME of the last record dropped (04 R103). Reset 0. -/
  lastTime : Word := 0
  /-- The record in flight (04 R102). Reset none. -/
  flight : Option Record := none
  /-- The record in flight was issued before BASE or SIZE was written (04 R102). Reset 0. -/
  stale : Bool := false
  /-- Records waiting for the one in flight, oldest first (04 R102). Reset empty. -/
  waiting : List Record := []
  /-- A summary's write failed: it waits for the next record, HEAD write or enable (04 R103). Reset 0. -/
  sumHeld : Bool := false
deriving DecidableEq, Repr

/-- A function's bind registers (R81). -/
structure Bind where
  /-- XLT_BIND_ROOT, 64 bits (04 R81). Reset 0. -/
  root : Word := 0
  /-- BUSY of XLT_BIND_STATUS: an UNBIND's withdrawal goes on, 1 bit (04 R81). Reset 0. -/
  busy : Bool := false
  /-- ASID of the last operation, 20 bits (04 R81). Reset 0. -/
  asid : Nat := 0
  /-- RESULT, 3 bits (04 R81). Reset 0. -/
  result : BitVec 3 := 0
deriving DecidableEq, Repr

/-- A core client's configuration (R97, R104). -/
structure Client where
  /-- XLT_CLIENT_CFG.EN, 1 bit (04 R104). Reset 1. -/
  en : Bool := true
  /-- PARTITION, 6 bits (04 R104). Reset 0. -/
  part : Nat := 0
deriving DecidableEq, Repr

/-- What began an invalidation (R105, R119, R81, R292). -/
inductive InvFrom where
  /-- A descriptor of a function, at a host address. -/
  | desc (fn : Nat) (addr : Word) (event : Bool)
  /-- Step 5 of a migration. -/
  | migrate (ticket : Nat)
  /-- Step 3 of a recall. -/
  | recall (frame : Nat)
  /-- An UNBIND. -/
  | unbind (fn : Nat)
  /-- A partition that is reset or disabled (R286). -/
  | partition (p : Nat)
deriving DecidableEq, Repr

/-- A holder of accesses under an old epoch (R109). -/
inductive Holder where
  | mover (m : Nat) (urgent : Bool)
  | inbound (src psn : Nat)
  /-- Posted writes of stopped work on a link (R113; log entry 131). -/
  | stray (link : Nat)
  | skink (ticket : Nat)
  /-- The copy of a recall, by its frame. -/
  | recall (frame : Nat)
deriving DecidableEq, Repr

/-- An invalidation in progress (R105 to R112). -/
structure Inv where
  /-- Its number, INV_ID of its XLT_INV messages. -/
  id : Nat
  /-- What began it. -/
  from_ : InvFrom
  /-- Its descriptor has been read and judged; before that it awaits one. -/
  begun : Bool := false
  /-- The ASIDs named and the epochs e they had. -/
  asids : List (Nat × BitVec 32) := []
  /-- RANGE: the first page; otherwise 0. -/
  va : Word := 0
  /-- RANGE: pages; 0 for a whole ASID. -/
  pages : Nat := 0
  /-- RANGE: TABLES. -/
  tables : Bool := false
  /-- The partition whose translations it withdraws. -/
  part : Nat := 0
  /-- The holders it waits for. -/
  holders : List Holder := []
  /-- The clients that have not acknowledged. -/
  clients : List Nat := []
  /-- The drain limit has expired. -/
  expired : Bool := false
  /-- It ended a holder or disabled a client. -/
  ended : Bool := false
  /-- Channels and plan entries ended by it. -/
  killed : Nat := 0
  /-- Clients disabled by it. -/
  disabled : Nat := 0
deriving DecidableEq, Repr

/-- Translation and invalidation. -/
structure Xlt where
  /-- The profiles, by number (04 R82). Reset per R82 and R83. -/
  prof : Tab Profile := []
  /-- XLT_WALK_CTL, 64 bits (04 R104). Reset 0x0000_2004_0000_2710. -/
  walkCtl : Word := 0x0000200400002710
  /-- XLT_PSEL, 64 bits of which [18:16], [8], [5:0] (04 R104). Reset 0. -/
  psel : Word := 0
  /-- The ranges, by partition * 16 + kind * 8 + index (04 R88). Reset per `PRange`. -/
  range : Tab PRange := []
  /-- XLT_PART_CFG.ASID_MAX, 13 bits, by partition (04 R104). Reset 0x1000 for partition 0, else 0. -/
  asidMax : Tab Nat := []
  /-- XLT_CLIENT_SEL, 10 bits (04 R104). Reset 0. -/
  clientSel : BitVec 10 := 0
  /-- The core clients, by number (04 R97). Reset EN 1, PARTITION 0. -/
  client : Tab Client := []
  /-- The table of bound ASIDs (04 R80). Reset empty. -/
  binds : List Binding := []
  /-- The functions' bind registers (04 R81). Reset per `Bind`. -/
  bind : Tab Bind := []
  /-- The partitions' fault queues (04 R102). Reset per `Queue`. -/
  fq : Tab Queue := []
  /-- XLT_FAULT_SUPPRESSED, 32 bits, by partition (04 R104). Reset 0. -/
  suppressed : Tab (BitVec 32) := []
  /-- The Efts, by mover * 128 + entry (04 R89). Reset invalid. -/
  eft : Tab EftEntry := []
  /-- The L2T, by (bank * 4096 + set) * 16 + way (04 R90). Reset invalid. -/
  l2t : Tab (Option Page) := []
  /-- The L2T's replacement bits, 15 a set, by bank * 4096 + set (04 R90). Reset 0. -/
  plru : Tab (BitVec 15) := []
  /-- The walk cache (04 R91). Reset empty. -/
  walkc : List WalkEntry := []
  /-- Clock of the walk cache's LRU (04 R91). Reset 0. -/
  walkClock : Nat := 0
  /-- Lookups waiting for an L2T bank, oldest first (04 R90). Reset empty. -/
  lookups : List XReq := []
  /-- The miss queue of Engine A, at most 512 (04 R94). Reset empty. -/
  missA : List XReq := []
  /-- The miss queue of Engine B (04 R94). Reset empty. -/
  missB : List XReq := []
  /-- The walkers, by number: 0 to 31 of Engine A, 32 to 63 of Engine B (04 R94). Reset idle. -/
  walk : Tab (Option Walk) := []
  /-- Reads and updates the walkers have made so far, the number of each (04 R93). Reset 0. -/
  walkNo : Nat := 0
  /-- The lock-wait table, at most 1,024, oldest first (04 R96). Reset empty. -/
  locks : List LockWait := []
  /-- Results for inbound transfers on their way: the request, its code, its page (04 R98). Reset empty. -/
  inbound : List (XReq × Code × Option Page) := []
  /-- XLT_INV_DRAIN_LIMIT, 24 bits (05 R126). Reset 0xC8. -/
  drainLimit : BitVec 24 := 0xC8
  /-- Descriptors submitted and not begun, hub-wide order: function and address (05 R105). Reset empty. -/
  invQueue : List (Nat × Word) := []
  /-- Invalidations in progress, at most 64 by descriptor (05 R105). Reset empty. -/
  invs : List Inv := []
  /-- The next invalidation number (05 R111, INV_ID). Reset 0. -/
  nextInv : Nat := 0
deriving DecidableEq, Repr

/-! ## 05_invalidation_and_placement.md: Skink -/

/-- A partition's Skink registers (R125). -/
structure SkkPart where
  /-- ENABLE, 1 bit (05 R125). Reset 0. -/
  en : Bool := false
  /-- THRESH, 16 bits (05 R125). Reset 0x0400. -/
  thresh : BitVec 16 := 0x400
  /-- PEND_MAX, 8 bits (05 R125). Reset 0x10. -/
  pendMax : Byte := 0x10
  /-- SKK_POOL_BASE: first frame in [63:16], EN in [0], 64 bits (05 R125). Reset 0. -/
  poolBase : Word := 0
  /-- SKK_POOL_LIMIT: last frame in [63:16], 64 bits (05 R125). Reset 0. -/
  poolLimit : Word := 0
  /-- The pool's EN is set but the pool lies outside the device ranges: it is disabled, 1 bit (05 R116). Reset 0. -/
  poolBad : Bool := false
  /-- SKK_HINT_DROPPED, 32 bits (05 R125). Reset 0. -/
  hintDropped : BitVec 32 := 0
  /-- SKK_SKIPPED, 32 bits (05 R125). Reset 0. -/
  skipped : BitVec 32 := 0
deriving DecidableEq, Repr

/-- The step a pending placement has reached (R119). -/
inductive PlaceSt where
  /-- The 16 entries are being read. -/
  | reading
  /-- Step 1 to 4: PLACE_REQUEST posted, waiting for ACCEPT or DECLINE. -/
  | asked
  /-- Step 5. -/
  | draining
  /-- Step 6. -/
  | rereading
  /-- Step 7. -/
  | copying
  /-- Step 8. -/
  | swapping
  /-- A step has failed: entries are written back (R123). -/
  | undoing
deriving DecidableEq, Repr

/-- An entry of the pending table (R115, R119). -/
structure Pending where
  /-- Ticket, 16 bits. -/
  ticket : Nat
  /-- Partition. -/
  part : Nat
  /-- ASID. -/
  asid : Nat
  /-- Region base. -/
  va : Word
  /-- Device frame, address bits [47:16]. -/
  frame : Nat
  /-- Host address of the region's first leaf entry. -/
  entryAddr : Word := 0
  /-- The 16 saved values. -/
  saved : List Word := []
  /-- Its step. -/
  st : PlaceSt := .reading
  /-- The profile its entries are read with. -/
  prof : Nat := 0
  /-- It was evaluated for a hint (03 R70). -/
  hinted : Bool := false
  /-- The lines of its entries that have been read: the half, the code, the line (R115, R119 step 6). -/
  lines : List (Nat × Code × Granule) := []
  /-- The host pages being copied, whose lines the home gives up (R119 step 7). -/
  pages : List Word := []
  /-- Granules of the region copied so far (R119 step 7). -/
  at_ : Nat := 0
  /-- Epoch of the copy's outstanding access (R109). -/
  out : Option (BitVec 32) := none
  /-- Compare-and-swaps still to be made, the first one outstanding: entry, value expected, new value (R119 step 8, R123). -/
  cas : List (Nat × Word × Word) := []
  /-- The failure: REASON, CODE, the entries found changed (R123). -/
  fail : Option (Nat × Code × BitVec 16) := none
deriving DecidableEq, Repr

/-- The step a recall of a placed region has reached (R121). -/
inductive RecallSt where
  | none
  /-- Step 2. -/
  | locking
  /-- Step 3. -/
  | draining
  /-- Step 4. -/
  | copying
  /-- Step 5. -/
  | restoring
  /-- A recall failed: the entries stay locked, the region placed (R123). -/
  | failed
deriving DecidableEq, Repr

/-- A placed region (R119 step 10). -/
structure Placed where
  /-- Device frame, address bits [47:16]. -/
  frame : Nat
  /-- Partition. -/
  part : Nat
  /-- ASID. -/
  asid : Nat
  /-- Region base. -/
  va : Word
  /-- Host address of the region's first leaf entry. -/
  entryAddr : Word
  /-- The 16 saved values. -/
  saved : List Word
  /-- It was written while placed (R121). -/
  written : Bool := false
  /-- Its recall. -/
  rcl : RecallSt := .none
  /-- Entries whose compare failed in the recall (R121). -/
  changed : BitVec 16 := 0
  /-- The profile its entries are read with. -/
  prof : Nat := 0
  /-- The locked values the recall has left in the entries (R121). -/
  vals : List Word := []
  /-- Granules of the frame copied back so far (R121 step 4). -/
  at_ : Nat := 0
  /-- Epoch of the copy's outstanding access (R109). -/
  out : Option (BitVec 32) := none
  /-- Compare-and-swaps still to be made, the first one outstanding: entry, value expected, new value (R121 steps 2 and 5). -/
  cas : List (Nat × Word × Word) := []
  /-- The failure of the recall: REASON, CODE (R123). -/
  fail : Option (Nat × Code) := none
  /-- RELEASEs that wait for its entries to be read (R122). -/
  rel : Nat := 0
  /-- The lines of its entries that the RELEASE has read: the half, the code, the line (R122). -/
  lines : List (Nat × Code × Granule) := []
deriving DecidableEq, Repr

/-- A region of the hint queue (R124). -/
structure Hint where
  /-- HINT: 0 PLACE, 1 RECALL, 2 COOL. -/
  kind : BitVec 2
  /-- Partition. -/
  part : Nat
  /-- ASID. -/
  asid : Nat
  /-- Region base. -/
  va : Word
deriving DecidableEq, Repr

/-- A region that a COOL hint names, while its entries are looked for (03_command_set.md R70; log entry 116). -/
structure Look where
  /-- Its number, above every ticket. -/
  id : Nat
  /-- Partition. -/
  part : Nat
  /-- ASID. -/
  asid : Nat
  /-- Region base. -/
  va : Word
  /-- The lines of its entries that have been read: the half, the code, the line. -/
  lines : List (Nat × Code × Granule) := []
deriving DecidableEq, Repr

/-- Skink. -/
structure Skk where
  /-- SKK_PSEL, 6 bits (05 R125). Reset 0. -/
  psel : BitVec 6 := 0
  /-- The partitions' registers, by partition (05 R125). Reset per `SkkPart`. -/
  part : Tab SkkPart := []
  /-- SKK_DECAY, 20 bits (05 R125). Reset 0x3E8. -/
  decay : BitVec 20 := 0x3E8
  /-- SKK_ACK_LIMIT, 24 bits (05 R125). Reset 0x3E8. -/
  ackLimit : BitVec 24 := 0x3E8
  /-- SKK_THERMAL, mc_thermal: stacks under notice, 8 bits (05 R116). Reset 0. -/
  thermal : BitVec 8 := 0
  /-- The counters, 16 bits, by index (05 R114). Reset 0. -/
  count : Tab (BitVec 16) := []
  /-- The pending table, at most 256 (05 R115). Reset empty. -/
  pending : List Pending := []
  /-- The placed regions (05 R119). Reset empty. -/
  placed : List Placed := []
  /-- The notice queues, by partition (05 R118). Reset per `Queue`. -/
  nq : Tab Queue := []
  /-- The last ticket issued, 16 bits (05 R118). Reset 0. -/
  ticket : BitVec 16 := 0
  /-- The hint queue, oldest first, at most 1,024 (05 R124). Reset empty. -/
  hints : List Hint := []
  /-- The regions of COOL hints whose entries are being read (03 R70). Reset empty. -/
  looks : List Look := []
  /-- Regions looked at so far for COOL hints (03 R70). Reset 0. -/
  lookNo : Nat := 0
  /-- Frames whose saved state the hub store has lost: partition and frame; withdrawn until the partition is disabled (18 R382). Reset
  empty. -/
  lostFrames : List (Nat × Nat) := []
  /-- The device-memory channels mapped out: stack and channel (05 R117). Reset empty. -/
  mapped : List (Nat × Nat) := []
  /-- mc_mapout_req with its stack and channel (15 R343). Reset none. -/
  mapReq : Option (Nat × Nat) := none
  /-- mc_mapout_ack, 1 bit (15 R343). Reset 0. -/
  mapAck : Bool := false
  /-- Channels removed before their acknowledgment: stack and channel (15 R343). Reset empty. -/
  mapEarly : List (Nat × Nat) := []
deriving DecidableEq, Repr

/-! ## 06_movers.md -/

/-- What a mover context works on. -/
inductive Work where
  /-- A command of a channel, by number. -/
  | chan (slot num : Nat)
  /-- The descriptor of a plan entry, by index. -/
  | plan (entry : Nat)
deriving DecidableEq, Repr

/-- The state of a mover context, as MOV_CTX_STATUS shows it (R149). -/
inductive JobSt where
  | idle | running | preempted | held | completing | draining
deriving DecidableEq, Repr

/-- A read a context has issued, in issue order, until its data is used (R128). -/
structure Rd where
  /-- What it fetches. -/
  kind : RdKind
  /-- Granule number within the segment's range of that kind. -/
  idx : Nat
  /-- Epoch of the translation it was made through (05 R109); none for staging. -/
  epoch : Option (BitVec 32) := none
  /-- It reads host memory. -/
  host : Bool := false
  /-- Its data, once returned. -/
  data : Option Granule := none
  /-- It has been stopped: its data is discarded as it returns (R143). -/
  drop : Bool := false
  /-- It has gone out: before that it waits for its turn on its path (R133). -/
  sent : Bool := true
  /-- Its path, while it waits for its turn (R136). -/
  path : Nat := 0
  /-- Its address, while it waits for its turn. -/
  addr : Word := 0
deriving DecidableEq, Repr

/-- A write, or an atomic, that a context has formed and that waits for its turn on its path (R133). -/
structure Wr where
  /-- Its path (R136). -/
  path : Nat
  /-- The burst its source bytes belong to (R133). -/
  burst : Nat := 0
  /-- Where its first byte lies: in device memory or not, the address, the epoch of the translation; none for a peer. -/
  loc : Option (Bool × Word × BitVec 32) := none
  /-- Its bytes; none for an atomic. -/
  bytes : List Byte := []
  /-- OP and DST_FMT of a reduce-write. -/
  red : Option Byte := none
  /-- It carries elements of the destination, for the read-back (R140). -/
  elem : Bool := false
  /-- It is posted when DST_POSTED is set (03 R59). -/
  post : Bool := false
  /-- An ATOMIC goes to the memory-side adders. -/
  atomic : Bool := false
  /-- A peer's: the window offset, or element index, of its first byte (12 R268). -/
  at_ : Nat := 0
  /-- A peer's: the scale bytes that travel with its elements (12 R276). -/
  scales : List Byte := []
  /-- A peer's: the last of its segment. -/
  last : Bool := false
  /-- Its place in source order within the segment (06 R140). -/
  ord : Nat := 0
  /-- Granules of read data that are written with it (06 R128). -/
  src : Nat := 0
deriving DecidableEq, Repr

/-- How the end of a segment stands (R140). -/
inductive Readback where
  | none
  /-- The read-back, or the wait for a peer's acknowledgment, is in progress. -/
  | out
  /-- It has returned. -/
  | back
deriving DecidableEq, Repr

/-- Where a context wrote last, for its read-back (R140). -/
inductive LastWr where
  | none
  | device (port : Nat) (addr : Word)
  | host (addr : Word)
  | posted (link : Nat) (addr : Word)
  | peer
deriving DecidableEq, Repr

/-- A mover context (R128). -/
structure Job where
  /-- State, 3 bits (06 R149). Reset idle. -/
  st : JobSt := .idle
  /-- The command or plan descriptor served (06 R149, channel handle served). Reset none. -/
  work : Option Work := none
  /-- The segment, by number (06 R129). Reset 0. -/
  seg : Nat := 0
  /-- Granules issued in the current segment, 16 bits (06 R149). Reset 0. -/
  issued : Nat := 0
  /-- Source granules of the segment (01 R21). Reset 0. -/
  total : Nat := 0
  /-- The next source granule to request. Reset 0. -/
  nextG : Nat := 0
  /-- Reads issued whose data is not used yet, oldest first (06 R128). Reset empty. -/
  reads : List Rd := []
  /-- SRC granules arrived and not converted (06 R128). Reset empty. -/
  acc : List Granule := []
  /-- SRC2 granules arrived and not combined (07 R163). Reset empty. -/
  acc2 : List Granule := []
  /-- Source granules already converted and written. Reset 0. -/
  used : Nat := 0
  /-- The SRC scale granule in use (07 R159). Reset 0. -/
  scale : Granule := 0
  /-- The SRC2 scale granule in use (07 R159). Reset 0. -/
  scale2 : Granule := 0
  /-- Destination scale bytes formed and not yet written, oldest first (07 R160). Reset empty. -/
  outScale : List Byte := []
  /-- CRC-32C state of the destination bytes of this segment (07 R164). Reset all ones. -/
  crc : BitVec 32 := 0xFFFFFFFF
  /-- Destination bytes the CRC covers so far. Reset 0. -/
  crcLen : Nat := 0
  /-- Destination scale bytes of this segment, for the CRC of an MXFP8 stream (07 R164). Reset empty. -/
  crcScale : List Byte := []
  /-- Writes and atomics issued without a response: to host memory or not, and the epoch of the translation (05 R109). Reset empty. -/
  writes : List (Bool × BitVec 32) := []
  /-- PRIORITY the segment carries to the path arbiters (17 R365). Reset 0. -/
  prio : BitVec 3 := 0
  /-- Lookups it waits for: virtual page addresses (04 R89). Reset empty. -/
  wants : List Word := []
  /-- Writes formed that wait for their turn on their path, oldest first (06 R133). Reset empty. -/
  wq : List Wr := []
  /-- Where the last granule in source order was written (06 R140). Reset none. -/
  last : LastWr := .none
  /-- That granule's place in source order (06 R140). Reset 0. -/
  lastOrd : Nat := 0
  /-- Transport packets sent and not wholly acknowledged, by destination chip and PSN, each with the epoch of its tag (12 R271, 05 R109).
  Reset empty. -/
  packets : List (Nat × Nat × BitVec 32) := []
  /-- The posted writes that no read-back has confirmed yet: link, address, epoch (05 R109, 06 R140). Reset empty. -/
  posts : List (Nat × Word × BitVec 32) := []
  /-- Epoch of the translation of the last granule written, for its read-back (05 R109). Reset 0. -/
  lastEpoch : BitVec 32 := 0
  /-- ASID of its work, kept while it drains (05 R109, 08 R188). Reset 0. -/
  asid : Nat := 0
  /-- Bytes for the next packet to a peer (12 R268). Reset empty. -/
  peerBuf : List Byte := []
  /-- Their first byte's window offset, or the element index of a REDUCE (12 R268). Reset 0. -/
  peerAt : Nat := 0
  /-- MXFP8 scale bytes that travel with those elements (12 R276). Reset empty. -/
  peerScale : List Byte := []
  /-- The context writes, or reads and compares, the CRC word of its command (03 R61, R73). Reset 0. -/
  crcPhase : Bool := false
  /-- Granules of read data in those bytes (06 R128). Reset 0. -/
  peerSrc : Nat := 0
  /-- The read-back (06 R140). Reset none. -/
  rb : Readback := .none
  /-- Reads of the read-back that have not returned: one on each link that carried posted writes, beside that of the last granule (06
  R140). Reset 0. -/
  rbs : Nat := 0
  /-- ATOMIC: the operation has been performed at its executor (03 R73). Reset 0. -/
  performed : Bool := false
  /-- ATOMIC with RETURN: the old value, to be written (03 R69). Reset none. -/
  old : Option Word := none
  /-- Planned traffic: exempt from Reed credit (10 R230). Reset 0. -/
  planned : Bool := false
  /-- A hold by a SHARE of 0 has been counted for the transfer it asks for (06 R139). Reset 0. -/
  zeroHeld : Bool := false
  /-- Its last segment was stopped: the progress count is undefined (06 R144). Reset 0. -/
  stopped : Bool := false
deriving DecidableEq, Repr

/-- A posted write of stopped work: nothing has confirmed it yet (05_invalidation_and_placement.md R113; log entry 131). -/
structure Stray where
  /-- Its link. -/
  link : Nat
  /-- The function. -/
  fn : Nat
  /-- Its address. -/
  addr : Word
  /-- ASID of its translation. -/
  asid : Nat
  /-- Epoch of its translation. -/
  epoch : BitVec 32
  /-- A zero-length read behind it is out. -/
  asked : Bool := false
deriving DecidableEq, Repr

/-- A partition's staging area (R145). -/
structure Area where
  /-- BASE in 64 KiB units, 8 bits (06 R149). Reset 0. -/
  base : Nat := 0
  /-- SIZE in 64 KiB units, 9 bits (06 R149). Reset 256 for partition 0, else 0. -/
  size : Nat := 0
  /-- CLEARING, 1 bit (06 R145). Reset 0. -/
  clearing : Bool := false
deriving DecidableEq, Repr

/-- A function's view registers of the MOV page (R149). -/
structure MovView where
  /-- MOV_CHAN_SEL, 32 bits (06 R149). Reset 0. -/
  chanSel : BitVec 32 := 0
  /-- MOV_PREEMPT_COUNT, 32 bits (06 R149). Reset 0. -/
  preempt : BitVec 32 := 0
  /-- MOV_REED_HELD, 32 bits (06 R149). Reset 0. -/
  reedHeld : BitVec 32 := 0
deriving DecidableEq, Repr

/-- Movers, Reed and staging. -/
structure Mov where
  /-- The contexts, by mover * 2 + (1 for Urgent) (06 R127). Reset idle. -/
  job : Tab Job := []
  /-- Posted writes of stopped work that nothing has confirmed (05 R113; log entry 131). Reset empty. -/
  stray : List Stray := []
  /-- Spare movers left in Engine A, 5 bits (06 R149). Reset 2. -/
  spareA : Nat := 2
  /-- Spare movers left in Engine B, 5 bits (06 R149). Reset 2. -/
  spareB : Nat := 2
  /-- Logical movers retired with no spare (01 R27). Reset empty. -/
  gone : List Nat := []
  /-- MOV_PSEL, 21 bits (06 R149). Reset 0. -/
  psel : BitVec 21 := 0
  /-- MOV_PART_SHARE as written, 9 bits, by partition * 23 + path (06 R149). Reset 0x100 for partition 0, else 0. -/
  partShare : Tab Nat := []
  /-- The shares in force since the last slot boundary (06 R137). Reset as written. -/
  partNow : Tab Nat := []
  /-- Credits of (channel, path), by slot * 23 + path; none at its depth (06 R137). Reset the depth. -/
  chanCredit : Tab (Option Int) := []
  /-- Credits of (partition, path), by partition * 23 + path; none at its depth (06 R137). Reset the depth. -/
  partCredit : Tab (Option Int) := []
  /-- slot_bytes of each path (06 R138). Reset 0. -/
  slotBytes : Tab Nat := []
  /-- Planned bytes issued in the slot, by partition * 23 + path (10 R232). Reset 0. -/
  planBytes : Tab Nat := []
  /-- The partitions whose planned bytes have exceeded their reservation in this slot: each counts the slot once (10 R232, R238). Reset
  empty. -/
  overSlot : List Nat := []
  /-- The Reed slot of the last slot boundary, 10 bits (10 R231). Reset 0. -/
  slotNo : Nat := 0
  /-- MOV_URGENT_DEBT, 20 bits (06 R149). Reset 0x4000. -/
  urgentDebt : BitVec 20 := 0x4000
  /-- The staging areas, by partition (06 R145). Reset per `Area`. -/
  area : Tab Area := []
  /-- The partition that last held each staging unit, by unit (06 R145: units that pass to a new partition are cleared). Reset 0. -/
  unitOwner : Tab Nat := []
  /-- The staging SRAM, 16 MiB (06 R145). Reset no byte listed: each reads 0 (log entry 15). -/
  staging : List Host.Cell := []
  /-- The 8-byte staging words marked lost, by address / 8 (18 R369, R370). Reset empty. -/
  lostWords : List Nat := []
  /-- MOV_CTX_SEL, 9 bits (06 R149). Reset 0. -/
  ctxSel : BitVec 9 := 0
  /-- The functions' view registers (06 R149). Reset per `MovView`. -/
  view : Tab MovView := []
deriving DecidableEq, Repr

/-! ## 07_number_formats_and_ccu.md -/

/-- A partition's CCU counters (R172). -/
structure CcuCount where
  /-- CCU_NAN_COUNT, 48 bits (07 R172). Reset 0. -/
  nan : BitVec 48 := 0
  /-- CCU_OVF_COUNT, 48 bits (07 R172). Reset 0. -/
  ovf : BitVec 48 := 0
  /-- CCU_SAT_COUNT, 48 bits (07 R172). Reset 0. -/
  sat : BitVec 48 := 0
  /-- CCU_SCALE_CLAMP_COUNT, 48 bits (07 R172). Reset 0. -/
  clamp : BitVec 48 := 0
  /-- CCU_ATOMIC_COUNT, 48 bits (07 R172). Reset 0. -/
  atomic : BitVec 48 := 0
deriving DecidableEq, Repr

/-- The CCU. -/
structure Ccu where
  /-- CCU_SR_SEED, 64 bits (07 R172). Reset 1. -/
  seed : Word := 1
  /-- Generator states of the 66 lanes that differ from the seeded state (07 R162). Reset seeded from 1 (log entry 16). -/
  lane : Tab (Option Word) := []
  /-- GLB_TIME of the last write of CCU_SR_SEED: the beats of that hub cycle use the states of before it (07 R162). Reset none. -/
  seedAt : Option Word := none
  /-- CCU_SR_SEED before that write, 64 bits (07 R162). Reset 1. -/
  oldSeed : Word := 1
  /-- Generator states before that write that differ from those seeded by it, as the beats of its hub cycle leave them (07 R162). Reset empty. -/
  oldLane : Tab (Option Word) := []
  /-- Lanes retired, by number (07 R170). Reset empty. -/
  retired : List Nat := []
  /-- The partitions' counters (07 R172). Reset 0. -/
  count : Tab CcuCount := []
deriving DecidableEq, Repr

/-! ## 09_sync_objects.md -/

/-- The state of a sync object's index (R190, R196). -/
inductive ObjSt where
  | free | live | abandoned
deriving DecidableEq, Repr

/-- A sync object (R190 to R195). -/
structure Obj where
  /-- Generation, 8 bits (00 R6). Reset 0. -/
  gen : Byte := 0
  /-- FREE, LIVE or ABANDONED (09 R190). Reset FREE. -/
  st : ObjSt := .free
  /-- TYPE, 2 bits (00 R5). Reset 0. -/
  type : BitVec 2 := 0
  /-- Partition (00 R5). Reset 0. -/
  part : Nat := 0
  /-- VALUE, 32 bits (09 R190). Reset 0. -/
  value : BitVec 32 := 0
  /-- BARRIER target N, 16 bits (09 R193). Reset 0. -/
  n : BitVec 16 := 0
  /-- EPISODE, 16 bits (09 R190). Reset 0. -/
  episode : BitVec 16 := 0
  /-- PASSED, 1 bit (09 R193). Reset 0. -/
  passed : Bool := false
  /-- SLIP, 1 bit (09 R202). Reset 0. -/
  slip : Bool := false
  /-- OWNER channel handle, 0 for its partition, 32 bits (09 R195). Reset 0. -/
  owner : BitVec 32 := 0
  /-- Its wait records, oldest first (09 R199). Reset empty. -/
  waiters : List Nat := []
deriving DecidableEq, Repr

/-- Who waits (R197). -/
inductive Waiter where
  /-- A WAIT of a channel: slot and command number. -/
  | chan (slot num : Nat)
  /-- A core client: number, tag and SCOPE. -/
  | client (c tag : Nat) (scope : BitVec 2)
  /-- A plan entry's gate. -/
  | plan (entry : Nat)
deriving DecidableEq, Repr

/-- A wait record (R197). -/
structure WRec where
  /-- The waiter. -/
  who : Waiter
  /-- The object's handle. -/
  handle : BitVec 32
  /-- The condition. -/
  cond : BitVec 2
  /-- TIMEOUT as requested. -/
  timeout : BitVec 32
  /-- GLB_TIME when it was linked. -/
  linked : Word
  /-- The deadline, in hub cycles of GLB_TIME (R201). -/
  deadline : Word
  /-- It has been extended by a slip (R202, R204). -/
  slipped : Bool := false
deriving DecidableEq, Repr

/-- Where an action on an object came from, and who is told when it is applied (R199). -/
inductive ActFrom where
  /-- A SIGNAL of a channel: slot and command number. -/
  | chan (slot num : Nat)
  /-- A completion pulse of a command or descriptor, from an engine. -/
  | pulse (e : Engine)
  /-- A SIGNAL entry of a plan: the entry and the occurrence, by its number (10 R222). -/
  | plan (entry occ : Nat)
  /-- A CoreSignal: port, agent, tag (R336). -/
  | core (port agent tag : Nat)
  /-- A remote SIGNAL: source chip, PSN. -/
  | peer (src psn : Nat)
deriving DecidableEq, Repr

/-- An action on its way to an object's bank (R200). -/
structure SAct where
  /-- Its origin. -/
  from_ : ActFrom
  /-- The handle. -/
  handle : BitVec 32
  /-- 0 ADD, 1 SET, 2 CLEAR. -/
  action : BitVec 2
  /-- Amount of an ADD. -/
  value : BitVec 16
  /-- GLB_TIME when it reached the sync unit (R199, R200). -/
  at_ : Word := 0
  /-- Its source's place among those of one hub cycle: Engine A, Engine B, the NoC ports, the peer transport (R199). -/
  rank : Nat := 0
deriving DecidableEq, Repr

/-- A WAIT, or a gate, that found no wait record in its half (R197, R226). -/
structure Stalled where
  /-- The waiter. -/
  who : Waiter
  /-- The half it needs. -/
  half : Engine
deriving DecidableEq, Repr

/-- A function's SYN view registers (R208). -/
structure SynView where
  /-- SYN_OBJ_CFG, 64 bits (09 R208). Reset 0. -/
  cfg : Word := 0
  /-- SYN_OBJ_STATUS.RESULT, 3 bits (09 R208). Reset 0. -/
  result : BitVec 3 := 0
  /-- SYN_OBJ_STATUS.HANDLE, 32 bits (09 R208). Reset 0. -/
  handle : BitVec 32 := 0
  /-- GLB_TIME from which SYN_OBJ_STATUS.BUSY reads clear (09 R194, R208). Reset 0. -/
  busyUntil : Word := 0
  /-- SYN_OBJ_STATE, 64 bits (09 R208). Reset 0. -/
  state : Word := 0
  /-- SYN_OBJ_INFO, 64 bits (09 R208). Reset 0. -/
  info : Word := 0
  /-- SYN_TIMEOUT_COUNT, 32 bits (09 R208). Reset 0. -/
  timeouts : BitVec 32 := 0
  /-- SYN_ABANDONED_HITS, 32 bits (09 R208). Reset 0. -/
  hits : BitVec 32 := 0
  /-- SYN_REC_STALL, 32 bits (09 R208). Reset 0. -/
  recStall : BitVec 32 := 0
deriving DecidableEq, Repr

/-- The sync unit. -/
structure Syn where
  /-- SYN_SLIP_MAX, 24 bits (09 R208). Reset 0x2710. -/
  slipMax : BitVec 24 := 0x2710
  /-- The objects, by index (09 R190). Reset per `Obj`. -/
  obj : Tab Obj := []
  /-- The wait records: 0 to 65,535 of Engine A's half, then Engine B's (09 R197). Reset none. -/
  rec_ : Tab (Option WRec) := []
  /-- Actions on their way, oldest first (09 R199, R200). Reset empty. -/
  acts : List SAct := []
  /-- Waiters held for a record, oldest first (09 R197). Reset empty. -/
  stalled : List Stalled := []
  /-- A slip is in force on the chip and pauses deadlines (09 R202). Reset 0. -/
  slip : Bool := false
  /-- The slip outlasted SYN_SLIP_MAX: deadlines count again (09 R202). Reset 0. -/
  slipOver : Bool := false
  /-- GLB_TIME at which the pause began (09 R202). Reset 0. -/
  slipAt : Word := 0
  /-- The functions' view registers (09 R208). Reset per `SynView`. -/
  view : Tab SynView := []
deriving DecidableEq, Repr

/-! ## 10_drone_and_chanter.md -/

/-- A plan entry (R220, R238). -/
structure Entry where
  /-- Generation, 8 bits (00 R6). Reset 0. -/
  gen : Byte := 0
  /-- The entry's 64 bytes, KIND 0 when empty (10 R220). Reset 0. -/
  body : Granule := 0
  /-- Held by a partition: loaded and not freed (10 R235). Reset 0. -/
  held : Bool := false
  /-- The partition (10 R235). Reset 0. -/
  part : Nat := 0
  /-- The number of the load it came with (10 R236; 13 R292). Reset 0. -/
  img : Nat := 0
  /-- Changes of its arming by step: from that step on armed or disarmed; ARMED shows what the current step has (03 R71, 10 R238).
  Reset none. -/
  arms : List (Nat × Bool) := []
  /-- OPEN, 1 bit (10 R238). Reset 0. -/
  open_ : Bool := false
  /-- An occurrence is current: open, or late with its action pending or running (10 R223). Reset 0. -/
  live : Bool := false
  /-- Step of the current occurrence, 40 bits (10 R238). Reset 0. -/
  step : Nat := 0
  /-- FIRED, 1 bit (10 R238). Reset 0. -/
  fired : Bool := false
  /-- DONE, 1 bit (10 R238). Reset 0. -/
  done : Bool := false
  /-- GATE_PASSED, 1 bit (10 R238). Reset 0. -/
  gatePassed : Bool := false
  /-- FALLBACK, 1 bit (10 R229). Reset 0. -/
  fallback : Bool := false
  /-- Last code, 8 bits (10 R238). Reset 0. -/
  code : Code := 0
  /-- COUNT, 8 bits (10 R221). Reset 0. -/
  count : Byte := 0
  /-- Its descriptor in execution (10 R221). Reset none. -/
  run : Option Cmd := none
  /-- Its descriptor is in flight for an occurrence before the current one (10 R223). Reset 0. -/
  runOld : Bool := false
  /-- Number of the current occurrence: what an earlier one still does is not taken for the current one's (10 R222). Reset 0. -/
  occ : Nat := 0
  /-- Step of the last occurrence opened since its occurrence state was cleared: a step opens once (10 R216). Reset none. -/
  last : Option Nat := none
  /-- Number of the last resolution of its descriptor: the answer of one begun before is not taken (10 R228). Reset 0. -/
  resNo : Nat := 0
deriving DecidableEq, Repr

/-- An opening or closing of a window, and the Drone value at which it falls due (R219). -/
structure WinEvt where
  /-- The Drone value. -/
  at_ : Nat
  /-- The entry. -/
  i : Nat
  /-- The step of its occurrence. -/
  step : Nat
  /-- It opens. -/
  opens : Bool
  /-- An update crosses the window whole (R218). -/
  whole : Bool
  /-- It closes a window that an earlier edge of the same hub cycle's update opened: the update crosses it whole (R210, R218). -/
  split : Bool := false
deriving DecidableEq, Repr

/-- The edges of one hub cycle on the Drone pins (R210). -/
structure PinCycle where
  /-- GLB_TIME. -/
  at_ : Word
  /-- An edge on drone_step. -/
  step : Bool := false
  /-- An edge on drone_tick. -/
  tick : Bool := false
  /-- The Drone value before the cycle's first edge. -/
  base : Word
deriving DecidableEq, Repr

/-- A reservation row (R231). -/
structure Row where
  /-- Loaded. -/
  held : Bool := false
  /-- Partition. -/
  part : Nat := 0
  /-- The number of the load it came with, for its freeing (10 R236). Reset 0. -/
  img : Nat := 0
  /-- PATH, 0 to 22. -/
  path : Nat := 0
  /-- BYTES. -/
  bytes : Nat := 0
  /-- MASK, 1,024 bits. -/
  mask : BitVec 1024 := 0
  /-- Enabled by a RESERVE entry in its window (R221). -/
  enabled : Bool := false
deriving DecidableEq, Repr

/-- A row of a plan image (R234). -/
structure PlanRow where
  /-- PATH. -/
  path : Nat
  /-- BYTES. -/
  bytes : Nat
  /-- MASK. -/
  mask : BitVec 1024
deriving DecidableEq, Repr

/-- A plan image and its binding table, as their bytes say (R234, R235). -/
structure PlanImage where
  /-- MAGIC. -/
  magic : BitVec 32
  /-- VERSION. -/
  version : BitVec 16
  /-- ENTRIES. -/
  nEntries : Nat
  /-- ROWS. -/
  nRows : Nat
  /-- SYMBOLS. -/
  nSymbols : Nat
  /-- CRC. -/
  crc : BitVec 32 := 0
  /-- The entries. -/
  entries : List Granule := []
  /-- The rows. -/
  rows : List PlanRow := []
  /-- The handles of the binding table. -/
  symbols : List (BitVec 32) := []
  /-- CRC is that of the bytes after the header. -/
  crcOk : Bool := false
deriving DecidableEq, Repr

/-- A function's CHT view registers (R238). -/
structure ChtView where
  /-- CHT_LOAD_IMAGE, 64 bits (10 R238). Reset 0. -/
  image : Word := 0
  /-- CHT_LOAD_BIND, 64 bits (10 R238). Reset 0. -/
  bindTab : Word := 0
  /-- BUSY of CHT_LOAD_STATUS, 1 bit (10 R238). Reset 0. -/
  busy : Bool := false
  /-- Lines of the image read so far, in order (10 R234, R235). Reset empty. -/
  lines : List Granule := []
  /-- Lines of the binding table read so far, in order (10 R235). Reset empty. -/
  binds : List Granule := []
  /-- The image and its binding table have been read, or a read has failed: the load can be judged (10 R235). Reset 0. -/
  readDone : Bool := false
  /-- A read of the load has failed, lies outside the ranges or cannot be issued (10 R235 check 2). Reset 0. -/
  readBad : Bool := false
  /-- The image is placed and its descriptors are being resolved: its first handle and its START entries (10 R235). Reset none. -/
  loaded : Option (BitVec 32 × List Nat) := none
  /-- RESULT, 3 bits (10 R238). Reset 0. -/
  result : BitVec 3 := 0
  /-- First handle, 32 bits (10 R238). Reset 0. -/
  handle : BitVec 32 := 0
  /-- CHT_ENTRY_SEL, 32 bits (10 R238). Reset 0. -/
  entrySel : BitVec 32 := 0
  /-- CHT_DEADLINE_COUNT, 32 bits (10 R238). Reset 0. -/
  deadline : BitVec 32 := 0
  /-- CHT_LATE_COUNT, 32 bits (10 R238). Reset 0. -/
  late : BitVec 32 := 0
  /-- CHT_FALLBACK_COUNT, 32 bits (10 R238). Reset 0. -/
  fallback : BitVec 32 := 0
  /-- CHT_PLAN_OVER, 32 bits (10 R238). Reset 0. -/
  planOver : BitVec 32 := 0
  /-- CHT_PULSE_DISCARD, 32 bits (10 R238). Reset 0. -/
  pulseDiscard : BitVec 32 := 0
  /-- CHT_REC_STALL, 32 bits (10 R238). Reset 0. -/
  recStall : BitVec 32 := 0
deriving DecidableEq, Repr

/-- The Drone and Chanter. -/
structure Cht where
  /-- CHT_DRONE, 64 bits (10 R209). Reset 0. -/
  drone : Word := 0
  /-- The fraction of a phase unit accumulated by interpolation, in 1/65,536 (10 R212). Reset 0. -/
  frac : BitVec 16 := 0
  /-- MASTER_CHIP of CHT_DRONE_CFG, 12 bits (10 R238). Reset 0. -/
  masterChip : BitVec 12 := 0
  /-- MASTER, 1 bit (10 R238). Reset 0. -/
  master : Bool := false
  /-- SRC, 2 bits (10 R238). Reset 0 HOST. -/
  src : BitVec 2 := 0
  /-- CHT_DRONE_RATE, 32 bits (10 R238). Reset 0. -/
  rate : BitVec 32 := 0
  /-- CHT_TICK_INC, 24 bits (10 R238). Reset 1. -/
  tickInc : BitVec 24 := 1
  /-- CHT_DRONE_LOSS_LIMIT, 24 bits (10 R238). Reset 0. -/
  lossLimit : BitVec 24 := 0
  /-- CHT_REGRESS_TOL, 24 bits (10 R238). Reset 0x1000. -/
  regressTol : BitVec 24 := 0x1000
  /-- CHT_BCAST_INTERVAL, 24 bits (10 R238). Reset 0x1000. -/
  bcast : BitVec 24 := 0x1000
  /-- CHT_FRAME_OFFSET, 18 bits (10 R238). Reset 0. -/
  frameOffset : BitVec 18 := 0
  /-- HELD of CHT_DRONE_STATUS, 1 bit (10 R214). Reset 0. -/
  held : Bool := false
  /-- LOST, 1 bit (10 R215). Reset 0. -/
  lost : Bool := false
  /-- LAG with the value interpolation has reached from the update that lags, 64 bits (10 R214). Reset none. -/
  lagAt : Option Word := none
  /-- The last broadcast carried SLIP (10 R212). Reset 0. -/
  slipRx : Bool := false
  /-- Chips whose SLIP notice holds this master's Drone (10 R213). Reset empty. -/
  slipHolders : List Nat := []
  /-- The latest update kept while the master holds (10 R213). Reset none. -/
  kept : Option Word := none
  /-- The latest update received (10 R214). Reset none. -/
  latest : Option Word := none
  /-- The pin edges of the last hub cycle that had one: edges on both pins in one hub cycle are one update (10 R210). Reset none. -/
  pins : Option PinCycle := none
  /-- CHT_RSV_SEL, 21 bits (10 R238). Reset 0. -/
  rsvSel : BitVec 21 := 0
  /-- CHT_RSV_MAX, 18 bits, by partition * 23 + path (10 R238). Reset 0. -/
  rsvMax : Tab Nat := []
  /-- CHT_SLIP_HELD, 32 bits (10 R238). Reset 0. -/
  slipHeld : BitVec 32 := 0
  /-- The plan entries, by index (10 R220). Reset per `Entry`. -/
  entry : Tab Entry := []
  /-- The reservation rows, by number (10 R231). Reset per `Row`. -/
  row : Tab Row := []
  /-- Window events that fell due for entries of an engine in failover, in order: they take effect at the adoption (13 R298). Reset
  empty. -/
  due : List WinEvt := []
  /-- Plan images loaded so far (13 R292: the most recently loaded go first). Reset 0. -/
  loads : Nat := 0
  /-- Completion pulses on their way to plan entries, oldest first (06 R141). Reset empty. -/
  pulses : List (BitVec 32) := []
  /-- The functions' view registers (10 R238). Reset per `ChtView`. -/
  view : Tab ChtView := []
deriving DecidableEq, Repr

/-! ## 11_coherence_home.md -/

/-- DSTATE of a directory entry (R242). -/
inductive DState where
  | i | s | e | m
deriving DecidableEq, Repr

/-- The requests of on-die agents (R246). -/
inductive ReqKind where
  | readShared | readUnique | readNoAlloc | writeNoAlloc | atomic
deriving DecidableEq, Repr

/-- What an internal request of the hub's own units is for (R240: 1,280 to 1,407). -/
inductive UnitFor where
  /-- A read of a mover context: kind and index. -/
  | moverRead (m : Nat) (urgent : Bool) (kind : RdKind) (idx : Nat)
  /-- A write of a mover context, with the epoch of its translation. -/
  | moverWrite (m : Nat) (urgent : Bool) (epoch : BitVec 32)
  /-- The read-back of a segment. -/
  | moverBack (m : Nat) (urgent : Bool)
  /-- An ATOMIC of a mover context. -/
  | moverAtomic (m : Nat) (urgent : Bool) (epoch : BitVec 32)
  /-- A walker's compare-and-swap of ACCESSED or DIRTY (R86). -/
  | walkUpdate (w no : Nat)
  /-- A walker's read of a page-table line (04 R93). -/
  | walkLine (w no : Nat)
  /-- The read of a ring slot by an engine's front end (02 R44): the slot of the channel, the position, the channel's fetch. -/
  | ringRead (e : Engine) (slot : Nat) (pos : BitVec 32) (no : Nat)
  /-- The read of the management descriptor a function has in hand (02 R29). -/
  | mgmtRead (fn : Nat)
  /-- The write of its RESULT word (02 R29). -/
  | mgmtResult (fn : Nat)
  /-- The read of an invalidation descriptor (05 R105). -/
  | invRead (id : Nat)
  /-- The write of an invalidation's RESULT word, and whether INV_DONE follows (05 R108). -/
  | invResult (fn : Nat) (event : Bool)
  /-- The write of the record, or the notice, a partition's queue has in flight (04 R102, 05 R118). -/
  | record (notice : Bool) (p : Nat)
  /-- A read of line `k` of a plan image, or of its binding table, for a function (10 R235). -/
  | image (fn : Nat) (bind : Bool) (k : Nat)
  /-- A read of line `k` of a repair map (18 R386). -/
  | repair (k : Nat)
  /-- Half `k` of the 16 entries of a region being evaluated or re-read (05 R115, R119). -/
  | placeRead (ticket k : Nat)
  /-- The read of granule `k` of a placement's copy (05 R119 step 7). -/
  | copyRead (ticket k : Nat)
  /-- A compare-and-swap of entry `k` of a placement: forward at step 8, or back (05 R119, R123). -/
  | placeCas (ticket k : Nat)
  /-- A compare-and-swap of entry `k` of a placed region, to lock it or to restore it (05 R121 steps 2 and 5). -/
  | recallCas (frame k : Nat)
  /-- The write of granule `k` of a recall's copy (05 R121 step 4). -/
  | copyWrite (frame k : Nat)
  /-- Half `k` of the 16 entries a RELEASE reads (05 R122). -/
  | releaseRead (frame k : Nat)
deriving DecidableEq, Repr

/-- Who made a request to the home (R240). -/
inductive Asker where
  /-- An agent on the NoC: ID, TAG, port. -/
  | agent (id tag port : Nat)
  /-- A unit of the hub. -/
  | unit (u : UnitFor)
deriving DecidableEq, Repr

/-- The operation of a home atomic (R165). -/
structure AtomicOp where
  /-- OP, 0 to 7. -/
  op : Nat
  /-- TYPE: format code. -/
  type : Nat
  /-- OPERAND. -/
  operand : Word
  /-- COMPARE. -/
  compare : Word
deriving DecidableEq, Repr

/-- A request at the home (11 R246, R248). -/
structure HomeReq where
  /-- Its asker. -/
  who : Asker
  /-- Its kind. -/
  kind : ReqKind
  /-- Host physical address of its first byte. -/
  addr : Word
  /-- Data of a WriteNoAlloc. -/
  data : Granule := 0
  /-- Byte enables of a WriteNoAlloc (R132); all ones for a whole line. -/
  be : Word := 0xFFFFFFFFFFFFFFFF
  /-- The operation of an AtomicReq. -/
  op : AtomicOp := ⟨0, 9, 0, 0⟩
  /-- The data is poisoned (15 R335). -/
  poison : Bool := false
  /-- The partition it is made for (14 R321): a home atomic counts for it (07 R172). -/
  part : Nat := 0
deriving DecidableEq, Repr

/-- The transient states of a line (R253), and the waits for host answers that end a transaction. -/
inductive Tran where
  | isH | imH | sInv | smH | oFwd | wbWait | rcl | atmH | atmS | atm
  /-- A RdCurr awaits data (R247). -/
  | curr
  /-- An ItoMWr awaits GO_WritePull. -/
  | write
  /-- A DirtyEvict or CleanEvictNoData awaits the host. -/
  | evict
  /-- The request waits for a way of its full set (R244). -/
  | way
deriving DecidableEq, Repr

/-- Why a transaction runs. -/
inductive Cause where
  /-- A request. -/
  | req (r : HomeReq)
  /-- A recall to free a directory way or the whole directory (R244, R307). -/
  | recall
  /-- A host snoop: 0 SnpInv, 1 SnpData, 2 SnpCur, and its link (R255). -/
  | host (kind link : Nat)
deriving DecidableEq, Repr

/-- The one transaction of a line (R248). -/
structure Txn where
  /-- Its cause. -/
  cause : Cause
  /-- Its transient state. -/
  st : Tran
  /-- The link its host request left on. -/
  link : Nat := 0
  /-- The agents whose snoop answers are awaited (R250). -/
  waits : List Nat := []
  /-- A GO is still awaited. -/
  goWait : Bool := false
  /-- The line had an entry before its own host request. -/
  entryBefore : Bool := false
  /-- The snooped owner's WriteBack has arrived (R257). -/
  wbGot : Bool := false
  /-- The snooped owner has answered WB_PENDING (R257). -/
  wbPend : Bool := false
  /-- The agents that have given the line up in this transaction, of those a coarse vector names (R243). -/
  gone : List Nat := []
  /-- The link the line was held through has gone down: what its snoops return is discarded, and it goes on as without an entry (14 R323). -/
  lost : Bool := false
deriving DecidableEq, Repr

/-- A line of host memory at the home: its directory entry, its device-cache copy, its transaction and its lists (R241, R248). -/
structure Line where
  /-- A directory entry is allocated (11 R239). Reset 0. -/
  entry : Bool := false
  /-- DSTATE (11 R241). Reset I. -/
  dstate : DState := .i
  /-- HSTATE: held from the host in E or M (11 R241). Reset 0. -/
  hm : Bool := false
  /-- DC: 0 none, 1 clean, 2 dirty (11 R241). Reset 0. -/
  dc : Nat := 0
  /-- MODE: SHARERS is a coarse vector (11 R241). Reset 0. -/
  coarse : Bool := false
  /-- SHARERS as pointers, at most three; the owner in E and M (11 R241). Reset empty. -/
  ptrs : List Nat := []
  /-- SHARERS as a coarse vector, 32 bits (11 R241). Reset 0. -/
  vec : BitVec 32 := 0
  /-- AGE: the order of allocation (11 R241). Reset 0. -/
  age : Nat := 0
  /-- The link the line is held through (14 R310, R323). Reset 0. -/
  via : Nat := 0
  /-- The device-cache data (11 R245). Reset 0. -/
  data : Granule := 0
  /-- The device-cache copy is poisoned (11 R258). Reset 0. -/
  poison : Bool := false
  /-- The transaction in progress (11 R248). Reset none. -/
  txn : Option Txn := none
  /-- Atomics waiting on the line, oldest first (11 R248). Reset empty. -/
  atomics : List HomeReq := []
  /-- Requests that wait inside the home for a way of a full set, or for a hub unit's turn, oldest first (11 R244). Reset empty. -/
  parked : List HomeReq := []
  /-- A host snoop waiting for the transaction: kind and link (11 R255). Reset none. -/
  snoop : Option (Nat × Nat) := none
  /-- The retry list: agent and tag of each recorded request (11 R250). Reset empty. -/
  retry : List (Nat × Nat) := []
  /-- A CREDIT is out to the head of the retry list (11 R250). Reset 0. -/
  credit : Bool := false
  /-- RdCurr answers still to come whose transaction a host snoop has ended (11 R255). Reset 0. -/
  drop : Nat := 0
  /-- The device-cache copy waits for a way of its full set (11 R245). Reset 0. -/
  dcWait : Bool := false
  /-- The admitted request that a host snoop goes before: it is the line's next (11 R255). Reset none. -/
  next : Option HomeReq := none
  /-- The line leaves as its transaction ends: its bank or ways go (18_stored_data_protection.md R374). Reset 0. -/
  leaves : Bool := false
  /-- Its recall, already counted, has given way to a host snoop and begins again (11 R244, R255). Reset 0. -/
  recalled : Bool := false
deriving DecidableEq, Repr

/-- A snoop, or a SET_FLUSH, whose answer is outstanding (15_block_ports.md R335). -/
structure SnpOut where
  /-- TAG. -/
  tag : Nat
  /-- The holder. -/
  agent : Nat
  /-- A SET_FLUSH. -/
  flush : Bool
  /-- The line, or the set. -/
  key : Nat
deriving DecidableEq, Repr

/-- The coherence home. -/
structure Home where
  /-- The lines, by host address / 64 (11 R239). Reset per `Line`. -/
  line : Tab Line := []
  /-- Answers to the hub's own units, oldest first: what for, status, data, poison; one whose arrival is a row's event stays until that
  row comes (11 R246; log entry 98). Reset empty. -/
  answers : List (UnitFor × Code × Granule × Bool) := []
  /-- Requests of hub units whose holders have failed with 0x42: what returns for one is discarded, and counted in HLK_LATE_CPL_COUNT
  (14 R321). Reset empty. -/
  late : List UnitFor := []
  /-- COH_HOLD, coh_hold, 9 bits (11 R259). Reset 0x20. -/
  hold : BitVec 9 := 0x20
  /-- COH_SNOOP_LIMIT, 16 bits (11 R259). Reset 0xA. -/
  snoopLimit : BitVec 16 := 0xA
  /-- COH_HOST_LIMIT, 24 bits (11 R259). Reset 0x2710. -/
  hostLimit : BitVec 24 := 0x2710
  /-- COH_CREDIT_LIMIT, 16 bits (11 R259). Reset 4. -/
  creditLimit : BitVec 16 := 4
  /-- COH_AGENT_SEL, 11 bits (11 R259). Reset 0. -/
  agentSel : BitVec 11 := 0
  /-- The requester IDs whose COH_AGENT_CFG.EN is 0 (11 R259). Reset empty: EN resets to 1. -/
  disabled : List Nat := []
  /-- The agents disabled for a late snoop answer, which are treated as holding nothing (11 R258). Reset empty. -/
  dead : List Nat := []
  /-- Clock of allocations, for AGE (11 R241). Reset 0. -/
  clock : Nat := 0
  /-- COH_RECALL_COUNT, 32 bits (11 R259). Reset 0. -/
  recalls : BitVec 32 := 0
  /-- COH_RETRY_COUNT, 32 bits (11 R259). Reset 0. -/
  retries : BitVec 32 := 0
  /-- COH_STALE_COUNT, 32 bits (11 R259). Reset 0. -/
  stale : BitVec 32 := 0
  /-- COH_HOST_SNOOP_COUNT, 32 bits (11 R259). Reset 0. -/
  snoops : BitVec 32 := 0
  /-- COH_WB_CROSS_COUNT, 32 bits (11 R259). Reset 0. -/
  crosses : BitVec 32 := 0
  /-- New requests held while the home drains for a remap, a writeback or a set flush (14 R307, R310; 11 R258), oldest first.
  Reset empty. -/
  held : List HomeReq := []
  /-- Lines whose transaction has ended and whose next one is to start (11 R249). Reset empty. -/
  todo : List Nat := []
  /-- Lines written or removed, for the walks parked on them (04 R96). Reset empty. -/
  woken : List Nat := []
  /-- Directory sets in a flush, each with the agents whose ACK_I is awaited (11 R252, R258). Reset empty. -/
  flush : List (Nat × List Nat) := []
  /-- The snoops and SET_FLUSHes whose answers are outstanding (15 R335). Reset empty. -/
  snps : List SnpOut := []
deriving DecidableEq, Repr

/-! ## 12_peer_windows_and_transport.md -/

/-- A run of indices of a partition (R260, R263). -/
structure Allot where
  /-- BASE (12 R282). Reset 0. -/
  base : Nat := 0
  /-- COUNT (12 R282). Reset 16,384 or 65,536 for partition 0, else 0. -/
  count : Nat := 0
deriving DecidableEq, Repr

/-- Who sent a packet: whom its acknowledgment or refusal concerns (R271). -/
inductive PktFor where
  | mover (m : Nat) (urgent : Bool)
  | signal (slot num : Nat)
  /-- A plan's SIGNAL: the entry and the occurrence, by its number (10 R222). -/
  | planSignal (entry occ : Nat)
  | notice
deriving DecidableEq, Repr

/-- A packet not wholly acknowledged, in the retransmit buffer (R267). -/
structure Unacked where
  /-- The packet as last sent. -/
  p : Packet
  /-- Blocks acknowledged. -/
  acked : BitVec 16 := 0
  /-- Re-sends on the current route (R273). -/
  resends : Nat := 0
  /-- Times its flow had failed when its transfer was dispatched (R275). -/
  no : Nat := 0
  /-- For whom. -/
  for_ : PktFor
deriving DecidableEq, Repr

/-- A flow to a destination chip (R267, R274, R275). -/
structure Flow where
  /-- The next PSN, 24 bits (12 R267). Reset 0. -/
  psn : BitVec 24 := 0
  /-- Packets unacknowledged, at most 64, oldest first (12 R267). Reset empty. -/
  out : List Unacked := []
  /-- Packets waiting for room, oldest first (12 R267). Reset empty. -/
  wait : List Unacked := []
  /-- FAILED (12 R275). Reset 0. -/
  failed : Bool := false
  /-- Times the flow has failed: a transfer dispatched before the last fails with its next packet (12 R275). Reset 0. -/
  fails : Nat := 0
  /-- The current route slot, 2 bits (12 R283). Reset 0. -/
  slot : Nat := 0
deriving DecidableEq, Repr

/-- Bytes of a received block that wait for a translation (R265). -/
structure HeldBlk where
  /-- The block. -/
  k : Nat
  /-- Virtual address of the first byte. -/
  va : Word
  /-- The bytes to write. -/
  bytes : List Byte
  /-- Its translation has come while the packet held four epoch tags: it is asked for again once one of them is free (05 R109). -/
  waits : Bool := false
deriving DecidableEq, Repr

/-- A packet of a source chip inside the receiver's PSN window (R270). -/
structure RxPkt where
  /-- PSN. -/
  psn : Nat
  /-- Its header, for the acknowledgment. -/
  h : PktHdr
  /-- Partition of its window. -/
  part : Nat := 0
  /-- ASID of its window. -/
  asid : Nat := 0
  /-- BASE of its window. -/
  base : Word := 0
  /-- Blocks marked applied (R270). -/
  mask : BitVec 16 := 0
  /-- Blocks admitted and not yet answered. -/
  busy : BitVec 16 := 0
  /-- MXFP8 element blocks that wait for the packet's scale block (R276). -/
  raw : List (Nat × List Byte) := []
  /-- The scale bytes of an MXFP8 REDUCE, once received (R276). -/
  scales : Option (List Byte) := none
  /-- Bytes waiting for a translation. -/
  held : List HeldBlk := []
  /-- NoC responses awaited per block, with the epoch of each write's translation (R265). -/
  writes : List (Nat × BitVec 32) := []
  /-- Blocks refused after they were admitted (R265). -/
  refused : BitVec 16 := 0
  /-- The last granule of a packet written: its virtual address, its port and its device address (R271). -/
  lastAt : Option (Nat × Nat × Word) := none
  /-- The read-back of a packet with LAST (R271). -/
  back : Readback := .none
  /-- Epoch of the translation of that last granule (05 R109). -/
  backEpoch : BitVec 32 := 0
  /-- An invalidation drain refused its remaining blocks (R265). -/
  killed : Bool := false
deriving DecidableEq, Repr

/-- The receive side of a flow from a source chip (R270). -/
structure RxFlow where
  /-- First PSN of the 64-packet window (12 R270). Reset 0. -/
  base : BitVec 24 := 0
  /-- The packets of the window seen so far (12 R270). Reset empty. -/
  pkts : List RxPkt := []
deriving DecidableEq, Repr

/-- A function's PWN view registers (R282). -/
structure PwnView where
  /-- PWN_OWIN_SEL, 14 bits (12 R282). Reset 0. -/
  owinSel : BitVec 14 := 0
  /-- PWN_IWIN_SEL, 16 bits (12 R282). Reset 0. -/
  iwinSel : BitVec 16 := 0
deriving DecidableEq, Repr

/-- Windows and transport. -/
structure Peer where
  /-- The outbound window table, by index (12 R260). Reset 0. -/
  owin : Tab WinEntry := []
  /-- The inbound window table, by WINDOW_ID (12 R263). Reset 0. -/
  iwin : Tab WinEntry := []
  /-- PWN_PSEL, 6 bits (12 R282). Reset 0. -/
  psel : BitVec 6 := 0
  /-- PWN_PART_OWIN, by partition (12 R282). Reset per `Allot`. -/
  oAllot : Tab Allot := []
  /-- PWN_PART_IWIN, by partition (12 R282). Reset per `Allot`. -/
  iAllot : Tab Allot := []
  /-- The functions' view registers (12 R282). Reset 0. -/
  view : Tab PwnView := []
  /-- PXP_CHIP_ID, 12 bits (12 R283). Reset 0. -/
  chipId : BitVec 12 := 0
  /-- PXP_RESEND_TIMEOUT, 16 bits (12 R283). Reset 0x14. -/
  resendTimeout : BitVec 16 := 0x14
  /-- PXP_RESEND_MAX, 4 bits (12 R283). Reset 8. -/
  resendMax : BitVec 4 := 8
  /-- PXP_ROUTE_SEL, 12 bits (12 R283). Reset 0. -/
  routeSel : BitVec 12 := 0
  /-- PXP_ROUTE, by destination chip (12 R274, R283). Reset 0. -/
  route : Tab Word := []
  /-- PXP_BCAST_CHILD, 64 bits (12 R283). Reset 0. -/
  child : Word := 0
  /-- SLIP sent and no SLIP_END yet, PXP_THERMAL[8] (12 R283). Reset 0. -/
  slipSent : Bool := false
  /-- The flows, by destination chip (12 R267). Reset per `Flow`. -/
  flow : Tab Flow := []
  /-- The receive sides, by source chip (12 R270). Reset per `RxFlow`. -/
  rx : Tab RxFlow := []
  /-- Packets on the loopback path, oldest first (12 R272). Reset empty. -/
  loop : List Packet := []
  /-- Fabric ports down, fabf_up 0 (15 R341). Reset empty (log entry 12). -/
  portDown : List Nat := []
  /-- PXP_RESEND_COUNT, 32 bits (12 R283). Reset 0. -/
  resendCount : BitVec 32 := 0
  /-- PXP_CRC_FAIL_COUNT, 32 bits (12 R283). Reset 0. -/
  crcFail : BitVec 32 := 0
  /-- PXP_REFUSE_COUNT, 32 bits (12 R283). Reset 0. -/
  refused : BitVec 32 := 0
  /-- PXP_DUP_COUNT, 32 bits (12 R283). Reset 0. -/
  dup : BitVec 32 := 0
deriving DecidableEq, Repr

/-! ## 13_partitions_and_twin_engines.md -/

/-- PRT_STATE.STATE (R284). -/
inductive PartSt where
  | disabled | enabled | disabling | enablePending
deriving DecidableEq, Repr

/-- What resets or disables a partition in progress (R286, R402). -/
inductive Closing where
  | none
  /-- Its channels drain (R286 step 2). -/
  | channels
  /-- Its placed regions are recalled: the disable sequence only (R286 step 3). -/
  | recalls
  /-- Its ASIDs are unbound (R286 step 4). -/
  | unbind
  /-- Every step is done. -/
  | last
deriving DecidableEq, Repr

/-- A partition's state and quotas (R284, R289). -/
structure Part where
  /-- STATE, 3 bits (13 R284). Reset ENABLED for partition 0, else DISABLED. -/
  st : PartSt := .disabled
  /-- The shutdown in progress (13 R286, 19 R402). Reset none. -/
  closing : Closing := .none
  /-- DRAINING, 5 bits: the resources in a drain, each with the GLB_TIME of its start (13 R292, R302). Reset empty. -/
  drainAt : List (Drained × Word) := []
  /-- PRT_Q_CHAN, 15 bits (13 R303). Reset 16,384 for partition 0, else 0. -/
  qChan : Nat := 0
  /-- PRT_Q_ENGINE.WALKERS, 6 bits (13 R303). Reset 32 for partition 0, else 0. -/
  qWalk : Nat := 0
  /-- PRT_Q_ENGINE.MOVERS, 5 bits (13 R303). Reset 24 for partition 0, else 0. -/
  qMov : Nat := 0
  /-- PRT_Q_L2T.WAY_BASE, 4 bits (13 R303). Reset 0. -/
  wayBase : Nat := 0
  /-- PRT_Q_L2T ways, 5 bits (13 R303). Reset 16 for partition 0, else 0. -/
  qWays : Nat := 0
  /-- PRT_Q_SYNC, 17 bits (13 R303). Reset 65,536 for partition 0, else 0. -/
  qSync : Nat := 0
  /-- PRT_Q_PLAN entries, 17 bits (13 R303). Reset 65,536 for partition 0, else 0. -/
  qEntries : Nat := 0
  /-- PRT_Q_PLAN rows, 10 bits (13 R303). Reset 512 for partition 0, else 0. -/
  qRows : Nat := 0
  /-- PRT_Q_EVT, 9 bits (13 R303). Reset 256 for partition 0, else 0. -/
  qEvt : Nat := 0
  /-- Quota registers written while it was DISABLING or ENABLE_PENDING, oldest first: they apply at the next enable (13 R286). Reset empty. -/
  held : List (Quota × Word) := []
deriving DecidableEq, Repr

/-- Partitions. -/
structure Prt where
  /-- PRT_PSEL, 6 bits (13 R303). Reset 0. -/
  psel : BitVec 6 := 0
  /-- The partitions (13 R284). Reset per `Part`. -/
  part : Tab Part := []
  /-- PRT_DRAIN_LIMIT, 24 bits (13 R303). Reset 0x3E8. -/
  drainLimit : BitVec 24 := 0x3E8
  /-- The sync objects in order of creation, oldest first, for reclaim (13 R292). Reset empty. -/
  objOrder : List Nat := []
deriving DecidableEq, Repr

/-- TWN_MODE (R17). -/
inductive TwinMode where
  | shared | soloA | soloB
deriving DecidableEq, Repr

/-- TWN_STATUS of an engine (R304). -/
inductive EngineSt where
  | serving | failed | resetting | ready
deriving DecidableEq, Repr

/-- How far a failover has come (R298). -/
inductive Failover where
  | none
  /-- Step 2. -/
  | quiesce
  /-- Step 5. -/
  | adopt
deriving DecidableEq, Repr

/-- The twin block (R304). -/
structure Twn where
  /-- TWN_MODE, 2 bits (13 R304). Reset SHARED. -/
  mode : TwinMode := .shared
  /-- TWN_STATUS of Engine A (13 R304). Reset SERVING. -/
  stA : EngineSt := .serving
  /-- TWN_STATUS of Engine B (13 R304). Reset SERVING. -/
  stB : EngineSt := .serving
  /-- An engine being withdrawn in order by a TWN_MODE write (13 R300). Reset none. -/
  withdrawing : Option Engine := none
  /-- The failed engine of a failover in progress (13 R298). Reset A. -/
  failedEngine : Engine := .A
  /-- The failover's step (13 R298). Reset none. -/
  failover : Failover := .none
  /-- An engine reset runs after the failover (13 R301). Reset 0. -/
  resetAfter : Bool := false
  /-- Channels the failover must still adopt, in order (13 R298). Reset empty. -/
  queue : List Nat := []
  /-- Channels with a write outstanding after TWN_QUIESCE_LIMIT (13 R298). Reset empty. -/
  late : List Nat := []
  /-- Partitions with an adopted or halted channel in this failover, with their adopted count (13 R298 step 6). Reset empty. -/
  touched : List (Nat × Nat) := []
  /-- TWN_HB_LIMIT, 10 bits (13 R304). Reset 0x100. -/
  hbLimit : BitVec 10 := 0x100
  /-- TWN_QUIESCE_LIMIT, 16 bits (13 R304). Reset 0x28. -/
  quiesceLimit : BitVec 16 := 0x28
  /-- TWN_LAST_FAILOVER, 64 bits (13 R304). Reset 0. -/
  lastFailover : Word := 0
  /-- TWN_ADOPT_COUNT: channels halted with 0xE2, 14 bits (13 R304). Reset 0. -/
  halted : Nat := 0
  /-- TWN_ADOPT_COUNT: channels adopted, 14 bits (13 R304). Reset 0. -/
  adopted : Nat := 0
deriving DecidableEq, Repr

/-! ## 17_arbiters.md -/

/-- A requester of an arbiter (R358 to R364). -/
structure ArbReq where
  /-- AGE, 3 bits (17 R358). Reset 0. -/
  age : Nat := 0
  /-- ARB_REQ_CLASS, 3 bits (17 R366). Reset 4. -/
  cls : Nat := 4
  /-- Rounds lost in succession (17 R363). Reset 0. -/
  lost : Nat := 0
  /-- GRANTS, 32 bits (17 R364). Reset 0. -/
  grants : BitVec 32 := 0
  /-- WAITS, 32 bits (17 R364). Reset 0. -/
  waits : BitVec 32 := 0
  /-- LONGEST, 32 bits (17 R364). Reset 0. -/
  longest : BitVec 32 := 0
  /-- GLB_TIME from which it has waited without a grant (17 R362, R364). Reset none. -/
  since : Option Word := none
  /-- Its current wait has been flagged as starving (17 R362). Reset 0. -/
  flagged : Bool := false
deriving DecidableEq, Repr

/-- An arbiter (R358 to R361). -/
structure Arbiter where
  /-- The holder of the grant (17 R360). Reset none. -/
  holder : Option Nat := none
  /-- The round-robin pointers, index last granted at each of the eight ranks (17 R358). Reset none granted. -/
  ptr : Tab (Option Nat) := []
  /-- ARB_DEAD_COUNT, 32 bits (17 R366). Reset 0. -/
  dead : BitVec 32 := 0
  /-- The holder has not used its grant yet (17 R361). Reset 0. -/
  fresh : Bool := false
  /-- The holder's grant is of the Urgent tier (17 R358). Reset 0. -/
  urgent : Bool := false
  /-- The burst a Bulk grant covers: the work, its segment, the burst in it (06 R133). Reset none. -/
  burst : Option (Work × Nat × Nat) := none
  /-- Before the last round: the rank it was won at, that rank's pointer, the winner's GRANTS; for a winner that withdraws (17 R361). Reset
  none. -/
  undo : Option (Nat × Option Nat × BitVec 32) := none
  /-- The Bulk holder that keeps its grant under Urgent granules (06 R135). Reset none. -/
  kept : Option Nat := none
deriving DecidableEq, Repr

/-- The arbiters. -/
structure Arb where
  /-- ARB_CTL.COMPAT_HX3, 1 bit (17 R366). Reset 0. -/
  compat : Bool := false
  /-- ARB_STARVE_LIMIT, 32 bits (17 R366). Reset 0x1_0000. -/
  starveLimit : BitVec 32 := 0x10000
  /-- ARB_HX3_WAIT_MAX, 8 bits (17 R366). Reset 0x10. -/
  waitMax : Byte := 0x10
  /-- ARB_STARVED, 35 bits (17 R366). Reset 0. -/
  starved : BitVec 35 := 0
  /-- Hub cycle of the latest setting of ARB_STARVED, 64 bits (00 R13). Reset 0. -/
  starvedAt : Word := 0
  /-- Bits of ARB_STARVED set in that cycle, 35 bits (00 R13). Reset 0. -/
  starvedNow : BitVec 35 := 0
  /-- ARB_STARVE_FIRST, 64 bits (17 R366). Reset 0. -/
  starveFirst : Word := 0
  /-- ARB_ARB_SEL, 6 bits (17 R366). Reset 0. -/
  arbSel : BitVec 6 := 0
  /-- ARB_REQ_SEL, 6 bits (17 R366). Reset 0. -/
  reqSel : BitVec 6 := 0
  /-- The 35 arbiters (17 R357). Reset per `Arbiter`. -/
  arb : Tab Arbiter := []
  /-- Their requesters, by arbiter * 16384 + index (17 R357). Reset per `ArbReq`. -/
  req : Tab ArbReq := []
  /-- ARB_CHAN_SEL, 32 bits, by function (17 R366). Reset 0. -/
  chanSel : Tab (BitVec 32) := []
deriving DecidableEq, Repr

/-! ## 18_stored_data_protection.md -/

/-- A row of an SRAM macro: structure code, bank or unit, macro, row (R386). -/
structure RowName where
  /-- STRUCT. -/
  str : Nat
  /-- BANK. -/
  bank : Nat
  /-- MACRO. -/
  mac : Nat
  /-- ROW. -/
  row : Nat
deriving DecidableEq, Repr

/-- A rebuild in progress (R380, R381). -/
structure Rebuild where
  /-- The slot. -/
  slot : Nat
  /-- The target stack. -/
  target : Nat
  /-- P: the next block. -/
  p : Nat := 0
deriving DecidableEq, Repr

/-- A range scrub in progress (R383). -/
structure Scrub where
  /-- Structure code. -/
  str : Nat
  /-- The next block or word. -/
  at_ : Nat
  /-- The last block or word. -/
  last : Nat
  /-- Corrections so far. -/
  ce : Nat := 0
  /-- Uncorrectable words so far. -/
  ue : Nat := 0
  /-- The first uncorrectable block or word. -/
  first : Option Nat := none
deriving DecidableEq, Repr

/-- Sparing, the hub store's code and scrubbing. -/
structure Ras where
  /-- RAS_HS_BASE, 64 bits of which [47:29] (18 R388). Reset 0x0000_005F_E000_0000. -/
  hsBase : Word := 0x5FE0000000
  /-- RAS_HS_SLOTS, 64 bits: stack of slot k in [8k+2:8k] (18 R388). Reset 0x0604_0200. -/
  hsSlots : Word := 0x06040200
  /-- AUTO_REBUILD, 1 bit (18 R388). Reset 1. -/
  autoRebuild : Bool := true
  /-- RAS_LOSS_RUN, 8 bits (18 R388). Reset 0x10. -/
  lossRun : Byte := 0x10
  /-- RAS_ROW_CE_WINDOW, 24 bits (18 R388). Reset 0x1_86A0. -/
  ceWindow : BitVec 24 := 0x186A0
  /-- RAS_SCRUB_BASE, 32 bits (18 R388). Reset 0. -/
  scrubBase : BitVec 32 := 0
  /-- RAS_SCRUB_LIMIT, 32 bits (18 R388). Reset 0. -/
  scrubLimit : BitVec 32 := 0
  /-- The range scrub in progress, SCRUB_BUSY (18 R383). Reset none. -/
  scrub : Option Scrub := none
  /-- RAS_SCRUB_SUMMARY, 64 bits (18 R388). Reset 0. -/
  scrubSum : Word := 0
  /-- RAS_SCRUB_FIRST, 64 bits (18 R388). Reset 0. -/
  scrubFirst : Word := 0
  /-- RAS_BG_CTL.EN, 1 bit (18 R388). Reset 1. -/
  bgEn : Bool := true
  /-- RAS_BG_CTL.ONCE, 1 bit (18 R388). Reset 1. -/
  bgOnce : Bool := true
  /-- RAS_BG_CTL.RATE, 16 bits (18 R388). Reset 0x40. -/
  bgRate : BitVec 16 := 0x40
  /-- Blocks and words the background walker has scrubbed in this pass (18 R384). Reset 0. -/
  bgAt : Nat := 0
  /-- Structure code of the last word the background walker read in this pass (18 R384). Reset 0. -/
  bgStr : Nat := 0
  /-- RAS_REPAIR_BASE, 64 bits (18 R388). Reset 0. -/
  repairBase : Word := 0
  /-- BUSY of RAS_REPAIR_STATUS with the COUNT of the load (18 R388). Reset none. -/
  repairBusy : Option Nat := none
  /-- Base of the map being loaded: RAS_REPAIR_BASE at the load (18 R386). Reset 0. -/
  repairAt : Word := 0
  /-- Lines of the map read so far, in order (18 R386). Reset empty. -/
  repairLines : List Granule := []
  /-- The reads of the map have ended, well or not (18 R386). Reset none. -/
  repairEnd : Option Bool := none
  /-- READ_FAIL, 1 bit (18 R388). Reset 0. -/
  repairFail : Bool := false
  /-- Entries skipped, 13 bits (18 R388). Reset 0. -/
  repairSkip : Nat := 0
  /-- Entries applied, 13 bits (18 R388). Reset 0. -/
  repairDone : Nat := 0
  /-- RAS_CE_COUNT, 32 bits (18 R388). Reset 0. -/
  ce : BitVec 32 := 0
  /-- RAS_UE_COUNT, 32 bits (18 R388). Reset 0. -/
  ue : BitVec 32 := 0
  /-- RAS_REPAIRS, 16 bits (18 R388). Reset 0. -/
  repairs : BitVec 16 := 0
  /-- Field remaps: the row and the spare row used, 0 or 1 (18 R372). Reset empty. -/
  remapped : List (RowName × Nat) := []
  /-- The last 256 rows that gave corrected errors, newest first, with GLB_TIME (18 R371). Reset empty. -/
  ceRows : List (RowName × Word) := []
  /-- Structures whose spare bank has been used (18 R373). Reset empty. -/
  bankUsed : List Nat := []
  /-- Bank copies in progress, by structure code and bank (18 R374). Reset empty. -/
  copying : List (Nat × Nat) := []
  /-- Row copies begun, with GLB_TIME of the start (18 R372). Reset empty. -/
  rowCopy : List (RowName × Word) := []
  /-- The words of the arrays marked lost, but those of staging SRAM: structure code, bank and word index (18 R369). Reset empty. -/
  lostMarks : List (Nat × Nat × Nat) := []
  /-- Writes that wait for the rebuild to pass their block: block, first byte, bytes (18 R381). Reset empty. -/
  held : List (Nat × Nat × List Byte) := []
  /-- Sets of ways, banks or stores lost for good: structure code and bank (18 R373). Reset empty. -/
  lostCap : List (Nat × Nat) := []
  /-- Lost slots of the hub store (18 R379). Reset empty. -/
  lost : List Nat := []
  /-- The current run of blocks that needed correction or erasure in each slot (18 R379). Reset 0. -/
  run : Tab Nat := []
  /-- The rebuild in progress (18 R380). Reset none. -/
  rebuild : Option Rebuild := none
  /-- Slots waiting to be rebuilt (18 R381). Reset empty. -/
  rebuildNext : List Nat := []
  /-- Stacks that ceased to be standby candidates (18 R380). Reset empty. -/
  retiredStacks : List Nat := []
  /-- The valid-bit map: the hub-store blocks written, rising (18 R378). Reset empty. -/
  valid : List Nat := []
  /-- Walkers' spares left in Engine A and Engine B (01 R27). Reset 4, 4. -/
  walkSpareA : Nat := 4
  /-- Walkers' spares left in Engine B (01 R27). Reset 4. -/
  walkSpareB : Nat := 4
  /-- Walkers retired with no spare (01 R27). Reset empty. -/
  walkGone : List Nat := []
deriving DecidableEq, Repr

/-! ## 19_power_reset_and_bringup.md -/

/-- PWR_STATE.STATE (R389). -/
inductive PwrSt where
  | run | doze | nap | hibernate
deriving DecidableEq, Repr

/-- A register write of the host held behind the bootstrap writes of its link (19 R405). -/
structure HeldWrite where
  /-- The function. -/
  fn : Nat
  /-- The link it came on. -/
  link : Nat
  /-- The BAR. -/
  bar : Nat
  /-- Its offset there. -/
  off : Nat
  /-- Its bytes. -/
  size : Nat
  /-- Its data. -/
  v : Word
deriving DecidableEq, Repr

/-- Power, resets and boot. -/
structure Pwr where
  /-- PWR_STATE.STATE, 2 bits (19 R409). Reset Run. -/
  st : PwrSt := .run
  /-- FORCE_RUN, 1 bit (19 R409). Reset 0. -/
  forceRun : Bool := false
  /-- PWR_IDLE_NAP, 24 bits (19 R409). Reset 0x64. -/
  idleNap : BitVec 24 := 0x64
  /-- PWR_IDLE_HIB, 24 bits (19 R409). Reset 0x2710. -/
  idleHib : BitVec 24 := 0x2710
  /-- PWR_WAKE_EN, 3 bits (19 R409). Reset 1. -/
  wakeEn : BitVec 3 := 1
  /-- PWR_WAKE_CAUSE, 3 bits (19 R409). Reset 0. -/
  wakeCause : BitVec 3 := 0
  /-- PWR_WAKE_COUNT, 32 bits (19 R409). Reset 0. -/
  wakeCount : BitVec 32 := 0
  /-- PWR_WLB, 32 bits, by partition (19 R409). Reset 0xC8. -/
  wlb : Tab (BitVec 32) := []
  /-- The entry into Hibernate goes on: host lines are being written back (19 R391). Reset 0. -/
  entering : Bool := false
  /-- In D3cold: only the wake logic runs (19 R400). Reset 0. -/
  d3cold : Bool := false
  /-- wake_req, 1 bit (15 R330). Reset 0. -/
  wakeReq : Bool := false
  /-- GLB_BOOT_CTL.OPEN, 1 bit (19 R410). Reset 1. -/
  bootOpen : Bool := true
  /-- GLB_BOOT_CTL.APERTURE, 4 bits (19 R410). Reset 0. -/
  aperture : BitVec 4 := 0
  /-- CLOSE written: the window closes when the bootstrap writes have their responses (19 R406). Reset 0. -/
  closing : Bool := false
  /-- Bootstrap writes without a NoC response (19 R405). Reset 0. -/
  bootOut : Nat := 0
  /-- Writes of GLB_BOOT_DOORBELL held for the responses of bootstrap writes (19 R405). Reset 0. -/
  bootHeld : Nat := 0
  /-- Register writes held behind the bootstrap writes of their links, oldest first (19 R405). Reset empty. -/
  regHeld : List HeldWrite := []
  /-- GLB_BOOT_ARG, 64 bits (19 R410). Reset 0. -/
  bootArg : Word := 0
  /-- GLB_RESET_CAUSE, 3 bits (19 R410). Reset 0. -/
  resetCause : BitVec 3 := 0
  /-- Functions that have sent PME since their last return to D0 (19 R399). Reset empty. -/
  pmeSent : List Nat := []
deriving DecidableEq, Repr

/-! ## The machine -/

/-- Why the block stops with a fault. No command of the table raises one: every command has an effect, or none, on any state. -/
inductive Fault where
  /-- Raised by nothing: it marks that the type has a name. Safe. -/
  | none_
deriving DecidableEq, Repr

/-- Why a command is refused by the model. -/
inductive Refusal where
  /-- The command has no meaning in the model yet. Raised by an arm of exec. Safe. -/
  | notModelled (mnemonic : String)
deriving DecidableEq, Repr

/-- Gytas HX4. -/
structure State where
  /-- The GLB, CTX and DBG pages and every header (21). -/
  glb : Glb := {}
  /-- The event concentrator (16). -/
  evc : Evc := {}
  /-- The host links and functions (14). -/
  hlk : Hlk := {}
  /-- The NoC ports (15). -/
  noc : Noc := {}
  /-- Channels and management queues (02, 03). -/
  dbl : Dbl := {}
  /-- Translation and invalidation (04, 05). -/
  xlt : Xlt := {}
  /-- Skink (05). -/
  skk : Skk := {}
  /-- Movers, Reed and staging (06). -/
  mov : Mov := {}
  /-- The CCU (07). -/
  ccu : Ccu := {}
  /-- The sync unit (09). -/
  syn : Syn := {}
  /-- The Drone and Chanter (10). -/
  cht : Cht := {}
  /-- The coherence home (11). -/
  home : Home := {}
  /-- Windows and transport (12). -/
  peer : Peer := {}
  /-- Partitions (13). -/
  prt : Prt := {}
  /-- The twin block (13). -/
  twn : Twn := {}
  /-- The arbiters (17). -/
  arb : Arb := {}
  /-- Stored-data protection (18). -/
  ras : Ras := {}
  /-- Power, resets and boot (19). -/
  pwr : Pwr := {}
  /-- What the hub has put on its ports, oldest first: the model's own record. Reset empty (log entry 39). -/
  out : List Out := []
  /-- Count of the free values drawn so far: the model's own field. Reset 0 (log entry 2). -/
  free : Nat := 0
  /-- The commands that wait, first in, first out. Reset empty. -/
  pending : List Instr := []
deriving DecidableEq, Repr

/-- The machine right after reset: every field at its reset value. -/
def State.reset : State := {}

end Sys2Proof.Machine
end

