-- ==== Sys2Proof/Machine/Ops.lean ====
section
/-! DEFINITION. The named operations every meaning is written with: sparse tables, field extraction, saturating counts, one
updater per part of the state, the tables' accessors, and what goes out on a port (15_block_ports.md, 14_host_link_endpoint.md). -/

namespace Sys2Proof.Machine

/-! ## Sparse tables -/

/-- The entry of index `k`: the listed one, else the default. -/
def tabGet {α : Type} (d : Nat → α) : Tab α → Nat → α
  | [], k => d k
  | (i, a) :: r, k => if k = i then a else if k < i then d k else tabGet d r k

/-- The table without index `k`. -/
def tabDel {α : Type} : Tab α → Nat → Tab α
  | [], _ => []
  | (i, a) :: r, k => if k = i then r else if k < i then (i, a) :: r else (i, a) :: tabDel r k

/-- The table with `a` listed at index `k`. -/
def tabIns {α : Type} : Tab α → Nat → α → Tab α
  | [], k, a => [(k, a)]
  | (i, b) :: r, k, a => if k = i then (k, a) :: r else if k < i then (k, a) :: (i, b) :: r else (i, b) :: tabIns r k a

/-- The table whose entry of index `k` is `a`: an entry equal to the default is not listed. -/
def tabPut {α : Type} [DecidableEq α] (d : Nat → α) (t : Tab α) (k : Nat) (a : α) : Tab α :=
  if a = d k then tabDel t k else tabIns t k a

/-- The table with its entry of index `k` changed. -/
def tabMod {α : Type} [DecidableEq α] (d : Nat → α) (t : Tab α) (k : Nat) (f : α → α) : Tab α :=
  tabPut d t k (f (tabGet d t k))

/-- The canonical form: indices rise, and no entry equals its default. -/
def tabWf {α : Type} [DecidableEq α] (d : Nat → α) : Tab α → Bool
  | [] => true
  | [(i, a)] => a ≠ d i
  | (i, a) :: (j, b) :: r => a ≠ d i && i < j && tabWf d ((j, b) :: r)

/-! ## Bits, bytes and counts -/

/-- Bits [hi:lo] of a word as a number. -/
def field {w : Nat} (x : BitVec w) (hi lo : Nat) : Nat := (x.toNat >>> lo) % 2 ^ (hi + 1 - lo)

/-- Bit `i` of a word. -/
def bit {w : Nat} (x : BitVec w) (i : Nat) : Bool := x.getLsbD i

/-- A number placed at bit `lo` of a word. -/
def place (n lo : Nat) : Word := BitVec.ofNat 64 (n <<< lo)

/-- 1 for true. -/
def flag (b : Bool) : Nat := if b then 1 else 0

/-- A count raised by `n` that stops at all ones. -/
def satAdd {w : Nat} (x : BitVec w) (n : Nat) : BitVec w :=
  if x.toNat + n < 2 ^ w then BitVec.ofNat w (x.toNat + n) else BitVec.allOnes w

/-- A count raised by 1 that stops at all ones. -/
def satInc {w : Nat} (x : BitVec w) : BitVec w := satAdd x 1

/-- Byte `k` of a granule. -/
def granByte (g : Granule) (k : Nat) : Byte := g.extractLsb' (8 * k) 8

/-- The 8-byte word at byte offset `o` of a granule (R52: little-endian). -/
def granWord (g : Granule) (o : Nat) : Word := g.extractLsb' (8 * o) 64

/-- The 4-byte word at byte offset `o` of a granule. -/
def granHalf (g : Granule) (o : Nat) : BitVec 32 := g.extractLsb' (8 * o) 32

/-- A granule from its bytes, byte 0 first. -/
def granOf (bs : List Byte) : Granule := bs.foldr (fun b g => (g <<< 8) ||| b.setWidth 512) 0

/-- The 64 bytes of a granule. -/
def granBytes (g : Granule) : List Byte := (List.range 64).map (granByte g)

/-- A granule from eight words. -/
def granOfWords (ws : List Word) : Granule := ws.foldr (fun w g => (g <<< 64) ||| w.setWidth 512) 0

/-- `old` with the bytes whose enable is set taken from `new` (R132, R176). -/
def granMerge (old new : Granule) (be : Word) : Granule :=
  granOf ((List.range 64).map fun k => if bit be k then granByte new k else granByte old k)

/-- Byte enables of `n` bytes from byte `o`. -/
def enables (o n : Nat) : Word := BitVec.ofNat 64 ((2 ^ n - 1) <<< o)

/-- The next generation of a slot (R6). -/
def nextGen (g : Byte) : Byte := if g = 0xFF then 1 else g + 1

/-- The check nibble of a channel handle (R4): the XOR of the seven nibbles above it. -/
def checkNibble (h : BitVec 32) : Nat :=
  (List.range 7).foldl (fun a k => a ^^^ field h (4 * k + 7) (4 * k + 4)) 0

/-- A channel handle (R4). -/
def chanHandle (gen : Byte) (part slot : Nat) : BitVec 32 :=
  let h := BitVec.ofNat 32 (gen.toNat <<< 24 + (part % 64) <<< 18 + (slot % 16384) <<< 4)
  h + BitVec.ofNat 32 (checkNibble h)

/-- A sync object or plan entry handle (R5). -/
def objHandle (gen : Byte) (part : Nat) (type : BitVec 2) (idx : Nat) : BitVec 32 :=
  BitVec.ofNat 32 (gen.toNat <<< 24 + (part % 64) <<< 18 + type.toNat <<< 16 + idx % 65536)

/-- GENERATION of a handle. -/
def hGen (h : BitVec 32) : Byte := h.extractLsb' 24 8
/-- PARTITION of a handle. -/
def hPart (h : BitVec 32) : Nat := field h 23 18
/-- SLOT of a channel handle. -/
def hSlot (h : BitVec 32) : Nat := field h 17 4
/-- TYPE of an object or plan handle. -/
def hType (h : BitVec 32) : BitVec 2 := h.extractLsb' 16 2
/-- INDEX of an object or plan handle. -/
def hIdx (h : BitVec 32) : Nat := field h 15 0

/-! ## One updater per part of the state -/

/-- The state with its GLB part changed. -/
def State.onGlb (s : State) (f : Glb → Glb) : State := { s with glb := f s.glb }
/-- The state with its event concentrator changed. -/
def State.onEvc (s : State) (f : Evc → Evc) : State := { s with evc := f s.evc }
/-- The state with its host links changed. -/
def State.onHlk (s : State) (f : Hlk → Hlk) : State := { s with hlk := f s.hlk }
/-- The state with its NoC ports changed. -/
def State.onNoc (s : State) (f : Noc → Noc) : State := { s with noc := f s.noc }
/-- The state with its channels changed. -/
def State.onDbl (s : State) (f : Dbl → Dbl) : State := { s with dbl := f s.dbl }
/-- The state with its translation changed. -/
def State.onXlt (s : State) (f : Xlt → Xlt) : State := { s with xlt := f s.xlt }
/-- The state with Skink changed. -/
def State.onSkk (s : State) (f : Skk → Skk) : State := { s with skk := f s.skk }
/-- The state with its movers changed. -/
def State.onMov (s : State) (f : Mov → Mov) : State := { s with mov := f s.mov }
/-- The state with its CCU changed. -/
def State.onCcu (s : State) (f : Ccu → Ccu) : State := { s with ccu := f s.ccu }
/-- The state with its sync unit changed. -/
def State.onSyn (s : State) (f : Syn → Syn) : State := { s with syn := f s.syn }
/-- The state with its Drone and Chanter changed. -/
def State.onCht (s : State) (f : Cht → Cht) : State := { s with cht := f s.cht }
/-- The state with its coherence home changed. -/
def State.onHome (s : State) (f : Home → Home) : State := { s with home := f s.home }
/-- The state with its windows and transport changed. -/
def State.onPeer (s : State) (f : Peer → Peer) : State := { s with peer := f s.peer }
/-- The state with its partitions changed. -/
def State.onPrt (s : State) (f : Prt → Prt) : State := { s with prt := f s.prt }
/-- The state with its twin block changed. -/
def State.onTwn (s : State) (f : Twn → Twn) : State := { s with twn := f s.twn }
/-- The state with its arbiters changed. -/
def State.onArb (s : State) (f : Arb → Arb) : State := { s with arb := f s.arb }
/-- The state with its stored-data protection changed. -/
def State.onRas (s : State) (f : Ras → Ras) : State := { s with ras := f s.ras }
/-- The state with its power and boot changed. -/
def State.onPwr (s : State) (f : Pwr → Pwr) : State := { s with pwr := f s.pwr }

/-! ## The tables' reset entries and accessors -/

/-- STICKY_IMPL of a page (R418: CAPS[63:32]): the sticky bits its chapter defines. -/
def stickyImpl (page : Nat) : Nat :=
  match page with
  | 0x00 => 0xFE | 0x01 => 0xFE | 0x02 => 0 | 0x03 => 0x1FE | 0x04 => 0x2 | 0x05 => 0x1FE | 0x06 => 0x1FE | 0x07 => 0x1FE
  | 0x08 => 0x3E | 0x09 => 0xFE | 0x0A => 0xFE | 0x0B => 0x3E | 0x0C => 0x1FE | 0x0D => 0x3FFE | 0x0E => 0x3E | 0x0F => 0xE
  | 0x10 => 0x1FFE | 0x11 => 0x3E | 0x12 => 0x6 | 0x13 => 0xE | 0x14 => 0x2 | _ => 0

/-- The reset entry of a view's sticky registers (R420). -/
def stickyDflt (k : Nat) : Sticky :=
  { en := if k % 32 = 0x08 ∨ k % 32 = 0x14 then 0 else BitVec.ofNat 64 (stickyImpl (k % 32)) }

/-- The sticky registers of a page's view. -/
def State.sticky (s : State) (page view : Nat) : Sticky := tabGet stickyDflt s.glb.sticky (view * 32 + page)

/-- The reset entry of an event source (R355). -/
def srcDflt (n : Nat) : Source :=
  if n = 1 ∨ (0x40 ≤ n ∧ n ≤ 0x57F) then { en := true, level := 31 } else {}

/-- The reset entry of an event target (R355). -/
def tgtDflt (t : Nat) : Target := { valid := t = 0 }

/-- An event source. -/
def State.src (s : State) (n : Nat) : Source := tabGet srcDflt s.evc.src n
/-- The state with an event source changed. -/
def State.onSrc (s : State) (n : Nat) (f : Source → Source) : State := s.onEvc fun e => { e with src := tabMod srcDflt e.src n f }
/-- An event target. -/
def State.tgt (s : State) (t : Nat) : Target := tabGet tgtDflt s.evc.tgt t
/-- The state with an event target changed. -/
def State.onTgt (s : State) (t : Nat) (f : Target → Target) : State := s.onEvc fun e => { e with tgt := tabMod tgtDflt e.tgt t f }

/-- A host link. -/
def State.link (s : State) (l : Nat) : Link := tabGet (fun _ => {}) s.hlk.links l
/-- The state with a host link changed. -/
def State.onLink (s : State) (l : Nat) (f : Link → Link) : State :=
  s.onHlk fun h => { h with links := tabMod (fun _ => {}) h.links l f }
/-- A function's instance on a link. -/
def State.inst (s : State) (l f : Nat) : Inst := tabGet (fun _ => {}) s.hlk.inst (l * 64 + f)
/-- The state with an instance changed. -/
def State.onInst (s : State) (l f : Nat) (g : Inst → Inst) : State :=
  s.onHlk fun h => { h with inst := tabMod (fun _ => {}) h.inst (l * 64 + f) g }
/-- An HLK range. -/
def State.hlkRange (s : State) (i : Nat) : HlkRange := tabGet (fun _ => {}) s.hlk.ranges i
/-- An MSI-X table entry. -/
def State.msixEntry (s : State) (f v : Nat) : MsixEntry := tabGet (fun _ => {}) s.hlk.msix (f * 32 + v)
/-- The state with an MSI-X table entry changed. -/
def State.onMsix (s : State) (f v : Nat) (g : MsixEntry → MsixEntry) : State :=
  s.onHlk fun h => { h with msix := tabMod (fun _ => {}) h.msix (f * 32 + v) g }

/-- A channel slot. -/
def State.chan (s : State) (i : Nat) : Chan := tabGet (fun _ => {}) s.dbl.chan i
/-- The state with a channel slot changed. -/
def State.onChan (s : State) (i : Nat) (f : Chan → Chan) : State :=
  s.onDbl fun d => { d with chan := tabMod (fun _ => {}) d.chan i f }
/-- A function's management queue. -/
def State.mgmt (s : State) (f : Nat) : Mgmt := tabGet (fun _ => {}) s.dbl.mgmt f
/-- The state with a management queue changed. -/
def State.onMgmt (s : State) (f : Nat) (g : Mgmt → Mgmt) : State :=
  s.onDbl fun d => { d with mgmt := tabMod (fun _ => {}) d.mgmt f g }

/-- The reset entry of a profile (R82, R83). -/
def profDflt (n : Nat) : Profile :=
  if n < 2 then
    { fmt := if n = 0 then 0x00000100350A0104 else 0x00000100350A0105, bitsA := 0x0087868483828180,
      bitsB := 0x000000BFBBBC8988, rsv := 0x1FC0000000000000 }
  else {}

/-- A profile. -/
def State.profile (s : State) (n : Nat) : Profile := tabGet profDflt s.xlt.prof n

/-- The reset entry of a partition range (R88): ranges 0 of partition 0 span their spaces. -/
def prangeDflt (k : Nat) : PRange :=
  if k = 0 ∨ k = 8 then { base := 1, limit := 0xFFFFFFFFFFFFF000 } else {}

/-- A partition's range: kind 0 host, 1 device. -/
def State.prange (s : State) (p kind i : Nat) : PRange := tabGet prangeDflt s.xlt.range (p * 16 + kind * 8 + i)

/-- The reset ASID_MAX of a partition (R104). -/
def asidMaxDflt (p : Nat) : Nat := if p = 0 then 0x1000 else 0

/-- A core client. -/
def State.client (s : State) (c : Nat) : Client := tabGet (fun _ => {}) s.xlt.client c
/-- A function's bind registers. -/
def State.bindRegs (s : State) (f : Nat) : Bind := tabGet (fun _ => {}) s.xlt.bind f
/-- The state with a function's bind registers changed. -/
def State.onBind (s : State) (f : Nat) (g : Bind → Bind) : State :=
  s.onXlt fun x => { x with bind := tabMod (fun _ => {}) x.bind f g }
/-- The binding of an ASID, if any. -/
def State.binding? (s : State) (asid : Nat) : Option Binding := s.xlt.binds.find? (·.asid = asid)
/-- A walker. -/
def State.walker (s : State) (w : Nat) : Option Walk := tabGet (fun _ => none) s.xlt.walk w
/-- The state with a walker changed. -/
def State.setWalker (s : State) (w : Nat) (x : Option Walk) : State :=
  s.onXlt fun t => { t with walk := tabPut (fun _ => none) t.walk w x }

/-- A partition's Skink registers. -/
def State.skkPart (s : State) (p : Nat) : SkkPart := tabGet (fun _ => {}) s.skk.part p
/-- The state with a partition's Skink registers changed. -/
def State.onSkkPart (s : State) (p : Nat) (f : SkkPart → SkkPart) : State :=
  s.onSkk fun k => { k with part := tabMod (fun _ => {}) k.part p f }

/-- A mover context. -/
def State.job (s : State) (m : Nat) (urgent : Bool) : Job := tabGet (fun _ => {}) s.mov.job (m * 2 + flag urgent)
/-- The state with a mover context changed. -/
def State.onJob (s : State) (m : Nat) (urgent : Bool) (f : Job → Job) : State :=
  s.onMov fun v => { v with job := tabMod (fun _ => {}) v.job (m * 2 + flag urgent) f }

/-- The reset staging area of a partition (R145). -/
def areaDflt (p : Nat) : Area := { size := if p = 0 then 256 else 0 }
/-- A partition's staging area. -/
def State.area (s : State) (p : Nat) : Area := tabGet areaDflt s.mov.area p
/-- The state with a staging area changed. -/
def State.onArea (s : State) (p : Nat) (f : Area → Area) : State :=
  s.onMov fun v => { v with area := tabMod areaDflt v.area p f }
/-- A function's MOV view. -/
def State.movView (s : State) (f : Nat) : MovView := tabGet (fun _ => {}) s.mov.view f
/-- The state with a MOV view changed. -/
def State.onMovView (s : State) (f : Nat) (g : MovView → MovView) : State :=
  s.onMov fun v => { v with view := tabMod (fun _ => {}) v.view f g }

/-- A partition's CCU counters. -/
def State.ccuCount (s : State) (p : Nat) : CcuCount := tabGet (fun _ => {}) s.ccu.count p
/-- The state with a partition's CCU counters changed. -/
def State.onCcuCount (s : State) (p : Nat) (f : CcuCount → CcuCount) : State :=
  s.onCcu fun c => { c with count := tabMod (fun _ => {}) c.count p f }

/-- A sync object. -/
def State.obj (s : State) (i : Nat) : Obj := tabGet (fun _ => {}) s.syn.obj i
/-- The state with a sync object changed. -/
def State.onObj (s : State) (i : Nat) (f : Obj → Obj) : State :=
  s.onSyn fun y => { y with obj := tabMod (fun _ => {}) y.obj i f }
/-- A wait record. -/
def State.wrec (s : State) (r : Nat) : Option WRec := tabGet (fun _ => none) s.syn.rec_ r
/-- The state with a wait record set. -/
def State.setWrec (s : State) (r : Nat) (x : Option WRec) : State :=
  s.onSyn fun y => { y with rec_ := tabPut (fun _ => none) y.rec_ r x }
/-- A function's SYN view. -/
def State.synView (s : State) (f : Nat) : SynView := tabGet (fun _ => {}) s.syn.view f
/-- The state with a SYN view changed. -/
def State.onSynView (s : State) (f : Nat) (g : SynView → SynView) : State :=
  s.onSyn fun y => { y with view := tabMod (fun _ => {}) y.view f g }

/-- A plan entry. -/
def State.entry (s : State) (i : Nat) : Entry := tabGet (fun _ => {}) s.cht.entry i
/-- The state with a plan entry changed. -/
def State.onEntry (s : State) (i : Nat) (f : Entry → Entry) : State :=
  s.onCht fun c => { c with entry := tabMod (fun _ => {}) c.entry i f }
/-- A function's CHT view. -/
def State.chtView (s : State) (f : Nat) : ChtView := tabGet (fun _ => {}) s.cht.view f
/-- The state with a CHT view changed. -/
def State.onChtView (s : State) (f : Nat) (g : ChtView → ChtView) : State :=
  s.onCht fun c => { c with view := tabMod (fun _ => {}) c.view f g }

/-- A line at the home. -/
def State.line (s : State) (n : Nat) : Line := tabGet (fun _ => {}) s.home.line n
/-- The state with a line changed. -/
def State.onLine (s : State) (n : Nat) (f : Line → Line) : State :=
  s.onHome fun h => { h with line := tabMod (fun _ => {}) h.line n f }

/-- An outbound window entry. -/
def State.owin (s : State) (i : Nat) : WinEntry := tabGet (fun _ => {}) s.peer.owin i
/-- An inbound window entry. -/
def State.iwin (s : State) (i : Nat) : WinEntry := tabGet (fun _ => {}) s.peer.iwin i
/-- The state with an inbound window entry changed. -/
def State.onIwin (s : State) (i : Nat) (f : WinEntry → WinEntry) : State :=
  s.onPeer fun p => { p with iwin := tabMod (fun _ => {}) p.iwin i f }
/-- The reset outbound run of a partition (R282). -/
def oAllotDflt (p : Nat) : Allot := { count := if p = 0 then 16384 else 0 }
/-- The reset inbound run of a partition (R282). -/
def iAllotDflt (p : Nat) : Allot := { count := if p = 0 then 65536 else 0 }
/-- A flow to a chip. -/
def State.flow (s : State) (c : Nat) : Flow := tabGet (fun _ => {}) s.peer.flow c
/-- The state with a flow changed. -/
def State.onFlow (s : State) (c : Nat) (f : Flow → Flow) : State :=
  s.onPeer fun p => { p with flow := tabMod (fun _ => {}) p.flow c f }
/-- The receive side of a flow. -/
def State.rxFlow (s : State) (c : Nat) : RxFlow := tabGet (fun _ => {}) s.peer.rx c
/-- The state with a receive side changed. -/
def State.onRx (s : State) (c : Nat) (f : RxFlow → RxFlow) : State :=
  s.onPeer fun p => { p with rx := tabMod (fun _ => {}) p.rx c f }

/-- The reset entry of a partition (R284, R303). -/
def partDflt (p : Nat) : Part :=
  if p = 0 then
    { st := .enabled, qChan := 16384, qWalk := 32, qMov := 24, qWays := 16, qSync := 65536, qEntries := 65536, qRows := 512,
      qEvt := 256 }
  else {}
/-- A partition. -/
def State.part (s : State) (p : Nat) : Part := tabGet partDflt s.prt.part p
/-- The state with a partition changed. -/
def State.onPart (s : State) (p : Nat) (f : Part → Part) : State :=
  s.onPrt fun q => { q with part := tabMod partDflt q.part p f }

/-- An arbiter. -/
def State.arbiter (s : State) (a : Nat) : Arbiter := tabGet (fun _ => {}) s.arb.arb a
/-- The state with an arbiter changed. -/
def State.onArbiter (s : State) (a : Nat) (f : Arbiter → Arbiter) : State :=
  s.onArb fun x => { x with arb := tabMod (fun _ => {}) x.arb a f }
/-- A requester of an arbiter. -/
def State.areq (s : State) (a i : Nat) : ArbReq := tabGet (fun _ => {}) s.arb.req (a * 16384 + i)
/-- The state with a requester changed. -/
def State.onAreq (s : State) (a i : Nat) (f : ArbReq → ArbReq) : State :=
  s.onArb fun x => { x with req := tabMod (fun _ => {}) x.req (a * 16384 + i) f }

/-- A partition's Wake Latency Budget (R409). -/
def State.wlb (s : State) (p : Nat) : BitVec 32 := tabGet (fun _ => 0xC8) s.pwr.wlb p

/-- The page's counters and CTL. -/
def State.page (s : State) (pg : Nat) : PageCounters := tabGet (fun _ => {}) s.glb.blocks pg

/-- The counters of a page run (R421): neither CTL.CNT_FREEZE nor DBG_CTL.FREEZE_ALL is set. -/
def State.counting (s : State) (pg : Nat) : Bool := !s.glb.freezeAll && !(s.page pg).freeze

/-- Counters added. -/
def Counts.plus (a b : Counts) : Counts :=
  { active := a.active + b.active, ops := a.ops + b.ops, stall := a.stall + b.stall, bytes := a.bytes + b.bytes, ce := a.ce + b.ce
    ue := a.ue + b.ue, retired := a.retired + b.retired }

/-- What counters have risen by. -/
def Counts.less (a b : Counts) : Counts :=
  { active := a.active - b.active, ops := a.ops - b.ops, stall := a.stall - b.stall, bytes := a.bytes - b.bytes, ce := a.ce - b.ce
    ue := a.ue - b.ue, retired := a.retired - b.retired }

/-- What a page has counted in the hub cycle `time` (R421). -/
def PageCounters.nowOf (c : PageCounters) (time : Word) : Counts := if c.nowAt = time then c.now else {}

/-- The counters after a change, which is noted as of this hub cycle (R421). -/
def PageCounters.counted (c : PageCounters) (time : Word) (f : PageCounters → PageCounters) : PageCounters :=
  { f c with nowAt := time, now := (c.nowOf time).plus ((f c).toCounts.less c.toCounts) }

/-- The state with a page's counters changed, if they run. -/
def State.onCount (s : State) (pg : Nat) (f : PageCounters → PageCounters) : State :=
  if s.counting pg then s.onGlb fun g => { g with blocks := tabMod (fun _ => {}) g.blocks pg fun c => c.counted s.glb.time f } else s

/-- OPS of a page raised by `n` (R416, R421). -/
def State.ops (s : State) (pg n : Nat) : State := s.onCount pg fun c => { c with ops := satAdd c.ops n }
/-- BYTES of a page raised by `n` (R421). -/
def State.bytes (s : State) (pg n : Nat) : State := s.onCount pg fun c => { c with bytes := satAdd c.bytes n }
/-- The data bytes that something put on a host link carries (R421; log entry 35). -/
def Out.hostBytes : Out → Nat
  | .posted _ _ _ bs _ _ => bs.length
  | .d2hData .. => 64
  | .msix .. => 4
  | _ => 0

/-- The state with one more thing on a port; HLK's BYTES counts what a host link carries. -/
def State.emit (s : State) (o : Out) : State :=
  let t := if o.hostBytes = 0 then s else s.bytes 0x01 o.hostBytes
  { t with out := t.out ++ [o] }

/-- RETIRED of a page raised by 1, and DEGRADED set (R418, R421). -/
def State.retire (s : State) (pg : Nat) : State :=
  (s.onCount pg fun c => { c with retired := satInc c.retired }).onGlb
    fun g => { g with blocks := tabMod (fun _ => {}) g.blocks pg (fun c => { c with degraded := true }) }

/-- A free value is drawn: the count rises. -/
def State.draw (s : State) : Nat × State := (s.free, { s with free := s.free + 1 })

/-! ## Capacity lost for good (18_stored_data_protection.md R370, R373) -/

/-- A bank of a structure has been retired with no spare. -/
def State.bankLost (s : State) (str bank : Nat) : Bool := s.ras.lostCap.any fun c => c.1 = str && c.2 / 65536 = bank

/-- Banks of a structure retired with no spare. -/
def State.banksLost (s : State) (str : Nat) : Nat := (s.ras.lostCap.filter (·.1 = str)).length

/-- A way of a bank of a set-associative structure has been retired. -/
def State.wayLost (s : State) (str bank w : Nat) : Bool :=
  s.ras.lostCap.any fun c => c.1 = str && c.2 / 65536 = bank && bit (Config.macroWays str bank (c.2 % 65536)) w

/-- Ways left of the `n` ways of a bank. -/
def State.waysLeft (s : State) (str bank n : Nat) : Nat :=
  if s.ras.lostCap = [] then n else ((List.range n).filter fun w => !s.wayLost str bank w).length

/-- The macro that holds an entry has been lost. -/
def State.macroLost (s : State) (str entry : Nat) : Bool :=
  s.ras.lostCap.any (fun c => c.1 = str) && s.ras.lostCap.contains (str, Config.entryMacro str entry)

/-- The entry of the ASID table that holds a binding, as its macro names it (18_stored_data_protection.md R370; log entry 139). -/
def bindKey (asid : Nat) : Nat := 16 * 65536 + asid

/-- The entry of Reed's credits for a channel's binding, as its macro names it: by slot * 23 + path (18_stored_data_protection.md R370). -/
def chanCreditKey (k : Nat) : Nat := 6 * 65536 + k
/-- The entry of Reed's credits for a partition's binding: by partition * 23 + path. -/
def partCreditKey (k : Nat) : Nat := 6 * 65536 + 376832 + k

/-- A bank of a structure is being copied to the spare bank: requests for it wait (R374). -/
def State.bankCopies (s : State) (str bank : Nat) : Bool := s.ras.copying.contains (str, bank)

/-! ## NoC ports -/

/-- Class of a data-port message: 0 REQ, 1 SNP, 2 RSP (R336). -/
def opcClass (opc : Nat) : Nat := if opc < 0x10 ∨ (0x40 ≤ opc ∧ opc < 0x50) then 0 else if opc < 0x20 then 1 else 2

/-- Class of a port-4 message (R338). -/
def p4Class : P4Msg → Nat
  | .xltInv .. => 0
  | .evtNotify .. => 0
  | _ => 2

/-- Port and class of a NoC message; none for what goes elsewhere. -/
def nocRoute : Out → Option (Nat × Nat)
  | .noc p m => some (p, opcClass m.opc)
  | .p4 m => some (4, p4Class m)
  | _ => none

/-- Index of a credit counter (R333). -/
def creditKey (port cls slot : Nat) : Nat := (port * 3 + cls) * 2 + slot

/-- A credit counter. -/
def State.credit (s : State) (port cls slot : Nat) : Credit := tabGet (fun _ => {}) s.noc.credit (creditKey port cls slot)

/-- The slot with a credit for a class, lower first (R333). -/
def State.creditSlot? (s : State) (port cls : Nat) : Option Nat :=
  if (s.credit port cls 0).held > 0 then some 0 else if (s.credit port cls 1).held > 0 then some 1 else none

/-- A message that spends a credit and goes out, or waits for one (R333). -/
def State.nocTry (s : State) (o : Out) : State :=
  match nocRoute o with
  | none => s.emit o
  | some (p, c) =>
    match s.creditSlot? p c with
    | none => s.onNoc fun n => { n with wait := n.wait ++ [o] }
    | some sl =>
      let spend (x : Credit) : Credit := { x with held := x.held - 1, spent := x.spent + 1 }
      (s.onNoc fun n => { n with credit := tabMod (fun _ => {}) n.credit (creditKey p c sl) spend }).emit o

/-- A NoC message is issued: it waits behind those of its port and class that wait (R333). -/
def State.send (s : State) (o : Out) : State :=
  if s.noc.wait.any (fun w => nocRoute w = nocRoute o) then s.onNoc fun n => { n with wait := n.wait ++ [o] } else s.nocTry o

/-- The waiting messages are tried again, oldest first. -/
def State.nocDrain (s : State) : State :=
  s.noc.wait.foldl (fun t o => t.nocTry o) (s.onNoc fun n => { n with wait := [] })

/-- The first TAG from a number on that no request outstanding of a unit has (R335). -/
def State.freeTag (s : State) (agent : Nat) : Nat :=
  let mine := s.noc.reqs.filter fun r => r.agent = agent
  (((List.range (mine.length + 1)).map fun k => (s.noc.nextTag + k) % 4096).find? fun k => mine.all fun r => r.tag ≠ k).getD s.noc.nextTag

/-- A request on a data port whose response finds its holder by AGENT and TAG (R335). -/
def State.nocRequest (s : State) (port : Nat) (m : NocMsg) (f : NocFor) : State :=
  let tag := s.freeTag m.agent
  let r : NocReq := { port := port, agent := m.agent, tag := tag, addr := m.addr, for_ := f }
  (s.onNoc fun n => { n with nextTag := (tag + 1) % 4096, reqs := n.reqs ++ [r] }).send (.noc port { m with tag := tag })

/-- The status codes that the spec defines (00_scope.md R8; 03 R56, 04 R99, 09 R198, 10 R237, 12 R281, 13 R302, 14 R324, 18). -/
def codeDefined (c : Code) : Bool :=
  let n := c.toNat
  n = 0 || decide (3 ≤ n ∧ n ≤ 0x0A) || decide (0x21 ≤ n ∧ n ≤ 0x29) || decide (0x41 ≤ n ∧ n ≤ 0x45) || decide (0x61 ≤ n ∧ n ≤ 0x63)
    || decide (0x81 ≤ n ∧ n ≤ 0x82) || decide (0xA1 ≤ n ∧ n ≤ 0xA5) || decide (0xC1 ≤ n ∧ n ≤ 0xC2) || decide (0xE1 ≤ n ∧ n ≤ 0xE3)

/-- STATUS of a response from device memory, as the hub reports it: it reports no reserved code (00_scope.md R8; log entry 111). -/
def nocStatus (c : Code) : Code := if codeDefined c then c else 0xC1

/-! ## Host links -/

/-- The four links. -/
def links4 : List Nat := [0, 1, 2, 3]

/-- Function `f` is enabled on link `l`, which is up (R311). -/
def State.fnOn (s : State) (f l : Nat) : Bool := (s.link l).up && (f = 0 || (s.inst l f).en)

/-- The function is in D0 on every link where it is enabled, and so is PF0 (R397). -/
def State.inD0 (s : State) (f : Nat) : Bool :=
  links4.all fun l => !(s.link l).up || ((s.inst l 0).dstate = 0 && (!(s.fnOn f l) || (s.inst l f).dstate = 0))

/-- A configuration write sets Bus Master Enable of an instance, with the control fields it carries (14_host_link_endpoint.md R327). -/
def Inst.enable (i : Inst) (c : FnCtl) : Inst :=
  { i with bme := true, mse := c.mse, mps := c.mps, cto := c.cto, ro := c.ro, tag14 := c.tag14, ltrEn := c.ltrEn }

/-- The 64 functions. -/
def functions : List Nat := List.range 64

/-- The budgets of the partitions that are ENABLED and whose function is in D0 (19_power_reset_and_bringup.md R390). -/
def State.budgets (s : State) : List Nat :=
  (functions.filter fun p => (s.part p).st = .enabled && s.inD0 p).map fun p => (s.wlb p).toNat

/-- L in ns: the smallest budget, 0xFFFFFFFF when unbounded (19_power_reset_and_bringup.md R390, R409). -/
def State.latency (s : State) : Nat := s.budgets.foldl min 0xFFFFFFFF

/-- The LTR messages that a change of L from `s` to `t` sends: on each link whose PF0 instance enables them (R396). -/
def State.ltrs (s t : State) : List Out :=
  if s.latency = t.latency then []
  else (links4.filter fun l => (t.link l).up && (t.inst l 0).ltrEn).map fun l =>
    .ltr l (if t.latency = 0xFFFFFFFF then none else some t.latency)

/-- The LTR messages of the change from `s` to this state go out (R396). -/
def State.ltrSince (t s : State) : State := { t with out := t.out ++ s.ltrs t }

/-- An FLR of function `f`, or of PF0, runs (R311, R401). -/
def State.inFlr (s : State) (f : Nat) : Bool := s.hlk.flr.contains f || s.hlk.flr.contains 0

/-- Function `f` may master the bus: Bus Master Enable on each link where it is enabled, in D0, in no FLR (R321, R398). -/
def State.busMaster (s : State) (f : Nat) : Bool :=
  links4.any (s.fnOn f) && links4.all (fun l => !(s.fnOn f l) || (s.inst l f).bme) && s.inD0 f && !s.inFlr f

/-- Function `f` is master-enabled for DMA: HUB_FATAL stops every DMA of every function (R297, R321). -/
def State.masterEnabled (s : State) (f : Nat) : Bool := s.busMaster f && !s.glb.fatal

/-- Link `l` carries CXL.cache (R306). -/
def State.carries (s : State) (l : Nat) : Bool := (s.link l).up && (s.link l).flit256 && (s.link l).cacheEn

/-- The group of a host address: that of the first enabled range that holds it (R306). -/
def State.groupOf (s : State) (a : Word) : Option Nat :=
  ((List.range 8).find? fun i =>
    let r := s.hlkRange i
    bit r.base 0 && decide (field r.base 63 12 ≤ field a 63 12) && decide (field a 63 12 ≤ field r.limit 63 12)).map
    fun i => field (s.hlkRange i).base 5 4

/-- Link `l` is in group `g` (R306, R326). -/
def State.inGroup (s : State) (g l : Nat) : Bool := bit s.hlk.groupMap (8 * l + 7) && field s.hlk.groupMap (8 * l + 1) (8 * l) = g

/-- The link a CXL.cache request for an address leaves on (R24, R306): none means 0x44. R24 gives the 4 KiB interleave no function: the page
number modulo the number of links that carry is the model's (DESIGN CHOICE, log entry 127). -/
def State.cacheLink (s : State) (a : Word) : Option Nat :=
  let fallback := links4.find? s.carries
  match s.groupOf a with
  | none => fallback
  | some g =>
    let ls := links4.filter fun l => s.inGroup g l && s.carries l
    if ls = [] then fallback else ls[field a 63 12 % ls.length]?

/-- The link a CXL.io request of a function leaves on (R320). -/
def State.ioLink (s : State) (f : Nat) (a : Word) : Option Nat :=
  let low := links4.find? (s.fnOn f)
  let near := match s.groupOf a with
    | none => low
    | some g => (links4.find? fun k => s.inGroup g k && s.fnOn f k).or low
  match s.cacheLink a with
  | none => near
  | some l => if s.fnOn f l then some l else near

/-- An MSI-X write of a vector, or its PBA bit (R350, R321): under the vector's mask, and MSI-X Enable and Function Mask of the function's
instance on the link it would leave on (R308; log entry 137). -/
def State.msix (s : State) (f v : Nat) : State :=
  let e := s.msixEntry f v
  let shut (l : Nat) : Bool := !(s.inst l f).msixEn || (s.inst l f).msixMask
  if e.mask || !s.busMaster f then s.onMsix f v fun x => { x with pending := true }
  else match s.ioLink f e.addr with
    | none => s.onMsix f v fun x => { x with pending := true }
    | some l =>
      if shut l then s.onMsix f v fun x => { x with pending := true }
      else (s.onMsix f v fun x => { x with pending := false }).emit (.msix l f v e.addr e.data)

/-- The pending vectors of a function that may now be sent are sent (R321, R350). -/
def State.msixRetry (s : State) (f : Nat) : State :=
  (List.range 32).foldl (fun t v => if (t.msixEntry f v).pending then t.msix f v else t) s

/-- The AER registers of a function's instance on a link. -/
def State.aerOf (s : State) (link fn : Nat) : Aer := tabGet (fun _ => {}) s.hlk.aer (link * 64 + fn)

/-- The state with the AER registers of an instance changed. -/
def State.onAer (s : State) (link fn : Nat) (f : Aer → Aer) : State :=
  s.onHlk fun h => { h with aer := tabMod (fun _ => {}) h.aer (link * 64 + fn) f }

/-- The place of an error's bit in its status register, uncorrectable or correctable, as the standard has it (log entry 126). -/
def AerErr.bit : AerErr → Nat
  | .correctedInternal => 14
  | .headerOverflow => 15
  | .malformed => 18
  | .poisoned => 12
  | .ecrc => 19
  | .unsupported => 20
  | .cplTimeout => 14
  | .unexpectedCpl => 16
  | .uncorrectableInternal => 22

/-- A correctable error (R325). -/
def AerErr.correctable : AerErr → Bool
  | .correctedInternal => true
  | .headerOverflow => true
  | _ => false

/-- The error is of a TLP, whose header the log keeps. -/
def AerErr.hasHeader : AerErr → Bool
  | .malformed => true
  | .poisoned => true
  | .ecrc => true
  | .unsupported => true
  | .unexpectedCpl => true
  | _ => false

/-- Bit `b` of a 32-bit register. -/
def bit32 (w : BitVec 32) (b : Nat) : Bool := w.getLsbD b

/-- A correctable status bit is set, and reported unless it is masked (R325). -/
def State.aerCor (s : State) (link fn b : Nat) (e : AerErr) : State :=
  let s1 := s.onAer link fn fun a => { a with cor := a.cor ||| BitVec.ofNat 32 (2 ^ b) }
  if bit32 (s.aerOf link fn).corMask b then s1 else s1.emit (.aer link fn e .cor)

/-- The first uncorrectable error of a TLP, of those not masked, is kept with its header; one that comes while another is kept overflows the
log (R325). -/
def State.aerLog (s : State) (link fn : Nat) (e : AerErr) : State :=
  let a := s.aerOf link fn
  if bit32 a.uncMask e.bit then s
  else if a.unc &&& ~~~a.uncMask = 0 then
    let s1 := s.onAer link fn fun a => { a with first := BitVec.ofNat 5 e.bit }
    if e.hasHeader then
      (s1.onHlk fun h => { h with headers := h.headers + 1 }).onAer link fn fun a => { a with header := Config.tlpHeader s.hlk.headers }
    else s1
  else if e.hasHeader then s.aerCor link fn 15 .headerOverflow
  else s

/-- An error is logged in a function's AER on a link and reported by its severity; an advisory one that is not fatal as a correctable error
(R325; log entry 137). -/
def State.aerAt (s : State) (link fn : Nat) (e : AerErr) (advisory : Bool := false) : State :=
  if e.correctable then s.aerCor link fn e.bit e
  else
    let a := s.aerOf link fn
    let s1 := (s.aerLog link fn e).onAer link fn fun a => { a with unc := a.unc ||| BitVec.ofNat 32 (2 ^ e.bit) }
    if bit32 a.uncMask e.bit then s1
    else if bit32 a.uncSev e.bit then s1.emit (.aer link fn e .fatal)
    else if advisory then s1.aerCor link fn 13 e
    else s1.emit (.aer link fn e .nonFatal)

/-- An error reported in a function's AER on each link that is up (R325). -/
def State.aer (s : State) (f : Nat) (e : AerErr) : State :=
  links4.foldl (fun t l => if t.fnOn f l then t.aerAt l f e else t) s

/-- The configuration of a function's instance is reset to a value, its AER registers with it (R311). -/
def State.resetInst (s : State) (link fn : Nat) (i : Inst) : State := (s.onInst link fn fun _ => i).onAer link fn fun _ => {}

/-! ## Lists -/

/-- The list without its first element that satisfies `p`. -/
def dropFirst {α : Type} (p : α → Bool) : List α → List α
  | [] => []
  | a :: r => if p a then r else a :: dropFirst p r

/-- A list without repeats. -/
def dedup : List Nat → List Nat
  | [] => []
  | a :: r => if r.contains a then dedup r else a :: dedup r

/-- A number put into a rising list, once. -/
def insertNat : List Nat → Nat → List Nat
  | [], k => [k]
  | a :: r, k => if k = a then a :: r else if k < a then k :: a :: r else a :: insertNat r k

/-- The list with its first element that satisfies `p` changed. -/
def modFirst {α : Type} (p : α → Bool) (f : α → α) : List α → List α
  | [] => []
  | a :: r => if p a then f a :: r else a :: modFirst p f r

end Sys2Proof.Machine
end

