-- ==== Sys2Proof/Machine/Events.lean ====
section
/-! DEFINITION. The event concentrator: edges, eligibility, requests, delivery, claims (16_event_concentrator.md R345 to R356). -/

namespace Sys2Proof.Machine

/-- The partition of a source (R345). -/
def srcPart (n : Nat) : Nat :=
  if n < 0x40 then 0 else if n < 0x680 then n % 64 else if 0x800 ≤ n then (n - 0x800) / 96 else 0

/-- A source that is never raised (R345): the spurious ID, a reserved number, and a VF's view of a block whose registers exist in PF0's page
only (GLB, HLK, CTX, COH, PXP, RAS, TWN, DBG: 21_register_pages.md R416). -/
def neverRaised (n : Nat) : Bool :=
  let own := [0x00, 0x01, 0x04, 0x09, 0x0B, 0x10, 0x11, 0x14]
  n = 0 || (decide (2 ≤ n) && decide (n < 0x40)) || (decide (0x680 ≤ n) && decide (n < 0x800)) ||
    (decide (0x40 ≤ n) && decide (n < 0x580) && n % 64 ≠ 0 && own.contains ((n - 0x40) / 64))

/-- RUNNING of a target (R348). -/
def running (t : Target) : BitVec 5 := match t.stack with | [] => 0 | (_, l) :: _ => l

/-- Source `x` is eligible at target `t` (R349). -/
def eligible (t : Target) (i : Nat) (x : Source) : Bool :=
  x.pending && x.target.toNat = i && t.valid && decide (t.thresh < x.level) && decide (running t < x.level)

/-- The eligible source of the highest level at a target, the lowest number among equals (R351). -/
def State.best (s : State) (t : Nat) : Option (Nat × Source) :=
  s.evc.src.foldl (fun b p =>
    if eligible (s.tgt t) t p.2 then
      match b with
      | none => some p
      | some q => if q.2.level < p.2.level then some p else some q
    else b) none

/-- PME of a partition's function in D3hot at the first rising edge of REQUEST at one of its host targets (R399). -/
def State.pmeEdge (s : State) (f : Nat) : State :=
  let ls := links4.filter fun l => s.fnOn f l && (s.inst l f).dstate = 3 && (s.inst l f).pmeEn && !(s.inst l f).pmeStatus
  if ls = [] ∨ s.pwr.pmeSent.contains f then s
  else match ls with
    | [] => s
    | l :: _ => ((s.onInst l f fun i => { i with pmeStatus := true }).onPwr
        fun p => { p with pmeSent := f :: p.pmeSent }).emit (.pme l f)

/-- Delivery at a rising edge of REQUEST (R350). -/
def State.deliver (s : State) (t : Nat) : State :=
  let g := s.tgt t
  if t < 192 then (s.pmeEdge g.part.toNat).msix g.part.toNat g.vector.toNat
  else match s.best t with
    | none => s
    | some (n, x) => s.send (.p4 (.evtNotify (t - 192) n x.level.toNat))

/-- evt_out (R348, R350): the bit of on-die target t, t − 192, is 1 for as long as its REQUEST is. -/
def State.evtOut (s : State) : Word := (List.range 64).foldl (fun w k => w ||| place (s.tgt (192 + k)).req.toNat k) 0

/-- REQUEST of a target follows its sources; a rising edge delivers, and an on-die target's bit of evt_out follows REQUEST (R349, R350). -/
def State.refresh (s : State) (t : Nat) : State :=
  let now := (s.best t).isSome
  let was := (s.tgt t).req
  let s1 := s.onTgt t fun g => { g with req := now }
  let s2 := if 192 ≤ t ∧ now ≠ was then s1.emit (.evtOut (t - 192) now) else s1
  if now && !was then s2.deliver t else s2

/-- EVC_MERGE_COUNT of a partition rises (R346). -/
def State.merge (s : State) (p : Nat) : State :=
  s.onEvc fun e => { e with merge := tabMod (fun _ => 0) e.merge p satInc }

/-- A rising edge of a source's condition (R345, R346). -/
def State.edge (s : State) (n : Nat) : State :=
  let x := s.src n
  if !x.en || neverRaised n then s
  else if x.pending then (s.merge (srcPart n)).onSrc n fun y => { y with edgeAt := some s.glb.time }
  else (s.onSrc n fun y => { y with pending := true, edgeAt := none }).refresh x.target.toNat

/-- The claim at a target (R351): the value read and the state after. An edge merged in this hub cycle leaves PENDING set (R353). -/
def State.claim (s : State) (t : Nat) : Word × State :=
  match s.best t with
  | none => (0, s)
  | some (n, x) =>
    (place x.level.toNat 16 ||| BitVec.ofNat 64 n,
     ((((s.onSrc n fun y => { y with pending := y.edgeAt = some s.glb.time, edgeAt := none }).onTgt t
        fun g => { g with stack := (n, x.level) :: g.stack }).ops 0x0E 1).refresh t))

end Sys2Proof.Machine
end

