-- ==== Sys2Proof/Machine/Flags.lean ====
section
/-! DEFINITION. Sticky bits, their first captures, counts, events and trace entries (21_register_pages.md R418 to R425), and the
named bits of every page. -/

namespace Sys2Proof.Machine

/-- The STICKY_FIRST word of a setting (R418). -/
def firstWord (b : Nat) (code : Code) (index : Nat) (time : Word) : Word :=
  place 1 63 ||| place (b % 64) 56 ||| place code.toNat 48 ||| place (index % 16384) 34 ||| BitVec.ofNat 64 (field time 33 0)

/-- A setting counts, and captures STICKY_FIRST when it is empty or holds a higher bit of the same hub cycle (R419); what one hub cycle sets
is kept apart (00_scope.md R13). -/
def capture (k : Sticky) (b : Nat) (code : Code) (index : Nat) (time : Word) : Sticky :=
  let take := !bit k.first 63 || (k.firstAt = time && decide (b < field k.first 61 56))
  let same : Bool := k.freshAt = time
  let takeNow := !same || !bit k.freshFirst 63 || decide (b < field k.freshFirst 61 56)
  { k with
    freshAt := time, fresh := (if same then k.fresh else 0) ||| place 1 (b % 64)
    freshFirst := if takeNow then firstWord b code index time else k.freshFirst
    count := satInc k.count, firstAt := if take then time else k.firstAt,
    first := if take then firstWord b code index time else k.first }

/-- What the hub has set in the cycle `time`. -/
def Sticky.now (k : Sticky) (time : Word) : Word := if k.freshAt = time then k.fresh else 0

/-- STICKY_FIRST as the settings of the cycle `time` alone would have it. -/
def Sticky.firstNow (k : Sticky) (time : Word) : Word := if k.freshAt = time then k.freshFirst else 0

/-- The enabled sticky set of a view is not empty (R420). -/
def raised (k : Sticky) : Bool := k.bits &&& k.en ≠ 0

/-- A view's sticky registers change; the page's event source sees an edge when its enabled set fills (R420). -/
def State.setView (s : State) (pg view : Nat) (k : Sticky) : State :=
  let old := s.sticky pg view
  let s' := s.onGlb fun g => { g with sticky := tabPut stickyDflt g.sticky (view * 32 + pg) k }
  if raised k && !raised old then s'.edge (0x40 + 64 * pg + view) else s'

/-- The setting itself, before the trace sees it. -/
def State.stick (s : State) (pg view b : Nat) (code : Code) (index : Nat) : State :=
  let k := s.sticky pg view
  s.setView pg view (capture { k with bits := k.bits ||| place 1 b } b code index s.glb.time)

/-- The trace of a setting (R425): two entries in one hub cycle, the rest lost. -/
def State.trace (s : State) (pg view b : Nat) (code : Code) (index : Nat) : State :=
  let g := s.glb
  if !g.traceEn || !bit g.traceMask pg || g.freezeAll then s
  else
    let n := if g.traceAt = g.time then g.traceNow else 0
    if n < 2 then
      let info := place pg 56 ||| place (view % 64) 48 ||| place (b % 64) 40 ||| place code.toNat 32
      let e : TraceEntry := { time := g.time, info := info ||| BitVec.ofNat 64 (index % 16384) }
      (s.onGlb fun g => { g with
          trace := tabPut (fun _ => {}) g.trace g.tracePtr.toNat e, tracePtr := g.tracePtr + 1, traceAt := g.time,
          traceWrapped := g.traceWrapped || g.tracePtr = 0xFFF, traceNow := n + 1 }).ops 0x14 1
    else (s.onGlb fun g => { g with traceLost := satInc g.traceLost }).stick 0x14 0 1 0 0

/-- A sticky bit is set in a page's view, with its code, and in GLB and DBL an index (R418, R419, R425). -/
def State.flag (s : State) (pg view b : Nat) (code : Code := 0) (index : Nat := 0) : State :=
  let i := if pg = 0 ∨ pg = 3 then index else 0
  (s.stick pg view b code i).trace pg view b code i

/-- A code captured with no bit (R42, R418: BIT 0x3F): only if STICKY_FIRST is empty, or is cleared in the same hub cycle (R419). -/
def State.captureOnly (s : State) (pg view : Nat) (code : Code) (index : Nat) : State :=
  let k := s.sticky pg view
  let t := s.glb.time
  let w := firstWord 0x3F code index t
  let k1 := { k with
    freshAt := t, fresh := k.now t, freshFirst := if bit (k.firstNow t) 63 then k.firstNow t else w }
  s.setView pg view (if bit k.first 63 then k1 else { k1 with first := w, firstAt := t })

/-! ## Page numbers (R416) -/

/-- GLB. -/
def pgGLB : Nat := 0x00
/-- HLK. -/
def pgHLK : Nat := 0x01
/-- EPF. -/
def pgEPF : Nat := 0x02
/-- DBL. -/
def pgDBL : Nat := 0x03
/-- CTX. -/
def pgCTX : Nat := 0x04
/-- XLT. -/
def pgXLT : Nat := 0x05
/-- SKK. -/
def pgSKK : Nat := 0x06
/-- MOV. -/
def pgMOV : Nat := 0x07
/-- CCU. -/
def pgCCU : Nat := 0x08
/-- COH. -/
def pgCOH : Nat := 0x09
/-- PWN. -/
def pgPWN : Nat := 0x0A
/-- PXP. -/
def pgPXP : Nat := 0x0B
/-- SYN. -/
def pgSYN : Nat := 0x0C
/-- CHT. -/
def pgCHT : Nat := 0x0D
/-- EVC. -/
def pgEVC : Nat := 0x0E
/-- ARB. -/
def pgARB : Nat := 0x0F
/-- RAS. -/
def pgRAS : Nat := 0x10
/-- TWN. -/
def pgTWN : Nat := 0x11
/-- PWR. -/
def pgPWR : Nat := 0x12
/-- PRT. -/
def pgPRT : Nat := 0x13
/-- DBG. -/
def pgDBG : Nat := 0x14

/-- PORT_PROTOCOL with the port index of R423. -/
def State.portProtocol (s : State) (index : Nat) : State := s.flag pgGLB 0 5 0 index

/-- HUB_FATAL is set: its bit, its source, hub_fatal, and the report in PF0 on every link (R297, R325, R345). -/
def State.hubFatal (s : State) : State :=
  if s.glb.fatal then s
  else (((s.onGlb fun g => { g with fatal := true }).flag pgGLB 0 4).edge 1).aer 0 .uncorrectableInternal

/-! ## What lets a command act (R331, R393, R284) -/

/-- A sequencer of the hub acts: not during a reset, nor in D3cold (R400, R401). -/
def State.inner (s : State) (f : State → State) : State := if s.glb.ready && !s.pwr.d3cold then f s else s

/-- The hub wakes to Run (R393). -/
def State.awake (s : State) : State :=
  if s.pwr.st = .run then s
  else
    let deep : Bool := s.pwr.st = .nap || s.pwr.st = .hibernate
    (s.onPwr fun p => { p with
      st := .run, entering := false, wakeCount := if deep then satInc p.wakeCount else p.wakeCount }).ops pgPWR 1

/-- Something arrives at a port, or a deadline expires: the hub wakes and acts on it (R393). -/
def State.act (s : State) (f : State → State) : State := s.inner fun t => f t.awake

/-- An answer the hub waits for arrives: during the entry into Hibernate it is no trigger (R391). -/
def State.actAnswer (s : State) (f : State → State) : State := if s.pwr.entering then s.inner f else s.act f

/-- A TLP from the host is received (R416; log entry 35). -/
def State.tlp (s : State) : State := s.ops pgHLK 1

/-- An access to a register of a function: discarded while its FLR runs (R311). -/
def State.paged (s : State) (fn : Nat) (f : State → State) : State :=
  s.act fun t => if t.inFlr fn then t.tlp else f t.tlp

/-- An access to a DBL, XLT, SYN, CHT, PWN or SKK view page: those of a DISABLED partition's function discard it (R284). -/
def State.view (s : State) (fn : Nat) (f : State → State) : State :=
  s.paged fn fun t => if (t.part fn).st = .disabled then t else f t

end Sys2Proof.Machine
end

