-- ==== Sys2Proof/Machine/Arith.lean ====
section
/-! DEFINITION. The arithmetic of the Conversion and Combine Unit: the ten formats, rounding, conversion, combine, MX blocks,
atomics, CRC-32C and the stochastic lanes (07_number_formats_and_ccu.md R150 to R172). -/

namespace Sys2Proof.Machine

/-! ## Formats -/

/-- A floating-point format: exponent bits, mantissa bits, bias (R150). -/
structure Fp where
  eb : Nat
  mb : Nat
  bias : Int
  /-- It is E4M3: no infinity, one NaN mantissa. -/
  e4m3 : Bool := false
deriving DecidableEq, Repr

/-- The floating-point format of a code; MXFP8 gives that of its elements (R150). -/
def fp? (code : Nat) : Option Fp :=
  match code with
  | 0 => some ⟨11, 52, 1023, false⟩ | 1 => some ⟨8, 23, 127, false⟩ | 2 => some ⟨5, 10, 15, false⟩
  | 3 => some ⟨8, 7, 127, false⟩ | 4 => some ⟨4, 3, 7, true⟩ | 5 => some ⟨5, 2, 15, false⟩ | 6 => some ⟨4, 3, 7, true⟩
  | _ => none

/-- Bytes of an element of a format (R62). -/
def elemBytes (code : Nat) : Nat :=
  match code with
  | 0 => 8 | 1 => 4 | 2 => 2 | 3 => 2 | 8 => 4 | 9 => 8 | _ => 1

/-- Bits of an integer format, 0 for a float format (R150). -/
def intBits (code : Nat) : Nat := match code with | 7 => 8 | 8 => 32 | 9 => 64 | _ => 0

/-- An exact value: NaN, infinity, or (−1)^neg · mag · 2^exp. -/
inductive Val where
  | nan (neg : Bool)
  | inf (neg : Bool)
  | fin (neg : Bool) (mag : Nat) (exp : Int)
deriving DecidableEq, Repr

/-- What a result is counted for (R171). -/
structure Exc where
  nan : Nat := 0
  ovf : Nat := 0
  sat : Nat := 0
  clamp : Nat := 0
  snan : Nat := 0
deriving DecidableEq, Repr

/-- The counts of two results together. -/
def Exc.add (a b : Exc) : Exc := ⟨a.nan + b.nan, a.ovf + b.ovf, a.sat + b.sat, a.clamp + b.clamp, a.snan + b.snan⟩

/-- Bits of the exponent field all ones. -/
def Fp.top (f : Fp) : Nat := 2 ^ f.eb - 1

/-- The largest finite magnitude's bits (R150). -/
def Fp.maxBits (f : Fp) : Nat := if f.e4m3 then 0x7E else f.top * 2 ^ f.mb - 1

/-- The bits with a sign. -/
def Fp.signed (f : Fp) (neg : Bool) (b : Nat) : Nat := if neg then b + 2 ^ (f.eb + f.mb) else b

/-- The canonical quiet NaN (R152). -/
def Fp.nanBits (f : Fp) (neg : Bool) : Nat :=
  f.signed neg (if f.e4m3 then 0x7F else f.top * 2 ^ f.mb + 2 ^ (f.mb - 1))

/-- The infinity of a format that has one. -/
def Fp.infBits (f : Fp) (neg : Bool) : Nat := f.signed neg (f.top * 2 ^ f.mb)

/-- The value of float bits, and whether they are a signalling NaN (R150 to R152). -/
def Fp.decode (f : Fp) (b : Nat) : Val × Bool :=
  let m := b % 2 ^ f.mb
  let e := b / 2 ^ f.mb % 2 ^ f.eb
  let neg := b / 2 ^ (f.eb + f.mb) % 2 = 1
  if f.e4m3 then
    if e = f.top ∧ m = 7 then (.nan neg, false)
    else if e = 0 then (.fin neg m (1 - f.bias - f.mb), false) else (.fin neg (m + 8) (e - f.bias - f.mb), false)
  else if e = f.top then
    if m = 0 then (.inf neg, false) else (.nan neg, m < 2 ^ (f.mb - 1))
  else if e = 0 then (.fin neg m (1 - f.bias - f.mb), false)
  else (.fin neg (m + 2 ^ f.mb) (e - f.bias - f.mb), false)

/-- The value of an element's bits (R150, R159: an MXFP8 element without its scale). -/
def decodeElem (code b : Nat) : Val × Bool :=
  match fp? code with
  | some f => f.decode b
  | none =>
    let w := intBits code
    if b < 2 ^ (w - 1) then (.fin false b 0, false) else (.fin true (2 ^ w - b) 0, false)

/-! ## Rounding -/

/-- mag · 2^sh rounded to an integer in mode `mode` for the sign `neg` (R161): 0 RNE, 1 RZ, 2 RU, 3 RD, 4 stochastic with
the draw `r` (R162). -/
def roundAt (mag : Nat) (sh : Int) (mode : Nat) (neg : Bool) (r : Nat) : Nat :=
  match sh with
  | .ofNat k => mag <<< k
  | .negSucc k =>
    let i := mag >>> (k + 1)
    let rem := mag % 2 ^ (k + 1)
    if rem = 0 then i
    else match mode with
      | 1 => i
      | 2 => if neg then i else i + 1
      | 3 => if neg then i + 1 else i
      | 4 => if (rem <<< 16) >>> (k + 1) + r ≥ 65536 then i + 1 else i
      | _ => if rem > 2 ^ k ∨ (rem = 2 ^ k ∧ i % 2 = 1) then i + 1 else i

/-- floor(log2) of mag · 2^exp. -/
def log2Of (mag : Nat) (exp : Int) : Int := Nat.log2 mag + exp

/-- The exponent of the least significant unit that a magnitude has in a float format (R150, R151). -/
def Fp.unit (f : Fp) (mag : Nat) (exp : Int) : Int := max (log2Of mag exp) (1 - f.bias) - f.mb

/-- `n` units of 2^q exceed the largest finite value (R155). -/
def Fp.over (f : Fp) (n : Nat) (q : Int) : Bool :=
  let (n, q) := if n ≥ 2 ^ (f.mb + 1) then (n / 2, q + 1) else (n, q)
  let e := q + f.mb + f.bias
  n ≥ 2 ^ f.mb && (e > f.top || (e = f.top && (!f.e4m3 || n - 2 ^ f.mb = 7)))

/-- The bits of `n` units of 2^q, at most the largest finite value. -/
def Fp.pack (f : Fp) (n : Nat) (q : Int) : Nat :=
  let (n, q) := if n ≥ 2 ^ (f.mb + 1) then (n / 2, q + 1) else (n, q)
  if n ≥ 2 ^ f.mb then (q + f.mb + f.bias).toNat * 2 ^ f.mb + (n - 2 ^ f.mb) else n

/-- A finite value as float bits (R151, R154, R155, R162); `mx`: an MXFP8 element, which clamps (R160). -/
def Fp.encode (f : Fp) (mx : Bool) (mode : Nat) (sat : Bool) (r : Nat) (neg : Bool) (mag : Nat) (exp : Int) : Nat × Exc :=
  if mag = 0 then (f.signed neg 0, {})
  else
    let q := f.unit mag exp
    if f.over (roundAt mag (exp - q) (if mode = 4 then 0 else mode) neg 0) q then
      if mx then (f.signed neg f.maxBits, { sat := 1 })
      else if sat then (f.signed neg f.maxBits, { ovf := 1, sat := 1 })
      else if mode = 1 ∨ (mode = 2 ∧ neg) ∨ (mode = 3 ∧ !neg) then (f.signed neg f.maxBits, { ovf := 1 })
      else if f.e4m3 then (f.nanBits neg, { ovf := 1, nan := 1 })
      else (f.infBits neg, { ovf := 1 })
    else
      let n := roundAt mag (exp - q) mode neg r
      (f.signed neg (if f.over n q then f.maxBits else f.pack n q), {})

/-- A value as the bits of a destination element other than MXFP8 (R154 to R158). -/
def encodeElem (code mode : Nat) (sat : Bool) (r : Nat) (v : Val) : Nat × Exc :=
  match fp? code with
  | some f =>
    match v with
    | .nan neg => (f.nanBits neg, { nan := 1 })
    | .inf neg =>
      if sat then (f.signed neg f.maxBits, { sat := 1 })
      else if f.e4m3 then (f.nanBits neg, { nan := 1 }) else (f.infBits neg, {})
    | .fin neg mag exp => f.encode false mode sat r neg mag exp
  | none =>
    let w := intBits code
    let hi := 2 ^ (w - 1) - 1
    let lo := 2 ^ (w - 1)
    match v with
    | .nan _ => (0, { sat := 1 })
    | .inf neg => (if neg then lo else hi, { sat := 1 })
    | .fin neg mag exp =>
      let n := roundAt mag exp mode neg r
      if neg then (if n > lo then (lo, { sat := 1 }) else ((2 ^ w - n) % 2 ^ w, {}))
      else if n > hi then (hi, { sat := 1 }) else (n, {})

/-! ## MX blocks (R159, R160) -/

/-- A value times 2^k. -/
def Val.scaleBy (v : Val) (k : Int) : Val := match v with | .fin n m e => .fin n m (e + k) | x => x

/-- The sign of a value. -/
def Val.negative : Val → Bool | .fin n _ _ => n | .inf n => n | .nan n => n

/-- An element's value under its block's scale byte (R159): under a scale of 255 a NaN, whose sign is left open (log entry 19). -/
def mxVal (scale : Byte) (v : Val) : Val :=
  if scale = 0xFF then .nan (Config.scaleNanSign v.negative) else v.scaleBy (scale.toNat - 127)

/-- floor(log2) of the largest finite magnitude of a block, none when that is 0. -/
def blockLog (vs : List Val) : Option Int :=
  vs.foldl (fun b v => match v with
    | .fin _ 0 _ => b
    | .fin _ m e => some (match b with | none => log2Of m e | some k => max k (log2Of m e))
    | _ => b) none

/-- A value is a NaN, or an infinity that SAT 0 does not clamp (R160). -/
def spoils (sat : Bool) : Val → Bool | .nan _ => true | .inf _ => !sat | _ => false

/-- An element of a block divided by 2^e (R160). -/
def mxElem (mode : Nat) (e : Int) (v : Val) (r : Nat) : Nat × Exc :=
  let f : Fp := ⟨4, 3, 7, true⟩
  match v with
  | .fin neg mag exp => f.encode true mode true r neg mag (exp - e)
  | .inf neg => (f.signed neg f.maxBits, { sat := 1 })
  | .nan neg => (f.nanBits neg, { nan := 1 })

/-- A destination block: its scale byte, its elements and their counts (R160). -/
def mxBlock (mode : Nat) (sat : Bool) (vs : List Val) (rs : List Nat) : Byte × List Nat × Exc :=
  if vs.any (spoils sat) then (0xFF, vs.map (fun _ => 0x7F), { nan := vs.length })
  else
    let (e, clamp) : Int × Nat := match blockLog vs with
      | none => (0, 0)
      | some k => (max (-127) (min 127 (k - 8)), if k - 8 < -127 ∨ k - 8 > 127 then 1 else 0)
    let es := List.zipWith (mxElem mode e) vs rs
    (BitVec.ofInt 8 (e + 127), es.map (·.1), es.foldl (fun a x => a.add x.2) { clamp := clamp })

/-! ## Combine (R163) -/

/-- Two finite values as integers over one exponent. -/
def aligned (n1 : Bool) (m1 : Nat) (e1 : Int) (n2 : Bool) (m2 : Nat) (e2 : Int) : Int × Int × Int :=
  let e := min e1 e2
  let up (n : Bool) (m : Nat) (x : Int) : Int := let y : Int := (m <<< (x - e).toNat : Nat); if n then -y else y
  (up n1 m1 e1, up n2 m2 e2, e)

/-- The sum of two values; an exact zero from opposite signs is +0, or −0 under RD (R151). -/
def addVal (mode : Nat) (a b : Val) : Val :=
  match a, b with
  | .inf n, .inf m => if n = m then .inf n else .nan false
  | .inf n, _ => .inf n
  | _, .inf n => .inf n
  | .fin n1 m1 e1, .fin n2 m2 e2 =>
    let (x, y, e) := aligned n1 m1 e1 n2 m2 e2
    if x + y = 0 then .fin (if n1 = n2 then n1 else mode = 3) 0 0
    else .fin (x + y < 0) (x + y).natAbs e
  | .nan n, _ => .nan n
  | _, .nan n => .nan n

/-- The sign changed. -/
def Val.neg : Val → Val | .nan n => .nan n | .inf n => .inf (!n) | .fin n m e => .fin (!n) m e

/-- The product of two values (R163). -/
def mulVal (a b : Val) : Val :=
  match a, b with
  | .fin n1 m1 e1, .fin n2 m2 e2 => .fin (n1 != n2) (m1 * m2) (e1 + e2)
  | .inf n, .inf m => .inf (n != m)
  | .inf n, .fin m k _ => if k = 0 then .nan false else .inf (n != m)
  | .fin m k _, .inf n => if k = 0 then .nan false else .inf (n != m)
  | .nan n, _ => .nan n
  | _, .nan n => .nan n

/-- `a` is at most `b`, −0 below +0 (R163). Neither is a NaN. -/
def leVal (a b : Val) : Bool :=
  match a, b with
  | .inf n, .inf m => n || !m
  | .inf n, _ => n
  | _, .inf n => !n
  | .fin n1 m1 e1, .fin n2 m2 e2 =>
    let (x, y, _) := aligned n1 m1 e1 n2 m2 e2
    if x = y then n1 || !n2 else x < y
  | _, _ => true

/-- COMBINE of two values (R163): 1 ADD, 2 SUB, 3 MUL, 4 MIN, 5 MAX; the sign of two NaNs of unlike signs is open (log entry 20). -/
def combine (op mode : Nat) (a b : Val) : Val :=
  match a, b with
  | .nan n, .nan m => .nan (if n = m then n else Config.twoNanSign n)
  | .nan n, _ => .nan n
  | _, .nan n => .nan n
  | _, _ =>
    match op with
    | 1 => addVal mode a b
    | 2 => addVal mode a b.neg
    | 3 => mulVal a b
    | 4 => if leVal a b then a else b
    | _ => if leVal b a then a else b

/-- A zero of integers has no sign (R163: integer sources are combined as integers). -/
def Val.unsignedZero : Val → Val | .fin _ 0 _ => .fin false 0 0 | v => v

/-! ## Elements of granules -/

/-- Little-endian bytes as a number. -/
def leNat (bs : List Byte) : Nat := bs.foldr (fun b n => b.toNat + 256 * n) 0

/-- `n` as `k` little-endian bytes. -/
def leBytes (n k : Nat) : List Byte := (List.range k).map fun i => BitVec.ofNat 8 (n >>> (8 * i))

/-- A list cut into pieces of `k`. -/
def chunks {α : Type} (k : Nat) (l : List α) : List (List α) :=
  (List.range ((l.length + k - 1) / k)).map fun i => (l.drop (k * i)).take k

/-- The values of an operand's elements, `scales` one byte a block (R159), and how many are signalling NaNs. -/
def operandVals (code : Nat) (data scales : List Byte) : List Val × Nat :=
  let vs := (chunks (elemBytes code) data).map fun b => decodeElem code (leNat b)
  let out := if code = 6 then vs.mapIdx fun i v => mxVal (scales.getD (i / 32) 0) v.1 else vs.map (·.1)
  (out, (vs.filter (·.2)).length)

/-- The destination bytes, destination scale bytes and counts of a list of values (R154 to R160), each with its draw. -/
def encodeAll (code mode : Nat) (sat : Bool) (vs : List Val) (rs : List Nat) : List Byte × List Byte × Exc :=
  if code = 6 then
    let bl := List.zipWith (mxBlock mode sat) (chunks 32 vs) (chunks 32 rs)
    ((bl.map fun b => b.2.1.map (BitVec.ofNat 8)).flatten, bl.map (·.1), bl.foldl (fun a b => a.add b.2.2) {})
  else
    let es := List.zipWith (fun v r => encodeElem code mode sat r v) vs rs
    ((es.map fun e => leBytes e.1 (elemBytes code)).flatten, [], es.foldl (fun a e => a.add e.2) {})

/-! ## The stochastic lanes (R162, R170) -/

/-- The seeded state of a lane (R162). -/
def seeded (seed : Word) (n : Nat) : Word := let x := seed ^^^ place (n + 1) 32; if x = 0 then 1 else x

/-- The beats of the hub cycle `now` use the states of before a write of the seed in it (R162). -/
def Ccu.unseeded (c : Ccu) (now : Word) : Bool := c.seedAt = some now

/-- A lane's generator state. -/
def State.laneState (s : State) (n : Nat) : Word :=
  if s.ccu.unseeded s.glb.time then (tabGet (fun _ => none) s.ccu.oldLane n).getD (seeded s.ccu.oldSeed n)
  else (tabGet (fun _ => none) s.ccu.lane n).getD (seeded s.ccu.seed n)

/-- A lane's generator has advanced to a state. -/
def Ccu.putLane (c : Ccu) (now : Word) (n : Nat) (x : Word) : Ccu :=
  if c.unseeded now then { c with oldLane := tabPut (fun _ => none) c.oldLane n (some x) }
  else { c with lane := tabPut (fun _ => none) c.lane n (some x) }

/-- A write of CCU_SR_SEED (R162): every lane starts from the seed; the first of a hub cycle keeps the states of before it. -/
def Ccu.reseed (c : Ccu) (now v : Word) : Ccu :=
  if c.unseeded now then { c with seed := v, lane := [] }
  else { c with seed := v, lane := [], seedAt := some now, oldSeed := c.seed, oldLane := c.lane }

/-- One advance of a generator (R162). -/
def laneNext (x : Word) : Word :=
  let x := x ^^^ (x <<< 13)
  let x := x ^^^ (x >>> 7)
  x ^^^ (x <<< 17)

/-- The lanes at work: the lowest 64 not retired (R170). -/
def State.activeLanes (s : State) : List Nat := ((List.range 66).filter fun n => !s.ccu.retired.contains n).take 64

/-- One draw, from a lane the spec leaves open (R162). -/
def State.laneDraw (s : State) : Nat × State :=
  let (k, s1) := s.draw
  let ls := s.activeLanes
  let n := ls.getD (Config.laneOf k % max 1 ls.length) 0
  let x := laneNext (s.laneState n)
  (field x 63 48, s1.onCcu fun c => c.putLane s.glb.time n x)

/-- `k` draws. -/
def State.laneDraws (s : State) : Nat → List Nat × State
  | 0 => ([], s)
  | k + 1 => let (r, s1) := s.laneDraw; let (rs, s2) := s1.laneDraws k; (r :: rs, s2)

/-- The draws of `k` elements in mode `mode`: none are made outside stochastic rounding. -/
def State.drawsFor (s : State) (mode k : Nat) : List Nat × State :=
  if mode = 4 then s.laneDraws k else (List.replicate k 0, s)

/-! ## Counting (R171, R172) -/

/-- A CCU sticky bit set `n` times in a partition's view. -/
def State.ccuSticky (s : State) (p b : Nat) : Nat → State
  | 0 => s
  | n + 1 => (s.flag pgCCU p b).ccuSticky p b n

/-- The counts of a result against a partition, each kind setting its sticky bit (R171). -/
def State.ccuAccount (s : State) (p : Nat) (e : Exc) : State :=
  let s1 := s.onCcuCount p fun c => { c with
    nan := satAdd c.nan e.nan, ovf := satAdd c.ovf e.ovf, sat := satAdd c.sat e.sat, clamp := satAdd c.clamp e.clamp }
  ((((s1.ccuSticky p 1 e.nan).ccuSticky p 2 e.ovf).ccuSticky p 3 e.sat).ccuSticky p 4 e.clamp).ccuSticky p 5 e.snan

/-- How a COPY_CONVERT or REDUCE_PUT converts (R61, R63). -/
structure ConvSpec where
  sfmt : Nat
  dfmt : Nat
  mode : Nat
  sat : Bool
  /-- COMBINE, 0 for none. -/
  op : Nat := 0
deriving DecidableEq, Repr

/-- The conversion of matching elements of SRC and SRC2 (R153 to R163): destination bytes, destination scale bytes, the state. -/
def State.convert (s : State) (p : Nat) (c : ConvSpec) (src scale src2 scale2 : List Byte) : List Byte × List Byte × State :=
  if c.sfmt = c.dfmt ∧ c.op = 0 then (src, if c.dfmt = 6 then scale.take (src.length / 32) else [], s.ops pgCCU 1)
  else
    let (v1, n1) := operandVals c.sfmt src scale
    let (v2, n2) := if c.op = 0 then ([], 0) else operandVals c.sfmt src2 scale2
    let vs := if c.op = 0 then v1 else List.zipWith (combine c.op c.mode) v1 v2
    let vs := if intBits c.sfmt = 0 then vs else vs.map Val.unsignedZero
    let (rs, s1) := s.drawsFor c.mode vs.length
    let (out, sc, e) := encodeAll c.dfmt c.mode c.sat vs rs
    (out, sc, ((s1.ccuAccount p (e.add { snan := n1 + n2 })).ops pgCCU 1).bytes pgCCU (src.length + src2.length))

/-! ## Atomics (R165) -/

/-- A TYPE-sized signed value. -/
def signedOf (w v : Nat) : Int := if v < 2 ^ (w - 1) then v else (v : Int) - 2 ^ w

/-- Bits of an atomic's TYPE (R69). -/
def typeBits (type : Nat) : Nat := if type = 1 ∨ type = 8 then 32 else 64

/-- The new value of an atomic operation and its counts (R165): 0 ADD, 1 SWAP, 2 CAS, 3 AND, 4 OR, 5 XOR, 6 MIN, 7 MAX. -/
def atomicNew (op type : Nat) (old operand compare : Word) : Word × Exc :=
  let w := typeBits type
  let o := old.toNat % 2 ^ w
  let x := operand.toNat % 2 ^ w
  match op with
  | 1 => (BitVec.ofNat 64 x, {})
  | 2 => (BitVec.ofNat 64 (if o = compare.toNat % 2 ^ w then x else o), {})
  | 3 => (BitVec.ofNat 64 (o &&& x), {})
  | 4 => (BitVec.ofNat 64 (o ||| x), {})
  | 5 => (BitVec.ofNat 64 (o ^^^ x), {})
  | _ =>
    match fp? type with
    | none =>
      let n := if op = 0 then (o + x) % 2 ^ w
        else if op = 6 then (if signedOf w o ≤ signedOf w x then o else x)
        else (if signedOf w x ≤ signedOf w o then o else x)
      (BitVec.ofNat 64 n, {})
    | some f =>
      let (a, na) := f.decode o
      let (b, nb) := f.decode x
      let v := combine (if op = 0 then 1 else if op = 6 then 4 else 5) 0 a b
      let (n, e) := encodeElem type 0 false 0 v
      (BitVec.ofNat 64 n, e.add { snan := (if na then 1 else 0) + (if nb then 1 else 0) })

/-- `old`'s granule with the TYPE-sized value at byte `o` replaced. -/
def putTyped (g : Granule) (o type : Nat) (v : Word) : Granule :=
  let n := typeBits type / 8
  granMerge g (granOf (List.replicate o 0 ++ leBytes v.toNat n)) (enables o n)

/-- The TYPE-sized value at byte `o` of a granule. -/
def getTyped (g : Granule) (o type : Nat) : Word :=
  if typeBits type = 32 then (granHalf g o).setWidth 64 else granWord g o

/-! ## CRC-32C (R164) -/

/-- One bit of the reflected CRC-32C. -/
def crcBit (c : BitVec 32) : BitVec 32 := if c.getLsbD 0 then (c >>> 1) ^^^ 0x82F63B78 else c >>> 1

/-- A CRC-32C state after one byte. -/
def crcByte (c : BitVec 32) (b : Byte) : BitVec 32 :=
  crcBit (crcBit (crcBit (crcBit (crcBit (crcBit (crcBit (crcBit (c ^^^ b.setWidth 32))))))))

/-- A CRC-32C state after a list of bytes. -/
def crcBytes (c : BitVec 32) (bs : List Byte) : BitVec 32 := bs.foldl crcByte c

/-- The state after `n` zero bytes. -/
def crcZeros (c : BitVec 32) : Nat → BitVec 32
  | 0 => c
  | n + 1 => crcZeros (crcByte c 0) n

/-- The state of a stream followed by another, from the states of each begun with all ones, the second of `n` bytes
(R61: the value does not depend on segment order). -/
def crcJoin (a b : BitVec 32) (n : Nat) : BitVec 32 := crcZeros (a ^^^ 0xFFFFFFFF) n ^^^ b

/-- The CRC of a finished state. -/
def crcFinal (c : BitVec 32) : BitVec 32 := c ^^^ 0xFFFFFFFF

end Sys2Proof.Machine
end

