-- ==== Sys2Proof/Machine/Operands.lean ====
section
/-! DEFINITION. The fields of slots, commands and plan descriptors, the handle checks, and the acceptance checks
(00_scope.md R4 to R7; 02_channels_and_doorbells.md R43; 03_command_set.md R52 to R72; 10_drone_and_chanter.md R220, R227). -/

namespace Sys2Proof.Machine

/-! ## Slot headers (R43) -/

/-- OPCODE of a slot. -/
def hdrOp (g : Granule) : Nat := field g 7 0
/-- SPAN of a first slot. -/
def hdrSpan (g : Granule) : Nat := field g 9 8
/-- PHASE of a slot. -/
def hdrPhase (g : Granule) : Bool := bit g 15
/-- SEQ of a slot. -/
def hdrSeq (g : Granule) : BitVec 16 := g.extractLsb' 16 16
/-- CTL of a first slot, and bytes 4 to 7 of a continuation slot. -/
def slotCtl (g : Granule) : BitVec 32 := granHalf g 4
/-- CPL of a first slot (R57). -/
def slotCpl (g : Granule) : Word := granWord g 8

/-- A command's first slot. -/
def Cmd.first (c : Cmd) : Granule := c.slots.headD 0
/-- A command's continuation slot `k`, from 1. -/
def Cmd.cont (c : Cmd) (k : Nat) : Granule := c.slots.getD k 0
/-- A command's completion target (R57). -/
def Cmd.cpl (c : Cmd) : Word := slotCpl c.first

/-! ## The work of a data-moving command -/

/-- What a data-moving command does, whatever slot or body it came in (R59 to R65, R227). -/
structure DataOp where
  op : Nat
  src : Word := 0
  dst : Word := 0
  /-- Source bytes, which segments count (R21); the bytes written for FILL and INLINE_WRITE. -/
  total : Nat := 0
  srcFixed : Bool := false
  dstFixed : Bool := false
  staging : Bool := false
  posted : Bool := false
  /-- Conversion; a copy is bytes to bytes. -/
  conv : ConvSpec := ⟨4, 4, 0, false, 0⟩
  /-- Scale arrays (R159): SCALE or SRC_SCALE, and SRC2_SCALE. -/
  scale : Word := 0
  src2 : Word := 0
  scale2 : Word := 0
  /-- CRC: 0 none, 1 GEN, 2 CHECK (R61). -/
  crc : Nat := 0
  crcAddr : Word := 0
  /-- OP of a REDUCE_PUT (R63). -/
  redOp : Nat := 0
  /-- PATTERN of a FILL (R60). -/
  pattern : Word := 0
  /-- Payload of an INLINE_WRITE (R64). -/
  payload : List Byte := []
deriving DecidableEq, Repr

/-- The conversion a COPY_CONVERT's CTL and continuation ask for (R61). -/
def convSpec (ctl cctl : BitVec 32) : ConvSpec :=
  { sfmt := field ctl 7 4, dfmt := field ctl 11 8, mode := field ctl 14 12, sat := bit ctl 15, op := field cctl 3 0 }

/-- The payload bytes of an INLINE_WRITE's slots (R64). -/
def inlinePayload (slots : List Granule) (n : Nat) : List Byte :=
  (match slots with
   | [] => []
   | g :: rest => (granBytes g).drop 0x18 ++ (rest.map fun c => (granBytes c).drop 4).flatten).take n

/-- The data-moving operation of a command's slots (R59 to R65). -/
def dataOp (op : Nat) (slots : List Granule) : DataOp :=
  let g := slots.headD 0
  let k := slots.getD 1 0
  let ctl := slotCtl g
  let count := field g 295 256
  match op with
  | 0x01 =>
    { op := op, src := granWord g 0x10, dst := granWord g 0x18, total := count, srcFixed := bit ctl 0, dstFixed := bit ctl 1
      staging := bit ctl 2, posted := bit ctl 3 }
  | 0x02 =>
    let c := convSpec ctl (slotCtl k)
    { op := op, src := granWord g 0x10, dst := granWord g 0x18, total := count * elemBytes c.sfmt, staging := bit ctl 2
      posted := bit ctl 3, conv := c, scale := granWord g 0x28, src2 := granWord k 0x08, scale2 := granWord k 0x10
      crc := field (slotCtl k) 5 4, crcAddr := granWord k 0x18 }
  | 0x03 =>
    { op := op, dst := granWord g 0x10, total := field g 231 192, posted := bit ctl 3, pattern := granWord g 0x20 }
  | 0x04 =>
    { op := op, dst := granWord g 0x10, total := field ctl 7 0, posted := bit ctl 8
      payload := inlinePayload slots (field ctl 7 0) }
  | 0x05 =>
    let c : ConvSpec := { sfmt := field ctl 7 4, dfmt := field ctl 11 8, mode := field ctl 14 12, sat := false, op := 0 }
    { op := op, src := granWord g 0x10, dst := granWord g 0x18, total := count * elemBytes c.sfmt, conv := c
      scale := granWord g 0x28, redOp := field ctl 17 16 }
  | _ => { op := op, dst := granWord g 0x10, total := 64, posted := bit ctl 3 }

/-- The operation of a command. -/
def Cmd.data (c : Cmd) : DataOp := dataOp c.op c.slots

/-- Destination bytes of an operation (R59 to R65). -/
def DataOp.dstBytes (d : DataOp) : Nat :=
  match d.op with
  | 0x02 => d.total / elemBytes d.conv.sfmt * elemBytes d.conv.dfmt
  | 0x05 => d.total / elemBytes d.conv.sfmt * elemBytes d.conv.dfmt
  | 0x11 => 16
  | _ => if d.dstFixed then 64 else d.total

/-- Source bytes that lie at SRC (R59, R148): one granule when fixed. -/
def DataOp.srcBytes (d : DataOp) : Nat := if d.srcFixed then 64 else d.total

/-- The operation reads SRC. -/
def DataOp.reads (d : DataOp) : Bool := d.op = 0x01 || d.op = 0x02 || d.op = 0x05

/-- The operation uses a scale array of its source, or of its destination (R61, R63). -/
def DataOp.srcScaled (d : DataOp) : Bool := (d.op = 0x02 || d.op = 0x05) && d.conv.sfmt = 6
/-- The destination has a scale array. -/
def DataOp.dstScaled (d : DataOp) : Bool := d.op = 0x02 && d.conv.dfmt = 6
/-- The operation combines SRC2 (R61). -/
def DataOp.combines (d : DataOp) : Bool := d.op = 0x02 && d.conv.op ≠ 0

/-- Segments of an operation (R21). -/
def DataOp.segments (d : DataOp) : Nat := if d.op = 0x04 ∨ d.op = 0x11 then 1 else (d.total + 65535) / 65536

/-- Source bytes of segment `k` (R21). -/
def DataOp.segBytes (d : DataOp) (k : Nat) : Nat := min 65536 (d.total - 65536 * k)

/-- A data-moving opcode (R54: executed by movers, with ATOMIC, which takes a mover context (R128)). -/
def onMovers (op : Nat) : Bool := op = 0x01 || op = 0x02 || op = 0x03 || op = 0x04 || op = 0x05 || op = 0x0B || op = 0x11

/-- Opcodes served in the Urgent class whatever the channel's (R76). -/
def alwaysUrgent (op : Nat) : Bool := op = 0x04 || op = 0x08 || op = 0x09 || op = 0x0A || op = 0x0B || op = 0x11

/-! ## Handles (R4 to R7) -/

/-- The slot of a channel handle whose check nibble and generation match. Generation 0 is never issued (R6; log entry 108). -/
def State.heldSlot (s : State) (h : BitVec 32) : Option Nat :=
  let c := s.chan (hSlot h)
  if field h 3 0 = checkNibble h ∧ hGen h = c.gen ∧ c.gen ≠ 0 then some (hSlot h) else none

/-- The slot of a channel handle that meets none of R7's conditions for a partition, its channel's or, of a FREE slot, its last one's. A
handle that names the requester's partition where another one holds the slot is refused too: the model's choice (log entry 108). -/
def State.namedSlot (s : State) (h : BitVec 32) (part : Nat) : Option Nat :=
  (s.heldSlot h).bind fun k => if hPart h = part ∧ ((s.chan k).st = .free ∨ (s.chan k).part = part) then some k else none

/-- The slot of a channel handle that passes R7 for a partition and holds a channel (log entry 108). -/
def State.goodChan (s : State) (h : BitVec 32) (part : Nat) : Option Nat :=
  (s.namedSlot h part).bind fun k => if (s.chan k).st = .free then none else some k

/-- A sync object handle passes R7 for a partition. -/
def State.goodObj (s : State) (h : BitVec 32) (part : Nat) : Bool :=
  let o := s.obj (hIdx h)
  hGen h = o.gen && o.st ≠ .free && hType h = o.type && hPart h = part && o.part = part

/-- A plan entry handle passes R7 for a partition. -/
def State.goodEntry (s : State) (h : BitVec 32) (part : Nat) : Bool :=
  let e := s.entry (hIdx h)
  hGen h = e.gen && e.held && hType h = 3 && hPart h = part && e.part = part

/-- The handle of a channel slot. -/
def State.handleOf (s : State) (slot : Nat) : BitVec 32 := chanHandle (s.chan slot).gen (s.chan slot).part slot

/-- The handle of a plan entry. -/
def State.entryHandle (s : State) (i : Nat) : BitVec 32 := objHandle (s.entry i).gen (s.entry i).part 3 i

/-- The handle of a sync object. -/
def State.objHandleOf (s : State) (i : Nat) : BitVec 32 := objHandle (s.obj i).gen (s.obj i).part (s.obj i).type i

/-! ## Acceptance (R54, R55) -/

/-- SPAN is permitted for the opcode (R54, R64). For BYTES above 192, which R64 gives no SPAN, SPAN 3 is taken as agreeing (DESIGN CHOICE, log
entry 128). -/
def spanOk (op span : Nat) (ctl : BitVec 32) : Bool :=
  match op with
  | 0x02 => decide (span ≤ 1)
  | 0x04 => let b := field ctl 7 0; span = if b ≤ 40 then 0 else if b ≤ 100 then 1 else if b ≤ 160 then 2 else 3
  | 0x0F => true
  | _ => span = 0

/-- The opcode is defined (R54). -/
def opDefined (op : Nat) : Bool :=
  (1 ≤ op && op ≤ 5) || (8 ≤ op && op ≤ 11) || (0x0F ≤ op && op ≤ 0x12)

/-- An action suits an object type (R66): ADD for COUNTER and BARRIER, SET and CLEAR for EVENT. -/
def actionOk (action : Nat) (type : BitVec 2) : Bool :=
  if action = 0 then type = 0 || type = 2 else if action ≤ 2 then type = 1 else false

/-- A condition suits an object type (R67): ACQUIRE for COUNTER, SET for EVENT, PASS for BARRIER. -/
def condOk (cond : Nat) (type : BitVec 2) : Bool := cond = type.toNat && decide (cond < 3)

/-- Step 3 for the completion target (R57). -/
def cplEncoded (cpl : Word) : Bool :=
  match field cpl 2 0 with
  | 0 => true
  | 1 => decide (field cpl 15 4 < Config.cores)
  | 2 => hType (cpl.extractLsb' 32 32) ≠ 3
  | 3 => hType (cpl.extractLsb' 32 32) = 3
  | _ => false

/-- Step 3 of R55: every field holds a defined encoding, every handle is of the type required. -/
def encoded (op : Nat) (slots : List Granule) : Bool :=
  let g := slots.headD 0
  let ctl := slotCtl g
  let cctl := slotCtl (slots.getD 1 0)
  cplEncoded (slotCpl g) &&
  match op with
  | 0x02 =>
    decide (field ctl 7 4 < 10) && decide (field ctl 11 8 < 10) && decide (field ctl 14 12 < 5)
      && (slots.length < 2 || (decide (field cctl 3 0 < 6) && decide (field cctl 5 4 < 3)))
  | 0x05 =>
    let d := field ctl 11 8
    decide (field ctl 7 4 < 10) && (d = 0 || d = 1 || d = 8 || d = 9) && decide (field ctl 14 12 < 5)
      && decide (field ctl 17 16 < 3)
  | 0x09 => actionOk (field ctl 1 0) (hType (granHalf g 0x10))
  | 0x0A => condOk (field ctl 1 0) (hType (granHalf g 0x10))
  | 0x0B =>
    let t := field ctl 7 4
    let o := field ctl 3 0
    decide (o < 8) && (t = 0 || t = 1 || t = 8 || t = 9) && !(3 ≤ o && o ≤ 5 && t ≤ 1)
  | 0x10 => decide (field ctl 1 0 < 3)
  | 0x12 => hType (granHalf g 0x10) = 3
  | _ => true

/-- Step 4 of R55: every local handle passes R7. -/
def State.handlesOk (s : State) (part op : Nat) (slots : List Granule) : Bool :=
  let g := slots.headD 0
  let cpl := slotCpl g
  let h := granHalf g 0x10
  (match field cpl 2 0 with
   | 2 => s.goodObj (cpl.extractLsb' 32 32) part
   | 3 => s.goodEntry (cpl.extractLsb' 32 32) part
   | _ => true) &&
  match op with
  | 0x09 => bit (slotCtl g) 4 || s.goodObj h part
  | 0x0A => s.goodObj h part
  | 0x12 => s.goodEntry h part
  | _ => true

/-- A multiple of `n`. -/
def multOf (n : Nat) (a : Word) : Bool := a.toNat % n = 0

/-- Step 5 of R55: alignment. -/
def aligned? (op : Nat) (slots : List Granule) : Bool :=
  let d := dataOp op slots
  let g := slots.headD 0
  let count := d.total / elemBytes d.conv.sfmt
  let mx := d.conv.sfmt = 6 || d.conv.dfmt = 6
  match op with
  | 0x01 => multOf 64 d.src && multOf 64 d.dst && d.total % 64 = 0
  | 0x02 =>
    multOf 64 d.src && multOf 64 d.dst && d.total % 64 = 0 && count * elemBytes d.conv.dfmt % 64 = 0
      && (!mx || (multOf 64 d.scale && count % 2048 = 0)) && (!d.combines || multOf 64 d.src2)
      && (!d.combines || d.conv.sfmt ≠ 6 || multOf 64 d.scale2) && (d.crc = 0 || multOf 8 d.crcAddr)
  | 0x03 => multOf 64 d.dst && d.total % 64 = 0
  | 0x04 => d.total % 4 = 0 && multOf 4 d.dst
  | 0x05 =>
    multOf 64 d.src && multOf 64 d.dst && d.total % 64 = 0 && count * elemBytes d.conv.dfmt % 64 = 0
      && (d.conv.sfmt ≠ 6 || (multOf 64 d.scale && count % 2048 = 0))
  | 0x0B =>
    let n := typeBits (field (slotCtl g) 7 4) / 8
    multOf n (granWord g 0x10) && (!bit (slotCtl g) 8 || multOf n (granWord g 0x18))
  | 0x10 => multOf 65536 (granWord g 0x10)
  | 0x11 => multOf 16 d.dst
  | _ => true

/-- A partition's staging bytes. -/
def State.stagingBytes (s : State) (p : Nat) : Nat := (s.area p).size * 65536

/-- Step 6 of R55: lengths and counts, and the staging bytes (R148). -/
def State.lengthsOk (s : State) (part op : Nat) (slots : List Granule) : Bool :=
  let d := dataOp op slots
  let g := slots.headD 0
  let top := 2 ^ 40 - 64
  (field (slotCpl g) 2 0 ≠ 1 || field (slotCpl g) 31 24 ≠ 0) &&
  (!d.staging || decide (d.src.toNat + d.srcBytes ≤ s.stagingBytes part)) &&
  match op with
  | 0x01 => decide (0 < d.total)
  | 0x02 => decide (0 < d.total) && decide (d.total ≤ top)
  | 0x03 => decide (0 < d.total)
  | 0x04 => decide (4 ≤ d.total) && decide (d.total ≤ 192)
  | 0x05 => decide (0 < d.total) && decide (d.total ≤ top)
  | 0x09 => field (slotCtl g) 1 0 ≠ 0 || field g 207 192 ≠ 0
  | 0x0A => granHalf g 0x14 ≠ 0
  | 0x10 => decide (1 ≤ field g 207 192) && decide (field g 207 192 ≤ 4096)
  | 0x12 =>
    let n := field g 176 160
    decide (1 ≤ n) && decide (n ≤ 65536) && decide (hIdx (granHalf g 0x10) + n ≤ 65536)
  | _ => true

/-- The entries that a PLAN_ARM names (R71). -/
def planRange (slots : List Granule) : List Nat :=
  let g := slots.headD 0
  (List.range (field g 176 160)).map fun k => hIdx (granHalf g 0x10) + k

/-- The acceptance checks (R55): 0x00, or the code of the first failure. -/
def State.acceptCode (s : State) (part : Nat) (slots : List Granule) : Code :=
  let g := slots.headD 0
  let op := hdrOp g
  if !opDefined op then 0x04
  else if !spanOk op (hdrSpan g) (slotCtl g) then 0x05
  else if !encoded op slots then 0x06
  else if !s.handlesOk part op slots then 0x0A
  else if !aligned? op slots then 0x03
  else if !s.lengthsOk part op slots then 0x05
  else if op = 0x12 && !(planRange slots).all (fun i => (s.entry i).held && (s.entry i).part = part) then 0x0A
  else 0x00

/-! ## Plan entries (R220, R227) -/

/-- KIND of an entry. -/
def Entry.kind (e : Entry) : Nat := field e.body 3 0
/-- ACTION. -/
def Entry.action (e : Entry) : Nat := field e.body 7 4
/-- BODIES: bodies of a START entry. -/
def Entry.bodies (e : Entry) : Nat := 1 + field e.body 8 8
/-- DEADLINE. -/
def Entry.deadline (e : Entry) : Bool := bit e.body 9
/-- GATE_EN. -/
def Entry.gateEn (e : Entry) : Bool := bit e.body 10
/-- NEED. -/
def Entry.need (e : Entry) : Nat := field e.body 23 16
/-- OWNER. -/
def Entry.owner (e : Entry) : BitVec 32 := granHalf e.body 4
/-- START. -/
def Entry.start (e : Entry) : Nat := field (granWord e.body 8) 23 0
/-- END. -/
def Entry.end_ (e : Entry) : Nat := field (granWord e.body 8) 48 24
/-- PERIOD, at least 1. -/
def Entry.period (e : Entry) : Nat := max 1 (field (granWord e.body 0x10) 15 0)
/-- OFFSET. -/
def Entry.offset (e : Entry) : Nat := field (granWord e.body 0x10) 31 16
/-- GATE_TIMEOUT. -/
def Entry.gateTimeout (e : Entry) : BitVec 32 := granHalf e.body 0x14
/-- GATE. -/
def Entry.gate (e : Entry) : BitVec 32 := granHalf e.body 0x18
/-- GATE_COND. -/
def Entry.gateCond (e : Entry) : BitVec 2 := (granHalf e.body 0x1C).setWidth 2
/-- ARG0. -/
def Entry.arg0 (e : Entry) : BitVec 32 := granHalf e.body 0x20
/-- ARG1. -/
def Entry.arg1 (e : Entry) : BitVec 32 := granHalf e.body 0x24
/-- VALUE. -/
def Entry.value (e : Entry) : BitVec 16 := e.body.extractLsb' 320 16

/-- An occurrence of step `n` is covered by an entry's arming (03_command_set.md R71): the last change at or before it arms. -/
def Entry.covers (e : Entry) (n : Nat) : Bool :=
  e.arms.foldl (fun b (a : Nat × Bool) => if a.1 ≤ n then a.2 else b) false

/-- The current model step. -/
def State.droneStep (s : State) : Nat := field s.cht.drone 63 24

/-- ARMED of an entry (10_drone_and_chanter.md R238). -/
def State.armed (s : State) (e : Entry) : Bool := e.covers s.droneStep

/-- A granule with an 8-byte word set at a byte offset. -/
def granPut (g : Granule) (o : Nat) (w : Word) : Granule :=
  granMerge g (granOf (List.replicate o 0 ++ leBytes w.toNat 8)) (enables o 8)

/-- The slots that say what a descriptor's bodies say (R227): the movers run them as a command's. -/
def bodySlots (b1 : Granule) (b2 : Option Granule) : List Granule :=
  let op := field b1 15 8
  let head := BitVec.ofNat 64 (op + (granHalf b1 4).toNat <<< 32)
  let scale := match b2 with | some b => granWord b 0x10 | none => 0
  let first := if op = 0x03 then
      granOfWords [head, granWord b1 8, granWord b1 0x18, granWord b1 0x20, granWord b1 0x10, 0, 0, 0]
    else granOfWords [head, granWord b1 8, granWord b1 0x10, granWord b1 0x18, granWord b1 0x20, scale, 0, 0]
  match b2 with
  | none => [first]
  | some b => [first, granOfWords [place 0xFF 0 ||| place (granHalf b 4).toNat 32, granWord b 0x18, granWord b 0x20, granWord b 0x28,
      0, 0, 0, 0]]

end Sys2Proof.Machine
end

