-- ==== Sys2Proof/Machine/Arb.lean ====
section
/-! DEFINITION. The one arbiter design: rank, rounds, age, withdrawal, starvation, and the forced win of COMPAT_HX3
(17_arbiters.md R357 to R366). -/

namespace Sys2Proof.Machine

/-- The least index of a list from `k`, or the least of all when none is that high: round robin (R358). -/
def nextFrom (k : Nat) (l : List Nat) : Option Nat :=
  let least (xs : List Nat) : Option Nat := xs.foldl (fun b x => match b with | none => some x | some y => some (min x y)) none
  (least (l.filter fun i => decide (k ≤ i))).or (least l)

/-- The next segment of a command that no mover has (06_movers.md R129). -/
def Cmd.nextSeg (c : Cmd) : Option Nat :=
  match c.redo with
  | a :: r => some (r.foldl min a)
  | [] => if c.next < c.segs then some c.next else none

/-- The first command of a channel with a waiting segment of a class, and that segment (06_movers.md R129). -/
def State.waitingSeg (s : State) (slot : Nat) (u : Bool) : Option (Cmd × Nat) :=
  ((s.chan slot).cmds.find? fun c => c.st = .dispatched && onMovers c.op && c.urgent = u && c.nextSeg.isSome).bind
    fun c => c.nextSeg.map fun k => (c, k)

/-- CLASS of a requester (R357): the PRIORITY with which a channel's waiting command was dispatched (02_channels_and_doorbells.md R36), that
of the segment a mover context serves, or ARB_REQ_CLASS. -/
def State.arbClass (s : State) (a : Nat) (r : Nat × Bool) : Nat :=
  if a < 4 then (match s.waitingSeg r.1 (decide (2 ≤ a)) with | some x => x.1.prio | none => (s.chan r.1).prio).toNat
  else if a < 0x1B then (s.job r.1 r.2).prio.toNat
  else (s.areq a r.1).cls % 8

/-- Rank of a requester (R358). -/
def State.rank (s : State) (a : Nat) (r : Nat × Bool) : Nat := min 7 (s.arbClass a r + (s.areq a r.1).age)

/-- ARB_HX3_WAIT_MAX, 0 taken as 1 (R366). -/
def State.waitMax (s : State) : Nat := max 1 s.arb.waitMax.toNat

/-- The choice among requests (R358, R363): the requester, and the rank whose pointer it moves. -/
def State.choose (s : State) (a : Nat) (reqs : List (Nat × Bool)) : Option ((Nat × Bool) × Nat) :=
  let urgent := reqs.filter (·.2)
  let tier := if 4 ≤ a ∧ a < 0x1B ∧ urgent ≠ [] then urgent else if 4 ≤ a ∧ a < 0x1B then reqs.filter (!·.2) else reqs
  let forced := if s.arb.compat then tier.filter fun r => decide (s.waitMax ≤ (s.areq a r.1).lost) else []
  let top := tier.foldl (fun k r => max k (s.rank a r)) 0
  let (cands, level) := if forced = [] then (tier.filter fun r => s.rank a r = top, top) else (forced, 7)
  let last : Option Nat := tabGet (fun _ => none) (s.arbiter a).ptr level
  let from_ := match last with | none => 0 | some k => k + 1
  (nextFrom from_ (cands.map (·.1))).bind fun i => (cands.find? (·.1 = i)).map fun r => (r, level)

/-- The length of a wait that ends now, in hub cycles. -/
def ArbReq.waited (x : ArbReq) (now : Word) : BitVec 32 := match x.since with | none => 0 | some t => satAdd (0 : BitVec 32) (now - t).toNat

/-- A wait ends: LONGEST takes it (R364; log entry 49); arbiters 0x00 to 0x03 keep no counters (R365). -/
def ArbReq.ended (x : ArbReq) (counts : Bool) (now : Word) : ArbReq :=
  { x with
    age := 0, lost := 0, since := none, flagged := false
    longest := if counts && x.longest < x.waited now then x.waited now else x.longest }

/-- Requesters that have dropped their request lose AGE and their wait (R359). -/
def State.dropRequests (s : State) (a : Nat) (reqs : List (Nat × Bool)) : State :=
  let gone := s.arb.req.filter fun (e : Nat × ArbReq) => e.1 / 16384 = a && !reqs.any fun r => r.1 = e.1 % 16384
  gone.foldl (fun t e => t.onAreq a (e.1 % 16384) fun x => x.ended (decide (4 ≤ a)) t.glb.time) s

/-- A wait without a grant begins (R362). -/
def ArbReq.waiting (x : ArbReq) (now : Word) : ArbReq := { x with since := some (x.since.getD now) }

/-- A requester wins a round (R359, R363, R364). -/
def ArbReq.win (x : ArbReq) (counts : Bool) (now : Word) : ArbReq :=
  { x.ended counts now with grants := if counts then satInc x.grants else x.grants }

/-- A requester loses a round (R359, R363, R364). -/
def ArbReq.lose (x : ArbReq) (counts : Bool) : ArbReq :=
  { x with age := min 7 (x.age + 1), lost := x.lost + 1, waits := if counts then satInc x.waits else x.waits }

/-- A decision that grants the resource to a new holder (R359). -/
def State.round (s : State) (a : Nat) (reqs : List (Nat × Bool)) (w : Nat × Bool) (level : Nat) : State :=
  let counts := decide (4 ≤ a)
  let each (t : State) (r : Nat × Bool) : State :=
    t.onAreq a r.1 fun x => if r = w then (x.waiting t.glb.time).win counts t.glb.time else (x.waiting t.glb.time).lose counts
  let before : Option Nat := tabGet (fun _ => none) (s.arbiter a).ptr level
  ((reqs.foldl each s).onArbiter a fun x => { x with
    holder := some w.1, fresh := true, urgent := w.2, ptr := tabPut (fun _ => none) x.ptr level (some w.1)
    undo := some (level, before, (s.areq a w.1).grants) }).ops pgARB 1

/-- One decision of an arbiter among the requests raised, of which `able` may be granted (R360): a holder that still requests keeps the
grant; one that may take no more steps aside (log entry 87). -/
def State.arbDecide (s : State) (a : Nat) (reqs able : List (Nat × Bool)) : State :=
  let s1 := s.dropRequests a reqs
  let holds := match (s1.arbiter a).holder with | some h => able.any (·.1 = h) | none => false
  if holds then
    reqs.foldl (fun t r => if (t.arbiter a).holder = some r.1 then t else t.onAreq a r.1 fun x => x.waiting t.glb.time) s1
  else match s1.choose a able with
    | none => reqs.foldl (fun t r => t.onAreq a r.1 fun x => x.waiting t.glb.time) (s1.onArbiter a fun x => { x with holder := none })
    | some (w, level) => s1.round a reqs w level

/-- The winner of the cycle has withdrawn (R361): a dead cycle, which is no grant; the pointer and GRANTS are as before it was chosen. -/
def State.arbWithdraw (s : State) (a : Nat) : State :=
  match (s.arbiter a).holder, (s.arbiter a).undo with
  | some h, some (level, before, grants) =>
    (s.onAreq a h fun x => if x.grants = 0 then x else { x with grants := grants }).onArbiter a fun x => { x with
      holder := none, fresh := false, undo := none, ptr := tabPut (fun _ => none) x.ptr level before, dead := satInc x.dead }
  | some _, none => s.onArbiter a fun x => { x with holder := none, fresh := false, dead := satInc x.dead }
  | none, _ => s

/-- The holder uses its grant (R361). -/
def State.arbUse (s : State) (a idx : Nat) : State :=
  s.onArbiter a fun x => if x.holder = some idx then { x with fresh := false } else x

/-- One cycle of an arbiter: a winner that has withdrawn before it used its grant makes it a dead cycle, and the next cycle is decided
(R360, R361). -/
def State.arbCycle (s : State) (a : Nat) (reqs able : List (Nat × Bool)) : State :=
  let x := s.arbiter a
  let gone := match x.holder with | some h => x.fresh && !reqs.any (·.1 = h) | none => false
  (if gone then s.arbWithdraw a else s).arbDecide a reqs able

/-- The holder's request is down: the next cycle goes to a winner among the others (R360). -/
def State.arbNext (s : State) (a : Nat) (reqs able : List (Nat × Bool)) (h : Nat) : State :=
  (s.onArbiter a fun x => { x with holder := none }).arbDecide a (reqs.filter (·.1 ≠ h)) (able.filter (·.1 ≠ h))

/-- STARVE_LIMIT (R362): flagged once per continuous wait. -/
def State.starve (s : State) (a idx : Nat) : State :=
  let x := s.areq a idx
  if s.arb.starveLimit = 0 ∨ x.since.isNone ∨ x.flagged then s
  else
    let w := place 1 63 ||| place a 56 ||| place idx 40 ||| place (field s.glb.time 39 0) 0
    let s1 := (s.onAreq a idx fun x => { x with flagged := true }).onArb fun b => { b with
      starved := b.starved ||| BitVec.ofNat 35 (2 ^ a), starvedAt := s.glb.time
      starvedNow := (if b.starvedAt = s.glb.time then b.starvedNow else 0) ||| BitVec.ofNat 35 (2 ^ a), starveFirst := if bit b.starveFirst 63 then b.starveFirst else w }
    let s2 := s1.flag pgARB 0 1 0 idx
    if a < 4 then s2.flag pgARB (s.chan idx).part 3 0 idx else s2

/-- A write of ARB_CHAN_PRIO (R365): it acts on the segments that still wait too. -/
def State.chanPrio (s : State) (fn : Nat) (v : Word) : State :=
  match s.goodChan (tabGet (fun _ => 0) s.arb.chanSel fn) fn with
  | some k => s.onChan k fun c => { c with prio := v.setWidth 3, cmds := c.cmds.map fun x => { x with prio := v.setWidth 3 } }
  | none => s.flag pgARB fn 2

end Sys2Proof.Machine
end

