-- ==== Sys2Proof/Machine/Home.lean ====
section
/-! DEFINITION. The coherence home: directory, device cache, transactions, home atomics, host snoops and their races
(11_coherence_home.md R239 to R259). -/

namespace Sys2Proof.Machine

/-! ## Lines and holders -/

/-- The line of a host physical address (R239). -/
def lineOf (a : Word) : Nat := a.toNat / 64

/-- The address of a line. -/
def lineAddr (n : Nat) : Word := BitVec.ofNat 64 (64 * n)

/-- The requester ID of a hub unit (R240): 1,404 is Skink, 1,405 and 1,406 are the front ends of Engines A and B, and a unit without an
ID of its own asks through the front end of Engine A (log entry 99). -/
def unitId : UnitFor → Nat
  | .moverRead m .. => 1280 + m
  | .moverWrite m .. => 1280 + m
  | .moverBack m .. => 1280 + m
  | .moverAtomic m .. => 1280 + m
  | .walkUpdate w _ => 1332 + w
  | .walkLine w _ => 1332 + w
  | .ringRead e .. => 1405 + e.num
  | .placeRead .. => 1404
  | .copyRead .. => 1404
  | .placeCas .. => 1404
  | .recallCas .. => 1404
  | .copyWrite .. => 1404
  | .releaseRead .. => 1404
  | _ => 1405

/-- The answer to a unit is delivered by a row of its own, which stands for its arrival (log entry 98). -/
def UnitFor.rowed : UnitFor → Bool
  | .walkLine .. => true
  | .ringRead .. => true
  | .mgmtRead _ => true
  | .mgmtResult _ => true
  | .invRead _ => true
  | .record .. => true
  | _ => false

/-- The requester ID of an asker (R240). -/
def askerId : Asker → Nat
  | .agent id .. => id
  | .unit u => unitId u

/-- The asker is a caching agent (R240). -/
def caches (w : Asker) : Bool := askerId w < 256

/-- The agents that may hold a line (R242, R243). -/
def Line.holders (l : Line) : List Nat :=
  match l.dstate with
  | .i => []
  | .s => if l.coarse then (List.range 256).filter fun a => bit l.vec (a / 8) else l.ptrs
  | _ => l.ptrs

/-- The line with agent `a` among its sharers; a fourth makes the vector coarse (R242). -/
def Line.share (l : Line) (a : Nat) : Line :=
  let bits (as : List Nat) : BitVec 32 := as.foldl (fun v k => v ||| BitVec.ofNat 32 (2 ^ (k / 8))) 0
  if l.coarse then { l with dstate := .s, vec := l.vec ||| bits [a] }
  else if l.ptrs.contains a then { l with dstate := .s }
  else if l.ptrs.length < 3 then { l with dstate := .s, ptrs := l.ptrs ++ [a] }
  else { l with dstate := .s, coarse := true, ptrs := [], vec := bits (a :: l.ptrs) }

/-- The agents of `a`'s group of a coarse vector (R241). -/
def groupAgents (a : Nat) : List Nat := (List.range 8).map fun k => a / 8 * 8 + k

/-- A coarse line without agent `a`: its group's bit clears once all eight of the group have given the line up (R243). -/
def Line.leaveGroup (l : Line) (a : Nat) : Line :=
  let gone := match l.txn with | some t => a :: t.gone | none => [a]
  if (groupAgents a).all gone.contains then
    { l with vec := l.vec &&& ~~~ BitVec.ofNat 32 (2 ^ (a / 8)), txn := l.txn.map fun t => { t with gone := gone } }
  else { l with txn := l.txn.map fun t => { t with gone := gone } }

/-- The line without agent `a`; an owner that goes leaves it to the home (R243). -/
def Line.unshare (l : Line) (a : Nat) : Line :=
  match l.dstate with
  | .s => if l.coarse then l.leaveGroup a else { l with ptrs := l.ptrs.erase a }
  | .i => l
  | _ => if l.ptrs = [a] then { l with dstate := .i, ptrs := [] } else l

/-- The line owned by the home: no on-die holder; MODE stays (R242). -/
def Line.homeOwned (l : Line) : Line := { l with dstate := .i, ptrs := [], vec := 0 }

/-- The line owned by agent `a` in state `d`. -/
def Line.own (l : Line) (d : DState) (a : Nat) : Line := { l with dstate := d, hm := true, coarse := false, ptrs := [a], vec := 0 }

/-- Directory set of a line: bank and set (R241). -/
def dirSet (n : Nat) : Nat :=
  Config.dirBank (field (lineAddr n) 9 6) (field (lineAddr n) 41 38) % 16 * 8192 + field (lineAddr n) 22 10

/-- Device-cache set of a line (R245). -/
def dcSet (n : Nat) : Nat := Config.dcSet n % 16384

/-- The number of the bank and set a SET_FLUSH's address names: the bank in [9:6], the set in [22:10] (R252; log entry 100). -/
def flushKey (a : Word) : Nat := field a 9 6 * 8192 + field a 22 10

/-- The address of a SET_FLUSH (R252; log entry 100). -/
def flushAddr (key : Nat) : Word := place (key / 8192 % 16) 6 ||| place (key % 8192) 10

/-- COH_HOLD as it is taken, which the hub drives on coh_hold[8:0] (R251, R259). -/
def State.cohHold (s : State) : BitVec 9 := if s.home.hold < 16 then 16 else if 256 < s.home.hold then 256 else s.home.hold

/-- The agents that may hold a line: none that was disabled for a late answer (R242, R258). -/
def State.holdersOf (s : State) (n : Nat) : List Nat := (s.line n).holders.filter fun a => !s.home.dead.contains a

/-- A COH sticky bit of PF0's view (R259). -/
def State.coh (s : State) (b : Nat) (code : Code := 0) : State := s.flag pgCOH 0 b code

/-! ## Messages -/

/-- An answer to a request: to its agent, or on its way to a unit of the hub (R246). -/
def State.answer (s : State) (r : HomeReq) (opc : Nat) (status : Code) (poison : Bool) (data : Granule) : State :=
  match r.who with
  | .agent id tag port =>
    s.send (.noc port { opc := opc, agent := id, tag := tag, addr := r.addr, status := status, poison := poison, data := data })
  | .unit u => s.onHome fun h => { h with answers := h.answers ++ [(u, status, data, poison)] }

/-- ERR with a status code (R246). -/
def State.err (s : State) (r : HomeReq) (code : Code) : State := s.answer r 0x30 code false 0

/-- The lowest TAG no snoop outstanding has: each is unique among the home's (15_block_ports.md R335). -/
def State.snpTag (s : State) : Nat :=
  ((List.range (s.home.snps.length + 1)).find? fun k => s.home.snps.all fun x => x.tag ≠ k).getD 0

/-- A snoop of a line, or a SET_FLUSH of a set, is sent to an agent (R246). -/
def State.snoopOne (s : State) (flush : Bool) (key opc : Nat) (addr : Word) (a : Nat) : State :=
  (s.onHome fun h => { h with snps := h.snps ++ [{ tag := s.snpTag, agent := a, flush := flush, key := key }] }).send
    (.noc (Config.agentPort a % 4) { opc := opc, agent := a, tag := s.snpTag, addr := addr })

/-- Snoops of a line to agents (R246). -/
def State.snoopAll (s : State) (n opc : Nat) (as : List Nat) : State := as.foldl (fun t a => t.snoopOne false n opc (lineAddr n) a) s

/-- The transaction of a line changed. -/
def State.onTxn (s : State) (n : Nat) (f : Txn → Txn) : State := s.onLine n fun l => { l with txn := l.txn.map f }

/-- A line is due for its next transaction. -/
def State.due (s : State) (n : Nat) : State := s.onHome fun h => { h with todo := h.todo ++ [n] }

/-- A line's request waits for a way of its full directory set (R244). -/
def Line.waysWait (l : Line) : Bool := match l.txn with | some t => t.st = .way | none => false

/-- The lines that wait for a way of line `n`'s directory set, or of its device-cache set, are due (R244, R245). -/
def State.stir (s : State) (n : Nat) : State :=
  let wait := s.home.line.filter fun (p : Nat × Line) =>
    p.1 ≠ n && (p.2.waysWait && dirSet p.1 = dirSet n || p.2.dcWait && dcSet p.1 = dcSet n)
  s.onHome fun h => { h with todo := h.todo ++ wait.map (·.1) }

/-- A line's transaction ends (R248). -/
def State.endTxn (s : State) (n : Nat) : State := ((s.onLine n fun l => { l with txn := none }).due n).stir n

/-- A line was written or removed: walks parked on it walk again (04_translation.md R96). -/
def State.wakeLine (s : State) (n : Nat) : State := s.onHome fun h => { h with woken := h.woken ++ [n] }

/-- A line's entry is freed; requests that wait for a way of its set may go on (R244). -/
def State.freeEntry (s : State) (n : Nat) : State :=
  (s.onLine n fun l => { l.homeOwned with
    entry := false, coarse := false, hm := false, dc := 0, data := 0, poison := false, dcWait := false, leaves := false
    recalled := false }).stir n

/-- A transaction fails: its requester gets ERR, an entry allocated for it is freed (R258). -/
def State.failTxn (s : State) (n : Nat) (code : Code) : State :=
  match (s.line n).txn with
  | none => s
  | some t =>
    let s1 := match t.cause with | .req r => s.err r code | _ => s
    let s2 := if t.entryBefore then s1 else s1.freeEntry n
    s2.endTxn n

/-- A request comes from an agent of the NoC. -/
def fromAgent (r : HomeReq) : Bool := match r.who with | .agent .. => true | .unit _ => false

/-- A unit's request, made for a partition whose function is not master-enabled: the hub issues no request for it
(14_host_link_endpoint.md R321). -/
def State.muted (s : State) (t : Txn) : Bool :=
  match t.cause with | .req r => !fromAgent r && !s.masterEnabled r.part | _ => false

/-- A host request leaves on the line's link; with no carrying link the transaction fails with 0x44, and one that may not be issued with
0x42 (R247; 14_host_link_endpoint.md R306, R321). -/
def State.hostReq (s : State) (n : Nat) (op : String) : State :=
  if (s.line n).txn.any s.muted then s.failTxn n 0x42
  else match s.cacheLink (lineAddr n) with
  | none => (s.flag pgHLK 0 4 0x44).failTxn n 0x44
  | some l => (s.onTxn n fun t => { t with link := l, goWait := true }).emit (.d2hReq l op (lineAddr n))

/-- An RdCurr for the transaction of a line (R247). -/
def State.rdCurr (s : State) (n : Nat) : State :=
  (s.onTxn n fun t => { t with st := .curr }).hostReq n "RdCurr"

/-- The device-cache copy of a line leaves for the host, or is given up (R244, R245, R247): on the link the line is held through
(14_host_link_endpoint.md R310). -/
def State.evictLine (s : State) (n : Nat) : State :=
  let op := if (s.line n).dc = 2 then "DirtyEvict" else "CleanEvictNoData"
  let via := (s.line n).via
  let s1 := s.onTxn n fun t => { t with st := .evict }
  if (s.link via).up then (s1.onTxn n fun t => { t with link := via, goWait := true }).emit (.d2hReq via op (lineAddr n))
  else s1.hostReq n op

/-- A recall of a line that has no transaction (R244). -/
def State.recallLine (s : State) (n : Nat) : State :=
  let hs := s.holdersOf n
  let s1 := (s.onLine n fun l => { l with
    leaves := false, recalled := false, txn := some { cause := .recall, st := .rcl, waits := hs, entryBefore := true } }).onHome
    fun h => { h with recalls := if (s.line n).recalled then h.recalls else satInc h.recalls }
  if hs = [] then s1.evictLine n else s1.snoopAll n 0x11 hs

/-- The lines whose copies stand in line `n`'s device-cache set, `n` itself apart (R245). -/
def State.dcMates (s : State) (n : Nat) : List (Nat × Line) :=
  s.home.line.filter fun (p : Nat × Line) => decide (p.2.dc ≠ 0) && !p.2.dcWait && decide (p.1 ≠ n) && dcSet p.1 = dcSet n

/-- Line `n`'s device-cache set has no way for it (R245). -/
def State.dcFull (s : State) (n : Nat) : Bool := decide (s.waysLeft 6 (dcSet n / 1024) 16 ≤ (s.dcMates n).length)

/-- Log2 of the bytes of a leaf of a level (04_translation.md R82). -/
def levelSize (level : Nat) : Nat := 12 + 9 * level

/-- The address of the entry a walker reads. -/
def Walk.entryAddr (w : Walk) : Word := w.table + BitVec.ofNat 64 (8 * field w.req.va (levelSize w.level + 8) (levelSize w.level))

/-- A line is watched for a request that waits on a locked entry: it stays in the device cache (04_translation.md R96). -/
def State.watched (s : State) (n : Nat) : Bool :=
  s.xlt.locks.any (fun w => lineOf w.line = n) ||
    s.xlt.walk.any fun (e : Nat × Option Walk) => match e.2 with | some w => w.at_ = .locked && lineOf w.entryAddr = n | none => false

/-- A copy leaves the device cache for another (R245). -/
def State.dcVictim (s : State) (v : Nat) (l : Line) : State :=
  if l.dc = 1 then s.onLine v fun l => { l with dc := 0, data := 0, poison := false }
  else if l.dstate = .i then
    (s.onLine v fun l => { l with txn := some { cause := .recall, st := .evict, entryBefore := true } }).evictLine v
  else s.recallLine v

/-- Room for line `n` in its device-cache set (R245): a line of a full set leaves, chosen by pseudo-LRU, unless one is leaving. -/
def State.dcRoom (s : State) (n : Nat) : State :=
  let mates := s.dcMates n
  let leaving := mates.any fun p => match p.2.txn with | some t => t.st = .evict || t.cause = .recall | none => false
  let free := mates.filter fun p => p.2.txn.isNone && !s.watched p.1
  if !s.dcFull n || leaving || free = [] then s
  else
    let (k, s1) := s.draw
    match free[Config.dcVictim k % free.length]? with
    | none => s1
    | some (v, l) => s1.dcVictim v l

/-- A copy that waits for a way of its device-cache set takes one, or has one made free (R245). -/
def State.dcTake (s : State) (n : Nat) : State :=
  if (s.line n).dcWait then
    let s1 := s.dcRoom n
    if s1.dcFull n then s1 else s1.onLine n fun l => { l with dcWait := false }
  else s

/-- Data is put into the device cache (R245, R256); into a full set, once a way of it is free (log entry 101). -/
def State.fillDc (s : State) (n : Nat) (dirty : Bool) (poison : Bool) (data : Granule) : State :=
  let fresh : Bool := (s.line n).dc = 0
  let s1 := s.onLine n fun l => { l with
    dc := if dirty then 2 else max 1 l.dc, data := data, poison := poison, dcWait := fresh || l.dcWait }
  if fresh then s1.dcTake n else s1

/-! ## Completion of a transaction -/

/-- Every byte is written. -/
def wholeLine (be : Word) : Bool := be = 0xFFFFFFFFFFFFFFFF

/-- An AtomicReq executes once the device cache holds its data; a poisoned line fails it (R254, R258). -/
def State.startAtomic (s : State) (n : Nat) (r : HomeReq) : State :=
  let s1 := s.onLine n Line.homeOwned
  if (s.line n).poison then (s1.err r 0xC1).endTxn n else s1.onTxn n fun t => { t with st := .atm }

/-- A WriteNoAlloc into a line the hub holds in E or M (R247). -/
def State.writeDc (s : State) (n : Nat) (r : HomeReq) (old : Granule) (poison : Bool) : State :=
  let whole := wholeLine r.be
  ((((s.onLine n Line.homeOwned).fillDc n true (r.poison || poison && !whole) (granMerge old r.data r.be)).answer r 0x2C 0 false 0).wakeLine
    n).endTxn n

/-- A transaction has its data (R253): the grant, DATA, the atomic or the merged write. -/
def State.serveData (s : State) (n : Nat) (r : HomeReq) (poison : Bool) (data : Granule) : State :=
  let id := askerId r.who
  match r.kind with
  | .readShared =>
    let l := s.line n
    if !caches r.who then
      let s1 := if l.dc = 0 then s.fillDc n false poison data else s
      let s2 := s1.onLine n fun l => if l.dstate = .i && !l.hm then { l with dstate := .s } else l
      (if poison then s2.err r 0xC1 else s2.answer r 0x2B 0 false data).endTxn n
    else if l.hm && s.holdersOf n = [] then ((s.onLine n fun l => l.own .e id).answer r 0x29 0 poison data).endTxn n
    else ((s.onLine n fun l => l.share id).answer r 0x28 0 poison data).endTxn n
  | .readUnique => ((s.onLine n fun l => l.own .m id).answer r 0x2A 0 poison data).endTxn n
  | .readNoAlloc =>
    (if poison && !caches r.who then s.err r 0xC1 else s.answer r 0x2B 0 poison data).endTxn n
  | .writeNoAlloc => s.writeDc n r data poison
  | .atomic => (if (s.line n).dc = 0 then s.fillDc n false poison data else s).startAtomic n r

/-- The data of a transaction comes from the device cache, or by RdCurr (R247). -/
def State.needData (s : State) (n : Nat) (r : HomeReq) : State :=
  let l := s.line n
  if l.dc = 0 then s.rdCurr n else s.serveData n r l.poison l.data

/-- A WriteNoAlloc whose holders have given the line up (R247, R253). -/
def State.writeLine (s : State) (n : Nat) (r : HomeReq) : State :=
  let l := s.line n
  if l.hm then
    if wholeLine r.be then s.writeDc n r 0 false else (s.onLine n Line.homeOwned).needData n r
  else
    let s1 := if l.entry then (s.freeEntry n).wakeLine n else s
    (s1.onTxn n fun t => { t with st := .write, entryBefore := true }).hostReq n "ItoMWr"

/-- The name of a host snoop's answer (R255): kind 0 SnpInv, 1 SnpData, 2 SnpCur. -/
def snoopRsp (kind : Nat) (written : Bool) : String :=
  match kind with
  | 0 => if written then "RspIFwdM" else "RspIHitSE"
  | 1 => if written then "RspSFwdM" else "RspSHitSE"
  | _ => if written then "RspVFwdV" else "RspVHitV"

/-- One host snoop is answered (R255). -/
def State.hostRsp (s : State) (n link : Nat) (rsp : String) : State :=
  (s.onHome fun h => { h with snoops := satInc h.snoops }).emit (.d2hRsp link rsp (lineAddr n))

/-- The answer to a host snoop once the die has answered, and the line afterwards (R255). -/
def State.hostAnswer (s : State) (n kind link : Nat) : State :=
  let l := s.line n
  let dirty := l.dc = 2
  let s1 := s.hostRsp n link (snoopRsp kind dirty)
  let s2 := if dirty then s1.emit (.d2hData link (lineAddr n) l.poison 0xFFFFFFFFFFFFFFFF l.data) else s1
  match kind with
  | 0 => (s2.freeEntry n).wakeLine n
  | 1 => s2.onLine n fun l => { l with dstate := .s, hm := false, dc := min l.dc 1 }
  | _ => s2

/-- The line's transaction goes on without asking the host (R247): its data is in the device cache, or it writes the whole line there. -/
def Line.ready (l : Line) (t : Txn) : Bool :=
  match t.cause with
  | .req r => if r.kind = .writeNoAlloc then l.hm && (wholeLine r.be || l.dc ≠ 0) else l.dc ≠ 0
  | .recall => false
  | .host _ _ => true

/-- A transaction gives way to a host snoop: its request is the line's next, and a recall begins again (R244, R255). -/
def State.yieldTxn (s : State) (n : Nat) : State :=
  (s.onLine n fun l =>
    let again : Bool := match l.txn with | some { cause := .recall, .. } => true | _ => false
    { l with
      txn := none, next := match l.txn with | some { cause := .req r, .. } => some r | _ => l.next
      leaves := l.leaves || again, recalled := l.recalled || again }).due n

/-- A transaction whose line has been dropped goes on as without an entry (14_host_link_endpoint.md R323). -/
def State.settleLost (s : State) (n : Nat) (t : Txn) : State :=
  match t.cause with
  | .recall => s.endTxn n
  | .host _ link => (if (s.link link).up then s.hostRsp n link "RspIHitI" else s).endTxn n
  | .req _ => s.yieldTxn n

/-- A transaction whose answers are all in goes on; a host snoop that waits for them goes first where the host is to be asked
(R253, R255). -/
def State.settle (s : State) (n : Nat) : State :=
  match (s.line n).txn with
  | none => s
  | some t =>
    if t.waits ≠ [] ∨ t.goWait then s
    else if t.lost then s.settleLost n t
    else if (s.line n).snoop.isSome && !(s.line n).ready t then s.yieldTxn n
    else match t.cause with
      | .recall => s.evictLine n
      | .host kind link => (s.hostAnswer n kind link).endTxn n
      | .req r => match r.kind with
        | .writeNoAlloc => s.writeLine n r
        | .readUnique => (s.onLine n Line.homeOwned).needData n r
        | .atomic => (s.onLine n Line.homeOwned).needData n r
        | _ => s.needData n r

/-! ## Admission -/

/-- A transaction of a request begins in a state, with snoops `opc` to agents. -/
def State.begin (s : State) (n : Nat) (r : HomeReq) (st : Tran) (opc : Nat) (as : List Nat) : State :=
  let l := s.line n
  (s.onLine n fun l' => { l' with
    txn := some { cause := .req r, st := st, waits := as, entryBefore := l.entry } }).snoopAll n opc as

/-- The host request and state of a request that meets no entry (R253). -/
def noEntryOp : ReqKind → String × Tran
  | .readShared => ("RdShared", .isH)
  | .readUnique => ("RdOwn", .imH)
  | _ => ("RdOwn", .atmH)

/-- Ways of a directory set in service. -/
def State.dirWays (s : State) (n : Nat) : Nat := s.waysLeft 7 (dirSet n / 8192) 16

/-- A line gets its entry and the host is asked; with a full set a way is recalled first (R244, R253). -/
def State.allocate (s : State) (n : Nat) (r : HomeReq) : State :=
  let entries := s.home.line.filter (·.2.entry)
  let mine := if entries.length < s.dirWays n then [] else entries.filter fun p => dirSet p.1 = dirSet n
  let (op, st) := noEntryOp r.kind
  if mine.length < s.dirWays n then
    ((s.onLine n fun l => { l.homeOwned with entry := true, hm := false, dc := 0, age := s.home.clock + 1 }).onHome
      fun h => { h with clock := h.clock + 1 }).onTxn n (fun t => { t with st := st }) |>.hostReq n op
  else
    let s1 := s.onTxn n fun t => { t with st := .way }
    let recalling := mine.any fun p => match p.2.txn with | some t => t.cause = .recall | none => false
    let free := mine.filter fun p => p.2.txn.isNone && !s.watched p.1
    match free with
    | [] => s1
    | p :: ps => if recalling then s1 else s1.recallLine (ps.foldl (fun (b q : Nat × Line) => if q.2.age < b.2.age then q else b) p).1

/-- A request with no transaction on its line is admitted (R253). -/
def State.startReq (s : State) (n : Nat) (r : HomeReq) : State :=
  let s := s.ops pgCOH 1
  let l := s.line n
  let id := askerId r.who
  let hs := s.holdersOf n
  if !l.entry then
    match r.kind with
    | .readNoAlloc => (s.begin n r .curr 0 []).rdCurr n
    | .writeNoAlloc => (s.begin n r .write 0 []).writeLine n r
    | _ => (s.begin n r .way 0 []).allocate n r
  else match r.kind, l.dstate with
    | .writeNoAlloc, _ => (s.begin n r .rcl 0x11 hs).settle n
    | .readShared, .e => s.begin n r .oFwd 0x10 hs
    | .readShared, .m => s.begin n r .oFwd 0x10 hs
    | .readShared, _ => (s.begin n r .curr 0 []).needData n r
    | .readNoAlloc, .e => s.begin n r .oFwd 0x12 hs
    | .readNoAlloc, .m => s.begin n r .oFwd 0x12 hs
    | .readNoAlloc, _ => (s.begin n r .curr 0 []).needData n r
    | _, .e => s.begin n r .oFwd 0x11 hs
    | _, .m => s.begin n r .oFwd 0x11 hs
    | .readUnique, _ =>
      let others := hs.filter (· ≠ id)
      if l.hm then (s.begin n r .sInv 0x11 others).settle n else (s.begin n r .smH 0x11 others).hostReq n "RdOwn"
    | .atomic, _ => if l.hm then (s.begin n r .atmS 0x11 hs).settle n else (s.begin n r .atmS 0x11 hs).hostReq n "RdOwn"

/-- Requests of a requester recorded in the retry lists (R250). -/
def State.recorded (s : State) (id : Nat) : Nat :=
  s.home.line.foldl (fun k p => k + (p.2.retry.filter (·.1 = id)).length) 0

/-- A request gets RETRY and, with a reserved credit left, a place in the line's retry list (R250). A unit of the hub resends by
itself: its request stays at the line. -/
def State.retry (s : State) (n : Nat) (r : HomeReq) : State :=
  let id := askerId r.who
  let keep := s.recorded id < 2
  let s1 := s.onHome fun h => { h with retries := satInc h.retries }
  match r.who with
  | .agent _ tag _ =>
    (if keep then s1.onLine n fun l => { l with retry := l.retry ++ [(id, tag)] } else s1).answer r 0x2E 0 false 0
  | .unit _ => s1.onLine n fun l => { l with
      parked := l.parked ++ [r], retry := if keep then l.retry ++ [(id, 0)] else l.retry }

/-- Atomics in the home's queue (R248). -/
def State.atomicsQueued (s : State) : Nat := s.home.line.foldl (fun k p => k + p.2.atomics.length) 0

/-- An atomic is in progress on the line. -/
def Line.inAtomic (l : Line) : Bool :=
  match l.txn with
  | some t => (match t.cause with | .req r => r.kind = .atomic | _ => false)
  | none => false

/-- A host snoop begins on a line with no transaction (R255). -/
def State.startSnoop (s : State) (n kind link : Nat) : State :=
  let l := s.line n
  if !l.entry then (s.hostRsp n link "RspIHitI").due n
  else
    let as := if kind = 0 ∨ l.dstate = .e ∨ l.dstate = .m then s.holdersOf n else []
    let st : Tran := if kind = 0 then .rcl else .oFwd
    let opc := if kind = 0 then 0x11 else if kind = 1 then 0x10 else 0x12
    ((s.onLine n fun l => { l with
      txn := some { cause := .host kind link, st := st, waits := as, entryBefore := true } }).snoopAll n opc
        as).settle n

/-- A line without a transaction starts its next request: one admitted on a credit, the retry list, queued atomics (R248, R250). -/
def State.serveNext (s : State) (n : Nat) : State :=
  let l := s.line n
  match l.next, l.parked.find? fromAgent with
  | some r, _ => (s.onLine n fun l => { l with next := none }).startReq n r
  | none, some r => (s.onLine n fun l => { l with parked := dropFirst fromAgent l.parked }).startReq n r
  | none, none =>
    if l.credit then s
    else match l.retry with
      | (id, tag) :: rest =>
        if id < 1280 then
          (s.onLine n fun l => { l with credit := true }).send
            (.noc (Config.agentPort id % 4) { opc := 0x2F, agent := id, tag := tag, addr := lineAddr n })
        else
          let s1 := s.onLine n fun l => { l with
            retry := rest, parked := dropFirst (fun r => askerId r.who = id) l.parked }
          (match l.parked.find? (fun r => askerId r.who = id) with | some r => s1.startReq n r | none => s1.due n)
      | [] => match l.atomics, l.parked with
        | r :: rest, _ => (s.onLine n fun l => { l with atomics := rest }).startReq n r
        | [], r :: rest => (s.onLine n fun l => { l with parked := rest }).startReq n r
        | [], [] => s

/-- The directory set of a line is being flushed (R258). -/
def State.flushing (s : State) (n : Nat) : Bool := s.home.flush.any fun f => f.1 = dirSet n

/-- New transactions of a line are held: a remap or a writeback drains the home, or the line's set is being flushed
(14_host_link_endpoint.md R307, R310; R258). -/
def State.homeHolds (s : State) (n : Nat) : Bool := s.hlk.remap.isSome || s.hlk.cacheDrain || s.flushing n

/-- A line is of a region that Skink copies: every on-die copy of it is recalled (05_invalidation_and_placement.md R119 step 7). -/
def State.skinkCopies (s : State) (n : Nat) : Bool := s.skk.pending.any fun e => e.pages.any fun a => lineOf a / 64 = n / 64

/-- A line with no transaction leaves: the home drains, its set is flushed, Skink copies its page, its bank or ways go, or its link carries
CXL.cache no longer (14_host_link_endpoint.md R307, R310; 05_invalidation_and_placement.md R119; 18_stored_data_protection.md R374; R258). -/
def State.mustLeave (s : State) (n : Nat) : Bool :=
  s.homeHolds n || s.skinkCopies n || (s.line n).leaves || (s.link (s.line n).via).up && !s.carries (s.line n).via

/-- A line without a transaction starts its next one: a host snoop, then the recall of a line that must leave, then its next request
(R248, R250, R255). A copy that waits for a way of the device cache, and a request that waits for one of the directory, are tried again
(R244, R245). -/
def State.serveLine (s : State) (n : Nat) : State :=
  let s := s.dcTake n
  let l := s.line n
  match l.txn with
  | some t => if t.st = .way && !s.flushing n then (match t.cause with | .req r => s.allocate n r | _ => s) else s
  | none =>
    match l.snoop with
    | some (kind, link) => (s.onLine n fun l => { l with snoop := none }).startSnoop n kind link
    | none => if l.entry && s.mustLeave n then s.recallLine n else if s.homeHolds n then s else s.serveNext n

/-- The lines that are due are served; `fuel` bounds the services. -/
def State.homePump (s : State) : Nat → State
  | 0 => s
  | fuel + 1 => match s.home.todo with
    | [] => s
    | n :: rest => ((s.onHome fun h => { h with todo := rest }).serveLine n).homePump fuel

/-- Enough services for all that can follow one event. -/
def State.homeFuel (s : State) : Nat :=
  let k := s.home.line.foldl (fun k (p : Nat × Line) => k + 2 + p.2.parked.length + p.2.atomics.length) s.home.todo.length
  4 * k * k + 16

/-- The home runs until nothing is due. -/
def State.runHome (s : State) : State := s.homePump s.homeFuel

/-- The agent's WB_ACK for the line has not left: its WriteBack still awaits it (R251). -/
def State.wbUnacked (s : State) (n id : Nat) : Bool :=
  s.noc.wait.any fun o => match o with
    | .noc _ m => m.opc = 0x2D && m.agent = id && lineOf m.addr = n
    | _ => false

/-- A request reaches the home: as a first attempt, or on a CREDIT (R240, R248 to R250). -/
def State.homeAsk (s : State) (r : HomeReq) (onCredit : Bool := false) : State :=
  let n := lineOf r.addr
  let l := s.line n
  let id := askerId r.who
  let tag := match r.who with | .agent _ tag _ => tag | .unit _ => 0
  if s.home.disabled.contains id then (s.coh 1).err r 0x05
  else if s.homeHolds n then s.onHome fun h => { h with held := h.held ++ [r] }
  else if onCredit ∧ l.credit ∧ l.retry.head? = some (id, tag) then
    let s1 := s.onLine n fun l => { l with credit := false, retry := l.retry.tail }
    (if l.txn.isSome then s1.onLine n fun l => { l with parked := r :: l.parked } else s1.startReq n r).runHome
  else if l.credit then s.retry n r
  else if s.wbUnacked n id then ((s.retry n r).due n).runHome
  else if l.txn.isSome then
    if r.kind = .atomic && l.inAtomic && s.atomicsQueued < 64 then s.onLine n fun l => { l with atomics := l.atomics ++ [r] }
    else s.retry n r
  else (s.startReq n r).runHome

/-- The requests that were held are asked again, oldest first. -/
def State.releaseHeld (s : State) : State :=
  s.home.held.foldl (fun t r => t.homeAsk r true) (s.onHome fun h => { h with held := [] })

/-! ## What arrives -/

/-- A breach by an agent on a data port (R335, R336). -/
def State.agentBreach (s : State) (id : Nat) : State := s.portProtocol (Config.agentPort id % 4)

/-- A request of an on-die agent (R246): a kind its agent may not send is a breach (log entry 21). -/
def State.agentReq (s : State) (r : HReq) (kind : ReqKind) (data : Granule := 0) (op : AtomicOp := ⟨0, 9, 0, 0⟩) : State :=
  let id := r.agent.toNat
  let allowed : Bool := match kind with
    | .readShared => decide (id < 256)
    | .readUnique => decide (id < 256)
    | .readNoAlloc => decide (id < 1280)
    | _ => decide (256 ≤ id) && decide (id < 1280)
  if !allowed ∨ r.port.val = 4 then s.portProtocol r.port.val
  else
    let part := if kind = .atomic then (s.client (id - 256)).part else 0
    let a := if kind = .atomic then r.addr else r.addr &&& 0xFFFFFFFFFFFFFFC0
    s.homeAsk { who := .agent id r.tag.toNat r.port.val, kind := kind, addr := a, data := data, be := r.be, poison := r.poison, op := op
                part := part } r.onCredit

/-- OP and TYPE of an AtomicReq are defined (03_command_set.md R69). -/
def atomicDefined (op type : Nat) : Bool :=
  decide (op < 8) && (type = 0 || type = 1 || type = 8 || type = 9) && !(3 ≤ op && op ≤ 5 && type ≤ 1)

/-- The snooped agent `a` is done with line `n`. -/
def State.snoopDone (s : State) (n a : Nat) : State :=
  ((s.onTxn n fun t => { t with waits := t.waits.erase a }).settle n).runHome

/-- The transaction discards the data its snoops return: a whole-line WriteNoAlloc (R253), and one whose line has been dropped
(14_host_link_endpoint.md R323). -/
def Txn.discards (t : Txn) : Bool :=
  t.lost || match t.cause with | .req r => r.kind = .writeNoAlloc && wholeLine r.be | _ => false

/-- Written data of a snooped owner is absorbed once (R256), its poison with it. -/
def State.absorb (s : State) (n : Nat) (t : Txn) (poison : Bool) (data : Granule) : State :=
  if t.discards then s else (s.fillDc n true poison data).wakeLine n

/-- The answers of a holder to a snoop (R246). -/
inductive Ans where
  | ackS | ackI | dataS | dataI | dataCur | miss | wbPending
deriving DecidableEq, Repr

/-- Line `n`'s transaction after the answer of agent `a` (R253, R257). -/
def State.onAnswer (s : State) (n a : Nat) (t : Txn) (k : Ans) (poison : Bool) (data : Granule) : State :=
  let keepS (l : Line) : Line := if l.dstate = .e ∨ l.dstate = .m then { l with dstate := .s } else l
  match k with
  | .ackS => (s.onLine n keepS).snoopDone n a
  | .ackI => (s.onLine n fun l => l.unshare a).snoopDone n a
  | .dataS => ((s.absorb n t poison data).onLine n keepS).snoopDone n a
  | .dataI => ((s.absorb n t poison data).onLine n fun l => l.unshare a).snoopDone n a
  | .dataCur => (s.absorb n t poison data).snoopDone n a
  | .miss =>
    ((s.onHome fun h => { h with stale := satInc h.stale }).onLine n fun l => l.unshare a).snoopDone n a
  | .wbPending =>
    let s1 := s.onHome fun h => { h with crosses := satInc h.crosses }
    if t.wbGot then s1.snoopDone n a
    else s1.onTxn n fun t => { t with wbPend := true, st := if t.st = .oFwd then .wbWait else t.st }

/-- The lines of a directory set (R241). -/
def State.setLines (s : State) (key : Nat) : List (Nat × Line) := s.home.line.filter fun (p : Nat × Line) => dirSet p.1 = key

/-- A set's flush is over: every agent has answered, and the home holds no line of the set and runs no transaction on one but those that
wait for its ways (R258). -/
def State.flushOver (s : State) (f : Nat × List Nat) : Bool :=
  f.2 = [] && (s.setLines f.1).all fun p => !p.2.entry && (p.2.txn.isNone || p.2.waysWait)

/-- The flushes that are over end, and the requests for their sets go on (R258). -/
def State.endFlushes (s : State) : State :=
  match s.home.flush.filter s.flushOver with
  | [] => s
  | fs =>
    let ns := (fs.map fun f => (s.setLines f.1).map (·.1)).flatten
    ((s.onHome fun h => { h with flush := h.flush.filter (fun f => !fs.contains f), todo := h.todo ++ ns }).runHome).releaseHeld

/-- The copy of a line of a set being flushed is written back, or dropped with its entry; what its owner has written comes first, with the
owner's WriteBack or the end of its flush, and a line with a transaction leaves when that ends (R258). -/
def State.flushLine (s : State) (n : Nat) : State :=
  let l := s.line n
  let owned := (l.dstate = .e || l.dstate = .m) && s.home.flush.any fun f => f.1 = dirSet n && l.ptrs.any f.2.contains
  if l.txn.isSome || !l.entry || owned then s
  else if l.dc = 2 then
    (s.onLine n fun l => { l with txn := some { cause := .recall, st := .evict, entryBefore := true } }).evictLine n
  else (s.freeEntry n).wakeLine n

/-- A line of a set being flushed goes on leaving (R258). -/
def State.flushGo (s : State) (n : Nat) : State := if s.flushing n then s.flushLine n else s

/-- An agent has given up a line with no transaction (R252, R258). -/
def State.flushedLine (s : State) (a n : Nat) : State :=
  if (s.line n).txn.isSome then s else (s.onLine n fun l => l.unshare a).flushLine n

/-- An agent has flushed a set: it holds no line of it (R252, R258). -/
def State.flushed (s : State) (key a : Nat) : State :=
  let s1 := s.onHome fun h => { h with flush := h.flush.map fun f => if f.1 = key then (f.1, f.2.erase a) else f }
  ((((s1.setLines key).map (·.1)).foldl (fun t n => t.flushedLine a n) s1).runHome).endFlushes

/-- An answer to a snoop whose transaction has ended without it: the line no longer counts on an agent that has given it up. -/
def State.lateAnswer (s : State) (n a : Nat) (k : Ans) : State :=
  if k = .ackI ∨ k = .dataI ∨ k = .miss then s.onLine n fun l => l.unshare a else s

/-- A holder's answer to a snoop or a SET_FLUSH arrives (R251, R252); one whose AGENT and TAG match nothing outstanding, or whose ADDR is not
that of what they match, is a breach (R335; log entry 134). -/
def State.snoopAnswer (s : State) (h : SnpHdr) (addr : Word) (k : Ans) (data : Granule) : State :=
  let n := lineOf addr
  let a := h.agent.toNat
  let mine (flush : Bool) (key : Nat) (x : SnpOut) : Bool := x.tag = h.tag.toNat && x.agent = a && x.flush = flush && x.key = key
  let took (p : SnpOut → Bool) : State := s.onHome fun h => { h with snps := dropFirst p h.snps }
  if s.home.snps.any (mine false n) then
    let s1 := took (mine false n)
    match (s1.line n).txn with
    | some t => if t.waits.contains a then (s1.onAnswer n a t k h.poison data).endFlushes else s1.lateAnswer n a k
    | none => s1.lateAnswer n a k
  else if s.home.snps.any (mine true (flushKey addr)) && k = .ackI then (took (mine true (flushKey addr))).flushed (flushKey addr) a
  else s.agentBreach a

/-- WB_ACK to the writer of a WriteBack. -/
def State.wbAck (s : State) (r : HReq) : State :=
  s.send (.noc r.port.val { opc := 0x2D, agent := r.agent.toNat, tag := r.tag.toNat, addr := r.addr })

/-- A WriteBack arrives (R253, R257). -/
def State.onWriteBack (s : State) (r : HReq) (data : Granule) : State :=
  let n := lineOf r.addr
  let l := s.line n
  let a := r.agent.toNat
  let owner := (l.dstate = .e ∨ l.dstate = .m) ∧ l.ptrs = [a]
  if 256 ≤ a ∨ r.port.val = 4 then s.portProtocol r.port.val
  else if s.home.disabled.contains a then
    (s.coh 1).err { who := .agent a r.tag.toNat r.port.val, kind := .readShared, addr := r.addr } 0x05
  else if l.txn.isNone && !l.entry && s.home.flush.any (fun f => f.1 = dirSet n && f.2.contains a) then
    let x : Txn := { cause := .recall, st := .evict, entryBefore := true }
    ((s.onLine n fun l => { l with entry := true, dc := 2, dcWait := true, data := data, poison := r.poison, txn := some x }).evictLine n).wbAck r
  else match l.txn with
    | some t =>
      if t.waits.contains a ∧ (owner ∨ t.lost) then
        let s1 := ((s.absorb n t r.poison data).wbAck r).onLine n fun l => l.unshare a
        if t.wbPend then s1.snoopDone n a else s1.onTxn n fun t => { t with wbGot := true }
      else (s.coh 6).wbAck r
    | none =>
      if owner then ((((s.fillDc n true r.poison data).wakeLine n).onLine n fun l => l.unshare a).wbAck r).flushGo n |>.runHome
      else (s.coh 6).wbAck r

/-- A GO with data, of a request awaiting one in one of the states `sts` (R253): `hm` is the HSTATE it gives. -/
def State.onGo (s : State) (addr : Word) (sts : List Tran) (hm poison : Bool) (data : Granule) : State :=
  let n := lineOf addr
  match (s.line n).txn with
  | none => s.portProtocol (8 + (s.cacheLink addr).getD 0)
  | some t =>
    if t.goWait && sts.contains t.st then
      let s1 := ((s.onLine n fun l => { l with hm := hm, via := t.link }).onTxn n fun t => { t with goWait := false })
      (((s1.fillDc n false poison data).settle n).runHome).endFlushes
    else s.portProtocol (8 + t.link)

/-- GO-Err or poisoned data for a request: the line is kept poisoned (R258). -/
def State.onGoErr (s : State) (addr : Word) (data : Granule) : State :=
  let n := lineOf addr
  match (s.line n).txn with
  | none => s.portProtocol (8 + (s.cacheLink addr).getD 0)
  | some t =>
    if !t.goWait then s.portProtocol (8 + t.link)
    else
      let s1 := s.coh 4 0xC1
      match t.st with
      | .isH => s1.onGo addr [.isH] false true data
      | .imH => s1.onGo addr [.imH] true true data
      | .smH => s1.onGo addr [.smH] true true data
      | .atmH => s1.onGo addr [.atmH] true true data
      | .atmS => s1.onGo addr [.atmS] true true data
      | .evict => ((((s1.freeEntry n).wakeLine n).endTxn n).runHome).endFlushes
      | _ => ((s1.failTxn n 0xC1).runHome).endFlushes

/-- GO_WritePull: the write data goes to the host (R247). -/
def State.onWritePull (s : State) (addr : Word) : State :=
  let n := lineOf addr
  let l := s.line n
  match l.txn with
  | none => s.portProtocol (8 + (s.cacheLink addr).getD 0)
  | some t =>
    match t.st, t.cause with
    | .write, .req r =>
      (((((s.emit (.d2hData t.link (lineAddr n) r.poison r.be r.data)).answer r 0x2C 0 false 0).wakeLine n).endTxn n).runHome).endFlushes
    | .evict, _ =>
      (((((if l.dc = 2 then s.emit (.d2hData t.link (lineAddr n) l.poison 0xFFFFFFFFFFFFFFFF l.data) else s).freeEntry n).wakeLine n).endTxn
        n).runHome).endFlushes
    | _, _ => s.portProtocol (8 + t.link)

/-- GO-I: a clean eviction is complete (R244, R247). -/
def State.onGoI (s : State) (addr : Word) : State :=
  let n := lineOf addr
  match (s.line n).txn with
  | none => s.portProtocol (8 + (s.cacheLink addr).getD 0)
  | some t =>
    if t.st = .evict ∧ t.goWait then ((((s.freeEntry n).wakeLine n).endTxn n).runHome).endFlushes else s.portProtocol (8 + t.link)

/-- The data of an RdCurr arrives (R247, R258). -/
def State.onHostData (s : State) (addr : Word) (poison : Bool) (data : Granule) : State :=
  let n := lineOf addr
  let l := s.line n
  if l.drop > 0 then s.onLine n fun l => { l with drop := l.drop - 1 }
  else match l.txn with
    | none => s.portProtocol (8 + (s.cacheLink addr).getD 0)
    | some t =>
      match t.st, t.cause with
      | .curr, .req r =>
        let s1 := if poison then s.coh 4 0xC1 else s
        (((s1.onTxn n fun t => { t with goWait := false }).serveData n r poison data).runHome).endFlushes
      | _, _ => s.portProtocol (8 + t.link)

/-- A home atomic's new value is in the device cache (R254, R165, R171, R172). -/
def State.atomicDone (s : State) (addr : Word) : State :=
  let n := lineOf addr
  let l := s.line n
  match l.txn with
  | some { cause := .req r, st := .atm, .. } =>
    let o := r.addr.toNat % 64
    let old := getTyped l.data o r.op.type
    let (new, e) := atomicNew r.op.op r.op.type old r.op.operand r.op.compare
    let s1 := s.onLine n fun l => { l.homeOwned with hm := true, dc := 2, data := putTyped l.data o r.op.type new }
    let s2 := (s1.ccuAccount r.part e).onCcuCount r.part fun c => { c with atomic := satInc c.atomic }
    (((((s2.answer r 0x2C 0 false (old.setWidth 512)).wakeLine n).endTxn n)).runHome).endFlushes
  | _ => s

/-- A host snoop arrives (R255): kind 0 SnpInv, 1 SnpData, 2 SnpCur. -/
def State.onHostSnoop (s : State) (link : Nat) (addr : Word) (kind : Nat) : State :=
  let n := lineOf addr
  let l := s.line n
  match l.txn with
  | none => (s.startSnoop n kind link).runHome
  | some t =>
    let early : Bool := t.st = .isH || t.st = .imH || t.st = .smH || t.st = .atmH || t.goWait && t.st = .atmS
    if early then
      let s1 := if t.entryBefore then s.hostRsp n link (snoopRsp kind false) else s.hostRsp n link "RspIHitI"
      if kind = 0 && t.entryBefore then (s1.onLine n fun l => { l with dc := 0, data := 0, poison := false, dcWait := false }).wakeLine n else s1
    else match t.st, t.cause with
      | .curr, .req _ =>
        if l.entry then
          (((s.onLine n fun l => { l with drop := l.drop + 1 }).yieldTxn n).onLine n fun l => { l with snoop := some (kind, link) }).runHome
        else s.hostRsp n link "RspIHitI"
      | .write, _ => s.hostRsp n link "RspIHitI"
      | .way, _ => s.hostRsp n link "RspIHitI"
      | .evict, _ =>
        let s1 := s.hostRsp n link (snoopRsp kind (l.dc = 2))
        let s2 := if l.dc = 2 then s1.emit (.d2hData link (lineAddr n) l.poison 0xFFFFFFFFFFFFFFFF l.data) else s1
        let s3 := s2.onLine n fun l => { l with dc := if kind = 2 then l.dc else min l.dc 1 }
        if kind = 0 then s3.wakeLine n else s3
      | _, _ => if l.snoop.isSome then s.portProtocol (8 + link) else s.onLine n fun l => { l with snoop := some (kind, link) }

/-- A CREDIT was not used in time (R250). -/
def State.creditExpired (s : State) (addr : Word) : State :=
  let n := lineOf addr
  if (s.line n).credit then
    (((s.coh 5).onLine n fun l => { l with credit := false, retry := l.retry.tail }).due n).runHome
  else s

/-- Line `n`, and its transaction, no longer count on agent `a` (R258). -/
def State.dropHolder (s : State) (a n : Nat) : State :=
  match (s.line n).txn with
  | some t =>
    if t.waits.contains a then (s.onLine n fun l => l.unshare a).snoopDone n a else s.onLine n fun l => l.unshare a
  | none => (s.onLine n fun l => l.unshare a).flushGo n

/-- An agent is disabled and taken to hold nothing, in any line and in any set being flushed (R258). -/
def State.dropAgent (s : State) (a : Nat) : State :=
  let off (t : State) : State := t.onHome fun h => { h with
    disabled := a :: h.disabled.filter (· ≠ a), dead := a :: h.dead.filter (· ≠ a), flush := h.flush.map fun f => (f.1, f.2.erase a)
    snps := h.snps.filter (·.agent ≠ a) }
  let s1 := (off s).coh 2
  (((s1.home.line.map (·.1)).foldl (fun t n => t.dropHolder a n) s1).runHome).endFlushes

/-- A snooped agent answers too late: it is disabled and taken to hold nothing (R258). -/
def State.snoopExpired (s : State) (agent : BitVec 8) (addr : Word) : State :=
  let n := lineOf addr
  let a := agent.toNat
  let waits := match (s.line n).txn with | some t => t.waits.contains a | none => false
  let flushes := s.home.flush.any fun f => (f.1 = dirSet n || f.1 = flushKey addr) && f.2.contains a
  if waits || flushes then s.dropAgent a else s

/-- A host request has no answer in time (R258). -/
def State.hostExpired (s : State) (addr : Word) : State :=
  let n := lineOf addr
  match (s.line n).txn with
  | some t => if t.goWait then (((s.coh 3 0x41).failTxn n 0x41).runHome).endFlushes else s
  | none => s

/-! ## The whole home -/

/-- Every line with an entry and no transaction is recalled (R244; 14_host_link_endpoint.md R307, R310). -/
def State.recallAll (s : State) : State :=
  (s.home.line.foldl (fun t p => if p.2.entry && p.2.txn.isNone then t.recallLine p.1 else t) s).runHome

/-- The home holds no line and runs no transaction: a drain is complete (14_host_link_endpoint.md R307). -/
def State.homeEmpty (s : State) : Bool := s.home.line.all fun p => !p.2.entry && p.2.txn.isNone

/-- A set whose entry was uncorrectable is flushed (R252, R258). -/
def State.flushSet (s : State) (key : Nat) : State :=
  let agents := (List.range 256).filter fun a => !s.home.disabled.contains a
  let s1 := (s.coh 7 0xC1).onHome fun h => { h with flush := h.flush ++ [(key, agents)] }
  let s2 := agents.foldl (fun t a => t.snoopOne true key 0x13 (flushAddr key) a) s1
  ((((s.setLines key).map (·.1)).foldl State.flushLine s2).runHome).endFlushes

/-- The home goes on after a drain: the requests that waited are served. -/
def State.homeResume (s : State) : State :=
  let busy (l : Line) : Bool := l.parked ≠ [] || l.retry ≠ [] || l.atomics ≠ [] || l.next.isSome
  let ns := (s.home.line.filter fun (p : Nat × Line) => busy p.2).map (·.1)
  ((s.onHome fun h => { h with todo := h.todo ++ ns }).runHome).releaseHeld

/-- A Cache Writeback and Invalidate that has emptied the home sets Cache Invalid on every link (14_host_link_endpoint.md R310). -/
def State.pumpDrain (s : State) : State :=
  if s.hlk.cacheDrain && s.homeEmpty then
    (links4.foldl (fun (t : State) l => t.onLink l fun x => { x with cacheInvalid := true })
      (s.onHlk fun h => { h with cacheDrain := false })).homeResume
  else s

/-- A unit of the hub asks the home for a partition (R239, R240). -/
def State.unitAsk (s : State) (u : UnitFor) (kind : ReqKind) (addr : Word) (data : Granule := 0) (be : Word := 0xFFFFFFFFFFFFFFFF)
    (op : AtomicOp := ⟨0, 9, 0, 0⟩) (part : Nat := 0) : State :=
  s.homeAsk { who := .unit u, kind := kind, addr := addr, data := data, be := be, op := op, part := part }

/-- A unit's read of a line for a partition, of which it keeps nothing (R246, R247). -/
def State.unitRead (s : State) (u : UnitFor) (part : Nat) (addr : Word) : State :=
  s.unitAsk u .readNoAlloc (addr &&& 0xFFFFFFFFFFFFFFC0) (part := part)

/-- A unit's write for a partition of 8-byte words within one line (R132, R247). -/
def State.unitWrite (s : State) (u : UnitFor) (part : Nat) (addr : Word) (ws : List Word) : State :=
  let o := addr.toNat % 64
  s.unitAsk u .writeNoAlloc (addr &&& 0xFFFFFFFFFFFFFFC0) (granOfWords ws <<< (8 * o)) (enables o (8 * ws.length)) (part := part)

/-- A unit's compare-and-swap of an 8-byte entry (R254). -/
def State.unitCas (s : State) (u : UnitFor) (part : Nat) (addr old new : Word) : State :=
  s.unitAsk u .atomic addr 0 0 ⟨2, 9, new, old⟩ part

/-- The answer to a unit, if it has come: status, data, poison (log entry 98). -/
def State.unitAns? (s : State) (u : UnitFor) : Option (Code × Granule × Bool) :=
  (s.home.answers.find? fun (a : UnitFor × Code × Granule × Bool) => a.1 = u).map (·.2)

/-- The answer to a unit is taken. -/
def State.takeAns (s : State) (u : UnitFor) : State :=
  s.onHome fun h => { h with answers := dropFirst (fun (a : UnitFor × Code × Granule × Bool) => a.1 = u) h.answers }

/-- A failure of a unit's own, met without the home, stands as its answer. -/
def State.selfAns (s : State) (u : UnitFor) (code : Code) : State :=
  s.onHome fun h => { h with answers := h.answers ++ [(u, code, 0, false)] }

/-- A line has a request of a unit, in its transaction or waiting. -/
def Line.asks (l : Line) (u : UnitFor) : Bool :=
  let mine (r : HomeReq) : Bool := r.who = .unit u
  l.atomics.any mine || l.parked.any mine || l.next.any mine ||
    (match l.txn with | some x => (match x.cause with | .req r => mine r | _ => false) | none => false)

/-- A unit asks for a partition: while its function is not master-enabled the request is not issued, and fails with 0x42
(14_host_link_endpoint.md R321). -/
def State.forPart (s : State) (p : Nat) (u : UnitFor) (f : State → State) : State := if s.masterEnabled p then f s else s.selfAns u 0x42

/-- The status of a line read that poison spoils (R258). -/
def lineCode (code : Code) (poison : Bool) : Code := if code = 0 ∧ poison then 0xC1 else code

/-- The answer to a unit's request for a partition, if it has come, poison as 0xC1: what comes after the function has ceased to be master-enabled is not
delivered, and stands as 0x42 (14_host_link_endpoint.md R321). -/
def State.partAns? (s : State) (p : Nat) (u : UnitFor) : Option (Code × Granule) :=
  (s.unitAns? u).map fun (a : Code × Granule × Bool) => if s.masterEnabled p then (lineCode a.1 a.2.2, a.2.1) else (0x42, 0)

/-- The answer to a unit's request for a partition is taken; what has returned and is not delivered is counted (14_host_link_endpoint.md
R321). -/
def State.takeFor (s : State) (p : Nat) (u : UnitFor) : State :=
  let t := s.takeAns u
  if s.masterEnabled p || (s.unitAns? u).any (fun a => a.1 = 0x42) then t else t.onHlk fun h => { h with lateCpl := satInc h.lateCpl }

/-- A request is a unit's, made for a partition. -/
def HomeReq.isFor (r : HomeReq) (p : Nat) : Bool := !fromAgent r && r.part = p

/-- A line has a unit's request for a partition, in its transaction or waiting. -/
def Line.worksFor (l : Line) (p : Nat) : Bool :=
  l.atomics.any (·.isFor p) || l.parked.any (·.isFor p) || l.next.any (·.isFor p) ||
    (match l.txn with | some x => (match x.cause with | .req r => r.isFor p | _ => false) | none => false)

/-- A unit's request for a partition is outstanding or waits at the home (14_host_link_endpoint.md R322). -/
def State.homeWorks (s : State) (p : Nat) : Bool := s.home.held.any (·.isFor p) || s.home.line.any fun (e : Nat × Line) => e.2.worksFor p

/-- A line held through a link that has gone down is dropped, its dirty data discarded (14_host_link_endpoint.md R323). A transaction that
awaits its snoops goes on as without an entry, an atomic in execution fails with 0x45, and a request already on another link goes on
(DESIGN CHOICE, log entry 134). -/
def State.dropLine (s : State) (n : Nat) : State :=
  match (s.line n).txn with
  | none => (s.freeEntry n).wakeLine n
  | some t =>
    if t.goWait then (s.onLine n fun l => { l.homeOwned with
      coarse := false, hm := false, dc := 0, data := 0, poison := false, dcWait := false }).wakeLine n
    else if t.st = .atm then ((s.freeEntry n).wakeLine n).failTxn n 0x45
    else (((s.freeEntry n).wakeLine n).onTxn n fun x => { x with lost := true, entryBefore := false }).settle n

/-- A link has gone down (14_host_link_endpoint.md R323): the transactions with a request on it end with 0x45, its lines are dropped. -/
def State.homeLinkDown (s : State) (link : Nat) : State :=
  let s1 := s.home.line.foldl (fun t p => match (t.line p.1).txn with
    | some x => if x.goWait && x.link = link then t.failTxn p.1 0x45 else t
    | none => t) s
  (s1.home.line.foldl (fun t p =>
    if (t.line p.1).entry && (t.line p.1).via = link then t.dropLine p.1 else t) s1).runHome

end Sys2Proof.Machine
end

