-- ==== Sys2Proof/Machine/Records.lean ====
section
/-! DEFINITION. Fault queues and notice queues: records, their writes, drops and summaries (04_translation.md R101 to R103;
05_invalidation_and_placement.md R118), and the commands on them. -/

namespace Sys2Proof.Machine

/-- A partition's fault queue (`notice` false) or notice queue (true). -/
def State.queue (s : State) (notice : Bool) (p : Nat) : Queue :=
  if notice then tabGet (fun _ => {}) s.skk.nq p else tabGet (fun _ => {}) s.xlt.fq p

/-- The state with a queue changed. -/
def State.onQueue (s : State) (notice : Bool) (p : Nat) (f : Queue → Queue) : State :=
  if notice then s.onSkk fun k => { k with nq := tabMod (fun _ => {}) k.nq p f }
  else s.onXlt fun x => { x with fq := tabMod (fun _ => {}) x.fq p f }

/-- N of a queue (R102, R104: other sizes are taken as 8). -/
def Queue.n (q : Queue) : Nat := if 8 ≤ q.size.toNat ∧ q.size.toNat ≤ 16 then 2 ^ q.size.toNat else 256

/-- The queue is full, counting a record in flight as written (R102). -/
def Queue.full (q : Queue) : Bool :=
  (q.tail + 2 * q.n - q.head) % (2 * q.n) + flag (q.flight.isSome && !q.stale) ≥ q.n

/-- A record of the partition can be written: queue enabled and not full, function master-enabled (R103, R321). -/
def State.canWrite (s : State) (notice : Bool) (p : Nat) : Bool :=
  let q := s.queue notice p
  bit q.base 0 && !q.full && s.masterEnabled p

/-- Page, overflow bit of a queue's stickies (R104, R125). -/
def queuePage (notice : Bool) : Nat := if notice then pgSKK else pgXLT

/-- The event source of a queue (R345). -/
def queueSource (notice : Bool) (p : Nat) : Nat := (if notice then 0x5C0 else 0x580) + p

/-- Skink's counter index of a region (R114). -/
def State.skkIndex (s : State) (asid : Nat) (va : Word) : Nat :=
  let h := Config.skinkHash asid (field va 56 16) % 1048576
  if s.banksLost 0x0D = 0 || !s.bankLost 0x0D (h / 131072) then h
  else
    let good := (List.range 8).filter fun b => !s.bankLost 0x0D b
    match good[Config.skinkSpread h % good.length]? with
    | some b => b * 131072 + h % 131072
    | none => h

/-- A region's counter set to a value (R114). -/
def State.setCounter (s : State) (asid : Nat) (va : Word) (v : BitVec 16) : State :=
  s.onSkk fun k => { k with count := tabPut (fun _ => 0) k.count (s.skkIndex asid va) v }

/-- THRESH of a partition, 0 taken as 1 (R125). -/
def State.thresh (s : State) (p : Nat) : Nat := max 1 (s.skkPart p).thresh.toNat

/-- A dropped PLACE_REQUEST abandons its placement: frame freed, counter set to THRESH / 2 (R118). -/
def State.placeDropped (s : State) (ticket : Nat) : State :=
  match s.skk.pending.find? (·.ticket = ticket) with
  | none => s
  | some e => (s.onSkk fun k => { k with pending := k.pending.filter (·.ticket ≠ ticket) }).setCounter e.asid e.va
      (BitVec.ofNat 16 (s.thresh e.part / 2))

/-- A record is dropped (R103, R118). -/
def State.dropRecord (s : State) (notice : Bool) (p : Nat) (r : Record) : State :=
  if r.summary then s
  else
    let s1 := s.onQueue notice p fun q => { q with
      firstCode := if q.overflow = 0 then r.code else q.firstCode, firstTime := if q.overflow = 0 then r.time else q.firstTime,
      lastCode := r.code, lastTime := r.time, overflow := satInc q.overflow }
    let s2 := s1.flag (queuePage notice) p 1 r.code
    if notice ∧ r.ticket ≠ 0 then s2.placeDropped r.ticket else s2

/-- The OVERFLOW_SUMMARY of a fault queue, or the SUMMARY notice of a notice queue (R101, R103, R118). -/
def Queue.summary (q : Queue) (notice : Bool) (p : Nat) (now : Word) : Record :=
  let head := if notice then place 7 4 else place 2 4 ||| place p 16 ||| place 5 24
  { words := [head, now, BitVec.ofNat 64 (q.overflow.toNat + q.firstCode.toNat <<< 32 + q.lastCode.toNat <<< 40),
      q.firstTime, q.lastTime, 0, 0, 0]
    code := 0, time := now, summary := true }

/-- A record's coherent write is issued at the queue's next index, with PHASE (R102; 11_coherence_home.md R239). -/
def State.issueRecord (s : State) (notice : Bool) (p : Nat) (r : Record) : State :=
  let q := s.queue notice p
  let phase := if (q.tail / q.n) % 2 = 0 then 1 else 0
  let ws := match r.words with | [] => [] | w :: ws => (w ||| place phase 0) :: ws
  (s.onQueue notice p fun q => { q with flight := some r, stale := false }).unitWrite (.record notice p) p
    (q.base &&& 0xFFFFFFFFFFFFF000 |>.add (BitVec.ofNat 64 (64 * (q.tail % q.n)))) ws

/-- The queue writes what it can: a due summary ahead of any new record; a record that cannot be written is dropped
(R102, R103). `fuel` bounds the records handled. -/
def State.pumpQueue (s : State) (notice : Bool) (p : Nat) : Nat → State
  | 0 => s
  | fuel + 1 =>
    let q := s.queue notice p
    if q.flight.isSome then s
    else if q.overflow ≠ 0 ∧ (!q.sumHeld || q.waiting ≠ []) ∧ s.canWrite notice p then
      (s.onQueue notice p fun q => { q with sumHeld := false }).issueRecord notice p (q.summary notice p s.glb.time)
    else match q.waiting with
      | [] => s
      | r :: rest =>
        let s1 := s.onQueue notice p fun q => { q with waiting := rest }
        if s1.canWrite notice p then s1.issueRecord notice p r
        else (s1.dropRecord notice p r).pumpQueue notice p fuel

/-- The queue is pumped until it can do no more. -/
def State.pump (s : State) (notice : Bool) (p : Nat) : State :=
  s.pumpQueue notice p ((s.queue notice p).waiting.length + 2)

/-- A record arises in a partition's queue: one that meets a full or disabled queue is dropped (R102, R103). -/
def State.addRecord (s : State) (notice : Bool) (p : Nat) (r : Record) : State :=
  if s.canWrite notice p then (s.onQueue notice p fun q => { q with waiting := q.waiting ++ [r] }).pump notice p
  else s.dropRecord notice p r

/-- A fault record (R101): TYPE, CODE, partition, SOURCE, ENGINE, REQUESTER and the six words of its type. -/
def State.fault (s : State) (type : Nat) (code : Code) (p source engine : Nat) (requester : BitVec 32) (ws : List Word) : State :=
  let w0 := place type 4 ||| place code.toNat 8 ||| place p 16 ||| place source 24 ||| place engine 27 |||
    place requester.toNat 32
  s.addRecord false p { words := w0 :: s.glb.time :: ws, code := code, time := s.glb.time }

/-- A Skink notice (R118). -/
def State.notice (s : State) (p kind reason ticket asid : Nat) (code : Code) (va frame entryAddr : Word)
    (changed : BitVec 16 := 0) : State :=
  let w0 := place kind 4 ||| place reason 8 ||| place ticket 16 ||| place asid 32 ||| place code.toNat 56
  s.addRecord true p { words := [w0, s.glb.time, va, frame, entryAddr, BitVec.ofNat 64 changed.toNat, 0, 0],
                       code := BitVec.ofNat 8 kind, time := s.glb.time, ticket := if kind = 1 then ticket else 0 }

/-- The home has answered the write of the record in flight: 0 when it is globally observed (R102). -/
def State.recordAns? (s : State) (notice : Bool) (p : Nat) : Option Code := (s.unitAns? (.record notice p)).map (·.1)

/-- The record in flight is globally observed (R102, R103). -/
def State.recordObserved (s : State) (notice : Bool) (p : Nat) : State :=
  let q := s.queue notice p
  match q.flight with
  | none => s
  | some r =>
    let s := s.takeAns (.record notice p)
    let s1 := s.onQueue notice p fun q => { q with
      flight := none, stale := false, tail := if q.stale then q.tail else (q.tail + 1) % (2 * q.n),
      overflow := if r.summary ∧ !q.stale then 0 else q.overflow }
    let s2 := if q.stale then s1.dropRecord notice p r else s1
    (s2.edge (queueSource notice p)).pump notice p

/-- The write of the record in flight fails (R102, R103). -/
def State.recordFailed (s : State) (notice : Bool) (p : Nat) : State :=
  let q := s.queue notice p
  match q.flight with
  | none => s
  | some r =>
    let s := s.takeAns (.record notice p)
    let s1 := s.onQueue notice p fun q => { q with flight := none, stale := false, sumHeld := q.sumHeld || r.summary }
    let s2 := if notice then s1 else s1.flag pgXLT p 2 r.code
    (s2.dropRecord notice p r).pump notice p

/-- A write of HEAD (R102). -/
def State.writeHead (s : State) (notice : Bool) (p : Nat) (v : Word) : State :=
  let q := s.queue notice p
  let h := field v 16 0
  let m := 2 * q.n
  if h < m ∧ (h + m - q.head) % m ≤ (q.tail + m - q.head) % m then
    (s.onQueue notice p fun q => { q with head := h, sumHeld := false }).pump notice p
  else s.flag (queuePage notice) p 3

/-- First byte of a range. -/
def PRange.lo (r : PRange) : Nat := field r.base 63 12 * 4096
/-- First byte past a range. -/
def PRange.hi (r : PRange) : Nat := (field r.limit 63 12 + 1) * 4096

/-- A byte range lies wholly in an enabled range (R88). -/
def PRange.holds (r : PRange) (a : Word) (bytes : Nat) : Bool :=
  bit r.base 0 && decide (r.lo ≤ a.toNat) && decide (a.toNat + bytes ≤ r.hi)

/-- The ranges of a kind of a partition (R88: kind 0 host, 1 device). -/
def State.rangesOf (s : State) (p kind : Nat) : List PRange := (List.range 8).map (s.prange p kind)

/-- A byte range lies wholly in one enabled range of a kind of the partition (R88). -/
def State.inRange (s : State) (p kind : Nat) (a : Word) (bytes : Nat) : Bool := (s.rangesOf p kind).any fun r => r.holds a bytes

/-- The first byte from `lo` that the enabled ranges together leave out; `n` rounds suffice for `n` ranges. -/
def coverTo (rs : List PRange) (lo : Nat) : Nat → Nat
  | 0 => lo
  | n + 1 => coverTo rs (rs.foldl (fun x r => if bit r.base 0 && decide (r.lo ≤ x) then max x r.hi else x) lo) n

/-- A byte range lies wholly inside the enabled ranges of a kind of the partition, taken together (R102, R116). -/
def State.inRanges (s : State) (p kind : Nat) (a : Word) (bytes : Nat) : Bool :=
  decide (a.toNat + bytes ≤ coverTo (s.rangesOf p kind) a.toNat 8)

/-- A queue is judged against the partition's host ranges, whatever its ENABLE holds (R102; log entry 17). -/
def State.judgeQueue (s : State) (notice : Bool) (p : Nat) : State :=
  let q := s.queue notice p
  if !s.inRanges p 0 (q.base &&& 0xFFFFFFFFFFFFF000) (64 * q.n) then
    (s.onQueue notice p fun q => { q with base := q.base &&& 0xFFFFFFFFFFFFFFFE }).flag (queuePage notice) p
      (if notice then 2 else 4)
  else s

/-- A write of BASE or SIZE (R102, R104, R125). -/
def State.writeBase (s : State) (notice : Bool) (p : Nat) (size : Bool) (v : Word) : State :=
  let s1 := s.onQueue notice p fun q => { q with
    base := if size then q.base else v &&& 0xFFFFFFFFFFFFF001, size := if size then v.setWidth 5 else q.size,
    head := 0, tail := 0, stale := q.stale || q.flight.isSome, sumHeld := false }
  (s1.judgeQueue notice p).pump notice p

/-- The queue of a partition is disabled (R286 step 6, R402 step 7): records in it are dropped. -/
def State.closeQueue (s : State) (notice : Bool) (p : Nat) : State :=
  (s.onQueue notice p fun q => { q with base := q.base &&& 0xFFFFFFFFFFFFFFFE }).pump notice p

/-- A channel's fault record carries what DB_FAULT names (R101). -/
def seqWord (seq : BitVec 16) (inl : Bool) (op : Nat) : Word := place seq.toNat 32 ||| place (flag inl) 48 ||| place op 56

end Sys2Proof.Machine
end

