-- ==== Sys2Proof/Machine/Store.lean ====
section
/-! DEFINITION. The hub store: its place in device memory, its Reed-Solomon code over GF(16), what a write puts in each slot and what a
read of four pieces gives (18_stored_data_protection.md R375 to R378, R381). -/

namespace Sys2Proof.Machine

/-! ## GF(16) (R376) -/

/-- An element of GF(16) with field polynomial x^4 + x + 1. -/
abbrev Gf := BitVec 4

/-- The product with α = 0x2. -/
def gfDouble (a : Gf) : Gf := (a <<< 1) ^^^ (if a.msb then 3 else 0)

/-- α^n. -/
def gfExp : Nat → Gf
  | 0 => 1
  | n + 1 => gfDouble (gfExp n)

/-- The logarithm to the base α of a non-zero element, 0 to 14. -/
def gfLog (a : Gf) : Nat := ((List.range 15).find? fun n => gfExp n = a).getD 0

/-- The product. -/
def gfMul (a b : Gf) : Gf := if a = 0 ∨ b = 0 then 0 else gfExp ((gfLog a + gfLog b) % 15)

/-- The quotient by a non-zero element. -/
def gfDiv (a b : Gf) : Gf := if a = 0 then 0 else gfExp ((gfLog a + 15 - gfLog b) % 15)

/-- The check nibbles p1 and p0 of a byte's nibbles d1 and d0. -/
def checkHigh (d1 d0 : Gf) : Gf := gfMul (gfExp 12) d1 ^^^ gfMul (gfExp 5) d0
/-- p0. -/
def checkLow (d1 d0 : Gf) : Gf := gfMul (gfExp 8) d1 ^^^ gfMul (gfExp 3) d0

/-- Nibble of the codeword d1·x^3 + d0·x^2 + p1·x + p0 of a byte at a position. -/
def codeNibble (b : Byte) (pos : Nat) : Gf :=
  let d0 : Gf := b.setWidth 4
  let d1 : Gf := (b >>> 4).setWidth 4
  match pos with
  | 0 => checkLow d1 d0
  | 1 => checkHigh d1 d0
  | 2 => d0
  | _ => d1

/-- The position a slot holds: slots 2, 3, 0 and 1 hold positions 0 to 3 (R377). -/
def slotPos (k : Nat) : Nat := (k + 2) % 4

/-! ## Decoding (R377) -/

/-- S1 = c(α) and S2 = c(α^2) of the received nibbles. -/
def syndromes (c : Nat → Gf) : Gf × Gf :=
  (c 0 ^^^ gfMul (c 1) (gfExp 1) ^^^ gfMul (c 2) (gfExp 2) ^^^ gfMul (c 3) (gfExp 3),
   c 0 ^^^ gfMul (c 1) (gfExp 2) ^^^ gfMul (c 2) (gfExp 4) ^^^ gfMul (c 3) (gfExp 6))

/-- The byte whose nibbles stand at positions 2 and 3. -/
def codeByte (c : Nat → Gf) : Byte := (c 3).setWidth 8 <<< 4 ||| (c 2).setWidth 8

/-- The piece that slot k returned. -/
def pieceOf (p : Pieces) (k : Nat) : Option (BitVec 256) := match k with | 0 => p.p0 | 1 => p.p1 | 2 => p.p2 | _ => p.p3

/-- The received nibbles with the one at a position replaced. -/
def mendNibble (c : Nat → Gf) (pos : Nat) (v : Gf) : Nat → Gf := fun i => if i = pos then v else c i

/-- Decoding of one byte, `erased` the erased positions, rising: the slots corrected or solved, and the byte; none is 0xC1. -/
def decodeByte (erased : List Nat) (c : Nat → Gf) : Option (List Nat × Byte) :=
  let known (i : Nat) : Gf := if erased.contains i then 0 else c i
  let (s1, s2) := syndromes known
  match erased with
  | [] =>
    if s1 = 0 ∧ s2 = 0 then some ([], codeByte c)
    else if s1 = 0 ∨ s2 = 0 then none
    else
      let pos := gfLog (gfDiv s2 s1)
      if 3 < pos then none
      else some ([slotPos pos], codeByte (mendNibble c pos (c pos ^^^ gfDiv (gfMul s1 s1) s2)))
  | [i] =>
    let v := gfDiv s1 (gfExp i)
    if s2 = gfMul v (gfExp (2 * i)) then some ([slotPos i], codeByte (mendNibble known i v)) else none
  | [i, j] =>
    let vj := gfDiv (s2 ^^^ gfMul s1 (gfExp i)) (gfExp (2 * j) ^^^ gfExp (i + j))
    let vi := gfDiv (s1 ^^^ gfMul vj (gfExp j)) (gfExp i)
    some ([slotPos i, slotPos j], codeByte (mendNibble (mendNibble known i vi) j vj))
  | _ => none

/-- Decoding of a block from the slots' 32-byte pieces, none a piece returned poisoned: the slots that needed correction or erasure, and
the 64 bytes; none is 0xC1. -/
def decodeBlock (lost : List Nat) (p : Nat → Option (BitVec 256)) : Option (List Nat × List Byte) :=
  let erased := (List.range 4).filter fun pos => lost.contains (slotPos pos) || (p (slotPos pos)).isNone
  (List.range 64).foldr (fun i (b : Option (List Nat × List Byte)) => match b with
    | none => none
    | some (ks, bs) => match decodeByte erased fun pos => (((p (slotPos pos)).getD 0) >>> (4 * i)).setWidth 4 with
      | none => none
      | some (es, x) => some (es.foldl (fun l k => if l.contains k then l else k :: l) ks, x :: bs)) (some ([], []))

/-! ## Layout and writes (R375, R376, R378, R381) -/

/-- The 32-byte piece of slot k: byte j holds the slot's nibble of data byte 2j in [3:0], of 2j + 1 in [7:4]. -/
def slotPiece (k : Nat) (data : Nat → Byte) : List Byte :=
  (List.range 32).map fun j =>
    (codeNibble (data (2 * j + 1)) (slotPos k)).setWidth 8 <<< 4 ||| (codeNibble (data (2 * j)) (slotPos k)).setWidth 8

/-- Stack of a slot of the hub store (R375, R388). -/
def State.slotStack (s : State) (k : Nat) : Nat := field s.ras.hsSlots (8 * k + 2) (8 * k)

/-- Device address of slot offset `o` in a stack (R375). -/
def State.storeAddr (s : State) (stack o : Nat) : Word :=
  (s.ras.hsBase &&& 0x0000FFFFE0000000) + BitVec.ofNat 64 ((8 * (o / 65536) + stack) * 65536 + o % 65536)

/-- The slots lost, as a mask. -/
def State.lostMask (s : State) : Nat := s.ras.lost.foldl (fun m k => m ||| 2 ^ k) 0

/-- A slot's piece of a block lies in a channel that was removed before its map-out was acknowledged (15_block_ports.md R343). -/
def State.slotRemoved (s : State) (k b : Nat) : Bool :=
  s.skk.mapEarly.any fun x => x.1 = s.slotStack k && x.2 = (Config.frameChan ((s.storeAddr (s.slotStack k) (32 * b)).toNat / 65536)).val

/-- Where a write of block `b` puts slot k's piece: the stack of the slot; below a rebuild's next block its target; nowhere when the slot is
lost (R379, R381). -/
def State.slotTarget (s : State) (k b : Nat) : Option Nat :=
  match s.ras.rebuild with
  | some r =>
    if r.slot = k ∧ b < r.p then some r.target else if s.ras.lost.contains k then none else some (s.slotStack k)
  | none => if s.ras.lost.contains k then none else some (s.slotStack k)

/-- The first written block from `b` on (R378). -/
def State.nextBlock (s : State) (b : Nat) : Option Nat := s.ras.valid.find? fun k => decide (b ≤ k)

/-- Block `b` is the next one of a rebuild: what reads or writes it waits until it is done (R381). -/
def State.atRebuild (s : State) (b : Nat) : Bool := s.ras.rebuild.any fun r => s.nextBlock r.p = some b

/-- `n` bytes of block `b` are put in its slots from byte `at_`, in whole 2-byte units (R376); the first write to a block writes all of it,
with zero in every byte not covered (R378). -/
def State.storeNow (s : State) (b at_ n : Nat) (data : Nat → Byte) : State :=
  let first := !s.ras.valid.contains b
  let lo := if first then 0 else at_ / 2
  let len := if first then 32 else (at_ + n + 1) / 2 - at_ / 2
  let bytes (i : Nat) : Byte := if at_ ≤ i ∧ i < at_ + n then data i else 0
  let s1 := (s.onRas fun r => { r with valid := insertNat r.valid b }).emit (.hubStore true b)
  (List.range 4).foldl (fun (t : State) k => match s.slotTarget k b with
    | none => t
    | some stack => t.emit (.storePiece stack (s.storeAddr stack (32 * b + lo)) (((slotPiece k bytes).drop lo).take len))) s1

/-- `n` bytes of block `b` are written from byte `at_`: at once, or once a rebuild has passed the block (R381). -/
def State.storeWrite (s : State) (b at_ n : Nat) (data : Nat → Byte) : State :=
  if s.atRebuild b then s.onRas fun r => { r with held := r.held ++ [(b, at_, (List.range n).map fun i => data (at_ + i))] }
  else s.storeNow b at_ n data

/-- The writes that waited for block `b` are done, in their order (R381). -/
def State.releaseStores (s : State) (b : Nat) : State :=
  (s.ras.held.filter (·.1 = b)).foldl (fun (t : State) e => t.storeNow b e.2.1 e.2.2.length fun i => e.2.2.getD (i - e.2.1) 0)
    (s.onRas fun r => { r with held := r.held.filter (·.1 ≠ b) })

/-- The bytes the hub's own contents give for a block: the layout of a context, a spill or a checkpoint is not given (log entry 125). -/
def State.storeBytes (s : State) (b : Nat) : Nat → Byte := Config.storeByte s.glb.time b

/-- A whole block of the hub's own contents is written: a context, a spilled placement or a checkpoint. The spec gives no moment at which a plan
entry is written to the plan spill, and none is (R22; log entry 125). -/
def State.storeBlock (s : State) (b : Nat) : State := s.storeWrite b 0 64 (s.storeBytes b)

end Sys2Proof.Machine
end

