-- ==== Sys2Proof/Machine/Send.lean ====
section
/-! DEFINITION. The sending side of the transport: flows, routes and packets; and the windows a sender looks up
(12_peer_windows_and_transport.md R260 to R262, R267, R268, R272, R274). -/

namespace Sys2Proof.Machine

/-- An outbound entry is enabled (R260). -/
def WinEntry.en (e : WinEntry) : Bool := bit e.w0 63

/-- First byte of an outbound entry's range. -/
def WinEntry.lo (e : WinEntry) : Nat := field e.w1 63 12 * 4096
/-- First byte past an outbound entry's range. -/
def WinEntry.hi (e : WinEntry) : Nat := (field e.w2 63 12 + 1) * 4096
/-- DST_CHIP of an outbound entry. -/
def WinEntry.chip (e : WinEntry) : Nat := field e.w3 11 0

/-- A partition's run of outbound, or inbound, indices (R260, R263). -/
def State.allot (s : State) (inbound : Bool) (p : Nat) : Allot :=
  if inbound then tabGet iAllotDflt s.peer.iAllot p else tabGet oAllotDflt s.peer.oAllot p

/-- An index lies in a partition's run. -/
def Allot.has (a : Allot) (i : Nat) : Bool := decide (a.base ≤ i) && decide (i < a.base + a.count)

/-- The partition whose run holds an inbound index, if any. -/
def State.iwinPart (s : State) (i : Nat) : Option Nat := (List.range 64).find? fun p => (s.allot true p).has i

/-- The enabled outbound entries of a partition and ASID that overlap a range. -/
def State.windowsOn (s : State) (part asid lo hi : Nat) : List (Nat × WinEntry) :=
  s.peer.owin.filter fun p =>
    p.2.en && (s.allot false part).has p.1 && field p.2.w0 19 0 = asid && decide (p.2.lo < hi) && decide (lo < p.2.hi)

/-- Where a destination range lies (R262): none for 0x81. -/
def State.destOf (s : State) (part asid : Nat) (dst : Word) (bytes : Nat) : Option Dest :=
  let lo := dst.toNat
  let hi := lo + bytes
  match s.windowsOn part asid lo hi with
  | [] => some .local_
  | [(i, e)] => if e.lo ≤ lo ∧ hi ≤ e.hi then some (.peer i) else none
  | _ => none

/-- A source range touches a window (R262: 0x07). -/
def State.inWindow (s : State) (part asid : Nat) (a : Word) (bytes : Nat) : Bool :=
  s.windowsOn part asid a.toNat (a.toNat + bytes) ≠ []

/-! ## The bytes of a packet (R268) -/

/-- CRC-32C of bytes (07_number_formats_and_ccu.md R164). -/
def crc32c (bs : List Byte) : BitVec 32 := crcFinal (crcBytes 0xFFFFFFFF bs)

/-- Bytes 0x00 to 0x1B of a packet's header. -/
def headerBytes (h : PktHdr) : List Byte :=
  leBytes (h.kind.toNat + flag h.last <<< 4 + flag h.resend <<< 5 + h.route.toNat <<< 6 + h.blocks.toNat <<< 8 + h.mask.toNat <<< 16) 4
    ++ leBytes (h.srcChip.toNat + h.dstChip.toNat <<< 16) 4 ++ leBytes h.psn.toNat 4 ++ leBytes (h.window.toNat + h.tag.toNat <<< 16) 4
    ++ leBytes h.body.toNat 8 ++ leBytes h.arg.toNat 4

end Sys2Proof.Machine

namespace Sys2Proof

open Sys2Proof.Machine

/-- The header's HCRC passes (R268, R269). -/
def PktHdr.hcrcOk (h : PktHdr) : Bool := h.hcrc = crc32c (headerBytes h)

/-- A block's CRC passes (R268, R269). -/
def Block.crcOk (b : Block) : Bool := b.crc = crc32c b.bytes

end Sys2Proof

namespace Sys2Proof.Machine

/-- A packet as it is sent: HCRC over its header, and each block's CRC (R268). -/
def Packet.sealed (p : Packet) : Packet :=
  { p with h := { p.h with hcrc := crc32c (headerBytes p.h) }, crcs := p.blocks.map fun b => crc32c b.2 }

/-! ## Flows -/

/-- PXP_ROUTE of a chip. -/
def State.route (s : State) (chip : Nat) : Word := tabGet (fun _ => 0) s.peer.route chip

/-- The route slots marked UP, lowest first (R274). -/
def upSlots (w : Word) : List Nat := (List.range 4).filter fun r => bit w (16 * r + 15)

/-- The chip is this chip: the loopback path (R272). -/
def State.isSelf (s : State) (chip : Nat) : Bool := chip = s.peer.chipId.toNat

/-- A flow has no route left (R275); the loopback flow never fails. -/
def State.noRoute (s : State) (chip : Nat) : Bool := !s.isSelf chip && (upSlots (s.route chip)).isEmpty

/-- Egress port of a slot. -/
def slotPort (w : Word) (r : Nat) : Nat := field w (16 * r + 11) (16 * r + 8)
/-- Route tag of a slot. -/
def slotTag (w : Word) (r : Nat) : Nat := field w (16 * r + 7) (16 * r)

/-- The egress port a flow uses now, for Reed's paths (R136). -/
def State.egress (s : State) (chip : Nat) : Nat := slotPort (s.route chip) ((upSlots (s.route chip)).headD 0)

/-- Bytes of a packet: its header, and each block with its CRC (R268). -/
def Packet.bytes (p : Packet) : Nat := 32 + p.blocks.foldl (fun k b => k + b.2.length + 4) 0

/-- A packet is put on its route, or on the loopback path (R272, R274). -/
def State.transmit (s : State) (chip : Nat) (p : Packet) : State :=
  if s.isSelf chip then (s.onPeer fun q => { q with loop := q.loop ++ [p.sealed] }).ops pgPXP 1
  else match upSlots (s.route chip) with
    | [] => s
    | r :: _ =>
      let p := { p with h := { p.h with route := BitVec.ofNat 2 r } }
      ((((s.onFlow chip fun f => { f with slot := r }).emit
        (.fabric (slotPort (s.route chip) r) (slotTag (s.route chip) r) p.sealed)).ops pgPXP 1).bytes pgPXP p.bytes)

/-- A header of a kind from this chip to another. -/
def State.header (s : State) (kind chip : Nat) : PktHdr :=
  { hcrc := 0, kind := BitVec.ofNat 4 kind, last := false, resend := false, route := 0, blocks := 0, mask := 0
    srcChip := s.peer.chipId, dstChip := BitVec.ofNat 12 chip, psn := 0, window := 0, tag := 0, body := 0, arg := 0 }

/-- Bytes of a packet's blocks not yet acknowledged: what the retransmit buffer holds of it (R267). -/
def Unacked.held (u : Unacked) : Nat :=
  u.p.blocks.foldl (fun n (b : Nat × List Byte) => if bit u.acked b.1 then n else n + b.2.length) 0

/-- Bytes in the peer retransmit buffer: the loopback flow takes none (R267, R272). -/
def State.bufHeld (s : State) : Nat :=
  s.peer.flow.foldl (fun (n : Nat) (e : Nat × Flow) => if s.isSelf e.1 then n else e.2.out.foldl (fun n u => n + u.held) n) 0

/-- Bytes of the peer retransmit buffer: 16 MiB, less 1 MiB for each bank lost (01_hub_architecture.md R22; 18 R370). -/
def State.bufSize (s : State) : Nat := 16777216 - 1048576 * s.banksLost 9

/-- Distance of a PSN ahead of another, mod 2^24. -/
def psnDist (a b : BitVec 24) : Nat := (a - b).toNat

/-- A packet is within 64 of the oldest one unacknowledged: the receiver's window holds every packet not yet wholly applied (R267, R270; log
entry 135). -/
def Flow.near (f : Flow) (u : Unacked) : Bool :=
  match f.out with
  | [] => true
  | o :: _ => decide (psnDist u.p.h.psn o.p.h.psn < 64)

/-- A packet's transfer was dispatched before its flow last failed, or its flow is FAILED: it fails with 0x82 (R275). -/
def Flow.dead (f : Flow) (u : Unacked) : Bool := f.failed || u.no ≠ f.fails

/-- A flow has room for one more packet (R267). -/
def State.pktRoom (s : State) (chip : Nat) (u : Unacked) : Bool :=
  decide ((s.flow chip).out.length < 64) && (s.flow chip).near u && !(s.flow chip).dead u && (s.isSelf chip || decide (s.bufHeld + u.held ≤ s.bufSize))

/-- A packet of a flow goes out. -/
def State.sendNow (s : State) (chip : Nat) (u : Unacked) : State :=
  (s.onFlow chip fun f => { f with out := f.out ++ [u] }).transmit chip u.p

/-- A sequenced packet is sent, or waits for room behind those that wait (R267): its PSN and the state. `no` counts the flow's failures before
its transfer was dispatched (R275). -/
def State.sendPkt (s : State) (chip : Nat) (h : PktHdr) (blocks : List (Nat × List Byte)) (for_ : PktFor) (no : Nat) : Nat × State :=
  let f := s.flow chip
  let u : Unacked := { p := { h := { h with psn := f.psn }, blocks := blocks }, for_ := for_, no := no }
  let s1 := s.onFlow chip fun f => { f with psn := f.psn + 1 }
  (f.psn.toNat,
   if f.wait = [] ∧ s1.pktRoom chip u then s1.sendNow chip u else s1.onFlow chip fun f => { f with wait := f.wait ++ [u] })

/-- Packets of a flow that wait are sent while there is room (R267); `fuel` bounds them. -/
def State.flowRoom (s : State) (chip : Nat) : Nat → State
  | 0 => s
  | fuel + 1 => match (s.flow chip).wait with
    | [] => s
    | u :: rest =>
      if s.pktRoom chip u then ((s.onFlow chip fun f => { f with wait := rest }).sendNow chip u).flowRoom chip fuel else s

/-- Packets that wait are sent while there is room, flow by flow (R267). -/
def State.allRoom (s : State) : State :=
  s.peer.flow.foldl (fun (t : State) (e : Nat × Flow) => t.flowRoom e.1 e.2.wait.length) s

/-- A remote SIGNAL through an outbound entry (R66, R207, R268). -/
def State.sendSignal (s : State) (e : WinEntry) (h : BitVec 32) (action value : Nat) (for_ : PktFor) : State :=
  let hd := s.header 3 e.chip
  (s.sendPkt e.chip { hd with
    window := e.w3.extractLsb' 16 16, tag := e.w3.extractLsb' 32 16, body := h.setWidth 64,
    arg := BitVec.ofNat 32 (action + value <<< 16) } [] for_ (s.flow e.chip).fails).2

end Sys2Proof.Machine
end

