-- ==== Sys2Proof/Machine/Channels.lean ====
section
/-! DEFINITION. Channels below their kill: contexts, the ring fetch, acceptance, halting, and the end of work
(02_channels_and_doorbells.md R28, R39 to R50, R427; 06_movers.md R143, R144). -/

namespace Sys2Proof.Machine

/-! ## Sizes and positions -/

/-- S of a channel's ring. -/
def Chan.size (c : Chan) : Nat := 2 ^ c.ringLog2

/-- d(x): how far a producer count lies ahead of F, mod 2S (R47). -/
def Chan.dist (c : Chan) (x : Nat) : Nat := (x + 2 * c.size - c.f.toNat % (2 * c.size)) % (2 * c.size)

/-- Slots announced and not consumed (R44). -/
def Chan.avail (c : Chan) : Nat := c.dist c.ta.toNat

/-- A slot is fresh at a position (R44). -/
def Chan.fresh (c : Chan) (p : BitVec 32) (g : Granule) (first : Bool) : Bool :=
  hdrSeq g = p.setWidth 16 && hdrPhase g = (p.toNat / c.size % 2 = 0) && (first || hdrOp g = 0xFF)

/-- The slot in hand at a position. -/
def Chan.handAt (c : Chan) (p : BitVec 32) : Option HandSlot := c.hand.find? (·.pos = p)

/-- Commands dispatched and not complete (R426 INFLIGHT). -/
def Chan.inflight (c : Chan) : Nat := (c.cmds.filter (·.st ≠ .waiting)).length

/-- Slots of inline commands not yet dispatched (R49). -/
def Chan.inlineHeld (c : Chan) : Nat :=
  c.cmds.foldl (fun k x => if x.inl && x.st = .waiting then k + x.slots.length else k) 0

/-- The channel can take doorbell-page writes: not FREE, CREATING, KILLED or RETIRING (R47). -/
def Chan.live (c : Chan) : Bool := c.st = .active || c.st = .parked || c.st = .halted || c.st = .error

/-- A DBL sticky bit of a partition's view, with the channel slot (R418). -/
def State.dblFlag (s : State) (part b slot : Nat) (code : Code := 0) : State := s.flag pgDBL part b code slot

/-- A mirror update to the other engine, in SHARED mode (01_hub_architecture.md R20). -/
def State.mirror (s : State) : State := if s.twn.mode = .shared then s.ops pgTWN 1 else s

/-- The end of a mover's segment is mirrored, with its checkpoint in the hub store (R20; 01_hub_architecture.md R22). -/
def State.checkpoint (s : State) (m : Nat) : State :=
  if s.twn.mode = .shared then s.mirror.storeBlock (Config.checkpointBlock m) else s

/-- A channel's context changes and is mirrored (R20). -/
def State.setChan (s : State) (slot : Nat) (f : Chan → Chan) : State := (s.onChan slot f).mirror

/-! ## The engines (13_partitions_and_twin_engines.md R296, R304) -/

/-- Status of an engine (R304). -/
def State.engineSt (s : State) : Engine → EngineSt
  | .A => s.twn.stA
  | .B => s.twn.stB

/-- The engine of a mover. -/
def moverEngine (m : Nat) : Engine := if m < 24 then .A else .B

/-- The mover's engine is fenced from every port (R296). -/
def State.fenced (s : State) (m : Nat) : Bool := s.engineSt (moverEngine m) ≠ .serving

/-! ## Withdrawal of translation requests -/

/-- A parked request without the requesters that `p` names. -/
def LockWait.without (p : Who → Bool) (w : LockWait) : Option LockWait :=
  match (w.req :: w.joiners).filter fun r => !p r.who with
  | [] => none
  | r :: rest => some { w with req := r, joiners := rest }

/-- A walker that keeps a locked entry in place, without the requesters that `p` names: free when none is left (04_translation.md R96). -/
def Walk.without (p : Who → Bool) (w : Walk) : Option Walk :=
  if w.at_ ≠ .locked then some w
  else match (w.req :: w.joiners).filter fun r => !p r.who with
    | [] => none
    | r :: rest => some { w with req := r, joiners := rest }

/-- The requests of the requesters that `p` names are withdrawn (04_translation.md R96). -/
def State.withdraw (s : State) (p : Who → Bool) : State :=
  let keep (r : XReq) : Bool := !p r.who
  s.onXlt fun x => { x with
    lookups := x.lookups.filter keep, missA := x.missA.filter keep, missB := x.missB.filter keep,
    locks := x.locks.filterMap (LockWait.without p),
    walk := (x.walk.map fun (e : Nat × Option Walk) => (e.1, e.2.bind (Walk.without p))).filter fun e => e.2.isSome }

/-- A requester is the ring fetch of a channel. -/
def Who.isRing (slot : Nat) : Who → Bool | .ring k _ => k = slot | _ => false

/-! ## Wait records -/

/-- A wait record is freed and leaves its object's list (09_sync_objects.md R199). -/
def State.unlink (s : State) (r : Nat) : State :=
  match s.wrec r with
  | none => s
  | some w => (s.onObj (hIdx w.handle) fun o => { o with waiters := o.waiters.erase r }).setWrec r none

/-- The records of the waiters that `p` names are withdrawn (03_command_set.md R67). -/
def State.withdrawWaits (s : State) (p : Waiter → Bool) : State :=
  (s.syn.rec_.foldl (fun t e => match e.2 with | some w => if p w.who then t.unlink e.1 else t | none => t) s).onSyn
    fun y => { y with stalled := y.stalled.filter fun w => !p w.who }

/-- A waiter is a WAIT of a channel. -/
def Waiter.isChan (slot : Nat) : Waiter → Bool | .chan k _ => k = slot | _ => false

/-! ## The end of work (R40; 06_movers.md R143) -/

/-- A context is stopped: its buffer and requests are discarded, what it issued is absorbed (06_movers.md R143). -/
def Job.stop (j : Job) : Job :=
  let rs := (j.reads.filter fun r => r.sent && r.data.isNone).map fun r => { r with drop := true }
  { j with
    st := .draining, reads := rs, acc := [], acc2 := [], wants := [], wq := [], peerBuf := [], peerScale := [], peerSrc := 0,
    posts := [], old := none, stopped := true }

/-- Nothing a stopped context issued is outstanding (06_movers.md R144). -/
def Job.quiet (j : Job) : Bool := j.reads = [] && j.writes = [] && j.packets = [] && j.rb ≠ .out

/-- The contexts whose work `p` names. -/
def State.jobsOf (s : State) (p : Work → Bool) : List (Nat × Bool) :=
  (s.mov.job.filter fun e => match e.2.work with | some w => p w | none => false).map fun e => (e.1 / 2, e.1 % 2 = 1)

/-- The Bulk context that the Urgent context of its mover pre-empted resumes (06_movers.md R134, R143). -/
def State.resumeBulk (s : State) (m : Nat) : State :=
  s.onJob m false fun j => if j.st = .preempted then { j with st := .running } else j

/-- The partition of a context's work. -/
def State.workPart (s : State) : Work → Nat
  | .chan k _ => (s.chan k).part
  | .plan i => (s.entry i).part

/-- The posted writes of a context, as they outlive its work (05_invalidation_and_placement.md R113; log entry 131). -/
def State.straysOf (s : State) (j : Job) : List Stray :=
  match j.work with
  | none => []
  | some w => j.posts.map fun x => { link := x.1, fn := s.workPart w, addr := x.2.1, asid := j.asid, epoch := x.2.2 }

/-- A context is stopped, and its requests are withdrawn; a drain still waits for its posted writes (06_movers.md R143, R144; 05 R113). -/
def State.stopJob (s : State) (m : Nat) (u : Bool) : State :=
  let lost := s.straysOf (s.job m u)
  ((s.onMov fun v => { v with stray := v.stray ++ lost }).onJob m u Job.stop).withdraw
    fun x => match x with | .mover a b => a = m && b = u | _ => false

/-- The contexts whose work `p` names are stopped (06_movers.md R143). -/
def State.stopJobs (s : State) (p : Work → Bool) : State :=
  (s.jobsOf p).foldl (fun t k => if k.2 then (t.stopJob k.1 k.2).resumeBulk k.1 else t.stopJob k.1 k.2) s

/-- The dispatched commands of a channel that `p` names end as STOP ends them: those with a context stay until it is idle. -/
def State.endCmds (s : State) (slot : Nat) (p : Cmd → Bool) : State :=
  let nums := ((s.chan slot).cmds.filter fun c => c.st ≠ .waiting && p c).map (·.num)
  let mine : Work → Bool := fun w => match w with | .chan k n => k = slot && nums.contains n | .plan _ => false
  let s1 := s.stopJobs mine
  let busy (n : Nat) : Bool := !(s1.jobsOf fun w => w = .chan slot n).isEmpty
  let end1 (x : Cmd) : Cmd := if nums.contains x.num then { x with st := .ended } else x
  s1.onChan slot fun c => { c with cmds := (c.cmds.filter fun x => !nums.contains x.num || busy x.num).map end1 }

/-- A command counts with those fetched and not dispatched (R40): it waits, or it is a FENCE (or, for STOP, a WAIT) not met. -/
def Cmd.undone (waits : Bool) (c : Cmd) : Bool :=
  c.st = .waiting || (c.st = .dispatched && (c.op = 0x08 || (waits && c.op = 0x0A)))

/-- The commands fetched and not dispatched are discarded; F goes back to the first ring command of them (R40). -/
def Chan.discard (waits : Bool) (c : Chan) : Chan :=
  let f := match c.cmds.find? fun x => x.undone waits && !x.inl with | some x => x.pos | none => c.f
  { c with cmds := c.cmds.filter fun x => !x.undone waits, f := f }

/-- The fetch of a channel starts afresh: nothing in hand, no read awaited. -/
def Chan.dropFetch (c : Chan) : Chan :=
  { c with
    want := [], reads := [], hand := [], rereads := 0, stale := none, loadWait := false, reject := none, fetchNo := c.fetchNo + 1 }

/-- The channel moves to HALTED, ERROR, KILLED or RETIRING, or to PARKED with 0x08 or by RESET, at a time; the code before the moves of
that hub cycle is kept (R42). -/
def Chan.movedAt (c : Chan) (now : Word) : Chan :=
  { c with moved := some now, codeWas := if c.moved = some now then c.codeWas else c.code }

/-- CODE of before the moves of the hub cycle `now`, which a stronger move of that cycle that changes no code leaves (R39, R42). -/
def Chan.codeAt (c : Chan) (now : Word) : Code := if c.moved = some now then c.codeWas else c.code

/-- A command is of an inline write accepted in the hub cycle `now`, and waits. -/
def Chan.isLate (c : Chan) (now : Word) (x : Cmd) : Bool :=
  x.inl && x.st = .waiting && (match c.inlFrom with | some (t, n) => t = now && decide (n ≤ x.num) | none => false)

/-- An inline write accepted earlier in the hub cycle of a move to ERROR or HALTED is judged against the state after it: it is refused, with
INLINE_REFUSED (R42, R49). -/
def State.lateInline (s : State) (slot : Nat) : State :=
  let c := s.chan slot
  if c.cmds.any (c.isLate s.glb.time) then
    (s.onChan slot fun c => { c with cmds := c.cmds.filter fun x => !c.isLate s.glb.time x, inlFrom := none }).dblFlag c.part 6 slot
  else s

/-- A channel halts in ERROR with a code, and DB_FAULT names the command (R39, R40). A trigger that comes in the hub cycle of a
stronger transition leaves only its code, in an empty STICKY_FIRST (R42). F goes back to the first command accepted and not dispatched (R40), so
that a command rejected behind it is fetched again, where R44 alone has F stand after the rejected one (DESIGN CHOICE, log entry 140). -/
def State.haltError (s : State) (slot : Nat) (code : Code) (seq : BitVec 16) (inl : Bool) : State :=
  let c := s.chan slot
  if c.st = .active ∨ c.st = .parked ∨ c.st = .halted then
    (((s.lateInline slot).setChan slot fun c => { ((c.discard false).dropFetch.movedAt s.glb.time) with
        st := .error, code := code, stopped := false, faultSeq := seq, faultInline := inl }).withdraw
      (Who.isRing slot))
  else if (c.st = .error ∨ c.st = .killed ∨ c.st = .retiring) ∧ c.moved = some s.glb.time then
    s.captureOnly pgDBL c.part code slot
  else s

/-- A command's SEQ as DB_FAULT gives it: zero for an inline command. -/
def Cmd.faultSeq (c : Cmd) : BitVec 16 := if c.inl then 0 else c.seq

/-! ## The context cache (R28) -/

/-- Contexts the cache holds: 512 fewer for each bank lost (18_stored_data_protection.md R370). -/
def State.contextMax (s : State) : Nat := Config.contextCache - 512 * s.banksLost 0x0A

/-- Contexts in the cache. -/
def State.cachedCount (s : State) : Nat := (s.dbl.chan.filter (·.2.cached)).length

/-- The contexts that may be evicted: of channels with no command dispatched and not completed. -/
def State.evictable (s : State) : List (Nat × Chan) := s.dbl.chan.filter fun p => p.2.cached && p.2.inflight = 0

/-- A context can be placed: there is room, or there is once those that may leave have left. -/
def State.canPlace (s : State) : Bool := decide (s.cachedCount < s.contextMax + s.evictable.length) && decide (0 < s.contextMax)

/-- A context is used, for the least recently used: by its placement, and by a doorbell or a write that starts its fetch; nothing else counts as a
use (DESIGN CHOICE, log entry 140). -/
def State.touch (s : State) (slot : Nat) : State :=
  (s.onDbl fun d => { d with clock := d.clock + 1 }).onChan slot fun c => { c with used := s.dbl.clock + 1 }

/-- A context of 1 KiB is written to the hub store: the valid bits of its 16 blocks are set (21_register_pages.md R424; 01 R22;
18_stored_data_protection.md R378). -/
def State.writeContext (s : State) (slot : Nat) : State :=
  let b := Config.contextBlock slot
  (List.range 16).foldl (fun (t : State) k => t.storeBlock (b + k)) (s.onGlb fun g => { g with ctxWrite := satInc g.ctxWrite })

/-- The least recently used evictable context leaves the cache; the fetch of an ACTIVE channel with slots announced waits for it to be
loaded again (R28). -/
def State.evictContext (s : State) : State :=
  match s.evictable with
  | [] => s
  | p :: ps =>
    let v := ps.foldl (fun (b q : Nat × Chan) => if q.2.used < b.2.used then q else b) p
    ((s.onChan v.1 fun c => { c with
      cached := false, loadWait := c.st = .active && decide (0 < c.avail) }).onGlb fun g => { g with ctxEvict := satInc g.ctxEvict }).writeContext v.1

/-- Contexts leave until fewer than `n` stay, or none may leave; `fuel` bounds them. Those of channels with work in flight stay, above a capacity
that has shrunk, until a later placement (DESIGN CHOICE, log entry 140). -/
def State.evictTo (s : State) (n : Nat) : Nat → State
  | 0 => s
  | fuel + 1 => if s.cachedCount < n ∨ s.evictable = [] then s else s.evictContext.evictTo n fuel

/-- A context is placed in the cache, evicting when it is full (R28). -/
def State.placeContext (s : State) (slot : Nat) : State :=
  ((s.evictTo s.contextMax s.evictable.length).onChan slot
    fun c => { c with cached := true, loadWait := false }).touch slot

/-! ## The ring fetch (R44, R427) -/

/-- A code of the translation range, which kills a channel (00_scope.md R9). -/
def kills (code : Code) : Bool := decide (0x20 ≤ code.toNat) && decide (code.toNat < 0x40)

/-- A translation request joins the lookups (04_translation.md R90). -/
def State.ask (s : State) (x : XReq) : State := s.onXlt fun t => { t with lookups := t.lookups ++ [x] }

/-- The translation request of a ring slot read. -/
def Chan.ringReq (c : Chan) (slot : Nat) (p : BitVec 32) : XReq :=
  { who := .ring slot p, part := c.part, asid := c.asid, access := 0
    va := c.ringBase + BitVec.ofNat 64 (64 * (p.toNat % c.size)) }

/-- One ring slot read begins, or fails at once: not master-enabled (R427). -/
def State.readSlot (s : State) (slot : Nat) (p : BitVec 32) : State :=
  let c := s.chan slot
  if !s.masterEnabled c.part then s.onChan slot fun c => { c with hand := c.hand ++ [{ pos := p, fail := 0x42 }] }
  else (s.onChan slot fun c => { c with want := c.want ++ [p] }).ask (c.ringReq slot p)

/-- A channel's owner engine serves: a failed engine sends no request, and what its reads bring is discarded (13_partitions_and_twin_engines.md
R296, R298). -/
def State.served (s : State) (slot : Nat) : Bool := s.engineSt (s.chan slot).owner = .serving

/-- The front end fetches up to 16 announced slots ahead (R44), while its engine serves. -/
def State.fetchAhead (s : State) (slot : Nat) : State :=
  let c := s.chan slot
  if c.st ≠ .active ∨ !c.cached ∨ !s.served slot then s
  else (List.range (min 16 c.avail)).foldl (fun t k =>
    let p := c.f + BitVec.ofNat 32 k
    if (c.handAt p).isSome || c.want.contains p || c.reads.contains p || c.stale = some p then t else t.readSlot slot p) s

/-- A doorbell or an inline write was accepted in the hub cycle `now`. -/
def Chan.rangAt (c : Chan) (now : Word) : Bool := match c.rang with | some (t, _) => t = now | none => false

/-- The channel parks with a code; 0x08 sets DOORBELL_AHEAD (R44), and a doorbell accepted earlier in that hub cycle is judged against the
parked channel: it starts the fetch again (R42). -/
def State.park (s : State) (slot : Nat) (code : Code) : State :=
  let c := s.chan slot
  let s1 := s.setChan slot fun c => { (if code = 0x08 then c.movedAt s.glb.time else c) with
    st := .parked, code := code, stopped := false, stale := none, rereads := 0 }
  if code = 0x08 then
    let s2 := s1.dblFlag c.part 5 slot 0x08
    if c.rangAt s.glb.time then s2.setChan slot fun c => { c with st := .active, code := 0, hand := [] } else s2
  else s1

/-- A slot is stale (R44): its re-read timer runs, or after the eighth re-read the channel parks with 0x08. -/
def State.goStale (s : State) (slot : Nat) (p : BitVec 32) : State :=
  let c := s.chan slot
  let s1 := s.onChan slot fun c => { c with hand := c.hand.filter (·.pos ≠ p) }
  if c.stale = some p ∧ 8 ≤ c.rereads then
    if c.reads.contains p ∨ c.want.contains p then s1 else s1.park slot 0x08
  else s1.onChan slot fun c => { c with stale := some p, rereads := if c.stale = some p then c.rereads else 0 }

/-- F moves past `n` slots. -/
def Chan.consume (c : Chan) (n : Nat) : Chan :=
  let f := c.f + BitVec.ofNat 32 n
  { c with f := f, stale := none, rereads := 0, hand := c.hand.filter fun h => (h.pos - f).toNat < 2 ^ 31 }

/-- A command takes its place in the command order (R50, R74): a ring command stands before the inline commands accepted after a
later announcement. -/
def insertCmd (c : Cmd) (l : List Cmd) : List Cmd :=
  if c.inl then l ++ [c]
  else
    let later (x : Cmd) : Bool := x.inl && x.st = .waiting && decide (0 < (x.pos - c.pos).toNat) && decide ((x.pos - c.pos).toNat < 2 ^ 31)
    l.takeWhile (fun x => !later x) ++ c :: l.dropWhile (fun x => !later x)

/-- A command is accepted (R74). -/
def State.acceptCmd (s : State) (slot : Nat) (inl : Bool) (pos : BitVec 32) (slots : List Granule) : State :=
  let g := slots.headD 0
  s.setChan slot fun c =>
    let x : Cmd := { num := c.nextNum, op := hdrOp g, seq := hdrSeq g, inl := inl, pos := pos, slots := slots }
    { c with cmds := insertCmd x c.cmds, nextNum := c.nextNum + 1 }

/-- The first continuation slot of a command that does not settle: missing, failed or stale. -/
def Chan.contTrouble (c : Chan) (k : Nat) : Nat → Option (BitVec 32 × Option Code)
  | 0 => none
  | n + 1 =>
    let p := c.f + BitVec.ofNat 32 k
    match c.handAt p with
    | none => some (p, some 0)
    | some h => if h.fail ≠ 0 then some (p, some h.fail) else if c.fresh p h.data false then c.contTrouble (k + 1) n else some (p, none)

/-- A command not yet dispatched stands before the slot at F: a ring command, or an inline command whose place F has reached (R50). -/
def Chan.before (c : Chan) : Bool :=
  c.cmds.any fun x => x.st = .waiting && !(x.inl && decide (0 < (x.pos - c.f).toNat) && decide ((x.pos - c.f).toNat < 2 ^ 31))

/-- The slot at F is a command's first, fresh and lawful: what its continuation slots still lack (R44). -/
def Chan.contNext (c : Chan) : Option (BitVec 32 × Option Code) :=
  match c.handAt c.f with
  | none => none
  | some h =>
    let span := hdrSpan h.data + 1
    if h.fail ≠ 0 || !c.fresh c.f h.data true || hdrOp h.data = 0xFF || decide (c.size < c.f.toNat % c.size + span) || decide (c.avail < span)
    then none else c.contTrouble 1 (span - 1)

/-- The failed slot in hand that F has come to (R427): the slot at F, or a continuation slot of the command there, for which F and
DB_FAULT.SEQ stay at the command's first slot (log entry 109). -/
def Chan.failedSlot (c : Chan) : Option HandSlot :=
  match c.handAt c.f with
  | none => none
  | some h =>
    if h.fail ≠ 0 then some h
    else match c.contNext with | some (p, some _) => (c.handAt p).filter (·.fail ≠ 0) | _ => none

/-- The code of that failed read, 0 when there is none. -/
def Chan.failedAt (c : Chan) : Code := match c.failedSlot with | some h => h.fail | none => 0

/-- A failed ring read that F has come to halts the channel, once every command before it has been dispatched (R427); a translation fault
kills it instead (`State.killFetch`). -/
def State.haltFetch (s : State) (slot : Nat) : State :=
  let c := s.chan slot
  if c.st ≠ .active ∨ c.failedAt = 0 ∨ kills c.failedAt ∨ c.before then s else s.haltError slot c.failedAt (c.f.setWidth 16) false

/-- The first command not dispatched, when R74 lets it be dispatched now: no FENCE or WAIT before it is incomplete, the ring command it
follows has been fetched, fewer than 256 are in flight, and its engine serves the channel (13_partitions_and_twin_engines.md R296, R300). -/
def State.readyCmd (s : State) (slot : Nat) : Option Cmd :=
  let c := s.chan slot
  let held := (c.cmds.takeWhile fun x => x.st ≠ .waiting).any fun x => x.op = 0x08 || x.op = 0x0A
  let runs := (c.st = .active || c.st = .parked) && !c.orphan && s.engineSt c.owner = .serving && s.twn.withdrawing ≠ some c.owner
  (c.cmds.find? (·.st = .waiting)).filter fun x =>
    let behind := x.inl && decide (0 < (x.pos - c.f).toNat) && decide ((x.pos - c.f).toNat < 2 ^ 31)
    runs && !held && !behind && decide (c.inflight < 256)

/-- The channel halts in ERROR for a rejected command; what its own inline write brought before it is not late (R42). -/
def State.haltReject (s : State) (slot : Nat) (r : Reject) : State :=
  (s.onChan slot fun c => { c with reject := none, inlFrom := if r.inl then none else c.inlFrom }).haltError slot r.code r.seq r.inl

/-- A command is rejected at fetch or acceptance: its channel halts in ERROR, naming it, but not before the commands that R74 has dispatched
by then (`State.settleRejects`). -/
def State.reject (s : State) (slot : Nat) (code : Code) (seq : BitVec 16) (inl : Bool) : State :=
  let r : Reject := { code := code, seq := seq, inl := inl }
  if (s.readyCmd slot).isSome then s.onChan slot fun c => { c with reject := some r } else s.haltReject slot r

/-- The fetch procedure of R44 over the slots in hand; `fuel` bounds the commands taken. -/
def State.judge (s : State) (slot : Nat) : Nat → State
  | 0 => s
  | fuel + 1 =>
    let c := s.chan slot
    let seq : BitVec 16 := c.f.setWidth 16
    if c.st ≠ .active ∨ c.reject.isSome ∨ !s.served slot then s
    else if c.avail = 0 then s.park slot 0
    else match c.handAt c.f with
      | none => s
      | some h =>
        if h.fail ≠ 0 then s.haltFetch slot
        else if !c.fresh c.f h.data true then s.goStale slot c.f
        else if hdrOp h.data = 0xFF then (s.onChan slot fun c => c.consume 1).reject slot 0x04 seq false
        else
          let span := hdrSpan h.data + 1
          let idx := c.f.toNat % c.size
          if idx + span > c.size then
            (s.onChan slot fun c => c.consume (min (c.size - idx) c.avail)).reject slot 0x05 seq false
          else if span > c.avail then s.park slot 0
          else match c.contTrouble 1 (span - 1) with
            | some (_, some 0) => s
            | some (_, some _) => s.haltFetch slot
            | some (p, none) => s.goStale slot p
            | none =>
              let slots := (List.range span).map fun k => ((c.handAt (c.f + BitVec.ofNat 32 k)).getD { pos := 0 }).data
              let s1 := s.onChan slot fun c => c.consume span
              let code := s1.acceptCode c.part slots
              if code ≠ 0 then s1.reject slot code seq false
              else (s1.acceptCmd slot false c.f slots).judge slot fuel

/-- The fetch of a channel waits for its context to be loaded, and is counted while none can leave the cache (R28). -/
def State.awaitContext (s : State) (slot : Nat) : State :=
  if (s.chan slot).loadWait then s
  else
    let s1 := s.onChan slot fun c => { c with loadWait := true }
    if s1.canPlace then s1 else s1.onGlb fun g => { g with ctxFetchWait := satInc g.ctxFetchWait }

/-- The fetch of a channel goes on: slots are read ahead, and those in hand are judged; an uncached context is loaded first (R28), and one in a
bank that is being copied is waited for (18_stored_data_protection.md R374). -/
def State.runFetch (s : State) (slot : Nat) : State :=
  if (s.chan slot).st = .active && !(s.chan slot).cached then s.awaitContext slot
  else if s.bankCopies 0x0A (Config.ctxBank slot) then s
  else
    let s1 := s.fetchAhead slot
    (s1.judge slot ((s1.chan slot).hand.length + 1)).fetchAhead slot

/-- The fetch starts, and the context is used (R28). -/
def State.startFetch (s : State) (slot : Nat) : State := (s.touch slot).runFetch slot

/-- A channel leaves PARKED for ACTIVE (R39). -/
def State.activate (s : State) (slot : Nat) : State :=
  (s.setChan slot fun c => { c with st := .active, code := 0, stopped := false }).startFetch slot

/-- RESUME takes effect: the channel leaves HALTED or ERROR (R39), unless it came there in this hub cycle (R42). -/
def State.resumeNow (s : State) (slot : Nat) : State :=
  let c := s.chan slot
  if (c.st = .halted ∨ c.st = .error) ∧ c.moved ≠ some s.glb.time then
    let s1 := s.setChan slot fun c => { c with st := .parked, code := 0, stopped := false, resumeHeld := false }
    if c.avail = 0 then s1 else s1.activate slot
  else s.onChan slot fun c => { c with resumeHeld := false }

/-- A RESUME held until INFLIGHT reads 0 takes effect then (06_movers.md R144). -/
def State.afterInflight (s : State) (slot : Nat) : State :=
  if (s.chan slot).resumeHeld ∧ (s.chan slot).inflight = 0 then s.resumeNow slot else s

/-- A dispatched command fails: it leaves its channel, and the channel halts in ERROR naming it (R40). -/
def State.failCmd (s : State) (slot : Nat) (c : Cmd) (code : Code) : State :=
  ((s.onChan slot fun x => { x with cmds := x.cmds.filter (·.num ≠ c.num) }).haltError slot code c.faultSeq c.inl).afterInflight slot

/-- A doorbell has been accepted: the tail before the doorbells of this hub cycle is kept (R42). -/
def Chan.rung (c : Chan) (now : Word) : Chan :=
  { c with rang := match c.rang with | some (t, ta) => if t = now then some (t, ta) else some (now, c.ta) | none => some (now, c.ta) }

/-- An inline write is taken: the first of its hub cycle is kept (R42). -/
def Chan.inlined (c : Chan) (now : Word) : Chan :=
  { c with inlFrom := match c.inlFrom with | some (t, n) => if t = now then some (t, n) else some (now, c.nextNum) | none => some (now, c.nextNum) }

/-- A DB_TAIL value reaches a channel (R47): whether it was accepted, and the state. -/
def State.tailWrite (s : State) (slot t : Nat) : Bool × State :=
  let c := s.chan slot
  if !c.live then (false, s.dblFlag c.part 4 slot)
  else if 2 * c.size ≤ t ∨ c.size < c.dist t then (false, s.dblFlag c.part 3 slot)
  else if c.dist t ≤ c.avail then
    (true, if c.st = .parked ∧ c.code = 0x08 then (s.ops pgDBL 1).activate slot else s.ops pgDBL 1)
  else
    let s1 := (s.setChan slot fun c => { (c.rung s.glb.time) with ta := BitVec.ofNat 17 t }).ops pgDBL 1
    (true, if c.st = .parked then s1.activate slot else if c.st = .active then s1.startFetch slot else s1)

/-- A ring slot read ends: with its bytes, or with a failure that counts when F reaches the slot (R44, R427). The data of a failed engine's
reads is discarded (13_partitions_and_twin_engines.md R298). -/
def State.slotArrived (s : State) (slot : Nat) (p : BitVec 32) (data : Granule) (fail : Code) (flt : Option XFault := none) : State :=
  let c := s.chan slot
  if !c.reads.contains p && !c.want.contains p then s
  else if !s.served slot then s.onChan slot fun c => { c with reads := c.reads.erase p }
  else if (c.handAt p).isSome || (p - c.f).toNat ≥ 2 ^ 31 then
    s.onChan slot fun c => { c with reads := c.reads.erase p }
  else
    let s1 := s.onChan slot fun c => { c with
      reads := c.reads.erase p, want := if c.reads.contains p then c.want else c.want.erase p,
      hand := c.hand ++ [{ pos := p, data := data, fail := fail, flt := flt }] }
    s1.runFetch slot

end Sys2Proof.Machine
end

