-- ==== Sys2Proof/Machine/ChantBase.lean ====
section
/-! DEFINITION. Plan entries below the Drone: firing, descriptors, ends of occurrences and disarming
(10_drone_and_chanter.md R221 to R230), and the dispatch judgement of destinations (12_peer_windows_and_transport.md R262). -/

namespace Sys2Proof.Machine

/-! ## The dispatch judgement (R262) -/

/-- Bytes of a scale array: one for each 32 elements (07_number_formats_and_ccu.md R159). -/
def DataOp.scaleBytes (d : DataOp) : Nat := d.total / elemBytes d.conv.sfmt / 32

/-- The ranges a data-moving operation reads, and its CRC word (R262: none may lie in a window). -/
def DataOp.srcRanges (d : DataOp) : List (Word × Nat) :=
  (if d.reads && !d.staging then [(d.src, d.srcBytes)] else [])
    ++ (if d.combines then [(d.src2, d.total)] else [])
    ++ (if d.srcScaled || d.dstScaled then [(d.scale, d.scaleBytes)] else [])
    ++ (if d.combines && d.srcScaled then [(d.scale2, d.scaleBytes)] else [])
    ++ (if d.op = 0x02 ∧ d.crc ≠ 0 then [(d.crcAddr, 8)] else [])

/-- The destination an operation's dispatch settles, or the code it fails with (R262, R275). -/
def State.judgeDest (s : State) (part asid : Nat) (d : DataOp) : Code × Dest :=
  if d.srcRanges.any fun r => s.inWindow part asid r.1 r.2 then (0x07, .local_)
  else match s.destOf part asid d.dst d.dstBytes with
    | none => (0x81, .local_)
    | some .local_ => (0, .local_)
    | some (.peer w) => if s.noRoute (s.owin w).chip then (0x82, .peer w) else (0, .peer w)

/-- The outbound window entry that a destination names; a command keeps the one its dispatch found (R261). -/
def State.winOf (s : State) : Dest → WinEntry
  | .peer w => s.owin w
  | .local_ => {}

/-- Times the flow that a destination takes has failed (R275). -/
def State.flowNo (s : State) : Dest → Nat
  | .peer w => (s.flow (s.owin w).chip).fails
  | .local_ => 0

/-! ## Plan entries -/

/-- A CHT sticky bit of a partition's view, with the entry's index. -/
def State.chtFlag (s : State) (part b i : Nat) (code : Code := 0) : State := s.flag pgCHT part b code i

/-- OWNER of an entry still names its channel (R220, 00_scope.md R6). -/
def State.ownerKnown (s : State) (e : Entry) : Bool := s.handleOf (hSlot e.owner) = e.owner && (s.chan (hSlot e.owner)).st ≠ .free

/-- The channel that owns an entry (R220); no channel's state where OWNER names none any more (log entry 119). -/
def State.ownerOf (s : State) (e : Entry) : Chan := if s.ownerKnown e then s.chan (hSlot e.owner) else {}

/-- The engine whose Chanter runs an entry (R220): its OWNER's, or the survivor once it has taken the entry over; none while the engine is
in failover, or where OWNER names no channel (13_partitions_and_twin_engines.md R298; log entry 119). -/
def State.chanter (s : State) (e : Entry) : Option Engine :=
  let c := s.ownerOf e
  if !s.ownerKnown e then none
  else if c.orphan then some c.owner.other
  else if s.engineSt c.owner = .failed then none
  else some c.owner

/-! ## Actions on their way to an object (09_sync_objects.md R199) -/

/-- The place of an engine among the sources of one hub cycle (R199). -/
def engineRank : Engine → Nat
  | .A => 0
  | .B => 1

/-- An action reaches the sync unit after another, or with it and by an earlier source (R199). -/
def SAct.before (a : SAct) (time : Word) (rank : Nat) : Bool := decide (a.at_ < time) || (a.at_ = time && decide (a.rank ≤ rank))

/-- An action reaches the sync unit: those of one hub cycle stand in the order of their sources (R199). -/
def State.addAct (s : State) (rank : Nat) (a : SAct) : State :=
  let b := { a with at_ := s.glb.time, rank := rank }
  s.onSyn fun y => { y with
    acts := y.acts.filter (fun x => x.before b.at_ rank) ++ [b] ++ y.acts.filter (fun x => !x.before b.at_ rank) }

/-- The epoch of an ASID, 0 when it is not bound (05_invalidation_and_placement.md R109). -/
def State.epochOf (s : State) (asid : Nat) : BitVec 32 := match s.binding? asid with | some b => b.epoch | none => 0

/-- A TYPE 0x5 record of an entry (R237). -/
def State.planFault (s : State) (i : Nat) (code : Code) (other : Word) (asid : Nat) (old now : BitVec 32) : State :=
  let e := s.entry i
  let w0 := place e.count.toNat 0 ||| place e.need 8 ||| place e.fired.toNat 16 ||| place e.gatePassed.toNat 17 ||| place asid 32
  s.fault 5 code e.part 2 ((s.chanter e).getD .A).num (s.entryHandle i)
    [s.cht.drone, other, BitVec.ofNat 64 (e.start + e.end_ <<< 24), w0, place old.toNat 0 ||| place now.toNat 32, 0]

/-- A RESERVE entry's row is enabled or disabled (R221). -/
def State.setRow (s : State) (i : Nat) (on : Bool) : State :=
  let k := field (s.entry i).arg0 8 0
  if (s.entry i).action = 4 then
    s.onCht fun c => { c with row := tabMod (fun _ => {}) c.row k fun (r : Row) => { r with enabled := on && !s.macroLost 0x10 (5 * 65536 + k) } }
  else s

/-- A waiter is the gate of an entry. -/
def Waiter.isPlan (i : Nat) : Waiter → Bool | .plan k => k = i | _ => false

/-- An entry's occurrence ends without action: its gate wait is withdrawn, its row disabled (R221, R223). -/
def State.endOccurrence (s : State) (i : Nat) : State :=
  let s1 := s.withdrawWaits (Waiter.isPlan i)
  (if (s.entry i).open_ then s1.setRow i false else s1).onEntry i fun e => { e with open_ := false, live := false }

/-- The hub disarms an entry (R225). -/
def State.disarm (s : State) (i : Nat) : State :=
  let e := s.entry i
  if e.live || e.arms.any (·.2) then
    ((s.endOccurrence i).onEntry i fun e => { e with arms := [] }).chtFlag e.part 1 i
  else s

/-- An entry's descriptor fails: it is disarmed, and its last code kept (R225, R98). -/
def State.planFail (s : State) (i : Nat) (code : Code) : State :=
  (s.onEntry i fun e => { e with run := none, runOld := false, code := code }).disarm i

/-! ## Descriptors (R227 to R229) -/

/-- The slots that say what a START entry's bodies say. -/
def State.descSlots (s : State) (i : Nat) : List Granule :=
  bodySlots (s.entry (i + 1)).body (if (s.entry i).bodies = 2 then some (s.entry (i + 2)).body else none)

/-- The first body of a START entry rewritten by the hub. -/
def State.onBody (s : State) (i : Nat) (f : Granule → Granule) : State := s.onEntry (i + 1) fun e => { e with body := f e.body }

/-- Bits 16 and 17 of a body: RESOLVED and PEER. -/
def bodyMarks (g : Granule) (resolved peer : Bool) : Granule :=
  granPut g 0 ((granWord g 0 &&& 0xFFFFFFFFFFFCFFFF) ||| place (flag resolved) 16 ||| place (flag peer) 17)

/-- EPOCH of a body. -/
def bodyEpoch (g : Granule) : BitVec 32 := granHalf g 0x38

/-- The translation request of a side of a descriptor (R228). -/
def State.resolveReq (s : State) (i : Nat) (dst : Bool) : XReq :=
  let o := s.ownerOf (s.entry i)
  let d := dataOp (field (s.entry (i + 1)).body 15 8) (s.descSlots i)
  { who := .resolve i dst (s.entry i).resNo, part := o.part, asid := o.asid
    access := if dst then 1 else 0, va := if dst then d.dst else d.src }

/-- A requester is a resolution of an entry's descriptor. -/
def Who.isResolve (i : Nat) : Who → Bool | .resolve k .. => k = i | _ => false

/-- The requests of an entry's resolution are withdrawn, and the answers of those that stay are not taken (R228). -/
def State.dropResolve (s : State) (i : Nat) : State := (s.withdraw (Who.isResolve i)).onEntry i fun e => { e with resNo := e.resNo + 1 }

/-- A descriptor is resolved: SRC first, then a local DST (R228). A resolution begun before is given up. -/
def State.resolve (s0 : State) (i : Nat) : State :=
  let s := s0.dropResolve i
  let o := s.ownerOf (s.entry i)
  let d := dataOp (field (s.entry (i + 1)).body 15 8) (s.descSlots i)
  let peer := match s.destOf o.part o.asid d.dst d.dstBytes with | some (.peer _) => true | _ => false
  let s1 := s.onBody i fun g =>
    granPut (granPut (granPut (bodyMarks g (peer && !d.reads) peer) 0x28 0) 0x30 0) 0x38 (place (s.epochOf o.asid).toNat 0)
  if d.reads then s1.ask (s1.resolveReq i false)
  else if peer then s1
  else s1.ask (s1.resolveReq i true)

/-- START issues its descriptor (R229, R230). Where DST now lies in a window and did not at resolution, or the reverse, the recorded addresses
are not those of the destination: the descriptor translates live without 0xA1 and is resolved again (DESIGN CHOICE, log entry 133). -/
def State.startDesc (s : State) (i : Nat) : State :=
  let e := s.entry i
  let b := (s.entry (i + 1)).body
  let o := s.ownerOf e
  let slots := s.descSlots i
  let op := field b 15 8
  let d := dataOp op slots
  let (code, dest) := (s.ops pgPWN 1).judgeDest o.part o.asid d
  let now := s.epochOf o.asid
  let fresh := bit b 16 && bodyEpoch b = now
  let toPeer : Bool := dest ≠ .local_
  let same : Bool := bit b 17 = toPeer
  let c : Cmd := { num := 0, op := op, slots := slots, st := .dispatched, urgent := true, dest := dest, win := s.winOf dest, flowNo := s.flowNo dest, segs := d.segments,
                   resolved := fresh && same, srcPa := granWord b 0x28, dstPa := granWord b 0x30, paEpoch := bodyEpoch b }
  let s1 := (s.ops pgPWN 1).onEntry i fun e => { e with run := some c, runOld := false }
  let s2 :=
    if bit b 16 && !fresh then
      (((((s1.onEntry i fun e => { e with fallback := true, code := 0xA1 }).onChtView e.part
        fun v => { v with fallback := satInc v.fallback }).planFault i 0xA1 0 o.asid (bodyEpoch b) now).chtFlag e.part 3 i 0xA1).resolve i)
    else if fresh && !same then s1.resolve i
    else s1
  if code ≠ 0 then s2.planFail i code else s2

/-! ## Firing (R221, R222) -/

/-- The current occurrence is DONE. -/
def State.planDone (s : State) (i : Nat) : State := s.onEntry i fun e => { e with done := e.done || e.fired }

/-- The SIGNAL of an occurrence has been applied or acknowledged: that occurrence is DONE, if it is still the current one (R222). -/
def State.planSignalled (s : State) (i occ : Nat) : State := if (s.entry i).occ = occ then s.planDone i else s

/-- A handle failed R7 when the action fired: the occurrence ends without action (R221). -/
def State.actionRefused (s : State) (i : Nat) : State :=
  ((s.endOccurrence i).onEntry i fun e => { e with code := 0x0A }).chtFlag (s.entry i).part 7 i

/-- RING fires (R221): a DB_TAIL write of (Ta + ADVANCE) mod 2S, judged by 02_channels_and_doorbells.md R47. -/
def State.fireRing (s : State) (i : Nat) : State :=
  let e := s.entry i
  match s.namedSlot e.arg0 e.part with
  | none => s.actionRefused i
  | some k =>
    let c := s.chan k
    let r := s.tailWrite k ((c.ta.toNat + field e.arg1 16 0) % (2 * c.size))
    if r.1 then r.2.planDone i else r.2

/-- SIGNAL fires (R221): locally, or through its outbound window. -/
def State.fireSignal (s : State) (i : Nat) : State :=
  let e := s.entry i
  let action := field e.arg1 17 16
  if bit e.arg1 14 then
    let w := field e.arg1 13 0
    let x := s.owin w
    let s1 := s.ops pgPWN 1
    if !x.en || !(s.allot false e.part).has w then s1.onEntry i fun e => { e with code := 0x81 }
    else if s.noRoute x.chip then s1.onEntry i fun e => { e with code := 0x82 }
    else s1.sendSignal x e.arg0 action e.value.toNat (.planSignal i e.occ)
  else if s.goodObj e.arg0 e.part then
    s.addAct (engineRank ((s.chanter e).getD .A))
      { from_ := .plan i e.occ, handle := e.arg0, action := BitVec.ofNat 2 action, value := e.value }
  else s.actionRefused i

/-- The action of an entry fires (R221, R223). -/
def State.fire (s : State) (i : Nat) : State :=
  let e := s.entry i
  let s1 := s.onEntry i fun e => { e with fired := true, count := e.count - BitVec.ofNat 8 e.need }
  let s2 := if e.open_ then s1 else s1.onChtView e.part fun v => { v with late := satInc v.late }
  match e.action with
  | 1 => s2.startDesc i
  | 2 => s2.fireRing i
  | 3 => s2.fireSignal i
  | _ => s2.planDone i

/-- The action fires if its conditions hold (R221). A START waits for its descriptor of an earlier occurrence (R223); an entry of an engine
in failover waits for its adoption (13 R298). -/
def State.tryFire (s : State) (i : Nat) : State :=
  let e := s.entry i
  let ready := decide (e.need ≤ e.count.toNat) && (!e.gateEn || e.gatePassed)
  if e.live && !e.fired && e.action ≠ 4 && ready && (e.action ≠ 1 || e.run.isNone) && (s.chanter e).isSome then s.fire i else s

/-- The descriptor of an entry has reached its completion point (R222, R223). -/
def State.planRunDone (s : State) (i : Nat) : State :=
  let old := (s.entry i).runOld
  let s1 := s.onEntry i fun e => { e with run := none, runOld := false, done := if old then e.done else e.done || e.fired }
  s1.tryFire i

/-- The entries a channel owns, those among them that are freed and whose descriptor still runs (R225, R236). -/
def State.ownedEntries (s : State) (h : BitVec 32) : List Nat :=
  (s.cht.entry.filter fun p => (p.2.held || p.2.run.isSome) && p.2.kind = 1 && p.2.owner = h).map (·.1)

/-- An entry's running descriptor ends as STOP ends mover work (R225, 06_movers.md R143). -/
def State.stopRun (s : State) (i : Nat) : State :=
  let mine : Work → Bool := fun w => w = .plan i
  let s1 := s.stopJobs mine
  s1.onEntry i fun e => { e with
    run := if (s1.jobsOf mine).isEmpty then none else e.run.map fun c => { c with st := .ended } }

/-- The OWNER enters KILLED or RETIRING or is RESET: its entries are disarmed and their descriptors stopped (R225). -/
def State.disownEntries (s : State) (slot : Nat) : State :=
  (s.ownedEntries (s.handleOf slot)).foldl (fun t i => (t.disarm i).stopRun i) s

/-- The scope of a completion pulse: CHIP, or MACHINE where the command's destination is a peer's (08_memory_model.md R181, R182). -/
def pulseScope : Dest → BitVec 2
  | .local_ => 1
  | .peer _ => 2

/-- A completion pulse is on its way to its target (03_command_set.md R57, R58). -/
def State.pulse (s : State) (e : Engine) (cpl : Word) (dest : Dest := .local_) : State :=
  let h : BitVec 32 := cpl.extractLsb' 32 32
  match field cpl 2 0 with
  | 1 =>
    s.send (.noc (Config.agentPort (256 + field cpl 15 4) % 4)
      { opc := 0x44, agent := 256 + field cpl 15 4, counter := field cpl 21 16, inc := field cpl 31 24, scope := pulseScope dest })
  | 2 => s.addAct (engineRank e) { from_ := .pulse e, handle := h, action := if hType h = 1 then 1 else 0, value := 1 }
  | 3 => s.onCht fun c => { c with pulses := c.pulses ++ [h] }
  | _ => s

end Sys2Proof.Machine
end

