-- ==== Sys2Proof/Machine/Sync.lean ====
section
/-! DEFINITION. Sync objects, wait records and their order (09_sync_objects.md R190 to R208), and the completion of commands
(03_command_set.md R58, R73). -/

namespace Sys2Proof.Machine

/-! ## Completion of a command -/

/-- A dispatched command of a channel. -/
def State.cmdOf (s : State) (slot num : Nat) : Option Cmd := (s.chan slot).cmds.find? fun c => c.num = num && c.st = .dispatched

/-- A command reaches its completion point: its pulse is sent, and it leaves its channel (R58). -/
def State.completeCmd (s : State) (slot num : Nat) : State :=
  match s.cmdOf slot num with
  | none => s
  | some c =>
    ((s.onChan slot fun x => { x with cmds := x.cmds.filter (·.num ≠ num) }).pulse (s.chan slot).owner c.cpl c.dest).afterInflight slot

/-- A command of a channel fails with a code, if it is still dispatched. -/
def State.failNum (s : State) (slot num : Nat) (code : Code) : State :=
  match s.cmdOf slot num with
  | none => s
  | some c => s.failCmd slot c code

/-! ## Objects and records -/

/-- A SYN sticky bit of a partition's view, with the object's index. -/
def State.synFlag (s : State) (part b i : Nat) (code : Code := 0) : State := s.flag pgSYN part b code i

/-- Offset of an engine's half among the records. -/
def halfBase : Engine → Nat
  | .A => 0
  | .B => Config.halfRecords

/-- The lowest index from `lo` that a sparse table of used entries leaves free. -/
def firstFree {α : Type} (used : α → Bool) (t : Tab α) (lo : Nat) : Nat :=
  t.foldl (fun k e => if e.1 = k && used e.2 then k + 1 else k) lo

/-- A free wait record of an engine's half; records of a lost macro are withdrawn (18_stored_data_protection.md R370). -/
def State.freeRec (s : State) (e : Engine) : Option Nat :=
  if s.ras.lostCap.any (·.1 = 0x0E) then
    (List.range Config.halfRecords).findSome? fun i =>
      let k := halfBase e + i
      if (s.wrec k).isNone && !s.macroLost 0x0E k then some k else none
  else
    let k := firstFree (fun (x : Option WRec) => x.isSome) s.syn.rec_ (halfBase e)
    if k < halfBase e + Config.halfRecords then some k else none

/-- The lowest free object index; those of a lost bank are never issued again (18 R370). `fuel` bounds the banks. -/
def State.freeObj (s : State) (lo : Nat) : Nat → Nat
  | 0 => Config.objects
  | fuel + 1 =>
    let i := firstFree (fun (o : Obj) => decide (o.st ≠ .free)) s.syn.obj lo
    if s.bankLost 0x0B (i / 8192) then s.freeObj ((i / 8192 + 1) * 8192) fuel else i

/-- A waiter's object, condition and timeout. -/
def State.waitArgs (s : State) : Waiter → Option (BitVec 32 × BitVec 2 × BitVec 32)
  | .chan k n => (s.cmdOf k n).map fun c => (granHalf c.first 0x10, (slotCtl c.first).setWidth 2, granHalf c.first 0x14)
  | .plan i => some ((s.entry i).gate, (s.entry i).gateCond, (s.entry i).gateTimeout)
  | .client .. => none

/-- A waiter is released (R191 to R193, R200, R226). -/
def State.released (s : State) (w : Waiter) (h : BitVec 32) : State :=
  match w with
  | .chan k n => s.completeCmd k n
  | .client c tag _ => s.send (.p4 (.waitAns c tag 0 h))
  | .plan i => (s.onEntry i fun e => { e with gatePassed := true }).tryFire i

/-- A wait ends without release, with a code (R67, R196, R201, R226). -/
def State.waitEnds (s : State) (w : Waiter) (h : BitVec 32) (code : Code) : State :=
  match w with
  | .chan k n => s.failNum k n code
  | .client c tag _ => s.send (.p4 (.waitAns c tag code h))
  | .plan i =>
    let s1 := s.onEntry i fun e => { e with code := code }
    if code = 0x62 then s1.disarm i else if code = 0x0A then s1.actionRefused i else s1.endOccurrence i

/-- The condition of a wait is met at once (R191 to R193). -/
def Obj.meets (o : Obj) : Bool :=
  match o.type with
  | 0 => o.value ≠ 0
  | 1 => o.value = 1
  | 2 => o.passed
  | _ => false

/-- The place of a waiter's operation among those of one hub cycle; wait requests arrive on NoC port 4 (R199). -/
def State.waiterRank (s : State) : Waiter → Nat
  | .chan k _ => engineRank (s.chan k).owner
  | .plan i => engineRank ((s.chanter (s.entry i)).getD .A)
  | .client .. => 6

/-- A record linked in this hub cycle by a source whose place is after a given one (R199). -/
def State.linkedAfter (s : State) (rank r : Nat) : Bool :=
  match s.wrec r with
  | some x => x.linked = s.glb.time && decide (rank < s.waiterRank x.who)
  | none => false

/-- A wait record is made and linked at the tail of its object's list, before those that later sources link in the same hub cycle (R197, R199,
R201). -/
def State.linkRec (s : State) (r : Nat) (w : Waiter) (h : BitVec 32) (cond : BitVec 2) (timeout : BitVec 32) : State :=
  let i := hIdx h
  let x : WRec := { who := w, handle := h, cond := cond, timeout := timeout, linked := s.glb.time
                    deadline := s.glb.time + BitVec.ofNat 64 (64 * timeout.toNat)
                    slipped := (s.obj i).slip && s.syn.slip && !s.syn.slipOver && s.syn.slipMax ≠ 0 }
  let later := s.linkedAfter (s.waiterRank w)
  (s.setWrec r (some x)).onObj i fun o => { o with
    waiters := (o.waiters.takeWhile fun k => !later k) ++ [r] ++ o.waiters.dropWhile fun k => !later k }

/-- A waiter finds no record: a WAIT or a gate stalls for one (R197, R226), a core client is answered (R197). -/
def State.noRecord (s : State) (w : Waiter) (half : Engine) (h : BitVec 32) : State :=
  let hold (t : State) : State := t.onSyn fun y => { y with stalled := y.stalled ++ [{ who := w, half := half }] }
  match w with
  | .chan k _ =>
    let p := (s.chan k).part
    ((hold s).onSynView p fun v => { v with recStall := satInc v.recStall }).synFlag p 7 (hIdx h)
  | .plan _ => hold s
  | .client c tag _ => s.send (.p4 (.waitAns c tag 0x63 h))

/-! ## Actions (R191 to R193, R199) -/

/-- An action has been applied, or had no effect: its origin is told. -/
def State.actDone (s : State) (f : ActFrom) : State :=
  match f with
  | .chan k n => s.completeCmd k n
  | .pulse _ => s
  | .plan i k => s.planSignalled i k
  | .core port agent tag => s.send (.noc port { opc := 0x53, agent := agent, tag := tag })
  | .peer src psn => s.onRx src fun x => { x with
      pkts := x.pkts.map fun p => if p.psn = psn then { p with mask := p.mask ||| 1 } else p }

/-- Blocks a mask names. -/
def maskCount (m : BitVec 16) : Nat := ((List.range 16).filter (bit m)).length

/-- An acknowledgment, or a refusal, of blocks of a packet is sent to its source (12_peer_windows_and_transport.md R269, R271). -/
def State.respond (s : State) (h : PktHdr) (kind : Nat) (mask : BitVec 16) (arg : Nat) : State :=
  if mask = 0 then s
  else
    let a := s.header kind h.srcChip.toNat
    s.transmit h.srcChip.toNat { h := { a with mask := mask, psn := h.psn, blocks := h.blocks, arg := BitVec.ofNat 32 arg } }

/-- A TYPE 0x6 record of a refusal as receiver (12 R264, R281). -/
def State.peerRecord (s : State) (h : PktHdr) (cause : Nat) (detail : Code) (offset : Nat) : State :=
  let p := (s.iwinPart h.window.toNat).getD 0
  s.fault 6 0x81 p 3 0 (BitVec.ofNat 32 (h.srcChip.toNat <<< 16 + h.window.toNat))
    [place cause 0 ||| place detail.toNat 8 ||| place h.srcChip.toNat 16 ||| place h.psn.toNat 32, BitVec.ofNat 64 offset,
     place h.window.toNat 0, 0, 0, 0]

/-- Blocks of a packet are refused (12 R264, R265): counted, answered with a NACK, and recorded. -/
def State.refuse (s : State) (h : PktHdr) (mask : BitVec 16) (cause : Nat) (detail : Code) (offset : Nat) : State :=
  ((s.onPeer fun p => { p with refused := satAdd p.refused (maskCount mask) }).respond h 5 mask (cause + detail.toNat <<< 8)).peerRecord
    h cause detail offset

/-- A remote SIGNAL whose object has gone before it could be applied is refused with 0x81 (R207; 12 R264). -/
def State.refuseSignal (s : State) (src psn : Nat) : State :=
  match (s.rxFlow src).pkts.find? (·.psn = psn) with
  | none => s
  | some p => (s.onRx src fun x => { x with
      pkts := x.pkts.map fun q => if q.psn = psn then { q with busy := 0 } else q }).refuse p.h 1 6 0x0A 0

/-- An action's handle names no live object any more: it is refused with 0x0A (R196). -/
def State.actRefused (s : State) (f : ActFrom) : State :=
  match f with
  | .chan k n => s.failNum k n 0x0A
  | .plan i k => if (s.entry i).occ = k then s.actionRefused i else s
  | .core port agent tag => s.send (.noc port { opc := 0x53, agent := agent, tag := tag, status := 0x0A })
  | .peer src psn => s.refuseSignal src psn
  | _ => s.actDone f

/-- The oldest `k` waiters of an object are released, in list order (R191). -/
def State.releaseOldest (s : State) (i k : Nat) : State :=
  ((s.obj i).waiters.take k).foldl (fun t r =>
    match t.wrec r with
    | none => t
    | some w => (t.unlink r).released w.who w.handle) s

/-- ADD to a COUNTER (R191). -/
def State.addCounter (s : State) (i v : Nat) : State :=
  let o := s.obj i
  let k := min v o.waiters.length
  let sum := o.value.toNat + (v - k)
  let s1 := s.onObj i fun o => { o with value := BitVec.ofNat 32 (min sum (2 ^ 32 - 1)) }
  (if sum < 2 ^ 32 then s1 else s1.synFlag o.part 4 i).releaseOldest i k

/-- SET or CLEAR of an EVENT (R192). -/
def State.setEvent (s : State) (i : Nat) (on : Bool) : State :=
  let s1 := s.onObj i fun o => { o with value := if on then 1 else 0 }
  if on then s1.releaseOldest i (s.obj i).waiters.length else s1

/-- ADD to a BARRIER (R193). -/
def State.addBarrier (s : State) (i v : Nat) : State :=
  let o := s.obj i
  let sum := o.value.toNat + v
  if sum < o.n.toNat then s.onObj i fun o => { o with passed := false, value := BitVec.ofNat 32 sum }
  else
    let s1 := s.onObj i fun o => { o with passed := true, value := 0, episode := o.episode + 1 }
    (if sum = o.n.toNat then s1 else s1.synFlag o.part 5 i).releaseOldest i o.waiters.length

/-- An action is applied at its object's bank (R196, R199). -/
def State.applyAct (s : State) (a : SAct) : State :=
  let i := hIdx a.handle
  let o := s.obj i
  if !s.goodObj a.handle (hPart a.handle) then s.actRefused a.from_
  else if o.st = .abandoned then
    (((s.ops pgSYN 1).onSynView o.part fun v => { v with hits := satInc v.hits }).synFlag o.part 3 i).actDone a.from_
  else
    let s1 := s.ops pgSYN 1
    (if o.type = 0 then (if a.action = 0 then s1.addCounter i a.value.toNat else s1)
     else if o.type = 1 then (if a.action = 0 then s1 else s1.setEvent i (a.action = 1))
     else if a.action = 0 then s1.addBarrier i a.value.toNat else s1).actDone a.from_

/-- The actions at an object that come before an operation of a source in this hub cycle are applied (R199: one order at each object). -/
def State.settleObj (s : State) (i rank : Nat) : State :=
  (s.syn.acts.filter fun a => hIdx a.handle = i && a.before s.glb.time rank).foldl (fun (t : State) a =>
    if t.syn.acts.contains a then (t.onSyn fun y => { y with acts := dropFirst (fun x => x = a) y.acts }).applyAct a else t) s

/-- A wait reaches its object's bank, behind what reached it before (R190 to R199): it passes, ends, or makes a record in a half that has
one free. -/
def State.beginWait (s0 : State) (w : Waiter) (halves : List Engine) (h : BitVec 32) (cond : BitVec 2) (timeout : BitVec 32) : State :=
  let i := hIdx h
  let s := s0.settleObj i (s0.waiterRank w)
  let o := s.obj i
  if !s.goodObj h (hPart h) then s.waitEnds w h 0x0A
  else if o.st = .abandoned then s.waitEnds w h 0x62
  else if o.meets then
    ((s.ops pgSYN 1).onObj i fun o => if o.type = 0 then { o with value := o.value - 1 } else o).released w h
  else match halves.findSome? s.freeRec with
    | some r => (s.ops pgSYN 1).linkRec r w h cond timeout
    | none => s.noRecord w (halves.headD .A) h

/-- The action at the front reaches its object's bank (R199, R200). -/
def State.applyFront (s : State) : State :=
  match s.syn.acts.find? fun a => !s.bankCopies 0x0B (hIdx a.handle / 8192) with
  | none => s
  | some a => (s.onSyn fun y => { y with acts := dropFirst (fun x => x = a) y.acts }).applyAct a

/-! ## Abandonment and expiry -/

/-- The condition, SLIPPED and SCOPE bits of a wait error record (R204). -/
def waitBits (w : WRec) : Nat :=
  let scope := match w.who with | .client _ _ sc => 8 + 16 * sc.toNat | _ => 0
  w.cond.toNat + (if w.slipped then 4 else 0) + scope

/-- SOURCE, engine and REQUESTER of a waiter in its record (R101, R204), and the SEQ and INLINE of its WAIT. An inline WAIT has its slot's
SEQ (02_channels_and_doorbells.md R43). -/
def State.waiterId (s : State) : Waiter → Nat × Nat × BitVec 32 × Word
  | .chan k n =>
    let c := (s.cmdOf k n).getD { num := n, op := 0, slots := [] }
    (0, (s.chan k).owner.num, s.handleOf k, place c.seq.toNat 0 ||| place c.inl.toNat 16)
  | .client c _ _ => (1, 0, BitVec.ofNat 32 c, 0)
  | .plan i => (2, ((s.chanter (s.entry i)).getD .A).num, s.entryHandle i, 0)

/-- The deadline of a wait stands still: its object was made with SLIP, and a slip within SYN_SLIP_MAX is in force (R202). -/
def State.paused (s : State) (w : WRec) : Bool :=
  (s.obj (hIdx w.handle)).slip && s.syn.slip && !s.syn.slipOver && s.syn.slipMax ≠ 0

/-- The actions at an object that are due in this hub cycle, 8 after they reached the sync unit, are applied (R200). -/
def State.applyDue (s : State) (i : Nat) : State :=
  (s.syn.acts.filter fun a => hIdx a.handle = i && decide (a.at_.toNat + 8 ≤ s.glb.time.toNat)).foldl (fun (t : State) a =>
    if t.syn.acts.contains a then (t.onSyn fun y => { y with acts := dropFirst (fun x => x = a) y.acts }).applyAct a else t) s

/-- A wait expires (R201, R203, R204): not while its deadline is paused (R202), and not where a release falls due with the expiry
(R200). -/
def State.expire (s0 : State) (r : Nat) : State :=
  let s := match s0.wrec r with | some w => if s0.paused w then s0 else s0.applyDue (hIdx w.handle) | none => s0
  match s.wrec r with
  | none => s
  | some w =>
    if s.paused w then s
    else
    let i := hIdx w.handle
    let o := s.obj i
    let (src, eng, req, seq) := s.waiterId w.who
    let s1 := ((s.ops pgSYN 1).unlink r).waitEnds w.who w.handle 0x61
    let s2 := s1.fault 4 0x61 o.part src eng req
      [place w.handle.toNat 0 ||| place (waitBits w) 32, place w.timeout.toNat 0 ||| place o.value.toNat 32, w.linked,
       place (o.waiters.length - 1) 0 ||| place o.owner.toNat 32, seq, 0]
    (s2.onSynView o.part fun v => { v with timeouts := satInc v.timeouts }).synFlag o.part 1 i

/-- An object becomes ABANDONED, behind what reached it before by a source of an earlier place (R196, R199, R203, R204). -/
def State.abandon (s0 : State) (i : Nat) (rank : Nat := 7) : State :=
  let s := s0.settleObj i rank
  let o := s.obj i
  if o.st ≠ .live then s
  else
    let s1 := (s.ops pgSYN 1).onObj i fun o => { o with st := .abandoned }
    let s2 := o.waiters.foldl (fun t r =>
      match t.wrec r with
      | none => t
      | some w => (t.unlink r).waitEnds w.who w.handle 0x62) s1
    if o.waiters = [] then s2
    else (s2.fault 4 0x62 o.part 5 0 0
      [place (s.objHandleOf i).toNat 0, place o.value.toNat 32, s.glb.time,
       place o.waiters.length 0 ||| place o.owner.toNat 32, 0, 0]).synFlag o.part 2 i

/-- The objects a channel owns become ABANDONED (R195). -/
def State.abandonOwned (s : State) (slot : Nat) : State :=
  let h := s.handleOf slot
  ((s.syn.obj.filter fun p => p.2.st = .live && p.2.owner = h).map (·.1)).foldl
    (fun t i => t.abandon i (engineRank (s.chan slot).owner)) s

/-- An object is abandoned if need be and its index freed (R196). A register's operation comes after every source of its hub cycle: R199 names
no place for it (DESIGN CHOICE, log entry 133). -/
def State.destroyObj (s : State) (i : Nat) : State :=
  ((((s.settleObj i 7).abandon i).ops pgSYN 1).onObj i fun o => { gen := o.gen }).onPrt fun p => { p with objOrder := p.objOrder.erase i }

/-- Objects a partition holds (R208). -/
def State.objCount (s : State) (p : Nat) : Nat := (s.syn.obj.filter fun e => e.2.st ≠ .free && e.2.part = p).length

/-- A partition that is DISABLING or ENABLE_PENDING refuses new resources (13_partitions_and_twin_engines.md R287). -/
def State.closed (s : State) (p : Nat) : Bool := (s.part p).st ≠ .enabled

/-- SYN_OBJ_STATUS.BUSY of a function (R194, R208). -/
def State.objBusy (s : State) (fn : Nat) : Bool := decide (s.glb.time < (s.synView fn).busyUntil)

/-- A write of SYN_OBJ_CMD: discarded while BUSY; otherwise the operation is carried out, and BUSY clears within 1 µs and a hub cycle for each
waiter its abandonment releases, after a time the spec leaves open (R194; log entry 120). -/
def State.objOp (s : State) (fn waiters : Nat) (f : State → State) : State :=
  if s.objBusy fn then s.flag pgSYN fn 6
  else
    let (n, s1) := s.draw
    let t := f s1
    t.onSynView fn fun v => { v with busyUntil := s.glb.time + BitVec.ofNat 64 (1 + Config.objCycles n % Config.usCycles + waiters) }

/-- The result of an object operation (R194, R208). -/
def State.objResult (s : State) (fn : Nat) (r : BitVec 3) (h : Option (BitVec 32)) : State :=
  s.onSynView fn fun v => { v with result := r, handle := h.getD v.handle }

/-! ## The commands -/

/-- CREATE of an object (R194, R287). -/
def State.createObj (s : State) (fn : Nat) (type : BitVec 2) (slip : Bool) : State :=
  let v := s.synView fn
  let owner : BitVec 32 := v.cfg.extractLsb' 32 32
  let init : BitVec 32 := v.cfg.setWidth 32
  let ownerOk : Bool := owner = 0 || (match s.goodChan owner fn with
    | some k => let c := s.chan k; c.st = .creating || c.live
    | none => false)
  let i := s.freeObj 0 9
  if s.closed fn then s.objResult fn 5 none
  else if !ownerOk then s.objResult fn 2 none
  else if type = 3 ∨ (type = 2 ∧ init.setWidth 16 = 0#16) then s.objResult fn 3 none
  else if (s.part fn).qSync ≤ s.objCount fn ∨ Config.objects ≤ i then s.objResult fn 4 none
  else
    let g := nextGen (s.obj i).gen
    let o : Obj := { gen := g, st := .live, type := type, part := fn, slip := slip, owner := owner
                     value := if type = 0 then init else if type = 1 then init &&& 1 else 0
                     n := if type = 2 then init.setWidth 16 else 0 }
    (((s.ops pgSYN 1).onObj i fun _ => o).onPrt fun p => { p with objOrder := p.objOrder ++ [i] }).objResult fn 0
      (some (objHandle g fn type i))

/-- OBJ_CREATE (R194, R287). -/
def State.objCreate (s : State) (fn : Nat) (type : BitVec 2) (slip : Bool) : State := s.objOp fn 0 fun t => t.createObj fn type slip

/-- OBJ_DESTROY (R194). -/
def State.objDestroy (s : State) (fn : Nat) (h : BitVec 32) : State :=
  s.objOp fn (if s.goodObj h fn then (s.obj (hIdx h)).waiters.length else 0) fun t =>
    if t.goodObj h fn then (t.destroyObj (hIdx h)).objResult fn 0 (some h) else t.objResult fn 1 none

/-- READ of an object (R194, R208). -/
def State.readObj (s : State) (fn : Nat) (h : BitVec 32) : State :=
  if !s.goodObj h fn then s.objResult fn 1 none
  else
    let o := s.obj (hIdx h)
    let st := place (if o.st = .abandoned then 1 else 0) 63 ||| place o.passed.toNat 62 ||| place o.slip.toNat 61 |||
      place o.waiters.length 32 ||| place o.value.toNat 0
    let info := place o.owner.toNat 32 ||| place o.episode.toNat 16 ||| place o.n.toNat 0
    ((s.ops pgSYN 1).onSynView fn fun v => { v with state := st, info := info }).objResult fn 0 (some h)

/-- OBJ_READ (R194, R208). -/
def State.objRead (s : State) (fn : Nat) (h : BitVec 32) : State := s.objOp fn 0 fun t => t.readObj fn h

/-- CORE_SIGNAL (R66, R199, 15_block_ports.md R336): judged like a local SIGNAL of the client's partition. -/
def State.coreSignal (s : State) (port agent tag : Nat) (h : BitVec 32) (action : BitVec 2) (value : BitVec 16) : State :=
  let refuse (code : Code) : State := s.send (.noc port { opc := 0x53, agent := agent, tag := tag, status := code })
  if agent < 256 ∨ 1280 ≤ agent then s.portProtocol port
  else
    let p := (s.client (agent - 256)).part
    if !actionOk action.toNat (hType h) then refuse 0x06
    else if !s.goodObj h p then refuse 0x0A
    else if action = 0 ∧ value = 0 then refuse 0x05
    else s.addAct (2 + port) { from_ := .core port agent tag, handle := h, action := action, value := value }

/-- The halves a core client's wait takes its record from: Engine A's, then Engine B's; a failed engine's no longer serves (R197; log entry
121). -/
def State.clientHalves (s : State) : List Engine := [Engine.A, .B].filter fun e => s.engineSt e = .serving

/-- WAIT_REQ (R67, R196, R197, R201; 15_block_ports.md R338). -/
def State.waitReq (s : State) (c tag : Nat) (scope cond : BitVec 2) (h timeout : BitVec 32) : State :=
  let answer (code : Code) : State := s.send (.p4 (.waitAns c tag code h))
  if !condOk cond.toNat (hType h) then answer 0x06
  else if !s.goodObj h (s.client c).part then answer 0x0A
  else if timeout = 0 then answer 0x05
  else s.beginWait (.client c tag scope) s.clientHalves h cond timeout

/-- WAIT_RECORD_LINK (R197, R226): the oldest waiter stalled for an engine's half takes a free record. Its object is judged then, and not
before (log entry 122). -/
def State.recordLink (s : State) (e : Engine) : State :=
  match s.syn.stalled.find? (·.half = e), s.freeRec e with
  | some w, some _ =>
    let s1 := s.onSyn fun y => { y with stalled := dropFirst (fun x => x = w) y.stalled }
    match s.waitArgs w.who with
    | some (h, cond, timeout) => s1.beginWait w.who [e] h cond timeout
    | none => s1
  | _, _ => s

end Sys2Proof.Machine
end

