-- ==== Sys2Proof/Machine/Kill.lean ====
section
/-! DEFINITION. How channels end: KILL, RESET, DESTROY and the freeing of a slot, and the RESULT words of management descriptors
(02_channels_and_doorbells.md R29, R30, R36 to R42). -/

namespace Sys2Proof.Machine

/-! ## RESULT words (R29, R30) -/

/-- A RESULT word (R30). -/
def resultWord (ok : Bool) (reason : Nat) (status : Code) (h : BitVec 32) : Word :=
  place 1 63 ||| place ok.toNat 62 ||| place reason 40 ||| place status.toNat 32 ||| place h.toNat 0

/-- The translation request of the descriptor in hand, for one of its accesses: 0 its read, 1 the write right, 2 its RESULT (R29). -/
def State.mgmtAsk (s : State) (fn step : Nat) : State :=
  let m := s.mgmt fn
  (s.onMgmt fn fun m => { m with await := some (if step = 2 then 3 else step) }).ask
    { who := .mgmt fn step, part := fn, asid := m.handAsid, access := if step = 0 then 0 else 1, va := if step = 2 then m.addr + 0x38 else m.addr }

/-- The next descriptor of a function is taken in hand and its translation asked for; while the function is not master-enabled, each that
comes up is dropped with MGMT_FAULT (R29; 14_host_link_endpoint.md R321). One in hand has left the queue, and is not among its 64 nor in
DBL_MGMT_STATUS (DESIGN CHOICE, log entry 140). `fuel` bounds the descriptors. -/
def State.mgmtTake (s : State) (fn : Nat) : Nat → State
  | 0 => s
  | fuel + 1 =>
    let m := s.mgmt fn
    match m.queue with
    | [] => s
    | a :: rest =>
      if m.busy.isSome || m.owes || m.await.isSome then s
      else
        let s1 := s.onMgmt fn fun m => { m with queue := rest, addr := a, handAsid := m.asid }
        if s.masterEnabled fn then s1.mgmtAsk fn 0 else (s1.flag pgDBL fn 8).mgmtTake fn fuel

/-- A function's queue goes on with its next descriptor (R29). -/
def State.mgmtNext (s : State) (fn : Nat) : State := s.mgmtTake fn (s.mgmt fn).queue.length

/-- A MODIFY's RESULT has been written, or is lost: its channel takes the new CLASS and PRIORITY (R29, R36). -/
def State.mgmtModified (s : State) (fn : Nat) : State :=
  match (s.mgmt fn).modify with
  | none => s
  | some (k, gen, urgent, prio) =>
    let s1 := s.onMgmt fn fun m => { m with modify := none }
    if (s.chan k).gen = gen ∧ (s.chan k).st ≠ .free then s1.setChan k fun c => { c with urgent := urgent, prio := prio } else s1

/-- The descriptor in hand is dropped, or its RESULT is lost: MGMT_FAULT (R29). -/
def State.mgmtLost (s : State) (fn : Nat) : State :=
  (((s.mgmtModified fn).onMgmt fn fun m => { m with busy := none, owes := false, await := none }).flag pgDBL fn 8).mgmtNext fn

/-- The RESULT of the descriptor in hand is written, or lost while the function is not master-enabled (R29;
14_host_link_endpoint.md R321). -/
def State.mgmtResult (s : State) (fn : Nat) (event : Bool) (w : Word) : State :=
  if s.masterEnabled fn then
    (s.onMgmt fn fun m => { m with busy := some event, owes := false, word := w }).mgmtAsk fn 2
  else s.mgmtLost fn

/-- The operation a channel owes a RESULT for has ended. -/
def State.payOwed (s : State) (slot : Nat) (ok : Bool) (status : Code) : State :=
  match (s.chan slot).owed with
  | none => s
  | some o =>
    (s.onChan slot fun c => { c with owed := none }).mgmtResult o.fn o.event
      (resultWord ok (if ok then 0 else 1) status (if ok then o.handle else 0))

/-! ## The end of a channel's work -/

/-- All dispatched work of a channel ends as STOP ends it, and nothing fetched is kept (R40, R41). -/
def State.endWork (s : State) (slot : Nat) : State :=
  let s1 := (s.withdrawWaits (Waiter.isChan slot)).endCmds slot fun _ => true
  let s2 := s1.onSyn fun y => { y with acts := y.acts.filter fun a => match a.from_ with | .chan k _ => k ≠ slot | _ => true }
  (s2.onChan slot fun c => { c.dropFetch with cmds := c.cmds.filter (·.st ≠ .waiting) }).withdraw (Who.isRing slot)

/-- A doorbell accepted earlier in this hub cycle is judged against the state after the transition: discarded, with DB_DEAD (R42, R47). -/
def State.deadDoorbell (s : State) (slot : Nat) : State :=
  let c := s.chan slot
  match c.rang with
  | some (t, ta) => if t = s.glb.time then (s.setChan slot fun c => { c with ta := ta, rang := none }).dblFlag c.part 4 slot else s
  | none => s

/-- A channel is killed with a code (R39, R40); KILL gives 0x00. `seq` and `inl` name the command for DB_FAULT. -/
def State.killChannel (s : State) (slot : Nat) (code : Code) (seq : BitVec 16) (inl : Bool) : State :=
  let c := s.chan slot
  if c.live then
    let s0 := if c.st = .error ∧ c.moved = some s.glb.time then s.captureOnly pgDBL c.part c.code slot else s
    let s1 := s0.endWork slot
    let s2 := s1.setChan slot fun c => { (c.movedAt s.glb.time) with
      st := .killed, code := code, stopped := false, faultSeq := if code = 0 then c.faultSeq else seq
      faultInline := if code = 0 then c.faultInline else inl, resumeHeld := false }
    ((s2.abandonOwned slot).disownEntries slot).deadDoorbell slot
  else if c.st = .retiring ∧ c.moved = some s.glb.time ∧ code ≠ 0 then s.captureOnly pgDBL c.part code slot
  else s

/-- RESET of a channel (R41); DB_FAULT is cleared with the status word (log entry 110). In the hub cycle of a move to HALTED or ERROR,
RESET loses (R42; log entry 103); a doorbell of that cycle is judged against the state after it. -/
def State.resetChannel (s : State) (slot : Nat) : State :=
  let c := s.chan slot
  if (c.st = .halted ∨ c.st = .error) ∧ c.moved = some s.glb.time then s
  else
    let s1 := (s.endWork slot).setChan slot fun c => { (c.movedAt s.glb.time) with
      st := .parked, code := 0, stopped := false, faultSeq := 0, faultInline := false, resumeHeld := false, rang := none,
      ta := BitVec.ofNat 17 (c.f.toNat % (2 * c.size)) }
    let s2 := (s1.abandonOwned slot).disownEntries slot
    match c.rang with
    | some (t, ta) => if t = s.glb.time ∧ ta ≠ c.ta then (s2.tailWrite slot c.ta.toNat).2 else s2
    | none => s2

/-- A channel enters RETIRING (R37): fetching stops, what is not dispatched is discarded, waits are withdrawn, objects abandoned. A move to
ERROR or KILLED of the same hub cycle leaves only its code, in an empty STICKY_FIRST (R42). Stalled requests of the ring are withdrawn at once,
those of segments that R37 lets run when the retire ends (R96; DESIGN CHOICE, log entry 140). -/
def State.retireChannel (s : State) (slot : Nat) : State :=
  let c := s.chan slot
  if c.live ∨ c.st = .killed then
    let gone (x : Cmd) : Bool := x.st = .waiting || (x.st = .dispatched && x.op = 0x0A)
    let lost : Bool := (c.st = .error || c.st = .killed) && c.moved = some s.glb.time
    let code := c.codeAt s.glb.time
    let s0 := if lost && c.code ≠ 0 then s.captureOnly pgDBL c.part c.code slot else s
    let s1 := (s0.withdrawWaits (Waiter.isChan slot)).withdraw (Who.isRing slot)
    let s2 := s1.setChan slot fun c => { (c.dropFetch.movedAt s.glb.time) with
      st := .retiring, cmds := c.cmds.filter (fun x => !gone x), resumeHeld := false, code := code }
    ((s2.abandonOwned slot).disownEntries slot).deadDoorbell slot
  else s

/-- A slot becomes FREE: its generation and command numbering are kept, its credits and context dropped, and an owed RESULT written
(R6, R37). -/
def State.freeChannel (s : State) (slot : Nat) : State :=
  let s1 := s.endWork slot
  let o := (s1.chan slot).owed
  let s2 := s1.setChan slot fun c => { gen := c.gen, nextNum := c.nextNum, owed := o, fetchNo := c.fetchNo + 1 }
  let s3 := s2.onMov fun v => { v with chanCredit := v.chanCredit.filter fun e => e.1 / 23 ≠ slot || s2.macroLost 0x10 (chanCreditKey e.1) }
  s3.payOwed slot true 0

/-- A RETIRING channel with nothing in flight is freed (R37). -/
def State.retireDrained (s : State) (slot : Nat) : State :=
  let c := s.chan slot
  if c.st = .retiring ∧ c.inflight = 0 then s.freeChannel slot else s

/-- DBL_RETIRE_LIMIT expires on a RETIRING channel (R37). -/
def State.retireExpired (s : State) (slot : Nat) : State := if (s.chan slot).st = .retiring then s.freeChannel slot else s

/-- The channels of a partition, by slot. -/
def State.channelsOf (s : State) (p : Nat) : List Nat := (s.dbl.chan.filter fun e => e.2.st ≠ .free && e.2.part = p).map (·.1)

/-- Non-FREE slots of a partition (R51). -/
def State.chanCount (s : State) (p : Nat) : Nat := (s.channelsOf p).length

end Sys2Proof.Machine
end

