-- ==== Sys2Proof/Machine/Skink.lean ====
section
/-! DEFINITION. Skink's counters, frames and the evaluation of a region (05_invalidation_and_placement.md R114 to R116). -/

namespace Sys2Proof.Machine

/-- A SKK sticky bit of a partition's view. -/
def State.skkFlag (s : State) (p b : Nat) : State := s.flag pgSKK p b

/-- Stack that holds a device frame, given by its address bits [47:16] (R116). -/
def frameStack (f : Nat) : Nat := (f <<< 16 >>> Config.stackLsb) % 2 ^ Config.stackBits

/-- Device address of a frame. -/
def frameAddr (f : Nat) : Word := place f 16

/-- A frame is pending or placed. -/
def State.frameUsed (s : State) (f : Nat) : Bool := s.skk.pending.any (·.frame = f) || s.skk.placed.any (·.frame = f)

/-- A frame lies in a channel that is mapped out or is to be (R117). -/
def State.frameLeaves (s : State) (f : Nat) : Bool :=
  let c (x : Nat × Nat) : Bool := x.1 = frameStack f && x.2 = (Config.frameChan f).val
  s.skk.mapped.any c || s.skk.mapEarly.any c || s.skk.mapReq.any c

/-- A device address lies in a region placed in a channel that was removed before its map-out was acknowledged: what is read there is poisoned
(15_block_ports.md R343). -/
def State.readsRemoved (s : State) (a : Word) : Bool :=
  let f := a.toNat / 65536
  s.skk.placed.any (·.frame = f) && s.skk.mapEarly.any fun x => x.1 = frameStack f && x.2 = (Config.frameChan f).val

/-- A frame is no pool's: its channel leaves (R117), it lies in the hub store (18_stored_data_protection.md R375), or its saved state is
lost (18 R382). -/
def State.frameOut (s : State) (f : Nat) : Bool :=
  s.frameLeaves f || field s.ras.hsBase 47 29 = f / 8192 || s.skk.lostFrames.any (·.2 = f)

/-- The lowest free frame from `f` whose stack is not under thermal notice, and whether a notice made one be passed over (R116). -/
def State.seekFrame (s : State) (f : Nat) (passed : Bool) : Nat → Option Nat × Bool
  | 0 => (none, passed)
  | fuel + 1 =>
    if s.frameUsed f || s.frameOut f then s.seekFrame (f + 1) passed fuel
    else if bit s.skk.thermal (frameStack f) then s.seekFrame (f + 1) true fuel
    else (some f, passed)

/-- The frame Skink would take for a partition (R116). -/
def State.freeFrame (s : State) (p : Nat) : Option Nat × Bool :=
  let k := s.skkPart p
  if bit k.poolBase 0 && !k.poolBad then
    let lo := field k.poolBase 63 16
    s.seekFrame lo false (field k.poolLimit 63 16 + 1 - lo)
  else (none, false)

/-- A crossing that is not placed (R115). -/
def State.skipRegion (s : State) (p asid : Nat) (va : Word) (v : Nat) : State :=
  (s.setCounter asid va (BitVec.ofNat 16 v)).onSkkPart p fun k => { k with skipped := satInc k.skipped }

/-- The base of a 64 KiB region. -/
def regionOf (va : Word) : Word := va &&& 0xFFFFFFFFFFFF0000

/-- Skink evaluates a region (R115): all checks pass and its 16 leaf entries are looked for (log entry 107), or it is skipped. -/
def State.evaluate (s : State) (p asid : Nat) (va : Word) (hinted : Bool := false) : State :=
  let r := regionOf va
  let k := s.skkPart p
  let half := s.thresh p / 2
  let busy := s.skk.pending.any (fun e => e.asid = asid && e.va = r) || s.skk.placed.any (fun e => e.asid = asid && e.va = r)
  let room := decide (s.skk.pending.length < Config.pendingMax) &&
    decide ((s.skk.pending.filter (·.part = p)).length < k.pendMax.toNat)
  if busy || !room then s.skipRegion p asid r half
  else
    let (f, passed) := s.freeFrame p
    let s1 := if passed then s.skkFlag p 8 else s
    match f with
    | none => s1.skipRegion p asid r half
    | some f =>
      if !bit (s.queue true p).base 0 || decide (Config.placedMax ≤ s.skk.placed.length) then s1.skipRegion p asid r half
      else
        let t : BitVec 16 := if s.skk.ticket = 0xFFFF then 1 else s.skk.ticket + 1
        let e : Pending := { ticket := t.toNat, part := p, asid := asid, va := r, frame := f, hinted := hinted }
        (s1.onSkk fun k => { k with ticket := t, pending := k.pending ++ [e] }).ask
          { who := .skink t.toNat, part := p, asid := asid, access := 0, va := r }

/-- The pending placement of a ticket. -/
def State.pend? (s : State) (ticket : Nat) : Option Pending := s.skk.pending.find? (·.ticket = ticket)

/-- A pending placement changed. -/
def State.onPend (s : State) (ticket : Nat) (f : Pending → Pending) : State :=
  s.onSkk fun k => { k with pending := k.pending.map fun e => if e.ticket = ticket then f e else e }

/-- A pending placement ends: its frame is free. -/
def State.dropPend (s : State) (ticket : Nat) : State :=
  s.onSkk fun k => { k with pending := k.pending.filter (·.ticket ≠ ticket) }

/-- A hinted region is dropped or skipped (R124; 03_command_set.md R70). -/
def State.hintLost (s : State) (p : Nat) : State := s.onSkkPart p fun k => { k with hintDropped := satInc k.hintDropped }

/-- The region that a COOL hint looks at. -/
def State.look? (s : State) (id : Nat) : Option Look := s.skk.looks.find? (·.id = id)

/-- A COOL hint's look at a region ends: its counter is reset, or the region is skipped (03_command_set.md R70). -/
def State.lookEnds (s : State) (l : Look) (ok : Bool) : State :=
  let s1 := s.onSkk fun k => { k with looks := k.looks.filter (·.id ≠ l.id) }
  if ok then s1.setCounter l.asid l.va 0 else s1.hintLost l.part

/-- An evaluated region has an entry that may not be placed, or none that can be read: it is skipped (R115; 03_command_set.md R70). -/
def State.evalFailed (s : State) (ticket : Nat) : State :=
  match s.pend? ticket, s.look? ticket with
  | some e, _ =>
    let s1 := (s.dropPend ticket).skipRegion e.part e.asid e.va 0
    if e.hinted then s1.hintLost e.part else s1
  | none, some l => s.lookEnds l false
  | none, none => s

/-- Skink's search meets a leaf above the last level: a placement needs pages of 4 KiB or 64 KiB (R115); a COOL hint's region is cooled where
the leaf is marked migratable (03_command_set.md R70). -/
def State.skinkLeaf (s : State) (ticket : Nat) (migratable : Bool) : State :=
  match s.pend? ticket, s.look? ticket with
  | none, some l => s.lookEnds l migratable
  | _, _ => s.evalFailed ticket

/-- The two lines of a region's 16 leaf entries are read (R115), for a partition. -/
def State.readEntries (s : State) (p : Nat) (u : Nat → UnitFor) (a : Word) : State :=
  (s.forPart p (u 0) fun t => t.unitRead (u 0) p a).forPart p (u 1) fun t => t.unitRead (u 1) p (a + 64)

/-- The region's leaf entries have been found: their two lines are read (R115). -/
def State.skinkFound (s : State) (ticket : Nat) (a : Word) : State :=
  match s.pend? ticket, s.look? ticket with
  | some e, _ =>
    if e.st = .reading then (s.onPend ticket fun e => { e with entryAddr := a, lines := [] }).readEntries e.part (.placeRead ticket) a else s
  | none, some l => s.readEntries l.part (.placeRead ticket) a
  | none, none => s

/-- A use of a page counts (R114). -/
def Page.countable (g : Page) : Bool := g.migratable && !g.device && decide (g.size ≤ 16)

/-- `n` uses of a page's region reach its counter; a crossing of THRESH has the region evaluated (R114, R115). -/
def State.skkAdd (s : State) (p : Nat) (g : Page) (va : Word) (n : Nat) : State :=
  if g.countable && (s.skkPart p).en && n ≠ 0 then
    let old : BitVec 16 := tabGet (fun _ => 0) s.skk.count (s.skkIndex g.asid va)
    let s1 := s.setCounter g.asid va (satAdd old n)
    if old.toNat < s.thresh p ∧ s.thresh p ≤ (satAdd old n).toNat then s1.evaluate p g.asid va else s1
  else s

/-- A write or atomic access is translated through a device page: its placement is marked written (R121). -/
def State.markWritten (s : State) (g : Page) : State :=
  let mark (e : Placed) : Placed := if frameAddr e.frame = (g.addr &&& 0xFFFFFFFFFFFF0000) then { e with written := true } else e
  if g.device then s.onSkk fun k => { k with placed := k.placed.map mark } else s

end Sys2Proof.Machine
end

