-- ==== Sys2Proof/Machine/Xlt.lean ====
section
/-! DEFINITION. Translation: profiles and entries, the Efts, the L2T, the walk cache, walkers, locked entries, and translation faults
(04_translation.md R80 to R100). -/

namespace Sys2Proof.Machine

/-! ## Reading an entry (R82 to R87) -/

/-- A position slot of a profile register: EN, POL and POS. -/
def profSlot (w : Word) (k : Nat) : Nat := field w (8 * k + 7) (8 * k)
/-- A slot exists in the format. -/
def slotEn (x : Nat) : Bool := x / 128 % 2 = 1
/-- A slot's meaning holds in an entry. -/
def slotHolds (x : Nat) (e : Word) : Bool := slotEn x && (bit e (x % 64) != (x / 64 % 2 = 1))

/-- LEVELS of a profile. -/
def Profile.levels (p : Profile) : Nat := field p.fmt 2 0
/-- LEAF_MODE. -/
def Profile.leafMode (p : Profile) : Nat := field p.fmt 5 4
/-- AD_MODE 1: the hub sets ACCESSED and DIRTY. -/
def Profile.setsAd (p : Profile) : Bool := field p.fmt 9 8 = 1
/-- CONTIG_MODE 0: NAPOT. -/
def Profile.napot (p : Profile) : Bool := field p.fmt 11 10 = 0
/-- FRAME_LO. -/
def Profile.frameLo (p : Profile) : Nat := field p.fmt 21 16
/-- FRAME_HI. -/
def Profile.frameHi (p : Profile) : Nat := field p.fmt 29 24

/-- A profile may be bound (R82, R83). -/
def Profile.valid (p : Profile) : Bool :=
  bit p.fmt 40 && decide (p.frameLo ≤ p.frameHi) && decide (field p.fmt 11 10 < 2) && decide (field p.fmt 9 8 < 2)
    && decide (p.leafMode < 3) && decide (3 ≤ p.levels) && decide (p.levels ≤ 5) && slotEn (profSlot p.bitsA 0)
    && (slotEn (profSlot p.bitsA 7) || p.leafMode = 0)

/-- HOST_VALID holds. -/
def Profile.hostValid (p : Profile) (e : Word) : Bool := slotHolds (profSlot p.bitsA 0) e
/-- READ holds. -/
def Profile.read (p : Profile) (e : Word) : Bool := slotHolds (profSlot p.bitsA 1) e
/-- WRITE holds. -/
def Profile.write (p : Profile) (e : Word) : Bool := slotHolds (profSlot p.bitsA 2) e
/-- ACCESSED must still be set. -/
def Profile.needsA (p : Profile) (e : Word) : Bool :=
  p.setsAd && slotEn (profSlot p.bitsA 5) && !slotHolds (profSlot p.bitsA 5) e
/-- DIRTY must still be set for a write. -/
def Profile.needsD (p : Profile) (e : Word) : Bool :=
  p.setsAd && slotEn (profSlot p.bitsA 6) && !slotHolds (profSlot p.bitsA 6) e
/-- DEVICE_VALID holds. -/
def Profile.devValid (p : Profile) (e : Word) : Bool := slotHolds (profSlot p.bitsB 2) e
/-- LOCK holds. -/
def Profile.locked (p : Profile) (e : Word) : Bool := slotHolds (profSlot p.bitsB 3) e
/-- CONTIG holds. -/
def Profile.contig (p : Profile) (e : Word) : Bool := slotHolds (profSlot p.bitsB 4) e
/-- The frame field. -/
def Profile.frame (p : Profile) (e : Word) : Nat := field e p.frameHi p.frameLo

/-- An entry is a leaf (R82). -/
def Profile.leaf (p : Profile) (e : Word) : Bool :=
  match p.leafMode with
  | 0 => p.read e || p.write e || slotHolds (profSlot p.bitsA 3) e
  | 1 => slotHolds (profSlot p.bitsA 7) e
  | _ => !slotHolds (profSlot p.bitsA 7) e

/-- The entry with a slot's meaning made to hold, or not to hold. -/
def setSlot (x : Nat) (e : Word) (on : Bool) : Word :=
  if slotEn x then
    let one := on != (x / 64 % 2 = 1)
    if one then e ||| place 1 (x % 64) else e &&& ~~~(place 1 (x % 64))
  else e

/-- Virtual-address bits of a profile (R99). -/
def Profile.vaBits (p : Profile) : Nat := 12 + 9 * p.levels

/-- A virtual address is canonical (R99). -/
def canonical (bits : Nat) (va : Word) : Bool := field va 63 (bits - 1) = 0 || field va 63 (bits - 1) = 2 ^ (65 - bits) - 1

/-- leaf_check (R85): the page, or none for 0x28. An address is taken modulo 2^64 where the frame field is wider than 52 bits, which R82 does
not say (DESIGN CHOICE, log entry 132). -/
def Profile.leafCheck (p : Profile) (b : Binding) (va e : Word) (level : Nat) (device : Bool) : Option Page :=
  let f := p.frame e
  let contig := p.contig e
  let readEn := slotEn (profSlot p.bitsA 1)
  if 3 < level ∨ (readEn && p.write e && !p.read e) ∨ (contig && (level ≠ 0 || (p.napot && f % 16 ≠ 8)))
      ∨ (!contig && f % 2 ^ (9 * level) ≠ 0) then none
  else
    let size := if contig then 16 else levelSize level
    let base := if contig then f / 16 * 16 else f
    let user := b.sup || !slotEn (profSlot p.bitsA 4) || slotHolds (profSlot p.bitsA 4) e
    let w := user && p.write e
    some { asid := b.asid, va := BitVec.ofNat 64 (va.toNat / 2 ^ size * 2 ^ size), size := size, device := device
           addr := BitVec.ofNat 64 (base * 4096), r := user && (!readEn || p.read e), w := w
           at_ := w && (!slotEn (profSlot p.bitsB 0) || slotHolds (profSlot p.bitsB 0) e), dirty := !p.needsD e
           migratable := !device && slotHolds (profSlot p.bitsB 1) e, epoch := b.epoch }

/-- What an entry means (R84). -/
inductive Judged where
  | bad (code : Code)
  | table (addr : Word)
  | leaf (g : Page)
  | stall
deriving DecidableEq, Repr

/-- The judgement of an entry read at a level (R84). -/
def Profile.judge (p : Profile) (b : Binding) (va e : Word) (level : Nat) : Judged :=
  let check (device : Bool) : Judged := match p.leafCheck b va e level device with | some g => .leaf g | none => .bad 0x28
  if p.hostValid e then
    if e &&& p.rsv ≠ 0 then .bad 0x28
    else if !p.leaf e then (if level = 0 then .bad 0x28 else .table (BitVec.ofNat 64 (p.frame e * 4096)))
    else check false
  else if p.locked e then .stall
  else if p.devValid e then (if p.leaf e then check true else .bad 0x28)
  else .bad 0x21

/-- The right an access lacks, 0 when none (R87). -/
def Page.lacks (g : Page) (access : BitVec 2) : Code :=
  match access with
  | 0 => if g.r then 0 else 0x24
  | 1 => if g.w then 0 else 0x22
  | _ => if !g.r then 0x24 else if !g.w then 0x22 else if !g.at_ then 0x23 else 0

/-- A cached page serves an access: it has the right, and DIRTY for a write (R92). -/
def Page.serves (g : Page) (access : BitVec 2) : Bool := g.lacks access = 0 && (access = 0 || g.dirty)

/-- A page covers an address of an ASID. -/
def Page.covers (g : Page) (asid : Nat) (va : Word) : Bool :=
  g.asid = asid && va.toNat / 2 ^ g.size * 2 ^ g.size = g.va.toNat

/-- The address a page gives a virtual address. -/
def Page.at (g : Page) (va : Word) : Word := g.addr + BitVec.ofNat 64 (va.toNat % 2 ^ g.size)

/-- The 2 MiB fragment of a larger page that holds an address (R91). -/
def Page.fragment (g : Page) (va : Word) : Page :=
  if g.size ≤ 21 then g
  else
    let off := va.toNat % 2 ^ g.size / 2 ^ 21 * 2 ^ 21
    { g with va := g.va + BitVec.ofNat 64 off, addr := g.addr + BitVec.ofNat 64 off, size := 21, whole := g.size }

/-! ## The Efts (R89) -/

/-- Index of an Eft entry. -/
def eftKey (m e : Nat) : Nat := m * 128 + e

/-- An Eft entry. -/
def State.eftEntry (s : State) (m e : Nat) : EftEntry := tabGet (fun _ => {}) s.xlt.eft (eftKey m e)

/-- The state with an Eft entry set. -/
def State.setEft (s : State) (m e : Nat) (x : EftEntry) : State :=
  s.onXlt fun t => { t with eft := tabPut (fun _ => {}) t.eft (eftKey m e) x }

/-- The Eft entry that covers an address. -/
def State.eftFind (s : State) (m asid : Nat) (va : Word) : Option (Nat × Page) :=
  (s.xlt.eft.find? fun p => decide (p.1 / 128 = m) && (match p.2.page with | some g => g.covers asid va | none => false)).bind
    fun p => p.2.page.map fun g => (p.1 % 128, g)

/-- An Eft entry is used: its reference bit is set; when all 128 are, the others clear (R89). -/
def State.eftUse (s : State) (m e : Nat) : State :=
  let s1 := s.setEft m e { s.eftEntry m e with ref := true }
  if (List.range 128).all fun k => (s1.eftEntry m k).ref then
    (List.range 128).foldl (fun t k => if k = e then t else t.setEft m k { t.eftEntry m k with ref := false }) s1
  else s1

/-- The partition that bound an ASID. -/
def State.asidPart (s : State) (asid : Nat) : Nat := match s.binding? asid with | some b => b.part | none => 0

/-- The tally of an Eft entry is added to its region's counter (R114). -/
def State.flushTally (s : State) (m e : Nat) : State :=
  let x := s.eftEntry m e
  match x.page with
  | none => s
  | some g => (s.setEft m e { x with tally := 0 }).skkAdd (s.asidPart g.asid) g g.va x.tally.toNat

/-- An Eft hit: the reference bit, and one use in the tally (R114). -/
def State.eftHit (s : State) (m e : Nat) : State :=
  let s1 := s.eftUse m e
  let x := s1.eftEntry m e
  match x.page with
  | none => s1
  | some g =>
    if g.countable && (s.skkPart (s.asidPart g.asid)).en then
      let s2 := s1.setEft m e { x with tally := x.tally + 1 }
      if x.tally = 254 then s2.flushTally m e else s2
    else s1

/-- An Eft entry becomes invalid, its tally added (R114). -/
def State.eftDrop (s : State) (m e : Nat) : State := (s.flushTally m e).setEft m e {}

/-- A page is installed in a mover's Eft (R89). -/
def State.eftInstall (s : State) (m : Nat) (g : Page) : State :=
  let old := (List.range 128).find? fun e => match (s.eftEntry m e).page with | some x => x.asid = g.asid && x.va = g.va && x.size = g.size | none => false
  let free := (List.range 128).find? fun e => (s.eftEntry m e).page.isNone
  let clear := (List.range 128).find? fun e => !(s.eftEntry m e).ref
  let e := (old.or (free.or clear)).getD 0
  ((s.eftDrop m e).setEft m e { page := some g }).eftUse m e

/-! ## The L2T (R90) -/

/-- Bank of an address. -/
def l2tBankOf (asid : Nat) (va : Word) : Nat := Config.l2tBank asid (field va 63 21) % 8

/-- The set that a page of a size has: bank * 4096 + set. -/
def l2tSetOf (size asid : Nat) (va : Word) : Nat := l2tBankOf asid va * 4096 + Config.l2tSet size asid (field va 63 size) % 4096

/-- A way of a set. -/
def State.l2tWay (s : State) (set w : Nat) : Option Page := tabGet (fun _ => none) s.xlt.l2t (set * 16 + w)

/-- The bits of a set after the use of a way: its path points away from it. -/
def plruTouch (bits : BitVec 15) (way : Nat) : BitVec 15 :=
  let go (x : BitVec 15 × Nat) (d : Nat) : BitVec 15 × Nat :=
    let right := way >>> (3 - d) % 2 = 1
    let m : BitVec 15 := BitVec.ofNat 15 (2 ^ x.2)
    (if right then x.1 &&& ~~~m else x.1 ||| m, 2 * x.2 + 1 + (if right then 1 else 0))
  ((List.range 4).foldl go (bits, 0)).1

/-- The victim of a set among the permitted ways: the bits from the root, the other subtree where none is permitted. -/
def plruVictim (bits : BitVec 15) (ok : Nat → Bool) : Nat :=
  let any (d prefix_ : Nat) : Bool := (List.range 16).any fun w => ok w && w >>> (3 - d) = prefix_
  let go (x : Nat × Nat) (d : Nat) : Nat × Nat :=
    let want := if bit bits x.2 then 1 else 0
    let b := if any d (2 * x.1 + want) then want else 1 - want
    (2 * x.1 + b, 2 * x.2 + 1 + b)
  ((List.range 4).foldl go (0, 0)).1

/-- A way of a set is used. -/
def State.plruUse (s : State) (set w : Nat) : State :=
  s.onXlt fun t => { t with plru := tabMod (fun _ => 0) t.plru set (fun b => plruTouch b w) }

/-- The ways a partition may allocate (R290). -/
def State.mayAllocate (s : State) (p w : Nat) : Bool := decide ((w + 16 - (s.part p).wayBase) % 16 < (s.part p).qWays)

/-- The hit of a lookup: the smallest page (R90). -/
def State.l2tFind (s : State) (asid : Nat) (va : Word) : Option (Nat × Nat × Page) :=
  [12, 16, 21].findSome? fun size =>
    let set := l2tSetOf size asid va
    (List.range 16).findSome? fun w => match s.l2tWay set w with
      | some g => if g.covers asid va && g.size = size then some (set, w, g) else none
      | none => none

/-- A page is installed in the L2T for a partition (R90). -/
def State.l2tInstall (s : State) (p : Nat) (g : Page) (va : Word) : State :=
  let g := g.fragment va
  let set := l2tSetOf g.size g.asid va
  let here := (List.range 16).find? fun w => match s.l2tWay set w with | some x => x.asid = g.asid && x.va = g.va | none => false
  let ways := (List.range 16).filter fun w => s.mayAllocate p w && !s.wayLost 4 (set / 4096) w
  if here.isNone && ways.isEmpty then s
  else
    let free := ways.find? fun w => (s.l2tWay set w).isNone
    let bits : BitVec 15 := tabGet (fun _ => 0) s.xlt.plru set
    let w := (here.or free).getD (plruVictim bits fun w => ways.contains w)
    (s.onXlt fun t => { t with l2t := tabPut (fun _ => none) t.l2t (set * 16 + w) (some g) }).plruUse set w

/-! ## The walk cache (R91) -/

/-- The prefix of an address that an entry of a level covers. -/
def walkPrefix (level : Nat) (va : Word) : Nat := field va 63 (levelSize level)

/-- An entry enters the walk cache; the least recently used of a full set leaves. -/
def State.walkInstall (s : State) (e : WalkEntry) : State :=
  let where_ (x : WalkEntry) : Nat × Nat := (Config.walkBank x.asid % 2, Config.walkSet x.asid x.level x.prefix_ % 1024)
  let same (x : WalkEntry) : Bool := x.asid = e.asid && x.level = e.level && x.prefix_ = e.prefix_
  let rest := s.xlt.walkc.filter fun x => !same x
  let set := rest.filter fun x => where_ x = where_ e
  let kept := match set with
    | [] => rest
    | x :: xs =>
      if set.length < s.waysLeft 5 (where_ e).1 8 then rest
      else
        let v := xs.foldl (fun (b y : WalkEntry) => if y.used < b.used then y else b) x
        rest.filter fun y => !(y.asid = v.asid && y.level = v.level && y.prefix_ = v.prefix_)
  s.onXlt fun t => { t with walkc := kept ++ [{ e with used := t.walkClock + 1 }], walkClock := t.walkClock + 1 }

/-- The deepest cached level that covers an address and that `ok` admits. -/
def State.walkFind (s : State) (asid : Nat) (va : Word) (ok : WalkEntry → Bool) : Option WalkEntry :=
  (s.xlt.walkc.filter fun x => x.asid = asid && x.prefix_ = walkPrefix x.level va && ok x).foldl
    (fun b x => match b with | none => some x | some y => if x.level < y.level then some x else b) none

/-- A walk-cache entry is used. -/
def State.walkUse (s : State) (e : WalkEntry) : State :=
  s.onXlt fun t => { t with
    walkClock := t.walkClock + 1
    walkc := t.walkc.map fun x => if x.asid = e.asid ∧ x.level = e.level ∧ x.prefix_ = e.prefix_ then { x with used := t.walkClock + 1 } else x }

/-! ## Outcomes -/

/-- The work of a mover context fails (06_movers.md R142): the command's other segments end and its channel halts in ERROR, or is killed by a
code of the translation range (00_scope.md R9); a plan entry is disarmed. -/
def State.failWork (s : State) (w : Work) (code : Code) : State :=
  match w with
  | .chan k n =>
    match s.cmdOf k n with
    | none => s
    | some c =>
      if kills code && (s.chan k).live then s.killChannel k code c.faultSeq c.inl
      else ((s.endCmds k fun x => x.num = n).haltError k code c.faultSeq c.inl).afterInflight k
  | .plan i => ((s.stopRun i).onEntry i fun e => { e with code := code }).disarm i

/-- A request is still wanted by its requester. -/
def State.wanted (s : State) (x : XReq) : Bool :=
  match x.who with
  | .ring k pos => (s.chan k).want.contains pos && s.served k
  | .mover m u => (s.job m u).wants.contains x.va
  | .client .. => true
  | .resolve i _ no => (s.entry i).held && (s.entry i).resNo = no
  | .inbound src psn k => (s.rxFlow src).pkts.any fun p => p.psn = psn && !p.killed && p.held.any (·.k = k)
  | .mgmt fn step => (s.mgmt fn).await = some (if step = 2 then 3 else step)
  | .skink t => s.skk.pending.any (fun e => e.ticket = t && e.st = .reading) || (s.look? t).isSome

/-- The channel of a request no longer wanted, if a translation fault has killed it and its work is not yet quiesced: the request's own
fault is counted (R100; log entry 112). -/
def State.killing (s : State) (x : XReq) : Option Nat :=
  let slot : Option Nat := match x.who with
    | .ring k _ => some k
    | .mover m u => (match (s.job m u).work with | some (.chan k _) => some k | _ => none)
    | _ => none
  slot.filter fun k => (s.chan k).faulted && (s.chan k).st = .killed && decide (0 < (s.chan k).inflight)

/-- A translation fault is not recorded but counted (R100). -/
def State.suppress (s : State) (p : Nat) : State := s.onXlt fun t => { t with suppressed := tabMod (fun _ => 0) t.suppressed p satInc }

/-- A TYPE 0x1 record of a failed translation (R101). -/
def State.xltRecord (s : State) (x : XReq) (f : XFault) (source engine : Nat) (req : BitVec 32) (seq : Word) : State :=
  let access := if f.tableRead then 3 else x.access.toNat
  s.fault 1 f.code x.part source engine req
    [x.va, place x.asid 0 ||| place access 20 ||| place f.level 24 ||| seq, f.entry, f.entryAddr, f.detail, 0]

/-- A translation fault kills the channel (R100): one record for the first, the rest are counted. -/
def State.xltKill (s : State) (x : XReq) (f : XFault) (slot : Nat) (seq : BitVec 16) (inl : Bool) (op : Nat) : State :=
  let c := s.chan slot
  if c.faulted ∨ !c.live then s.suppress c.part
  else
    ((s.xltRecord x f 0 c.owner.num (s.handleOf slot) (seqWord seq inl op)).onChan slot
      fun c => { c with faulted := true }).killChannel slot f.code seq inl

/-- A translation fails with a code of the translation range (R97 to R100). -/
def State.xltFail (s : State) (x : XReq) (f : XFault) : State :=
  if !s.wanted x then (match s.killing x with | some k => s.suppress (s.chan k).part | none => s)
  else match x.who with
    | .ring k pos =>
      s.slotArrived k pos 0 f.code (some f)
    | .mover m u =>
      match (s.job m u).work with
      | some (.chan k n) =>
        let c := (s.cmdOf k n).getD { num := n, op := 0, slots := [] }
        let s1 := s.xltKill x f k c.faultSeq c.inl c.op
        if (s.chan k).st = .retiring then s1.endCmds k fun y => y.num = n else s1
      | some (.plan i) =>
        let e := s.entry i
        (s.xltRecord x f 2 ((s.chanter e).getD .A).num (s.entryHandle i) 0).failWork (.plan i) f.code
      | none => s
    | .client c tag =>
      (s.xltRecord x f 1 f.engine (BitVec.ofNat 32 c) 0).send (.p4 (.xltAns c tag f.code false 0 0 0))
    | .resolve .. => s
    | .inbound src psn _ =>
      let w := match (s.rxFlow src).pkts.find? (·.psn = psn) with | some p => p.h.window.toNat | none => 0
      (s.xltRecord x f 3 0 (BitVec.ofNat 32 (src <<< 16 + w)) 0).onXlt
        fun t => { t with inbound := t.inbound ++ [(x, f.code, none)] }
    | .mgmt fn _ => s.mgmtLost fn
    | .skink t => s.evalFailed t

/-- A translation cannot be made because the hub may issue no request: its holder fails with that code (R321, R306). -/
def State.xltBlocked (s : State) (x : XReq) (code : Code) : State :=
  if !s.wanted x then s
  else match x.who with
    | .ring k pos => s.slotArrived k pos 0 code
    | .mover m u => match (s.job m u).work with | some w => s.failWork w code | none => s
    | .client c tag => s.send (.p4 (.xltAns c tag code false 0 0 0))
    | .resolve .. => s
    | .inbound .. => s.onXlt fun t => { t with inbound := t.inbound ++ [(x, code, none)] }
    | .mgmt fn _ => s.mgmtLost fn
    | .skink t => s.evalFailed t

/-- SIZE of an XLT_ANS (15_block_ports.md R338). -/
def ansSize (size : Nat) : Nat := if size = 12 then 0 else if size = 16 then 1 else 2

/-- A side of a descriptor has its translation (R228): its address is recorded when the range lies within one page, with the ASID's epoch;
where an invalidation has passed that epoch since the resolution began, it begins again. -/
def State.resolved (s : State) (i : Nat) (dst : Bool) (g : Page) (va : Word) : State :=
  let o := s.ownerOf (s.entry i)
  let d := dataOp (field (s.entry (i + 1)).body 15 8) (s.descSlots i)
  let n := if dst then d.dstBytes else d.srcBytes
  let body := (s.entry (i + 1)).body
  let pa := g.at va ||| place (if g.device then 0 else 1) 63
  let peer := bit body 17
  if bodyEpoch body ≠ s.epochOf o.asid then s.resolve i
  else if va.toNat % 2 ^ g.size + n > 2 ^ g.size then s
  else if dst then s.onBody i fun b => granPut (bodyMarks b true false) 0x30 pa
  else
    let s1 := s.onBody i fun b => granPut (bodyMarks b peer peer) 0x28 pa
    if peer then s1 else s1.ask (s1.resolveReq i true)

/-- An address lies in the hub store's region (18_stored_data_protection.md R375). -/
def State.inStore (s : State) (a : Word) : Bool :=
  let base := field s.ras.hsBase 47 29
  field a 47 29 = base && field a 63 48 = 0

/-- An access of the management descriptor in hand has its page: the write right is asked for beside the read right, then the descriptor is
read; its RESULT word is written (02_channels_and_doorbells.md R29). A descriptor must lie in host memory (log entry 113). -/
def State.mgmtPage (s : State) (fn step : Nat) (g : Page) (va : Word) : State :=
  if g.device || !s.masterEnabled fn then s.mgmtLost fn
  else match step with
    | 0 => s.mgmtAsk fn 1
    | 1 => (s.onMgmt fn fun m => { m with await := some 2 }).unitRead (.mgmtRead fn) fn (g.at va)
    | _ => (s.onMgmt fn fun m => { m with await := some 4 }).unitWrite (.mgmtResult fn) fn (g.at va) [(s.mgmt fn).word]

/-- A request has its page (R97, R44, R89, R228); one that lands in the hub store is refused with 0x07 (18 R375). -/
def State.xltServe (s : State) (x : XReq) (g : Page) : State :=
  if !s.wanted x then s
  else if g.device && s.inStore (g.at x.va) then s.xltBlocked x 0x07
  else
    let s := if x.access = 0 then s else s.markWritten g
    match x.who with
    | .ring k pos =>
      let p := (s.chan k).part
      if g.device then s.slotArrived k pos 0 0x07
      else if !s.masterEnabled p then s.slotArrived k pos 0 0x42
      else (s.onChan k fun c => { c with want := c.want.erase pos, reads := c.reads ++ [pos] }).unitRead
        (.ringRead (s.chan k).owner k pos (s.chan k).fetchNo) p (g.at x.va)
    | .mover m u => (s.eftInstall m g).onJob m u fun j => { j with wants := j.wants.erase x.va }
    | .client c tag =>
      let f := g.fragment x.va
      let rights : BitVec 3 := BitVec.ofNat 3 (f.r.toNat + 2 * f.w.toNat + 4 * f.at_.toNat)
      (s.skkAdd x.part g x.va 1).send (.p4 (.xltAns c tag 0 f.device (ansSize f.size) rights f.addr))
    | .resolve i dst _ => s.resolved i dst g x.va
    | .inbound .. => s.onXlt fun t => { t with inbound := t.inbound ++ [(x, 0, some g)] }
    | .mgmt fn step => s.mgmtPage fn step g x.va
    | .skink t => s.evalFailed t

/-! ## Walkers (R94 to R96) -/

/-- The engine of a walker. -/
def walkerEngine (w : Nat) : Engine := if w < 32 then .A else .B

/-- The walkers of an engine at work for a partition (R289). -/
def State.walksOf (s : State) (e : Engine) (p : Nat) : Nat :=
  (s.xlt.walk.filter fun x => walkerEngine x.1 = e && (match x.2 with | some w => w.part = p | none => false)).length

/-- The miss queue of an engine. -/
def State.missQ (s : State) : Engine → List XReq
  | .A => s.xlt.missA
  | .B => s.xlt.missB

/-- The state with a miss queue changed. -/
def State.onMissQ (s : State) (e : Engine) (f : List XReq → List XReq) : State :=
  s.onXlt fun x => match e with | .A => { x with missA := f x.missA } | .B => { x with missB := f x.missB }

/-- The walkers of an engine that are free. -/
def State.freeWalkers (s : State) (e : Engine) : List Nat :=
  (List.range 64).filter fun w => walkerEngine w = e && (s.walker w).isNone && !s.ras.walkGone.contains w

/-- A free walker of an engine is left for one more miss of a partition, beside the misses that wait for one (R94, R289). -/
def State.walkerLeft (s : State) (e : Engine) (p : Nat) : Bool :=
  decide ((s.missQ e).length < (s.freeWalkers e).length) &&
    decide (s.walksOf e p + ((s.missQ e).filter (·.part = p)).length < min 32 (s.part p).qWalk)

/-- A free walker of an engine, below the partition's quota (R94, R289); not the one to avoid, while another of the engine is in service
(18_stored_data_protection.md R370). -/
def State.freeWalker (s : State) (e : Engine) (p : Nat) (avoid : Option Nat := none) : Option Nat :=
  let other (w : Nat) : Bool := avoid ≠ some w
  let more := (List.range 64).any fun w => walkerEngine w = e && !s.ras.walkGone.contains w && other w
  if s.walksOf e p < (s.part p).qWalk then
    if more then (s.freeWalkers e).find? other else (s.freeWalkers e).head?
  else none

/-- The engine whose queue takes a miss (R19, R94). -/
def State.missEngine (s : State) (x : XReq) : Engine :=
  let free : Engine :=
    if s.walkerLeft .A x.part then .A
    else if s.walkerLeft .B x.part then .B
    else if s.xlt.missB.length < s.xlt.missA.length then .B else .A
  match x.who with
  | .ring k _ => (s.chan k).owner
  | .mover m _ => if m < 24 then .A else .B
  | .resolve i .. => (s.chanter (s.entry i)).getD .A
  | _ => match s.twn.mode with | .shared => free | .soloA => .A | .soloB => .B

/-- Joiners a walk takes (R94, R104). -/
def State.mergeMax (s : State) : Nat := min 32 (max 1 (field s.xlt.walkCtl 47 40))

/-- A walk in progress that a miss may join, or that it must wait for (R94). -/
def State.walkFor (s : State) (x : XReq) : Option (Nat × Walk) :=
  s.xlt.walk.findSome? fun p => match p.2 with
    | some w => if w.req.asid = x.asid && field w.req.va 63 21 = field x.va 63 21 then some (p.1, w) else none
    | none => none

/-- The joiners of a walk that has ended look up again, after those its page answers (R94). -/
def State.answerJoiners (s : State) (js : List XReq) (gs : List Page) : State :=
  js.foldl (fun t x =>
    match gs.find? fun g => g.covers x.asid x.va && g.serves x.access with
    | some g => t.xltServe x g
    | none => if t.wanted x then t.ask x else t) s

/-- A walk ends with its requester's failure. -/
def State.walkFault (s : State) (w : Nat) (x : Walk) (f : XFault) : State :=
  ((s.setWalker w none).xltFail x.req { f with engine := (walkerEngine w).num }).answerJoiners x.joiners []

/-- A walk ends because no request may be issued for its partition. -/
def State.walkBlocked (s : State) (w : Nat) (x : Walk) (code : Code) : State :=
  ((s.setWalker w none).xltBlocked x.req code).answerJoiners x.joiners []

/-- A walk's range check (R88: kind 0 host, 1 device), against the ranges of its beginning. -/
def Walk.inRange (x : Walk) (kind : Nat) (a : Word) (bytes : Nat) : Bool := ((x.ranges.drop (8 * kind)).take 8).any fun r => r.holds a bytes

/-- A fault of a walk: the record carries the entry last judged (R101). -/
def Walk.fault (x : Walk) (code : Code) (detail : Word) (table : Bool) : XFault :=
  let f : XFault := { code := code, detail := detail, tableRead := table }
  match x.last with
  | some (level, e, a) => { f with level := level, entry := e, entryAddr := a }
  | none => f

/-- The walker reads its entry's line through the home, as a cache-less requester's ReadShared, if the entry lies in the partition's host
ranges (R88, R93). -/
def State.walkRead (s : State) (w : Nat) (x : Walk) : State :=
  let a := x.entryAddr
  if !x.inRange 0 a 8 then s.walkFault w x (x.fault 0x27 a true)
  else if !s.masterEnabled x.req.part then s.walkBlocked w x 0x42
  else
    let n := s.xlt.walkNo + 1
    ((s.onXlt fun t => { t with walkNo := n }).setWalker w (some { x with at_ := .line, no := n })).unitAsk (.walkLine w n) .readShared
      (a &&& 0xFFFFFFFFFFFFFFC0) (part := x.req.part)

/-- The walk ends with its page: it is installed, with the line's other leaves, and the requesters are answered (R95). -/
def State.walkEnds (s : State) (w : Nat) (x : Walk) (g : Page) (more : List (Page × Word)) : State :=
  let p := x.req.part
  let s1 := (s.setWalker w none).l2tInstall p g x.req.va
  let s2 := more.foldl (fun t h => t.l2tInstall p h.1 h.2) s1
  (s2.xltServe x.req (g.fragment x.req.va)).answerJoiners x.joiners (g.fragment x.req.va :: more.map fun h => h.1.fragment h.2)

/-- Skink's search for leaf entries: it ends at no cached page and joins no walk (05 R115; log entry 107). -/
def XReq.searches (x : XReq) : Bool := match x.who with | .skink _ => true | _ => false

/-- A walk begins, or begins again, with the walk cache (R91, R110). -/
def State.walkBegin (s : State) (w : Nat) (x : Walk) : State :=
  match s.binding? x.req.asid with
  | none => s.walkFault w x { code := 0x25 }
  | some b =>
    if b.part ≠ x.req.part ∨ b.closing then s.walkFault w x { code := 0x25 }
    else
      let p := s.profile b.prof
      let x := { x with epoch := b.epoch, discard := false, last := none, ranges := s.rangesOf b.part 0 ++ s.rangesOf b.part 1 }
      let usable (e : WalkEntry) : Bool := match e.leaf with | some g => !x.req.searches && g.serves x.req.access | none => true
      if !canonical p.vaBits x.req.va then s.walkFault w x { code := 0x27, detail := x.req.va }
      else match if x.req.root then none else s.walkFind x.req.asid x.req.va usable with
        | none => s.walkRead w { x with level := p.levels - 1, table := b.root }
        | some e => match e.leaf with
          | some g => (s.walkUse e).walkEnds w x g []
          | none => (s.walkUse e).walkRead w { x with level := e.level - 1, table := e.table }

/-- A leaf lies in an enabled range of its kind (R88), and in device memory (R85): one that does not is 0x27, for which the spec names no code
where the page passes the device ranges and runs beyond device memory (DESIGN CHOICE, log entry 132). -/
def Walk.leafInRange (x : Walk) (g : Page) : Bool :=
  x.inRange (if g.device then 1 else 0) g.addr (2 ^ g.size) &&
    (!g.device || decide (g.addr.toNat + 2 ^ g.size ≤ Config.deviceBytes))

/-- The other leaves of the requested entry's line that may be installed, each with the address in it that lies as the requested one does in
its own page: a leaf larger than 2 MiB enters the L2T as the fragment that holds it (R91, R95; log entry 102). -/
def lineLeaves (x : Walk) (b : Binding) (p : Profile) (line : Granule) : List (Page × Word) :=
  let me := field x.entryAddr 5 3
  let size := levelSize x.level
  let here := x.req.va.toNat / 2 ^ size
  (List.range 8).filterMap fun k =>
    let e := granWord line (8 * k)
    let va := BitVec.ofNat 64 ((here - me + k) * 2 ^ size + x.req.va.toNat % 2 ^ size)
    if k = me ∨ p.needsA e then none
    else match p.judge b va e x.level with
      | .leaf g => if x.leafInRange g then some ({ g with epoch := x.epoch }, va) else none
      | _ => none

/-- A leaf of 1 GiB or 512 GiB enters the walk cache (R91). -/
def State.leafCached (s : State) (x : Walk) (g : Page) (va : Word) : State :=
  if x.level > 1 then s.walkInstall { asid := g.asid, level := x.level, prefix_ := walkPrefix x.level va, table := 0, leaf := some g
                                      epoch := x.epoch, used := 0 }
  else s

/-- The entry a leaf needs before it is used: ACCESSED, and DIRTY for a write or an atomic (R86). -/
def Profile.updated (p : Profile) (e : Word) (access : BitVec 2) : Word :=
  let e1 := if p.needsA e then setSlot (profSlot p.bitsA 5) e true else e
  if access ≠ 0 && p.needsD e then setSlot (profSlot p.bitsA 6) e1 true else e1

/-- A request meets a locked entry (R96): it is parked with its joiners, or its walker keeps it; each is stalled from its own first stall. -/
def State.walkLocked (s : State) (w : Nat) (x : Walk) (e : Word) : State :=
  let stalls (r : XReq) : XReq := { r with since := some (r.since.getD s.glb.time) }
  let x := { x with req := stalls x.req, joiners := x.joiners.map stalls }
  if s.xlt.locks.length < Config.lockWaits then
    (s.setWalker w none).onXlt fun t => { t with locks := t.locks ++
      [{ req := x.req, joiners := x.joiners, line := x.entryAddr &&& 0xFFFFFFFFFFFFFFC0
         entry := e, entryAddr := x.entryAddr, level := x.level, engine := walkerEngine w }] }
  else s.setWalker w (some { x with at_ := .locked })

/-- A leaf has been judged for the request (R86 to R88, R95). -/
def State.walkLeaf (s : State) (w : Nat) (x : Walk) (b : Binding) (p : Profile) (e : Word) (g : Page) (line : Granule) : State :=
  if !x.leafInRange g then s.walkFault w x (x.fault 0x27 g.addr false)
  else if g.lacks x.req.access ≠ 0 then s.walkFault w x (x.fault (g.lacks x.req.access) 0 false)
  else
    let e' := p.updated e x.req.access
    if e' ≠ e then
      let n := s.xlt.walkNo + 1
      ((s.onXlt fun t => { t with walkNo := n }).setWalker w (some { x with at_ := .update e, line := line, no := n })).unitCas
        (.walkUpdate w n) b.part x.entryAddr e e'
    else
      let g := { g with epoch := x.epoch }
      let more := lineLeaves x b p line
      let s1 := more.foldl (fun t h => t.leafCached x h.1 h.2) (s.leafCached x g x.req.va)
      s1.walkEnds w x g more

/-- A walker has an entry (R84, R95). Skink's search ends at the line of the leaf entries, whatever they hold (05 R115). -/
def State.walkJudge (s : State) (w : Nat) (x : Walk) (e : Word) (line : Granule) : State :=
  match s.binding? x.req.asid with
  | none => s.walkFault w x { code := 0x25 }
  | some b =>
    let p := s.profile b.prof
    let x := { x with last := some (x.level, e, x.entryAddr) }
    match x.req.who, x.level with
    | .skink t, 0 => ((s.setWalker w none).skinkFound t (x.entryAddr &&& 0xFFFFFFFFFFFFFF80)).answerJoiners x.joiners []
    | who, _ => match p.judge b x.req.va e x.level with
      | .bad code => s.walkFault w x (x.fault code 0 false)
      | .stall => s.walkLocked w x e
      | .table a =>
        let s1 := s.walkInstall { asid := x.req.asid, level := x.level, prefix_ := walkPrefix x.level x.req.va, table := a
                                  leaf := none, epoch := x.epoch, used := 0 }
        s1.walkRead w { x with level := x.level - 1, table := a }
      | .leaf g => match who with
        | .skink t => ((s.setWalker w none).skinkLeaf t (x.leafInRange g && slotHolds (profSlot p.bitsB 1) e)).answerJoiners x.joiners []
        | _ => s.walkLeaf w x b p e g line

/-- A walk restarts from the root (05_invalidation_and_placement.md R110). -/
def State.walkAgain (s : State) (w : Nat) (x : Walk) : State := s.walkBegin w { x with req := { x.req with root := true } }

/-- The read or the update of a walk's entry has failed with a code: a walk read failure, or a request that could not be issued (R99). R86 gives
a failed update no code of its own: 0x26 with ACCESS 3, as R99 gives a failed read (DESIGN CHOICE, log entry 132). -/
def State.walkReadFailed (s : State) (w : Nat) (x : Walk) (code : Code) : State :=
  if code = 0x41 ∨ code = 0xC1 then s.walkFault w x (x.fault 0x26 (code.setWidth 64) true) else s.walkBlocked w x code

/-- A page-table line has returned from the home to a walker (R84, R93, R95, R99). -/
def State.lineReturn (s : State) (w : Nat) : State :=
  match s.walker w with
  | none => s
  | some x => match s.partAns? x.req.part (.walkLine w x.no) with
    | none => s
    | some (code, line) =>
      let s1 := s.takeFor x.req.part (.walkLine w x.no)
      if x.discard then s1.walkAgain w x
      else if code ≠ 0 then s1.walkReadFailed w x code
      else s1.walkJudge w x (granWord line (8 * field x.entryAddr 5 3)) line

/-- The compare-and-swap of ACCESSED or DIRTY has been answered with the entry's old value (R86): the leaf's line stands as it was read but
for that entry. -/
def State.walkUpdated (s : State) (w no : Nat) (status : Code) (old : Word) : State :=
  match s.walker w with
  | none => s
  | some x =>
    match x.at_ with
    | .update e =>
      if x.no ≠ no then s
      else if x.discard then s.walkAgain w x
      else if status ≠ 0 then s.walkReadFailed w x status
      else if old ≠ e then s.walkRead w x
      else match s.binding? x.req.asid with
        | none => s.walkFault w x { code := 0x25 }
        | some b =>
          let n := (s.profile b.prof).updated e x.req.access
          s.walkJudge w x n (granPut x.line (8 * field x.entryAddr 5 3) n)
    | _ => s

/-! ## Lookups -/

/-- A request joins a walk (R94): one kept on a locked entry stalls it from now (R96). -/
def State.joinWalk (s : State) (w : Nat) (k : Walk) (x : XReq) : State :=
  let x := if k.at_ = .locked then { x with since := some (x.since.getD s.glb.time) } else x
  s.setWalker w (some { k with joiners := k.joiners ++ [x] })

/-- A miss (R94): it joins a walk, or waits in its engine's queue; where neither can be, its lookup waits. -/
def State.miss (s : State) (x : XReq) : State :=
  match if x.searches then none else s.walkFor x with
  | some (w, k) =>
    if k.joiners.length < s.mergeMax then s.joinWalk w k x else s.ask x
  | none =>
    let e := s.missEngine x
    if (s.missQ e).length < Config.missQueue then s.onMissQ e fun q => q ++ [x] else s.ask x

/-- The requester index of a lookup at an L2T bank: its mover's Eft, the core clients, Skink (17_arbiters.md R357). -/
def XReq.l2tIndex (x : XReq) : Option Nat :=
  match x.who with | .mover m _ => some m | .client .. => some 48 | .skink _ => some 49 | _ => none

/-- The requests at an L2T bank: those with lookups that wait for it (17 R357). -/
def State.l2tRequests (s : State) (b : Nat) : List (Nat × Bool) :=
  (dedup ((s.xlt.lookups.filter fun x => l2tBankOf x.asid x.va = b).filterMap XReq.l2tIndex)).map fun i => (i, false)

/-- A lookup probes the L2T (R90): a hit is served, a fault found before any walk ends it, a miss goes on. -/
def State.probe (s : State) (k : Nat) (x : XReq) : State :=
  let s1 := (s.onXlt fun t => { t with lookups := t.lookups.eraseIdx k }).ops pgXLT 1
  if !s1.wanted x then s1
  else match s1.binding? x.asid with
    | none => s1.xltFail x { code := 0x25 }
    | some b =>
      if b.part ≠ x.part ∨ b.closing then s1.xltFail x { code := 0x25 }
      else if !canonical (s1.profile b.prof).vaBits x.va then s1.xltFail x { code := 0x27, detail := x.va }
      else match if x.searches then none else s1.l2tFind x.asid x.va with
        | some (set, w, g) => if g.serves x.access then (s1.plruUse set w).xltServe x g else s1.miss x
        | none => s1.miss x

/-- The k-th lookup that waits has a cycle of its L2T bank (R90): it is made if its requester has, or now gets, the bank's grant (17 R357 to
R361), and the bank's next cycle is decided. Rings, plans, inbound transfers and management have no index there: theirs are made as they
come (log entry 95). -/
def State.lookup (s : State) (k : Nat) : State :=
  match s.xlt.lookups[k]? with
  | none => s
  | some x => match x.l2tIndex with
    | none => s.probe k x
    | some i =>
      let b := l2tBankOf x.asid x.va
      let a := 0x1B + b
      let s1 := if (s.arbiter a).holder = some i then s else s.arbCycle a (s.l2tRequests b) (s.l2tRequests b)
      if (s1.arbiter a).holder ≠ some i then s1
      else
        let s2 := (s1.arbUse a i).probe k x
        s2.arbDecide a (s2.l2tRequests b) (s2.l2tRequests b)

/-- The oldest waiting miss of an engine that can go on gets a walker, or joins a walk (R94). -/
def State.walkerAllocate (s : State) (e : Engine) : State :=
  let can (x : XReq) : Bool := s.engineSt e = .serving && ((s.freeWalker e x.part x.avoid).isSome ||
    (match if x.searches then none else s.walkFor x with | some (_, k) => decide (k.joiners.length < s.mergeMax) | none => false))
  match (s.missQ e).find? can with
  | none => s
  | some x =>
    let s1 := s.onMissQ e fun q => dropFirst (fun y => y = x) q
    if !s1.wanted x then s1
    else match if x.searches then none else s1.walkFor x with
      | some (w, k) =>
        if k.joiners.length < s1.mergeMax then s1.joinWalk w k x
        else s1.onMissQ e fun q => q ++ [x]
      | none => match s1.freeWalker e x.part x.avoid with
        | none => s1.onMissQ e fun q => x :: q
        | some w => s1.walkBegin w { req := x, part := x.part, level := 0, table := 0, epoch := 0 }

/-- A parked request walks again: it is looked up afresh with its joiners (R96). -/
def State.unpark (s : State) (w : LockWait) : State :=
  (w.req :: w.joiners).foldl State.ask (s.onXlt fun t => { t with locks := dropFirst (fun y => y = w) t.locks })

/-- The walkers that keep a request on a locked entry in place (R96). -/
def State.inPlace (s : State) : List (Nat × Walk) :=
  s.xlt.walk.filterMap fun (e : Nat × Option Walk) => match e.2 with | some x => if x.at_ = .locked then some (e.1, x) else none | none => none

/-- A walker that keeps a locked entry in place reads it again (R96). -/
def State.walkRetry (s : State) (e : Nat × Walk) : State := if e.2.discard then s.walkAgain e.1 e.2 else s.walkRead e.1 e.2

/-- LOCK_RETRY passes for the k-th request that waits on a locked entry: those parked, then those kept in place (R96). -/
def State.lockRetry (s : State) (k : Nat) : State :=
  match s.xlt.locks[k]?, s.inPlace[k - s.xlt.locks.length]? with
  | some w, _ => s.unpark w
  | none, some e => s.walkRetry e
  | none, none => s

/-- Of the requests that wait together on a locked entry, those that stalled first: LOCK_LIMIT counts from each one's own first stall
(R96). -/
def oldestOf (now : Word) (rs : List XReq) : List XReq :=
  let age (r : XReq) : Nat := match r.since with | some t => (now - t).toNat | none => 0
  let most := rs.foldl (fun n r => max n (age r)) 0
  rs.filter fun r => age r = most

/-- LOCK_LIMIT is reached by the k-th that waits on a locked entry (R96): the requests there that stalled first fail with 0x29, and the others
go on waiting. -/
def State.lockLimit (s : State) (k : Nat) : State :=
  match s.xlt.locks[k]?, s.inPlace[k - s.xlt.locks.length]? with
  | some w, _ =>
    let f : XFault := { code := 0x29, level := w.level, entry := w.entry, entryAddr := w.entryAddr, engine := w.engine.num }
    let out := oldestOf s.glb.time (w.req :: w.joiners)
    let locks := match (w.req :: w.joiners).filter fun x => !out.contains x with
      | [] => s.xlt.locks.eraseIdx k
      | r :: js => s.xlt.locks.set k { w with req := r, joiners := js }
    out.foldl (fun t x => t.xltFail x f) (s.onXlt fun t => { t with locks := locks })
  | none, some (w, x) =>
    let f : XFault := { x.fault 0x29 0 false with engine := (walkerEngine w).num }
    let out := oldestOf s.glb.time (x.req :: x.joiners)
    let left : Option Walk := match (x.req :: x.joiners).filter fun y => !out.contains y with
      | [] => none
      | r :: js => some { x with req := r, joiners := js }
    out.foldl (fun t y => t.xltFail y f) (s.setWalker w left)
  | none, none => s

/-- Lines written or removed at the home: the requests that wait on them walk again (R96). -/
def State.wakeLocks (s : State) : State :=
  let ns := s.home.woken
  let s1 := s.onHome fun h => { h with woken := [] }
  let s2 := (s1.xlt.locks.filter fun w => ns.contains (lineOf w.line)).foldl State.unpark s1
  (s1.inPlace.filter fun e => ns.contains (lineOf e.2.entryAddr)).foldl State.walkRetry s2

/-- A core client's request (R97). -/
def State.xltRequest (s : State) (c tag asid : Nat) (access : BitVec 2) (va : Word) : State :=
  let k := s.client c
  let x : XReq := { who := .client c tag, part := k.part, asid := asid, access := access, va := va }
  if access = 3 then s.portProtocol 4
  else if !k.en then s.xltFail x { code := 0x25 }
  else s.ask x

end Sys2Proof.Machine
end

