-- ==== Sys2Proof/Machine/Inval.lean ====
section
/-! DEFINITION. Invalidations: submission, the withdrawal, holders, clients and the end of a drain; and the binding of ASIDs
(05_invalidation_and_placement.md R105 to R111; 04_translation.md R80, R81, R88). -/

namespace Sys2Proof.Machine

/-- An XLT sticky bit of a partition's view. -/
def State.xltFlag (s : State) (p b : Nat) : State := s.flag pgXLT p b

/-! ## Withdrawal (R106, R110) -/

/-- Epoch `a` is no later than `b`, as signed differences (R109). -/
def epochLe (a b : BitVec 32) : Bool := decide ((b - a).toNat < 2 ^ 31)

/-- A cached page is withdrawn: by its ASID, or by an overlap with the range, whole (R106). -/
def Inv.takes (v : Inv) (g : Page) : Bool :=
  let size := max g.size g.whole
  let lo := g.va.toNat / 2 ^ size * 2 ^ size
  v.asids.any (·.1 = g.asid) &&
    (v.pages = 0 || (decide (lo < v.va.toNat + v.pages * 4096) && decide (v.va.toNat < lo + 2 ^ size)))

/-- A walk-cache entry is withdrawn (R106, R107). -/
def Inv.takesWalk (v : Inv) (e : WalkEntry) : Bool :=
  match e.leaf with
  | some g => v.takes g
  | none =>
    let lo := e.prefix_ * 2 ^ levelSize e.level
    v.asids.any (·.1 = e.asid) &&
      (v.pages = 0 || (v.tables && decide (lo < v.va.toNat + v.pages * 4096) && decide (v.va.toNat < lo + 2 ^ levelSize e.level)))

/-- The translations an invalidation names leave the Efts, the L2T and the walk cache, and those on their way to inbound transfers are asked
for again; walks of its ASIDs are to restart (R110). -/
def State.withdrawPages (s : State) (v : Inv) : State :=
  let gone := s.xlt.eft.filter fun e => match e.2.page with | some g => v.takes g | none => false
  let s1 := gone.foldl (fun t e => t.eftDrop (e.1 / 128) (e.1 % 128)) s
  let old (x : Walk) : Bool := v.asids.any fun a => a.1 = x.req.asid && epochLe x.epoch a.2
  let restart (x : Walk) : Walk := if old x then { x with discard := true } else x
  let late (r : XReq × Code × Option Page) : Bool := match r.2.2 with | some g => v.takes g | none => false
  let s2 := s1.onXlt fun t => { t with
    l2t := t.l2t.filter (fun e => match e.2 with | some g => !v.takes g | none => false)
    walkc := t.walkc.filter (fun e => !v.takesWalk e)
    walk := t.walk.map (fun e => (e.1, e.2.map restart))
    inbound := t.inbound.filter fun r => !late r }
  (s.xlt.inbound.filter late).foldl (fun t r => t.ask r.1) s2

/-! ## Holders (R109, R110) -/

/-- ASID of a mover context's work, kept while it drains (08_memory_model.md R188). -/
def State.jobAsid (_s : State) (j : Job) : Option Nat := j.work.map fun _ => j.asid

/-- The epochs of a mover context's outstanding accesses (R109), those that wait for their turn among them: reads, writes, packets, posted
writes not yet read back, its read-back. -/
def Job.tags (j : Job) : List (BitVec 32) :=
  (j.reads.filter (·.data.isNone)).filterMap (·.epoch) ++ j.wq.filterMap (fun x => x.loc.map (·.2.2)) ++ j.writes.map (·.2)
    ++ j.packets.map (·.2.2) ++ j.posts.map (·.2.2) ++ (if j.rb = .out then [j.lastEpoch] else [])

/-- The epochs of an inbound transfer's outstanding accesses (R109). -/
def RxPkt.tags (p : RxPkt) : List (BitVec 32) := p.writes.map (·.2) ++ (if p.back = .out then [p.backEpoch] else [])

/-- An access to ASID `a` under epoch `e` is one that an invalidation waits for (R110). -/
def Inv.waitsFor (v : Inv) (a : Nat) (e : BitVec 32) : Bool := v.asids.any fun x => x.1 = a && epochLe e x.2

/-- A host invalidation names a region in migration: it does not wait on that region's copy (R123; log entry 104). -/
def Inv.passes (v : Inv) (e : Pending) : Bool :=
  (match v.from_ with | .desc .. => true | _ => false) && v.asids.any (·.1 = e.asid) &&
    (v.pages = 0 || (decide (e.va.toNat < v.va.toNat + v.pages * 4096) && decide (v.va.toNat < e.va.toNat + 65536)))

/-- A holder has an access outstanding under an ASID that an invalidation names, at an epoch no later than the one it ended (R110). -/
def State.holds (s : State) (v : Inv) (h : Holder) : Bool :=
  match h with
  | .mover m u => let j := s.job m u; (match s.jobAsid j with | none => false | some a => j.tags.any (v.waitsFor a))
  | .inbound src psn => (s.rxFlow src).pkts.any fun p => p.psn = psn && p.tags.any (v.waitsFor p.asid)
  | .stray link => s.mov.stray.any fun x => x.link = link && v.waitsFor x.asid x.epoch
  | .skink ticket => s.skk.pending.any fun p => p.ticket = ticket && p.out.any (v.waitsFor p.asid) && !v.passes p
  | .recall frame => s.skk.placed.any fun p => p.frame = frame && p.out.any (v.waitsFor p.asid)

/-- Every holder there could be (R109). -/
def State.allHolders (s : State) : List Holder :=
  s.mov.job.map (fun e => Holder.mover (e.1 / 2) (e.1 % 2 = 1))
    ++ (s.peer.rx.map fun e => e.2.pkts.map fun p => Holder.inbound e.1 p.psn).flatten
    ++ (s.mov.stray.map fun x => Holder.stray x.link)
    ++ s.skk.pending.map (fun p => Holder.skink p.ticket) ++ s.skk.placed.map fun p => Holder.recall p.frame

/-- The clients an invalidation is sent to: the enabled ones of the partition (R110, R111). -/
def State.clientsOf (s : State) (p : Nat) : List Nat := (List.range 1024).filter fun c => (s.client c).en && (s.client c).part = p

/-- An invalidation begins its work (R110). -/
def State.startInv (s : State) (v : Inv) (asids : List Nat) : State :=
  let named := asids.map fun a => (a, s.epochOf a)
  let v := { v with begun := true, asids := named }
  let v := { v with holders := s.allHolders.filter (s.holds v) }
  let cs := s.clientsOf v.part
  let bump (b : Binding) : Binding := if asids.contains b.asid then { b with epoch := b.epoch + 1 } else b
  let s1 := (s.onXlt fun t => { t with binds := t.binds.map bump }).withdrawPages v
  let msgs := (asids.map fun a => cs.map fun c => (a, c)).flatten
  let s2 := msgs.foldl (fun t m => t.send (.p4 (.xltInv m.2 m.1 (v.pages = 0) v.va v.pages (v.id % 65536)))) s1
  let v := { v with clients := msgs.map (·.2) }
  s2.onXlt fun t => { t with invs := t.invs.filter (·.id ≠ v.id) ++ [v] }

/-- An internal invalidation of Skink, an UNBIND or a disable begins (R119, R121, R81, R286): at once, for the 64 in progress that R105
speaks of are those submitted (log entry 114). -/
def State.internalInv (s : State) (from_ : InvFrom) (part : Nat) (asids : List Nat) (va : Word) (pages : Nat) : State :=
  let id := s.xlt.nextInv
  (s.onXlt fun t => { t with nextInv := id + 1 }).startInv { id := id, from_ := from_, va := va, pages := pages, part := part } asids

/-- An invalidation's drain has ended (R108, R110). -/
def State.drained (s : State) (v : Inv) : Bool := v.begun && v.clients = [] && !v.holders.any (s.holds v)

/-- The drained invalidation that something began. -/
def State.drainedFrom (s : State) (f : InvFrom) : Option Inv := s.xlt.invs.find? fun v => v.from_ = f && s.drained v

/-- An invalidation leaves those in progress. -/
def State.dropInv (s : State) (id : Nat) : State := s.onXlt fun t => { t with invs := t.invs.filter (·.id ≠ id) }

/-! ## Descriptors (R105, R106) -/

/-- Descriptors of a function submitted and not begun. -/
def State.invQueued (s : State) (fn : Nat) : Nat := (s.xlt.invQueue.filter (·.1 = fn)).length

/-- XLT_INV_SUBMIT (R105). -/
def State.invSubmit (s : State) (fn : Nat) (v : Word) : State :=
  if 16 ≤ s.invQueued fn then s.xltFlag fn 7
  else s.onXlt fun t => { t with invQueue := t.invQueue ++ [(fn, v &&& 0xFFFFFFFFFFFFFFC0)] }

/-- The next submitted invalidation begins, and its descriptor is read (R105): unless 64 submitted ones are in progress (log entry 114). -/
def State.invBegin (s : State) : State :=
  match s.xlt.invQueue with
  | [] => s
  | (fn, a) :: rest =>
    let busy := (s.xlt.invs.filter fun v => match v.from_ with | .desc .. => true | _ => false).length
    if Config.invMax ≤ busy then s
    else
      let s1 := s.onXlt fun t => { t with invQueue := rest }
      if !s.masterEnabled fn || !s.inRanges fn 0 a 64 then s1.xltFlag fn 8
      else
        let id := s.xlt.nextInv
        (s1.onXlt fun t => { t with nextInv := id + 1, invs := t.invs ++ [{ id := id, from_ := .desc fn a false, part := fn }] }).unitRead
          (.invRead id) fn a

/-- The RESULT of an invalidation is written, or it and the event are discarded (R105, R108): INV_DONE follows the write's observation. -/
def State.invResult (s : State) (fn : Nat) (a : Word) (event ok : Bool) (reason disabled killed : Nat) : State :=
  if s.masterEnabled fn then
    s.unitWrite (.invResult fn event) fn (a + 0x38)
      [place 1 63 ||| place ok.toNat 62 ||| place reason 40 ||| place (min 255 disabled) 16 ||| place (min 65535 killed) 0]
  else s

/-- The RESULT of an invalidation is globally observed, and INV_DONE raised where the descriptor asked for it (R105, R108). -/
def State.invResulted (s : State) (fn : Nat) (event : Bool) (code : Code) : State := if event ∧ code = 0 then s.edge (0x640 + fn) else s

/-- The ASIDs that a partition has bound: one whose UNBIND withdraws its translations is bound no longer (R106; log entry 115). -/
def State.asidsOf (s : State) (p : Nat) : List Nat := (s.xlt.binds.filter fun b => b.part = p && !b.closing).map (·.asid)

/-- A descriptor of scope `scope` is judged and its invalidation begins, or is refused (R106). -/
def State.invJudge (s : State) (v : Inv) (fn : Nat) (a : Word) (scope : Nat) (d : Granule) : State :=
  let event := bit d 5
  let asid := field (granWord d 0x08) 19 0
  let pages := field (granWord d 0x18) 31 0
  let refuse (reason : Nat) : State := (s.dropInv v.id).invResult fn a event false reason 0 0
  let v := { v with from_ := .desc fn a event }
  match scope with
  | 0 =>
    if pages = 0 then refuse 3
    else if !(s.asidsOf fn).contains asid then refuse 1
    else s.startInv { v with va := granWord d 0x10 &&& 0xFFFFFFFFFFFFF000, pages := pages, tables := bit d 4 } [asid]
  | 1 => if !(s.asidsOf fn).contains asid then refuse 1 else s.startInv v [asid]
  | 2 =>
    let p := if fn = 0 then asid % 64 else fn
    s.startInv { v with part := p } (s.asidsOf p)
  | _ => refuse 2

/-- The descriptor of an invalidation arrives (R105, R106): `scope` is the SCOPE of the row it arrives as; a read that failed drops it. -/
def State.invDesc (s : State) (id scope : Nat) : State :=
  match s.xlt.invs.find? fun v => v.id = id && !v.begun with
  | none => s
  | some v =>
    match v.from_ with
    | .desc fn a _ => match s.partAns? fn (.invRead id) with
      | none => s
      | some (code, d) =>
        if code ≠ 0 then ((s.takeFor fn (.invRead id)).dropInv id).xltFlag fn 8
        else if field d 1 0 ≠ scope then s
        else (s.takeFor fn (.invRead id)).invJudge v fn a scope d
    | _ => s

/-- A client acknowledges (R111). -/
def State.invAck (s : State) (c id : Nat) : State :=
  match s.xlt.invs.find? fun v => v.id % 65536 = id && v.clients.contains c with
  | none => s.portProtocol 4
  | some v =>
    s.onXlt fun t => { t with invs := t.invs.map fun x => if x.id = v.id then { x with clients := x.clients.erase c } else x }

/-! ## Bindings (R80, R81) -/

/-- The status of an operation on bindings. -/
def State.bindResult (s : State) (fn asid : Nat) (r : BitVec 3) : State :=
  s.onBind fn fun b => { b with asid := asid, result := r }

/-- Bindings a partition holds (R104). -/
def State.asidCount (s : State) (p : Nat) : Nat := (s.xlt.binds.filter (·.part = p)).length

/-- ASID_MAX of a partition (R104). -/
def State.asidMax (s : State) (p : Nat) : Nat := min 4096 (tabGet asidMaxDflt s.xlt.asidMax p)

/-- BIND (R81, R287): an entry that an exhausted macro held takes no binding. -/
def State.bindAsid (s : State) (fn asid : Nat) : State :=
  let r := (s.bindRegs fn).root
  let prof := field r 10 8
  let root := r &&& 0xFFFFFFFFFFFFF000
  if (s.bindRegs fn).busy then s.xltFlag fn 5
  else if s.closed fn then s.bindResult fn asid 7
  else if (s.binding? asid).isSome then s.bindResult fn asid 1
  else if !(s.profile prof).valid then s.bindResult fn asid 4
  else if !s.inRange fn 0 root 4096 then s.bindResult fn asid 5
  else if s.asidMax fn ≤ s.asidCount fn then s.bindResult fn asid 6
  else if decide (Config.bindings ≤ s.xlt.binds.length) || s.macroLost 0x10 (bindKey asid) then s.bindResult fn asid 3
  else
    let b : Binding := { asid := asid, part := fn, root := root, prof := prof, sup := bit r 4, epoch := 1 }
    (s.onXlt fun t => { t with binds := t.binds ++ [b] }).bindResult fn asid 0

/-- An ASID's binding refuses requests from now on. -/
def State.closeBinding (s : State) (asid : Nat) : State :=
  s.onXlt fun t => { t with binds := t.binds.map fun b => if b.asid = asid then { b with closing := true } else b }

/-- UNBIND (R81): accepted, it withdraws every translation of the ASID. -/
def State.unbindAsid (s : State) (fn asid : Nat) : State :=
  let bound := match s.binding? asid with | some b => b.part = fn && !b.closing | none => false
  let used := s.dbl.chan.any fun e => e.2.st ≠ .free && e.2.asid = asid
  if (s.bindRegs fn).busy then s.xltFlag fn 5
  else if !bound then s.bindResult fn asid 2
  else if used then s.bindResult fn asid 1
  else
    (((s.bindResult fn asid 0).onBind fn fun b => { b with busy := true }).closeBinding asid).internalInv (.unbind fn) fn [asid] 0 0

/-- The withdrawal of an UNBIND is complete (R81). -/
def State.unbindDone (s : State) (fn : Nat) : State :=
  match s.drainedFrom (.unbind fn) with
  | none => s
  | some v =>
    ((s.dropInv v.id).onXlt fun t => { t with binds := t.binds.filter fun b => !v.asids.any (·.1 = b.asid) }).onBind fn
      fun b => { b with busy := false }

/-! ## Ranges (R88, R102, R116) -/

/-- A partition's pool is judged against its device ranges (R116). -/
def State.judgePool (s : State) (p : Nat) : State :=
  let k := s.skkPart p
  let lo := field k.poolBase 63 16 * 65536
  let ok := s.inRanges p 1 (BitVec.ofNat 64 lo) ((field k.poolLimit 63 16 + 1) * 65536 - lo)
  if bit k.poolBase 0 && !ok then (s.onSkkPart p fun k => { k with poolBad := true }).skkFlag 0 6 else s

/-- A write of XLT_PRANGE_BASE or XLT_PRANGE_LIMIT (R88): it applies to later walks; a host range's judges the partition's queues again (R102), a
device range's its pool (R116). -/
def State.writePrange (s : State) (limit : Bool) (v : Word) : State :=
  let sel := s.xlt.psel
  let p := field sel 5 0
  let k := p * 16 + field sel 8 8 * 8 + field sel 18 16
  let set (r : PRange) : PRange :=
    if limit then { r with limit := v &&& 0xFFFFFFFFFFFFF000 } else { r with base := v &&& 0xFFFFFFFFFFFFF001 }
  let s1 := s.onXlt fun t => { t with range := tabMod prangeDflt t.range k set }
  if bit sel 8 then s1.judgePool p else (s1.judgeQueue false p).judgeQueue true p

end Sys2Proof.Machine
end

