-- ==== Sys2Proof/Machine/Place.lean ====
section
/-! DEFINITION. Skink's placements, recalls, releases and hints, and the end of invalidations
(05_invalidation_and_placement.md R108, R112, R114 to R124; 15_block_ports.md R343). -/

namespace Sys2Proof.Machine

/-! ## Placements -/

/-- A notice about a pending placement (R118). -/
def State.pendNotice (s : State) (e : Pending) (kind reason : Nat) (code : Code := 0) (changed : BitVec 16 := 0) : State :=
  s.notice e.part kind reason e.ticket e.asid code e.va (frameAddr e.frame) e.entryAddr changed

/-- Entry `k` may be placed (R115): host-valid, MIGRATABLE, a leaf of a 4 KiB or 64 KiB page. -/
def Profile.placeable (p : Profile) (b : Binding) (va e : Word) : Bool :=
  match p.judge b va e 0 with
  | .leaf g => !g.device && g.migratable
  | _ => false

/-- Requests that wait on a region's two entry lines walk again (R119 step 9, R121 step 6). -/
def State.wakeRegion (s : State) (entryAddr : Word) : State :=
  let a := lineOf entryAddr
  let mine (x : Word) : Bool := lineOf x = a || lineOf x = a + 1
  let s1 := (s.xlt.locks.filter fun w => mine w.line).foldl State.unpark s
  (s.inPlace.filter fun e => mine e.2.entryAddr).foldl State.walkRetry s1

/-- The 16 entries of a region once both their lines have been read, with the code of a read that failed (R115). -/
def entriesOf (ls : List (Nat × Code × Granule)) : Option (Code × List Word) :=
  match ls.find? (·.1 = 0), ls.find? (·.1 = 1) with
  | some a, some b =>
    let ws (g : Granule) : List Word := (List.range 8).map fun k => granWord g (8 * k)
    some (if a.2.1 ≠ 0 then a.2.1 else b.2.1, ws a.2.2 ++ ws b.2.2)
  | _, _ => none

/-- Every entry of a region passes a test, under the profile its ASID is bound with. -/
def State.entriesAll (s : State) (part asid : Nat) (va : Word) (es : List Word) (ok : Profile → Binding → Word → Word → Bool) : Bool :=
  match s.binding? asid with
  | none => false
  | some b => b.part = part && !b.closing &&
    (List.range 16).all fun k => ok (s.profile b.prof) b (va + BitVec.ofNat 64 (4096 * k)) (es.getD k 0)

/-- An entry is present and marked migratable, wherever its page lies (03_command_set.md R70). -/
def Profile.movable (p : Profile) (b : Binding) (va e : Word) : Bool :=
  match p.judge b va e 0 with
  | .leaf _ => slotHolds (profSlot p.bitsB 1) e
  | _ => false

/-- The 16 entries of an evaluated region have returned (R115). -/
def State.entriesRead (s : State) (ticket : Nat) : State :=
  match s.pend? ticket with
  | none => s
  | some e =>
    match e.st, entriesOf e.lines with
    | .reading, some (code, es) =>
      if code = 0 && s.entriesAll e.part e.asid e.va es Profile.placeable then
        let prof := match s.binding? e.asid with | some b => b.prof | none => 0
        let s1 := (s.onPend ticket fun e => { e with st := .asked, saved := es, prof := prof }).setCounter e.asid e.va 0
        s1.pendNotice e 1 0
      else s.evalFailed ticket
    | _, _ => s

/-- Half `k` of the entries of a region arrives: for an evaluation or a re-read, or for a COOL hint, which it may end (R115, R119;
03_command_set.md R70). -/
def State.entryLine (s : State) (ticket k : Nat) (code : Code) (line : Granule) : State :=
  match s.look? ticket with
  | none => s.onPend ticket fun e => { e with lines := e.lines ++ [(k, code, line)] }
  | some l =>
    let l := { l with lines := l.lines ++ [(k, code, line)] }
    match entriesOf l.lines with
    | some (code, es) => s.lookEnds l (code = 0 && s.entriesAll l.part l.asid l.va es Profile.movable)
    | none => s.onSkk fun x => { x with looks := x.looks.map fun y => if y.id = ticket then l else y }

/-- SKK_REQ ACCEPT (R119 steps 4 and 5, R123). -/
def State.accept (s : State) (fn ticket : Nat) : State :=
  match s.pend? ticket with
  | some e =>
    if e.part = fn ∧ e.st = .asked then
      (s.onPend ticket fun e => { e with st := .draining }).internalInv (.migrate ticket) fn
        (if (s.binding? e.asid).isSome then [e.asid] else []) e.va 16
    else s.skkFlag fn 4
  | none => s.skkFlag fn 4

/-- SKK_REQ DECLINE (R119). -/
def State.decline (s : State) (fn ticket : Nat) : State :=
  match s.pend? ticket with
  | some e => if e.part = fn ∧ e.st = .asked then (s.dropPend ticket).pendNotice e 3 1 else s.skkFlag fn 4
  | none => s.skkFlag fn 4

/-- SKK_ACK_LIMIT passes (R123). -/
def State.ackExpired (s : State) (ticket : Nat) : State :=
  match s.pend? ticket with
  | some e => if e.st = .asked then (s.dropPend ticket).pendNotice e 4 0 else s
  | none => s

/-- A placement fails after ACCEPT (R123, R125). -/
def State.placeFailed (s : State) (e : Pending) (reason : Nat) (code : Code) (changed : BitVec 16) : State :=
  (((s.dropPend e.ticket).pendNotice e 3 reason code changed).skkFlag e.part 7).wakeRegion e.entryAddr

/-- The locked value of an entry (R119 step 2). -/
def Profile.lockedOf (p : Profile) (e : Word) : Word := setSlot (profSlot p.bitsB 3) (setSlot (profSlot p.bitsA 0) e false) true

/-- An entry with another frame. -/
def Profile.withFrame (p : Profile) (e : Word) (f : Nat) : Word :=
  let n := 2 ^ (p.frameHi + 1 - p.frameLo)
  (e &&& ~~~(place (n - 1) p.frameLo)) ||| place (f % n) p.frameLo

/-- The value that step 8 gives entry `k` of a region placed in a device frame (R119). -/
def Profile.placedOf (p : Profile) (frame k : Nat) (e : Word) : Word :=
  p.withFrame (setSlot (profSlot p.bitsB 2) (setSlot (profSlot p.bitsB 3) (p.lockedOf e) false) true) (16 * frame + k)

/-- The value a recall restores to entry `k` (R121 step 5). -/
def Profile.restoredOf (p : Profile) (written : Bool) (e : Word) : Word :=
  let a := setSlot (profSlot p.bitsA 5) e true
  (if written then setSlot (profSlot p.bitsA 6) a true else a) &&& ~~~(place 3 59)

/-- The host page of entry `k` of a region (R119 step 7, R121 step 4). -/
def Profile.hostPage (p : Profile) (e : Word) (k : Nat) : Word :=
  let f := p.frame e
  BitVec.ofNat 64 ((if p.contig e then f / 16 * 16 + k else f) * 4096)

/-- The host address of granule `g` of a region. -/
def Profile.hostGranule (p : Profile) (saved : List Word) (g : Nat) : Word :=
  p.hostPage (saved.getD (g / 64) 0) (g / 64) + BitVec.ofNat 64 (64 * (g % 64))

/-- Entry `k` of a region's leaf entries. -/
def entryAt (a : Word) (k : Nat) : Word := a + BitVec.ofNat 64 (8 * k)

/-- A fault record of a Skink copy: no entry was judged (R123; 04_translation.md R101). -/
def State.skinkFault (s : State) (part asid : Nat) (va : Word) (code : Code) : State :=
  s.fault 1 0x26 part 4 0 0 [va, place asid 0 ||| place 3 20 ||| place 7 24, 0, 0, code.setWidth 64, 0]

/-- The outstanding compare-and-swap of a placement is issued (R119 step 8, R123). -/
def State.placeCasNext (s : State) (ticket : Nat) : State :=
  match s.pend? ticket with
  | some e => match e.cas with
    | (k, old, new) :: _ => s.forPart e.part (.placeCas ticket k) fun t => t.unitCas (.placeCas ticket k) e.part (entryAt e.entryAddr k) old new
    | [] => s
  | none => s

/-- A failed placement ends once its entries have been written back and nothing it issued is outstanding (R112, R123); one that an FLR has
abandoned ends without a notice. -/
def State.placeEnd (s : State) (ticket : Nat) : State :=
  match s.pend? ticket with
  | some e => match e.fail with
    | some (reason, code, changed) =>
      if e.st = .undoing && e.cas = [] && e.out.isNone then
        let s1 := s.placeFailed e reason code changed
        if code ≠ 0 then s1.skinkFault e.part e.asid e.va code else s1
      else s
    | none => if e.st = .undoing && e.cas = [] && e.out.isNone then s.dropPend ticket else s
  | none => s

/-- A placement fails: the entries `cas` names are written back, and then it ends (R123). -/
def State.placeUndo (s : State) (ticket : Nat) (cas : List (Nat × Word × Word)) (fail : Nat × Code × BitVec 16) : State :=
  ((s.onPend ticket fun e => { e with st := .undoing, pages := [], cas := cas, fail := some fail }).placeCasNext ticket).placeEnd ticket

/-- The entries of a placement go back from their locked to their saved values (R123). -/
def State.unlocks (s : State) (e : Pending) : List (Nat × Word × Word) :=
  (List.range 16).map fun k => (k, (s.profile e.prof).lockedOf (e.saved.getD k 0), e.saved.getD k 0)

/-- Step 5 is complete: the entries are read again (R119). -/
def State.migrationDrained (s : State) (ticket : Nat) : State :=
  match s.pend? ticket, s.drainedFrom (.migrate ticket) with
  | some e, some v =>
    ((s.dropInv v.id).onPend ticket fun e => { e with st := .rereading, lines := [] }).readEntries e.part (.placeRead ticket) e.entryAddr
  | _, _ => s

/-- The frame of a pending placement leaves a stack under thermal notice, where another is free (R116). -/
def State.reframe (s : State) (e : Pending) : State :=
  if bit s.skk.thermal (frameStack e.frame) then
    match (s.freeFrame e.part).1 with
    | some f => (s.onPend e.ticket fun e => { e with frame := f }).skkFlag e.part 8
    | none => s.skkFlag e.part 8
  else s

/-- The home gives up every on-die copy of the lines of a host page (R119 step 7); lines in a transaction follow as it ends. -/
def State.recallPage (s : State) (a : Word) : State :=
  let lo := lineOf (a &&& 0xFFFFFFFFFFFFF000)
  let mine := s.home.line.filter fun p => decide (lo ≤ p.1) && decide (p.1 < lo + 64) && p.2.entry && p.2.txn.isNone
  (mine.foldl (fun t p => t.recallLine p.1) s).runHome

/-- The next granule of a placement's copy is read from host memory (R119 step 7). -/
def State.copyNext (s : State) (ticket : Nat) : State :=
  match s.pend? ticket with
  | some e =>
    if e.st = .copying && decide (e.at_ < 1024) && e.fail.isNone then
      (s.onPend ticket fun x => { x with out := some (s.epochOf e.asid) }).forPart e.part (.copyRead ticket e.at_) fun t =>
        t.unitRead (.copyRead ticket e.at_) e.part ((s.profile e.prof).hostGranule e.saved e.at_)
    else s
  | none => s

/-- Step 6 (R119): the entries are compared; step 7 starts. A failed re-read ends the placement as a failed read of step 7 does
(log entry 105). -/
def State.reread (s : State) (ticket : Nat) : State :=
  match s.pend? ticket with
  | none => s
  | some e =>
    match e.st, entriesOf e.lines with
    | .rereading, some (code, es) =>
      let p := s.profile e.prof
      let diff := (List.range 16).foldl (fun (m : Nat) k =>
        if es.getD k 0 = p.lockedOf (e.saved.getD k 0) then m else m + 2 ^ k) 0
      if code ≠ 0 then s.placeUndo ticket (s.unlocks e) (3, code, 0)
      else if diff ≠ 0 then s.placeFailed e 2 0 (BitVec.ofNat 16 diff)
      else
        let s1 := s.reframe e
        let e1 := (s1.pend? ticket).getD e
        if bit s1.skk.thermal (frameStack e1.frame) then s1.placeUndo ticket (s1.unlocks e1) (4, 0, 0)
        else
          let pages := (List.range 16).map fun k => p.hostPage (e.saved.getD k 0) k
          (pages.foldl State.recallPage (s1.onPend ticket fun e => { e with st := .copying, pages := pages, at_ := 0 })).copyNext ticket
    | _, _ => s

/-- The access of a placement's copy that was outstanding has failed (R123). -/
def State.copyFailed (s : State) (ticket : Nat) (reason : Nat) (code : Code) : State :=
  s.onPend ticket fun e => { e with out := none, fail := e.fail.or (some (reason, code, 0)) }

/-- A granule of a placement's copy arrives from host memory: it is written to the device frame (R119 step 7). -/
def State.copyRead (s : State) (ticket : Nat) (code : Code) (data : Granule) : State :=
  match s.pend? ticket with
  | none => s
  | some e =>
    if e.st ≠ .copying then (s.onPend ticket fun e => { e with out := none }).placeEnd ticket
    else if code ≠ 0 then s.copyFailed ticket 3 code
    else
      let a := frameAddr e.frame + BitVec.ofNat 64 (64 * e.at_)
      s.nocRequest (Config.devicePort a.toNat % 4) { opc := 0x41, agent := 1404, addr := a, data := data } (.skinkWrite ticket e.at_)

/-- A device write of a placement's copy has its NoC response (R119 step 7). -/
def State.copyWrote (s : State) (ticket : Nat) (code : Code) : State :=
  match s.pend? ticket with
  | none => s
  | some e =>
    if e.st ≠ .copying then (s.onPend ticket fun e => { e with out := none }).placeEnd ticket
    else if code ≠ 0 then s.copyFailed ticket 4 code
    else (s.onPend ticket fun e => { e with out := none, at_ := e.at_ + 1 }).copyNext ticket

/-- Step 7 is over: every granule is written and the home holds no line of the region, or an access has failed (R119). -/
def State.copyOver (s : State) (e : Pending) : Bool :=
  e.st = .copying && e.out.isNone &&
    (e.fail.isSome || (e.at_ = 1024 && s.home.line.all fun l => !(l.2.entry && e.pages.any fun a => lineOf a / 64 = l.1 / 64)))

/-- MIGRATION_COPY_DONE: step 7 is done, or has failed (R119, R123). -/
def State.copyDone (s : State) (ticket : Nat) : State :=
  match s.pend? ticket with
  | none => s
  | some e =>
    if !s.copyOver e then s
    else match e.fail with
      | some f => s.placeUndo ticket (s.unlocks e) f
      | none =>
        let p := s.profile e.prof
        let swap (k : Nat) : Nat × Word × Word := (k, p.lockedOf (e.saved.getD k 0), p.placedOf e.frame k (e.saved.getD k 0))
        (s.onPend ticket fun e => { e with st := .swapping, pages := [], cas := (List.range 16).map swap }).placeCasNext ticket

/-- A compare-and-swap of a placement is answered: the next is issued; one of step 8 that fails ends the step (R119, R123; log entry
105). -/
def State.placeSwapped (s : State) (ticket k : Nat) (code : Code) (old : Word) : State :=
  match s.pend? ticket with
  | none => s
  | some e => match e.cas with
    | [] => s
    | (_, want, _) :: rest =>
      if e.st = .swapping ∧ (code ≠ 0 ∨ old ≠ want) then
        s.onPend ticket fun e => { e with cas := [], at_ := k, fail := some (if code ≠ 0 then (4, code, 0) else (2, 0, BitVec.ofNat 16 (2 ^ k))) }
      else ((s.onPend ticket fun e => { e with cas := rest }).placeCasNext ticket).placeEnd ticket

/-- The placed region of a frame. -/
def State.placed? (s : State) (frame : Nat) : Option Placed := s.skk.placed.find? (·.frame = frame)

/-- A placed region changed. -/
def State.onPlaced (s : State) (frame : Nat) (f : Placed → Placed) : State :=
  s.onSkk fun k => { k with placed := k.placed.map fun e => if e.frame = frame then f e else e }

/-- The outstanding compare-and-swap of a recall is issued (R121 steps 2 and 5). -/
def State.recallCasNext (s : State) (frame : Nat) : State :=
  match s.placed? frame with
  | some e => match e.cas with
    | (k, old, new) :: _ => s.forPart e.part (.recallCas frame k) fun t => t.unitCas (.recallCas frame k) e.part (entryAt e.entryAddr k) old new
    | [] => s
  | none => s

/-- A recall begins at step 2 (R121): each entry is locked from the value the placement gave it, or from the one an earlier recall left;
one in progress goes on. -/
def State.beginRecall (s : State) (frame : Nat) : State :=
  match s.placed? frame with
  | none => s
  | some e =>
    if e.rcl = .none ∨ e.rcl = .failed then
      let p := s.profile e.prof
      let now (k : Nat) : Word := e.vals.getD k (p.placedOf frame k (e.saved.getD k 0))
      let cas := (List.range 16).map fun k => (k, now k, setSlot (profSlot p.bitsB 3) (now k) true)
      (s.onPlaced frame fun e => { e with
        rcl := .locking, changed := 0, fail := none, cas := cas, vals := (List.range 16).map now }).recallCasNext frame
    else s

/-- A placement is recorded in the Skink spill of the hub store (R119 step 10; 18_stored_data_protection.md R378). -/
def State.storePlacement (s : State) (frame : Nat) : State :=
  s.storeBlock (Config.skinkBlock frame)

/-- MIGRATION_CAS_DONE: step 8 is done, or has failed at an entry, and those before it go back (R119 steps 8 to 10, R123). A region placed in
a channel that leaves is recalled (R117). -/
def State.swapDone (s : State) (ticket : Nat) : State :=
  match s.pend? ticket with
  | none => s
  | some e =>
    if e.st ≠ .swapping ∨ e.cas ≠ [] then s
    else match e.fail with
      | some f =>
        let p := s.profile e.prof
        let back (k : Nat) : Nat × Word × Word := (k, p.placedOf e.frame k (e.saved.getD k 0), p.lockedOf (e.saved.getD k 0))
        s.placeUndo ticket ((List.range e.at_).map back) f
      | none =>
        let q : Placed := { frame := e.frame, part := e.part, asid := e.asid, va := e.va, entryAddr := e.entryAddr, saved := e.saved
                            prof := e.prof }
        let s1 := ((((s.dropPend ticket).onSkk fun k => { k with placed := k.placed ++ [q] }).wakeRegion e.entryAddr).ops pgSKK 1).pendNotice
          e 2 0
        let s2 := s1.storePlacement e.frame
        if s2.frameLeaves e.frame then s2.beginRecall e.frame else s2

/-! ## Recalls and releases -/

/-- A placed region's frame is free. -/
def State.dropPlaced (s : State) (frame : Nat) : State :=
  s.onSkk fun k => { k with placed := k.placed.filter (·.frame ≠ frame) }

/-- A notice about a placed region (R118). -/
def State.placedNotice (s : State) (e : Placed) (kind reason : Nat) (code : Code := 0) (changed : BitVec 16 := 0) : State :=
  s.notice e.part kind reason 0 e.asid code e.va (frameAddr e.frame) e.entryAddr changed

/-- RECALL or RELEASE names no completed placement of the partition (R121, R122). -/
def State.recallUnknown (s : State) (fn frame : Nat) : State :=
  (s.notice fn 6 5 0 0 0 0 (frameAddr frame) 0).skkFlag fn 5

/-- SKK_REQ RECALL (R121); a placement whose saved state is lost cannot be recalled (18_stored_data_protection.md R382). -/
def State.recall (s : State) (fn frame : Nat) : State :=
  match s.placed? frame with
  | some e =>
    if e.part = fn && !s.skk.lostFrames.any (·.2 = frame) then s.beginRecall frame else s.recallUnknown fn frame
  | none => s.recallUnknown fn frame

/-- An entry is device-valid with a frame inside a released frame, locked or not (R122). -/
def Profile.stillMaps (p : Profile) (frame : Nat) (e : Word) : Bool := !p.hostValid e && p.devValid e && p.frame e / 16 = frame

/-- SKK_REQ RELEASE: Skink reads the 16 entries (R122). -/
def State.release (s : State) (fn frame : Nat) : State :=
  match s.placed? frame with
  | some e =>
    if e.part ≠ fn then s.recallUnknown fn frame
    else
      let s1 := s.onPlaced frame fun e => { e with rel := e.rel + 1, lines := if e.rel = 0 then [] else e.lines }
      if e.rel = 0 then s1.readEntries e.part (.releaseRead frame) e.entryAddr else s1
  | none => s.recallUnknown fn frame

/-- The entries of a region that is to be released have been read (R122): it is freed, or stays; releases beyond the first name no
placement once it is freed. A failed read refuses the release (log entry 105). -/
def State.releaseEnds (s : State) (e : Placed) (code : Code) (es : List Word) : State :=
  let s1 := s.onPlaced e.frame fun e => { e with rel := 0, lines := [] }
  if code ≠ 0 then (List.range e.rel).foldl (fun t _ => t.placedNotice e 6 3 code) s1
  else if es.any ((s.profile e.prof).stillMaps e.frame) then (List.range e.rel).foldl (fun t _ => t.placedNotice e 6 6) s1
  else (List.range (e.rel - 1)).foldl (fun t _ => t.recallUnknown e.part e.frame) ((s1.dropPlaced e.frame).placedNotice e 8 0)

/-- Half `k` of the entries that a RELEASE reads arrives (R122). -/
def State.releaseLine (s : State) (frame k : Nat) (code : Code) (line : Granule) : State :=
  match s.placed? frame with
  | none => s
  | some e =>
    let ls := e.lines ++ [(k, code, line)]
    match entriesOf ls with
    | some (code, es) => s.releaseEnds e code es
    | none => s.onPlaced frame fun e => { e with lines := ls }

/-- Two values of an entry differ in ACCESSED and DIRTY only. -/
def Profile.sameButAd (p : Profile) (a b : Word) : Bool :=
  let bare (e : Word) : Word := setSlot (profSlot p.bitsA 5) (setSlot (profSlot p.bitsA 6) e false) false
  bare a = bare b

/-- A compare-and-swap of a recall is answered (R121 steps 2 and 5): an entry that host software has changed is left as it is, and the next
one follows. A walk may have set ACCESSED or DIRTY since: the lock is tried again from that value (log entry 106). One the home could not
make fails the recall (log entry 105). -/
def State.recallSwapped (s : State) (frame k : Nat) (code : Code) (old : Word) : State :=
  match s.placed? frame with
  | none => s
  | some e => match e.cas with
    | [] => s
    | (_, want, new) :: rest =>
      let p := s.profile e.prof
      if code ≠ 0 then s.onPlaced frame fun e => { e with cas := [], fail := some (4, code) }
      else if old = want then
        (s.onPlaced frame fun e => { e with cas := rest, vals := if e.rcl = .locking then e.vals.set k new else e.vals }).recallCasNext frame
      else if e.rcl = .locking && p.sameButAd old want then
        (s.onPlaced frame fun e => { e with cas := (k, old, setSlot (profSlot p.bitsB 3) old true) :: rest }).recallCasNext frame
      else
        (s.onPlaced frame fun e => { e with cas := rest, changed := e.changed ||| BitVec.ofNat 16 (2 ^ k) }).recallCasNext frame

/-- A recall fails: its entries stay locked, the region placed (R123). -/
def State.recallFails (s : State) (e : Placed) (reason : Nat) (code : Code) : State :=
  let s1 := (s.onPlaced e.frame fun e => { e with rcl := .failed, fail := none, cas := [] }).placedNotice e 6 reason code
  if code ≠ 0 then s1.skinkFault e.part e.asid e.va code else s1

/-- RECALL_LOCK_DONE: step 2 is done; step 3 starts (R121). -/
def State.recallLocked (s : State) (frame : Nat) : State :=
  match s.placed? frame with
  | some e =>
    if e.rcl ≠ .locking ∨ e.cas ≠ [] then s
    else match e.fail with
      | some (reason, code) => s.recallFails e reason code
      | none => (s.onPlaced frame fun e => { e with rcl := .draining }).internalInv (.recall frame) e.part
          (if (s.binding? e.asid).isSome then [e.asid] else []) e.va 16
  | none => s

/-- The next granule of a recall's copy is read from the device frame (R121 step 4). -/
def State.recallNext (s : State) (frame : Nat) : State :=
  match s.placed? frame with
  | some e =>
    if e.rcl = .copying && decide (e.at_ < 1024) && e.fail.isNone then
      let a := frameAddr frame + BitVec.ofNat 64 (64 * e.at_)
      (s.onPlaced frame fun x => { x with out := some (s.epochOf e.asid) }).nocRequest (Config.devicePort a.toNat % 4)
        { opc := 0x40, agent := 1404, addr := a } (.skinkRead frame e.at_)
    else s
  | none => s

/-- RECALL_DRAIN_DONE: step 3 is complete; the copy starts (R121). -/
def State.recallDrained (s : State) (frame : Nat) : State :=
  match s.drainedFrom (.recall frame), s.placed? frame with
  | some v, some e =>
    if e.rcl = .draining && e.out.isNone then ((s.dropInv v.id).onPlaced frame fun e => { e with rcl := .copying, at_ := 0 }).recallNext frame
    else s
  | some v, none => s.dropInv v.id
  | none, _ => s

/-- The access of a recall's copy that was outstanding has failed (R123). -/
def State.recallTrouble (s : State) (frame : Nat) (reason : Nat) (code : Code) : State :=
  s.onPlaced frame fun e => { e with out := none, fail := some (reason, code) }

/-- A granule of a recall's copy arrives from the device frame: it is written to its saved host frame (R121 step 4). -/
def State.recallRead (s : State) (frame : Nat) (code : Code) (data : Granule) : State :=
  match s.placed? frame with
  | none => s
  | some e =>
    if e.rcl ≠ .copying then s.onPlaced frame fun e => { e with out := none }
    else if code ≠ 0 then s.recallTrouble frame 3 code
    else s.forPart e.part (.copyWrite frame e.at_) fun t =>
      t.unitAsk (.copyWrite frame e.at_) .writeNoAlloc ((s.profile e.prof).hostGranule e.saved e.at_) data (part := e.part)

/-- A host write of a recall's copy is globally observed (R121 step 4). -/
def State.recallWrote (s : State) (frame : Nat) (code : Code) : State :=
  match s.placed? frame with
  | none => s
  | some e =>
    if e.rcl ≠ .copying then s.onPlaced frame fun e => { e with out := none }
    else if code ≠ 0 then s.recallTrouble frame 4 code
    else (s.onPlaced frame fun e => { e with out := none, at_ := e.at_ + 1 }).recallNext frame

/-- RECALL_COPY_DONE: step 4 is done and the entries are restored, or it has failed (R121, R123). -/
def State.recallCopied (s : State) (frame : Nat) : State :=
  match s.placed? frame with
  | some e =>
    if e.rcl ≠ .copying ∨ e.out.isSome then s
    else match e.fail with
      | some (reason, code) => s.recallFails e reason code
      | none =>
        if e.at_ < 1024 then s
        else
          let p := s.profile e.prof
          let ks := (List.range 16).filter fun k => !bit e.changed k
          let cas := ks.map fun k => (k, e.vals.getD k 0, p.restoredOf e.written (e.saved.getD k 0))
          (s.onPlaced frame fun e => { e with rcl := .restoring, cas := cas }).recallCasNext frame
  | none => s

/-- RECALL_CAS_DONE: step 5 is done; step 6 follows (R121). -/
def State.recallRestored (s : State) (frame : Nat) : State :=
  match s.placed? frame with
  | some e =>
    if e.rcl ≠ .restoring ∨ e.cas ≠ [] then s
    else match e.fail with
      | some (reason, code) => s.recallFails e reason code
      | none => ((s.dropPlaced frame).wakeRegion e.entryAddr).placedNotice e 5 (if e.changed = 0 then 0 else 2) 0 e.changed
  | none => s

/-! ## Hints and halving -/

/-- A COOL hint's region: its leaf entries are looked for (R124; 03_command_set.md R70; log entry 116). -/
def State.cool (s : State) (h : Hint) : State :=
  let id := 65536 + s.skk.lookNo
  (s.onSkk fun k => { k with
    lookNo := k.lookNo + 1, looks := k.looks ++ [{ id := id, part := h.part, asid := h.asid, va := regionOf h.va }] }).ask
    { who := .skink id, part := h.part, asid := h.asid, access := 0, va := regionOf h.va }

/-- The next hinted region is taken (R124, R70). -/
def State.hintNext (s : State) : State :=
  match s.skk.hints with
  | [] => s
  | h :: rest =>
    let s1 := s.onSkk fun k => { k with hints := rest }
    match h.kind with
    | 0 => s1.evaluate h.part h.asid h.va true
    | 1 =>
      match s1.skk.placed.find? fun e => e.part = h.part && e.asid = h.asid && e.va = h.va with
      | some e => s1.beginRecall e.frame
      | none => s1.hintLost h.part
    | _ => s1.cool h

/-- Regions enter the hint queue; those that do not fit are dropped (R124). -/
def State.hintRegions (s : State) (part asid : Nat) (kind : BitVec 2) (va : Word) (n : Nat) : State :=
  let take := min n (Config.hintQueue - s.skk.hints.length)
  let hs := (List.range take).map fun k => ({ kind := kind, part := part, asid := asid, va := va + BitVec.ofNat 64 (65536 * k) } : Hint)
  (s.onSkk fun k => { k with hints := k.hints ++ hs }).onSkkPart part
    fun k => { k with hintDropped := satAdd k.hintDropped (n - take) }

/-- Every counter halves (R114); SKK_DECAY 0 disables halving (R125). -/
def State.halve (s : State) : State :=
  if s.skk.decay = 0 then s
  else s.onSkk fun k => { k with count := (k.count.map fun (e : Nat × BitVec 16) => (e.1, e.2 >>> 1)).filter fun e => e.2 ≠ 0 }

/-! ## Stacks and channels (R116, R117) -/

/-- Pending placements whose copy has not started leave a stack that comes under notice (R116). -/
def State.thermalFrames (s : State) (stack : Nat) : State :=
  (s.skk.pending.filter fun e => frameStack e.frame = stack &&
    (e.st = .reading || e.st = .asked || e.st = .draining || e.st = .rereading)).foldl State.reframe s

/-- Placed regions of a channel that is mapped out are recalled (R117). -/
def State.recallChannel (s : State) (stack chan : Nat) : State :=
  (s.skk.placed.filter fun e => frameStack e.frame = stack && (Config.frameChan e.frame).val = chan).foldl
    (fun t e => t.beginRecall e.frame) s

/-! ## The drain limit and the end of an invalidation (R108, R112) -/

/-- A record of a holder ended, or a client disabled (R112). -/
def State.drainRecord (s : State) (v : Inv) (code : Code) (source engine : Nat) (req : BitVec 32) (asid : Nat) : State :=
  let e := match v.asids.find? (·.1 = asid) with | some x => x.2 | none => 0
  let desc := match v.from_ with | .desc _ a _ => a | _ => 0
  s.fault 3 code (s.asidPart asid) source engine req
    [desc, place asid 0 ||| place e.toNat 32, v.va, BitVec.ofNat 64 v.pages, 0, 0]

/-- A command of a channel that a context still serves, dispatched or ended by STOP (R113). -/
def State.heldCmd (s : State) (k n : Nat) : Option Cmd := (s.chan k).cmds.find? (·.num = n)

/-- A holder that the drain limit can end: not work whose slot a destroy has freed, nor posted writes that outlive theirs. -/
def State.endable (s : State) (h : Holder) : Bool :=
  match h with
  | .mover m u => (match (s.job m u).work with
    | some (.chan k n) => (s.heldCmd k n).isSome
    | some (.plan _) => true
    | none => false)
  | .stray _ => false
  | _ => true

/-- A holder still in the drain is ended (R112): a RETIRING channel's segment ends as STOP ends it, for the channel takes no code (02 R37). -/
def State.endHolder (s : State) (v : Inv) (h : Holder) : State :=
  let a0 := match v.asids with | [] => 0 | a :: _ => a.1
  match h with
  | .mover m u =>
    let j := s.job m u
    let asid := (s.jobAsid j).getD a0
    match j.work with
    | some (.chan k n) => match s.heldCmd k n with
      | none => s
      | some c =>
        let s1 := s.drainRecord v 0x21 0 (s.chan k).owner.num (s.handleOf k) asid
        if (s.chan k).st = .retiring then s1.endCmds k fun x => x.num = n else s1.killChannel k 0x21 c.faultSeq c.inl
    | some (.plan i) =>
      (s.drainRecord v 0x21 2 ((s.chanter (s.entry i)).getD .A).num (s.entryHandle i) asid).failWork (.plan i) 0x21
    | none => s
  | .inbound src psn =>
    match (s.rxFlow src).pkts.find? (·.psn = psn) with
    | none => s
    | some p =>
      let ks := dedup (p.held.map (·.k) ++ p.raw.map (·.1))
      let x (k : Nat) : XReq := { who := .inbound src psn k, part := 0, asid := 0, access := 1, va := 0 }
      ((s.drainRecord v 0x21 3 0 (BitVec.ofNat 32 (src <<< 16 + p.h.window.toNat)) p.asid).onXlt
        fun t => { t with inbound := t.inbound ++ ks.map fun k => (x k, 0x21, none) }).onRx src
        fun f => { f with pkts := f.pkts.map fun q => if q.psn = psn then { q with killed := true } else q }
  | .stray _ => s
  | .skink ticket =>
    match s.pend? ticket with
    | some e => (s.drainRecord v 0x21 4 0 0 e.asid).placeUndo ticket (s.unlocks e) (7, 0, 0)
    | none => s
  | .recall frame =>
    match s.placed? frame with
    | some e => (s.drainRecord v 0x21 4 0 0 e.asid).recallFails e 7 0
    | none => s

/-- A client that has not acknowledged is disabled (R111). -/
def State.disableClient (s : State) (v : Inv) (c : Nat) : State :=
  let a0 := match v.asids with | [] => 0 | a :: _ => a.1
  (s.drainRecord v 0x25 1 0 (BitVec.ofNat 32 c) a0).onXlt
    fun t => { t with client := tabMod (fun _ => {}) t.client c fun (x : Client) => { x with en := false } }

/-- The drain limit expires (R112). -/
def State.drainExpired (s : State) (id : Nat) : State :=
  match s.xlt.invs.find? fun v => v.id = id && v.begun && !v.expired with
  | none => s
  | some v =>
    let hs := v.holders.filter fun h => s.holds v h && s.endable h
    let cs := dedup v.clients
    let s1 := hs.foldl (fun t h => t.endHolder v h) s
    let s2 := cs.foldl (fun t c => t.disableClient v c) s1
    let ws := hs.filterMap fun h => match h with
      | .mover m u => (s.job m u).work.map fun w => match w with | .chan k _ => k | .plan i => Config.channels + i
      | _ => none
    let done (x : Inv) : Inv := { x with
      expired := true, ended := hs ≠ [] || cs ≠ [], killed := (dedup ws).length, disabled := cs.length, clients := [] }
    s2.onXlt fun t => { t with invs := t.invs.map fun x => if x.id = id then done x else x }

/-- A descriptor's invalidation is complete (R108). -/
def State.invComplete (s : State) (id : Nat) : State :=
  match s.xlt.invs.find? fun v => v.id = id && s.drained v with
  | none => s
  | some v =>
    match v.from_ with
    | .desc fn a event =>
      (s.dropInv id).invResult fn a event (!v.ended) (if v.ended then 4 else 0) v.disabled v.killed
    | _ => s

end Sys2Proof.Machine
end

