-- ==== Sys2Proof/Machine/Movers.lean ====
section
/-! DEFINITION. Movers: what a context reads, converts and writes, Reed, completion, failure and the idle context
(06_movers.md R127 to R149; 07_number_formats_and_ccu.md R159 to R167). -/

namespace Sys2Proof.Machine

/-! ## The staging SRAM (R145 to R148) -/

/-- A staging byte: one that nothing has written reads 0 (log entry 15). -/
def State.stagingByte (s : State) (a : Nat) : Byte := tabGet (fun _ => 0) s.mov.staging a

/-- Staging bytes written at an address; a word written is lost no more (18_stored_data_protection.md R369). -/
def State.stagingWrite (s : State) (a : Nat) : List Byte → State
  | [] => s
  | b :: r => (s.onMov fun v => { v with
      staging := tabPut (fun _ => 0) v.staging a b, lostWords := v.lostWords.filter (· ≠ a / 8) }).stagingWrite (a + 1) r

/-- 64 staging bytes. -/
def State.stagingGranule (s : State) (a : Nat) : Granule := granOf ((List.range 64).map fun k => s.stagingByte (a + k))

/-! ## The work of a context -/

/-- The dispatched command, or descriptor, that a context serves. -/
def State.workCmd (s : State) : Work → Option Cmd
  | .chan k n => s.cmdOf k n
  | .plan i => (s.entry i).run.bind fun c => if c.st = .dispatched then some c else none

/-- The channel a context works for: a descriptor's is its OWNER. -/
def State.workSlot (s : State) : Work → Nat
  | .chan k _ => k
  | .plan i => hSlot (s.entry i).owner

/-- Its ASID. -/
def State.workAsid (s : State) (w : Work) : Nat := (s.chan (s.workSlot w)).asid

/-- The command or descriptor changed. -/
def State.onWork (s : State) (w : Work) (f : Cmd → Cmd) : State :=
  match w with
  | .chan k n => s.onChan k fun c => { c with cmds := c.cmds.map fun x => if x.num = n then f x else x }
  | .plan i => s.onEntry i fun e => { e with run := e.run.map f }

/-- Source granules of a segment (R21); an INLINE_WRITE has one for each granule its bytes touch (R132). -/
def DataOp.granules (d : DataOp) (seg : Nat) : Nat :=
  match d.op with
  | 0x04 => (d.dst.toNat % 64 + d.total + 63) / 64
  | 0x0B => 1
  | 0x11 => 1
  | _ => d.segBytes seg / 64

/-- Source granules that make up whole destination granules. -/
def DataOp.group (d : DataOp) : Nat := max 1 (elemBytes d.conv.sfmt / elemBytes d.conv.dfmt)

/-- Byte offset of source granule `g` of a segment within the source. -/
def srcOff (seg g : Nat) : Nat := 65536 * seg + 64 * g

/-- Element at source granule `g` of a segment. -/
def DataOp.elemAt (d : DataOp) (seg g : Nat) : Nat := srcOff seg g / elemBytes d.conv.sfmt

/-- Offset of its destination bytes. -/
def DataOp.dstOff (d : DataOp) (seg g : Nat) : Nat := if d.dstFixed then 0 else d.elemAt seg g * elemBytes d.conv.dfmt

/-- Destination bytes of `n` source granules. -/
def DataOp.dstLen (d : DataOp) (n : Nat) : Nat := 64 * n / elemBytes d.conv.sfmt * elemBytes d.conv.dfmt

/-- OP, TYPE, OPERAND and COMPARE of an ATOMIC. -/
def Cmd.atomicOp (c : Cmd) : AtomicOp :=
  let g := c.first
  { op := field (slotCtl g) 3 0, type := field (slotCtl g) 7 4, operand := granWord g 0x20, compare := granWord g 0x28 }

/-- The data leaves for a peer. -/
def Cmd.toPeer (c : Cmd) : Bool := c.dest ≠ .local_

/-- The mover converts or combines: a COPY_CONVERT, or a REDUCE_PUT to this chip's memory (R63, R276). -/
def Cmd.converts (c : Cmd) : Bool := c.op = 0x02 || (c.op = 0x05 && !c.toPeer)

/-! ## Places in memory -/

/-- Where an address of a context lies. -/
structure Loc where
  device : Bool
  addr : Word
  epoch : BitVec 32
deriving DecidableEq, Repr

/-- The path that carries reads, or writes, of a place (R136). -/
def State.pathOf (s : State) (l : Loc) (write : Bool) : Nat :=
  if l.device then (if write then 9 else 8) else (s.cacheLink l.addr).getD 0 + (if write then 4 else 0)

/-- The path of a command's write: a posted one is on that of the link that carries it (R136; 14_host_link_endpoint.md R320). -/
def State.writePath (s : State) (w : Work) (c : Cmd) (l : Loc) (post : Bool) : Nat :=
  if !l.device && post && c.data.posted then (s.ioLink (s.workPart w) l.addr).getD 0 + 4 else s.pathOf l true

/-- An access that needs a place: its right, its address, and whether it lies in the range of SRC or DST whose place a resolved descriptor
has recorded (10_drone_and_chanter.md R227). -/
structure Ask where
  access : BitVec 2
  va : Word
  own : Bool := false
deriving DecidableEq, Repr

/-- The path to a peer: its egress port, or the NoC for the chip itself (12 R272). -/
def State.peerPath (s : State) (c : Cmd) : Nat :=
  if s.isSelf c.win.chip then 9 else 10 + min 11 (s.egress c.win.chip)

/-- The page of a mover's Eft that serves an address for a partition's work: its ASID must still be bound to that partition
(04_translation.md R80, R81). -/
def State.eftPage (s : State) (m : Nat) (w : Work) (va : Word) : Option Page :=
  match s.binding? (s.workAsid w) with
  | none => none
  | some b => if b.part = s.workPart w && !b.closing then (s.eftFind m (s.workAsid w) va).map (·.2) else none

/-- The recorded place of a side of a resolved descriptor (10_drone_and_chanter.md R227, R229). -/
def recordedLoc (c : Cmd) (dst : Bool) (off : Nat) : Loc :=
  let a := if dst then c.dstPa else c.srcPa
  { device := !bit a 63, addr := (a &&& 0x7FFFFFFFFFFFFFFF) + BitVec.ofNat 64 off, epoch := c.paEpoch }

/-- An access takes the place its descriptor has recorded: that of SRC or DST, while the epoch it was resolved at stands (R227, R229). -/
def State.fromRecord (s : State) (w : Work) (c : Cmd) (x : Ask) : Bool :=
  match w with
  | .plan _ => c.resolved && x.own && (x.access ≠ 0 || c.data.reads) && c.paEpoch = s.epochOf (s.workAsid w)
  | .chan .. => false

/-- Where an access lies: as recorded, or by the mover's Eft; none while it must be translated. -/
def State.locate (s : State) (m : Nat) (w : Work) (c : Cmd) (x : Ask) : Option Loc :=
  if s.fromRecord w c x then
    some (recordedLoc c (x.access ≠ 0) (x.va.toNat - (if x.access = 0 then c.data.src else c.data.dst).toNat))
  else (s.eftPage m w x.va).bind fun g =>
    if g.serves x.access then some { device := g.device, addr := g.at x.va, epoch := g.epoch } else none

/-- A context asks for a translation, once (R96 withdraws it with the work). -/
def State.wantPage (s : State) (m : Nat) (u : Bool) (w : Work) (x : Ask) : State :=
  if (s.job m u).wants.contains x.va then s
  else (s.onJob m u fun j => { j with wants := j.wants ++ [x.va] }).ask
    { who := .mover m u, part := s.workPart w, asid := s.workAsid w, access := x.access, va := x.va }

/-- Every place in a list is known, or the missing ones are asked for. -/
def State.locateAll (s : State) (m : Nat) (u : Bool) (w : Work) (c : Cmd) (xs : List Ask) : Option (List Loc) × State :=
  let ls := xs.map (s.locate m w c)
  if ls.all Option.isSome then (some (ls.filterMap id), s)
  else (none, (xs.filter fun x => (s.locate m w c x).isNone).foldl (fun t x => t.wantPage m u w x) s)

/-- The Eft hits of a transfer, one for each page it touches (05_invalidation_and_placement.md R114): a recorded place takes none. A placed
region that it writes is marked written (05 R121). -/
def State.hitPages (s : State) (m : Nat) (w : Work) (c : Cmd) (xs : List Ask) : State :=
  let found := (xs.filter fun x => !s.fromRecord w c x).filterMap fun x => (s.eftFind m (s.workAsid w) x.va).map fun g => (x.access, g)
  let s1 := (dedup (found.map (·.2.1))).foldl (fun t e => t.eftHit m e) s
  (found.filter (·.1 ≠ 0)).foldl (fun t x => t.markWritten x.2.2) s1

/-- A new access keeps a holder within four epoch tags (05 R109). -/
def Job.tagsOk (j : Job) (new : List (BitVec 32)) : Bool := decide ((dedup ((j.tags ++ new).map (·.toNat))).length ≤ 4)

/-! ## Writes -/

/-- A response is awaited for a write or an atomic. -/
def State.awaitWrite (s : State) (m : Nat) (u host : Bool) (epoch : BitVec 32) : State :=
  s.onJob m u fun j => { j with writes := j.writes ++ [(host, epoch)] }

/-- Bytes of one granule are written to local memory (R132, R140; 03_command_set.md R59, R63). Its segment's last granule in source
order is kept when it carries elements. The links of posted writes are kept for the FENCEs of the channel whose command posts them
(03 R77). -/
def State.writeLocal (s : State) (m : Nat) (u : Bool) (w : Work) (c : Cmd) (l : Loc) (x : Wr) : State :=
  let p := s.workPart w
  let o := l.addr.toNat % 64
  let a := l.addr &&& 0xFFFFFFFFFFFFFFC0
  let data := granOf (List.replicate o 0 ++ x.bytes)
  let be := enables o x.bytes.length
  let mark (t : State) (y : LastWr) : State :=
    if x.elem && decide ((t.job m u).lastOrd ≤ x.ord) then t.onJob m u fun j => { j with last := y, lastEpoch := l.epoch, lastOrd := x.ord }
    else t
  if l.device then
    let port := Config.devicePort a.toNat % 4
    let msg : NocMsg := match x.red with
      | none => { opc := 0x41, agent := 1280 + m, addr := a, be := be, data := data }
      | some r => { opc := 0x43, agent := 1280 + m, addr := a, be := be, data := data, red := r }
    ((mark s (.device port a)).awaitWrite m u false l.epoch).nocRequest port msg (.write m u l.epoch)
  else if x.red.isSome then s.failWork w 0x07
  else if !s.masterEnabled p then s.failWork w 0x42
  else if c.data.posted && x.post then
    match s.ioLink p a with
    | none => s.failWork w 0x42
    | some k =>
      let post (y : Chan) : Chan := if y.posted.contains k then y else { y with posted := y.posted ++ [k] }
      let s1 := match w with | .chan n _ => s.onChan n post | .plan _ => s
      ((mark s1 (.posted k a)).onJob m u fun j => { j with posts := j.posts ++ [(k, a, l.epoch)] }).emit
        (.posted k p l.addr x.bytes (s.inst k p).ro (s.inst k p).ido)
  else
    ((mark s (.host a)).awaitWrite m u true l.epoch).homeAsk
      { who := .unit (.moverWrite m u l.epoch), kind := .writeNoAlloc, addr := a, data := data, be := be, part := p }

/-- A peer packet of the bytes collected, tagged with the epoch of its ASID (12_peer_windows_and_transport.md R268, R276; 05 R109). -/
def State.flushPeer (s : State) (m : Nat) (u : Bool) (c : Cmd) (last : Bool) : State :=
  let j := s.job m u
  let e := c.win
  let d := c.data
  let bs := chunks 256 j.peerBuf ++ (if j.peerScale = [] then [] else [j.peerScale])
  let n := bs.length
  let lastLen := (bs.getLast?.getD []).length
  let arg := if d.op = 0x05 then d.conv.sfmt + d.conv.dfmt <<< 4 + d.conv.mode <<< 8 + d.redOp <<< 12 else lastLen
  let hd := s.header (if d.op = 0x05 then 2 else 1) e.chip
  let (psn, s1) := s.sendPkt e.chip { hd with
    last := last, blocks := BitVec.ofNat 5 n, mask := BitVec.ofNat 16 (2 ^ n - 1), window := e.w3.extractLsb' 16 16
    tag := e.w3.extractLsb' 32 16, body := BitVec.ofNat 64 j.peerAt, arg := BitVec.ofNat 32 arg }
    ((List.range n).zip bs) (.mover m u) c.flowNo
  let tag := s.epochOf j.asid
  s1.onJob m u fun j => { j with peerBuf := [], peerScale := [], peerSrc := 0, last := .peer, packets := j.packets ++ [(e.chip, psn, tag)] }

/-- Bytes for a peer are collected into packets: 4 KiB of data, or 15 blocks of MXFP8 elements (12 R268, R276); a fixed
destination takes a packet for each granule. -/
def State.writePeer (s : State) (m : Nat) (u : Bool) (c : Cmd) (x : Wr) : State :=
  let s1 := s.onJob m u fun j => { j with
    peerAt := if j.peerBuf = [] then x.at_ else j.peerAt, peerBuf := j.peerBuf ++ x.bytes, peerScale := j.peerScale ++ x.scales
    peerSrc := j.peerSrc + x.src }
  let full := if (s1.job m u).peerScale = [] then 4096 else 3840
  if x.last || c.data.dstFixed || decide (full ≤ (s1.job m u).peerBuf.length) then s1.flushPeer m u c x.last else s1

/-- The window offset of an offset into the destination; for REDUCE_PUT the element index there (12 R260, R268, R276). -/
def Cmd.peerOff (c : Cmd) (off : Nat) : Nat :=
  let b := c.data.dst.toNat - c.win.lo + off
  if c.op = 0x05 then b / elemBytes c.data.conv.dfmt else b

/-! ## Turns on the paths (R133 to R135) -/

/-- A write waits for its turn on its path (R133). -/
def State.queueWrite (s : State) (m : Nat) (u : Bool) (x : Wr) : State := s.onJob m u fun j => { j with wq := j.wq ++ [x] }

/-- A write of a command to a place, as it waits for its turn; `post`: posted where DST_POSTED is set. -/
def State.wrAt (s : State) (w : Work) (c : Cmd) (post : Bool) (burst : Nat) (l : Loc) (bs : List Byte) : Wr :=
  { path := s.writePath w c l post, burst := burst, loc := some (l.device, l.addr, l.epoch), bytes := bs, post := post }

/-- A transfer whose source data takes `src` granules of the buffer gives them up with the last of its writes (R128). -/
def lastTakes (src : Nat) : List Wr → List Wr
  | [] => []
  | [x] => [{ x with src := src }]
  | x :: r => x :: lastTakes src r

/-- Granules of read data a context has requested and not yet written (R128). -/
def Job.buffered (j : Job) : Nat :=
  j.reads.length + j.acc.length + j.acc2.length + (j.wq.foldl (fun n x => n + x.src) 0) + j.peerSrc

/-- A read of a context that waits for its turn on a path. -/
def Job.readOn (j : Job) (p : Nat) : Option Rd := j.reads.find? fun r => !r.sent && r.path = p

/-- A read of a context waits for its turn. -/
def Job.readWaits (j : Job) : Bool := j.reads.any fun r => !r.sent

/-- The write of a context whose turn on a path is next: those of one peer go out in their order (12_peer_windows_and_transport.md R268). -/
def Job.writeOn (j : Job) (p : Nat) : Option Wr :=
  (j.wq.find? (·.path = p)).filter fun x => x.loc.isSome || j.wq.find? (·.loc.isNone) = some x

/-- A write may go out: one to a peer needs no fifth epoch tag (05 R109). -/
def State.mayWrite (s : State) (m : Nat) (u : Bool) (x : Wr) : Bool :=
  let j := s.job m u
  x.loc.isSome || j.tagsOk [s.epochOf j.asid]

/-- An ATOMIC goes to the memory-side adders, with byte enables of its operand alone (R132; 03 R69). -/
def State.sendAtomic (s : State) (m : Nat) (u : Bool) (c : Cmd) (l : Loc) : State :=
  let op := c.atomicOp
  (s.awaitWrite m u false l.epoch).nocRequest (Config.devicePort l.addr.toNat % 4)
    { opc := 0x42, agent := 1280 + m, addr := l.addr, be := enables (l.addr.toNat % 64) (typeBits op.type / 8)
      data := granOfWords [BitVec.ofNat 64 (op.op + op.type <<< 4), op.operand, op.compare] } (.atomic m u l.epoch)

/-- A write of a context that waits goes out. -/
def State.sendWrite (s : State) (m : Nat) (u : Bool) (w : Work) (c : Cmd) (x : Wr) : State :=
  let s1 := s.onJob m u fun j => { j with wq := dropFirst (fun y => y = x) j.wq }
  match x.loc, c.dest with
  | some (device, addr, epoch), _ =>
    let l : Loc := { device := device, addr := addr, epoch := epoch }
    if x.atomic then s1.sendAtomic m u c l else s1.writeLocal m u w c l x
  | none, .peer _ => s1.writePeer m u c x
  | none, .local_ => s1

/-- A read of a context that waits goes out (R128). -/
def State.sendRead (s : State) (m : Nat) (u : Bool) (w : Work) (r : Rd) : State :=
  let s1 := s.onJob m u fun j => { j with reads := modFirst (fun x => x = r) (fun r => { r with sent := true }) j.reads }
  if !r.host then
    s1.nocRequest (Config.devicePort r.addr.toNat % 4) { opc := 0x40, agent := 1280 + m, addr := r.addr } (.read m u r.kind r.idx)
  else if !s.masterEnabled (s.workPart w) then s.failWork w 0x42
  else s1.homeAsk { who := .unit (.moverRead m u r.kind r.idx), kind := .readNoAlloc, addr := r.addr, part := s.workPart w }

/-! ## Converting what has arrived -/

/-- Scale bytes of source granule `g` of a segment within its scale granule. -/
def scaleBytes (sc : Granule) (g n : Nat) : List Byte := ((granBytes sc).drop (g % 32 * 2)).take (2 * n)

/-- The context's segment is wholly written. -/
def Job.written (j : Job) : Bool := j.used = j.total && j.peerBuf = [] && j.wq = []

/-- The burst that source granule `g` of a segment belongs to (R133); the CRC word is a burst of its own. -/
def burstOf (g : Nat) : Nat := g / 64

/-- The burst of the CRC word, after the 16 a segment has. -/
def crcBurst : Nat := 16

/-- The last write has been issued: a pre-empted Bulk context resumes (R134). -/
def State.afterWrite (s : State) (m : Nat) (u : Bool) : State :=
  if (s.job m u).written then
    let s1 := s.onJob m u fun j => if j.st = .running ∨ j.st = .held then { j with st := .completing } else j
    if u then s1.resumeBulk m else s1
  else s

/-- The destination accesses of a context's next group, granule by granule. -/
def DataOp.groupVas (d : DataOp) (seg g : Nat) : List Ask :=
  (List.range ((d.dstLen d.group + 63) / 64)).map fun k =>
    { access := 1, va := d.dst + BitVec.ofNat 64 (d.dstOff seg g + 64 * k), own := true }

/-- The epochs of the accesses that a context's next group needs, once its places are known: its peer's tag, or its places'. -/
def State.groupTags (s : State) (m : Nat) (w : Work) (c : Cmd) (j : Job) : Option (List (BitVec 32)) :=
  if c.toPeer then some [s.epochOf j.asid]
  else
    let ls := (c.data.groupVas j.seg j.used).map (s.locate m w c)
    if ls.all Option.isSome then some ((ls.filterMap id).map (·.epoch)) else none

/-- The next group may be written: its places are known and it needs no fifth epoch tag (05 R109). -/
def State.groupPlaced (s : State) (m : Nat) (w : Work) (c : Cmd) (j : Job) : Bool :=
  match s.groupTags m w c j with | some ts => j.tagsOk ts | none => false

/-- The next group waits for an epoch tag (05 R109). -/
def State.tagBlocked (s : State) (m : Nat) (w : Work) (c : Cmd) (j : Job) : Bool :=
  match s.groupTags m w c j with | some ts => !j.tagsOk ts | none => false

/-- What a converted group leaves: its destination scales, and its part of the CRC (07 R160, R164). -/
def Job.formed (j : Job) (d : DataOp) (out sc : List Byte) : Job :=
  { j with
    outScale := if d.dstScaled then j.outScale ++ sc else j.outScale, crc := crcBytes j.crc out, crcLen := j.crcLen + out.length
    crcScale := if d.dstScaled then j.crcScale ++ sc else j.crcScale }

/-- One group of source granules is converted, and its writes wait for their turn (R132, R140; 07 R159 to R164): nothing changes but the
translations asked for while a place is missing, and none is written that would give the context a fifth epoch tag (05 R109). -/
def State.convertGroup (s : State) (m : Nat) (u : Bool) (w : Work) (c : Cmd) : Bool × State :=
  let j := s.job m u
  let d := c.data
  let n := d.group
  let g := j.used
  let off := d.dstOff j.seg g
  let final : Bool := decide (j.total ≤ g + n)
  let taken := n * (if d.combines then 2 else 1)
  let src := (j.acc.take n).map granBytes |>.flatten
  let src2 := (j.acc2.take n).map granBytes |>.flatten
  let take (x : Job) : Job := { x with acc := x.acc.drop n, acc2 := if d.combines then x.acc2.drop n else x.acc2, used := x.used + n }
  let toPeer (t : State) (bs sc : List Byte) : State := t.queueWrite m u
    { path := s.peerPath c, burst := burstOf g, at_ := c.peerOff off, bytes := bs, scales := sc, last := final, src := taken }
  match c.dest with
  | .peer _ =>
    if !s.groupPlaced m w c j then (false, s)
    else if c.op = 0x05 then (true, toPeer (s.onJob m u take) src (if d.srcScaled then scaleBytes j.scale g n else []))
    else
      let (out, sc, s1) := if c.op = 0x02 then s.convert (s.workPart w) d.conv src (scaleBytes j.scale g n) src2 (scaleBytes j.scale2 g n)
        else (src, [], s)
      (true, toPeer (s1.onJob m u fun x => (take x).formed d out sc) out [])
  | .local_ =>
    match s.locateAll m u w c (d.groupVas j.seg g) with
    | (none, s1) => (false, s1)
    | (some ls, s1) =>
      if !j.tagsOk (ls.map (·.epoch)) then (false, s1) else
      let (out, sc, s2) := if c.converts then
          s1.convert (s1.workPart w) d.conv src (scaleBytes j.scale g n) src2 (scaleBytes j.scale2 g n)
        else (src, [], s1)
      let s3 := s2.onJob m u fun x => (take x).formed d out sc
      let red : Option Byte := if c.op = 0x05 then some (BitVec.ofNat 8 (d.redOp + d.conv.dfmt <<< 4)) else none
      let ps := ls.zip (chunks 64 out)
      let ws := ((List.range ps.length).zip ps).map fun (x : Nat × (Loc × List Byte)) =>
        { s3.wrAt w c true (burstOf g) x.2.1 x.2.2 with red := red, elem := true, ord := 64 * g + x.1 }
      (true, (lastTakes taken ws).foldl (fun t x => t.queueWrite m u x) s3)

/-- A whole granule of destination scales is written, posted with DST_POSTED as the elements are (07 R159, R160; 03 R61; log entry 24:
SCALE is a local address). -/
def State.writeScales (s : State) (m : Nat) (u : Bool) (w : Work) (c : Cmd) : Bool × State :=
  let j := s.job m u
  let d := c.data
  let done := d.elemAt j.seg j.used / 32 - j.outScale.length
  let va := d.scale + BitVec.ofNat 64 done
  match s.locateAll m u w c [{ access := 1, va := va }] with
  | (some (l :: _), s1) =>
    if !j.tagsOk [l.epoch] then (false, s1)
    else (true, (s1.onJob m u fun x => { x with outScale := x.outScale.drop 64 }).queueWrite m u
      (s1.wrAt w c true (burstOf (j.used - 1)) l (j.outScale.take 64)))
  | (_, s1) => (false, s1)

/-- With SRC_FIXED, one read granule serves the granules of its burst (R131). -/
def State.writeFixed (s : State) (m : Nat) (u : Bool) (w : Work) (c : Cmd) : Bool × State :=
  let j := s.job m u
  let d := c.data
  let g := j.used
  let final := decide (j.total ≤ g + 1)
  let full := decide ((g + 1) % 64 = 0) || final
  let taken := if full then 1 else 0
  let bs := granBytes (j.acc.headD 0)
  let take (x : Job) : Job := { x with used := g + 1, acc := if full then x.acc.drop 1 else x.acc }
  let off := if d.dstFixed then 0 else srcOff j.seg g
  match c.dest with
  | .peer _ =>
    if !j.tagsOk [s.epochOf j.asid] then (false, s)
    else (true, (s.onJob m u take).queueWrite m u
      { path := s.peerPath c, burst := burstOf g, at_ := c.peerOff off, bytes := bs, last := final, src := taken })
  | .local_ =>
    match s.locateAll m u w c [{ access := 1, va := d.dst + BitVec.ofNat 64 off, own := true }] with
    | (some (l :: _), s1) =>
      if !j.tagsOk [l.epoch] then (false, s1)
      else (true, (s1.onJob m u take).queueWrite m u { s1.wrAt w c true (burstOf g) l bs with elem := true, ord := 64 * g, src := taken })
    | (_, s1) => (false, s1)

/-- The CRC-32C of a command's destination bytes, from its segments' partials. -/
def Cmd.crcValue (c : Cmd) : BitVec 32 :=
  let parts := (List.range (2 * c.segs)).filterMap fun k => c.crcs.find? (·.1 = k)
  crcFinal (parts.foldl (fun a x => crcJoin a x.2.2 x.2.1) 0xFFFFFFFF)

/-- A CRC CHECK reads its word (03_command_set.md R61): a mismatch fails the work with 0x09. -/
def State.checkCrc (s : State) (m : Nat) (u : Bool) (w : Work) (c : Cmd) (g : Granule) : State :=
  if granHalf g (c.data.crcAddr.toNat % 64) = c.crcValue then s.onJob m u fun j => { j with rb := .back }
  else s.failWork w 0x09

/-- The next read in order is used, if its data is there. -/
def State.useRead (s : State) (m : Nat) (u : Bool) (w : Work) (c : Cmd) : Bool × State :=
  let j := s.job m u
  match j.reads with
  | [] => (false, s)
  | r :: rest =>
    match r.data with
    | none => (false, s)
    | some g =>
      let s1 := s.onJob m u fun x => { x with
        reads := rest, acc := if r.kind = .src then x.acc ++ [g] else x.acc, acc2 := if r.kind = .src2 then x.acc2 ++ [g] else x.acc2
        scale := if r.kind = .scale then g else x.scale, scale2 := if r.kind = .scale2 then g else x.scale2 }
      (true, if r.kind = .crc then s1.checkCrc m u w c g else s1)

/-- A group of source granules is there to be converted. -/
def Job.grouped (j : Job) (d : DataOp) : Bool :=
  !d.srcFixed && d.reads && decide (d.group ≤ j.acc.length) && (!d.combines || decide (d.group ≤ j.acc2.length))

/-- One step of a context's data path: scales, then a group, then the next read. Planned traffic takes no turns (10_drone_and_chanter.md
R230); what else converts waits for its turn at the CCU input (R133, R136). -/
def State.pumpStep (s : State) (m : Nat) (u : Bool) (w : Work) (c : Cmd) : Bool × State :=
  let j := s.job m u
  let d := c.data
  match (if j.planned then j.reads.find? (fun r => !r.sent) else none), (if j.planned then j.wq.find? (s.mayWrite m u) else none) with
  | some r, _ => (true, s.sendRead m u w r)
  | none, some x => (true, s.sendWrite m u w c x)
  | none, none => if 64 ≤ j.outScale.length then s.writeScales m u w c
  else if d.srcFixed && j.acc ≠ [] && decide (j.used < j.nextG) then s.writeFixed m u w c
  else if j.grouped d then (if c.converts && !j.planned then (false, s) else s.convertGroup m u w c)
  else s.useRead m u w c

/-- A context's data path runs until it lacks data or a place; `fuel` bounds its steps. -/
def State.pumpData (s : State) (m : Nat) (u : Bool) : Nat → State
  | 0 => s
  | fuel + 1 =>
    match (s.job m u).work with
    | none => s
    | some w => match s.workCmd w with
      | none => s
      | some c =>
        if (s.job m u).st = .draining then s
        else
          let (more, s1) := s.pumpStep m u w c
          if more then s1.pumpData m u fuel else s1

/-! ## The end of a segment (R140) -/

/-- A link has no room for another non-posted request (R308: at most 64). -/
def State.npFull (s : State) (k : Nat) : Bool := decide (64 ≤ (s.hlk.np.filter (·.link = k)).length)

/-- A zero-length read on a link; none where it has no room. -/
def State.zeroRead (s : State) (k fn : Nat) (a : Word) (h : NpHolder) : Option State :=
  if s.npFull k then none
  else
    let tag : Nat := tabGet (fun _ => 0) s.hlk.nextTag k
    some ((s.onHlk fun x => { x with
      np := x.np ++ [{ link := k, tag := tag, fn := fn, holder := h }], nextTag := tabPut (fun _ => 0) x.nextTag k ((tag + 1) % 16384) }).emit
        (.zeroRead k fn tag a))

/-- The link and the address of the last posted write on each link that carried one. -/
def Job.postedLinks (j : Job) : List (Nat × Word) :=
  (dedup (j.posts.map (·.1))).filterMap fun k => (j.posts.reverse.find? (·.1 = k)).map fun x => (k, x.2.1)

/-- A segment's end reads back its last granule: not a CRC word's, an ATOMIC's, a reduction's, nor where it went to a peer (R140, R141). -/
def Job.readsBack (j : Job) (c : Cmd) : Bool :=
  !j.crcPhase && c.op ≠ 0x0B && c.op ≠ 0x05 && !c.toPeer && (match j.last with | .device .. | .host _ => true | _ => false)

/-- The read-back of a segment is issued (R140, R141): a read of its last granule on the port or link that carried its write, and a
zero-length read on every link that carried posted writes of the segment, for its pulse leaves when every write is observed (R141;
08_memory_model.md R179). -/
def State.readBack (s : State) (m : Nat) (u : Bool) (w : Work) (c : Cmd) : State :=
  let j := s.job m u
  let p := s.workPart w
  let own := j.readsBack c
  let posts := j.postedLinks
  let host : Bool := posts ≠ [] || (own && (match j.last with | .host _ => true | _ => false))
  let out : State := s.onJob m u fun j => { j with rb := .out, rbs := own.toNat + posts.length }
  let zeros : State := posts.foldl (fun t x => (t.zeroRead x.1 p x.2 (.readback m u)).getD t) out
  if !own && posts = [] then s.onJob m u fun j => { j with rb := .back }
  else if host && !s.masterEnabled p then s.failWork w 0x42
  else if posts.any fun x => s.npFull x.1 then s
  else if !own then zeros
  else match j.last with
    | .device port a => zeros.nocRequest port { opc := 0x40, agent := 1280 + m, addr := a } (.readback m u)
    | .host a => zeros.homeAsk { who := .unit (.moverBack m u), kind := .readNoAlloc, addr := a, part := p }
    | _ => zeros

/-- Every write of a context's segment is issued and observed (R140 steps 1 to 3): the segment's writes are noted for FENCE, and the
read-back goes out. -/
def State.settleJob (s : State) (m : Nat) (u : Bool) : State :=
  let j := s.job m u
  match j.work with
  | none => s
  | some w => match s.workCmd w with
    | none => s
    | some c =>
      let done := j.written && j.nextG = j.total && j.reads = [] && j.outScale = [] && j.writes = [] && j.packets = []
        && j.st ≠ .draining && j.rb = .none && (c.op ≠ 0x0B || j.performed) && (!j.crcPhase || c.data.crc = 1)
      if done then
        (s.onWork w fun x => if x.seen.contains j.seg then x else { x with seen := x.seen ++ [j.seg] }).readBack m u w c
      else s

/-- A context goes on with what it has. -/
def State.pumpJob (s : State) (m : Nat) (u : Bool) : State :=
  let j := s.job m u
  if s.fenced m then s else
  ((s.pumpData m u (3 * j.reads.length + 2 * j.acc.length + j.wq.length + 200)).afterWrite m u).settleJob m u

/-! ## Reed (R136 to R139) -/

/-- CAP of a path (R136). -/
def pathCap (p : Nat) : Nat := if p < 8 then 7040 else if p < 10 then 131072 else if p < 22 then 6400 else 131072

/-- Growth of a binding per slot (R137): a SHARE above 256 is taken as 256 (R149). -/
def reedGrowth (share p : Nat) : Nat := min 256 share * pathCap p / 256
/-- Depth of a binding (R137). -/
def reedDepth (share p : Nat) : Nat := max 16384 (2 * reedGrowth share p)

/-- SHARE of a partition on a path in force. -/
def State.partShare (s : State) (p path : Nat) : Nat := tabGet (fun k => if k / 23 = 0 then 256 else 0) s.mov.partNow (p * 23 + path)

/-- Credit of a channel's binding. -/
def State.chanCredit (s : State) (k p : Nat) : Int :=
  (tabGet (fun _ => none) s.mov.chanCredit (k * 23 + p)).getD (reedDepth (s.chan k).shareNow p)
/-- Credit of a partition's binding. -/
def State.partCredit (s : State) (q p : Nat) : Int :=
  (tabGet (fun _ => none) s.mov.partCredit (q * 23 + p)).getD (reedDepth (s.partShare q p) p)

/-- The current Reed slot (10_drone_and_chanter.md R231). -/
def State.slotNow (s : State) : Nat := (s.glb.time.toNat + s.cht.frameOffset.toNat) / 256 % 1024

/-- Bytes the current slot's table reserves on a path (10_drone_and_chanter.md R232), for one partition or all. -/
def State.reserved (s : State) (path : Nat) (part : Option Nat) : Nat :=
  s.cht.row.foldl (fun (k : Nat) (e : Nat × Row) =>
    if e.2.held && e.2.enabled && e.2.path = path && bit e.2.mask s.slotNow && (match part with | some p => e.2.part = p | none => true)
    then k + e.2.bytes else k) 0

/-- MOV_URGENT_DEBT, a value below 4,096 taken as 4,096 (R149). -/
def State.urgentDebt (s : State) : Nat := max 4096 s.mov.urgentDebt.toNat

/-- Bytes summed by path. -/
def sumPaths (xs : List (Nat × Nat)) : List (Nat × Nat) :=
  (dedup (xs.map (·.1))).map fun p => (p, (xs.filter (·.1 = p)).foldl (fun k x => k + x.2) 0)

/-- A credit allows a transfer of `n` bytes (R138). -/
def State.creditOk (s : State) (u : Bool) (credit n : Int) : Bool := if u then decide (-(s.urgentDebt : Int) ≤ credit - n) else decide (n ≤ credit)

/-- The Reed rule for a transfer (R138): it may start. -/
def State.mayStart (s : State) (slot part : Nat) (u : Bool) (paths : List (Nat × Nat)) : Bool :=
  paths.all fun x =>
    decide (tabGet (fun _ => 0) s.mov.slotBytes x.1 + s.reserved x.1 none + x.2 ≤ pathCap x.1)
      && s.creditOk u (s.chanCredit slot x.1) x.2 && s.creditOk u (s.partCredit part x.1) x.2

/-- The credits of a transfer are charged (R138). -/
def State.charge (s : State) (slot part : Nat) (paths : List (Nat × Nat)) : State :=
  paths.foldl (fun t x =>
    let a := t.chanCredit slot x.1 - x.2
    let b := t.partCredit part x.1 - x.2
    t.onMov fun v => { v with
      slotBytes := tabMod (fun _ => 0) v.slotBytes x.1 (· + x.2), chanCredit := tabPut (fun _ => none) v.chanCredit (slot * 23 + x.1) (some a)
      partCredit := tabPut (fun _ => none) v.partCredit (part * 23 + x.1) (some b) }) s

/-- Planned bytes of a partition on a path in this slot exceed its reservation. -/
def State.planOver (s : State) (part path : Nat) : Bool :=
  decide (s.reserved path (some part) < tabGet (fun _ => 0) s.mov.planBytes (part * 23 + path))

/-- Planned bytes are counted; those issued beyond the partition's reservation in a slot set PLAN_OVERRUN, and the slot counts once
(10 R232, R238). -/
def State.planCharge (s : State) (part : Nat) (paths : List (Nat × Nat)) : State :=
  let add (t : State) (x : Nat × Nat) : State := t.onMov fun v => { v with
    planBytes := tabMod (fun _ => 0) v.planBytes (part * 23 + x.1) (· + x.2) }
  let s1 := paths.foldl add s
  if !paths.any (fun x => s1.planOver part x.1) then s1
  else
    let s2 := s1.chtFlag part 6 0
    if s.mov.overSlot.contains part then s2
    else (s2.onMov fun v => { v with overSlot := part :: v.overSlot }).onChtView part fun v => { v with planOver := satInc v.planOver }

/-- A transfer is held by a SHARE of 0: a binding of that SHARE has not the credit it needs (R139). -/
def State.zeroShare (s : State) (slot part : Nat) (u : Bool) (paths : List (Nat × Nat)) : Bool :=
  paths.any fun x => ((s.chan slot).shareNow = 0 && !s.creditOk u (s.chanCredit slot x.1) x.2)
    || (s.partShare part x.1 = 0 && !s.creditOk u (s.partCredit part x.1) x.2)

/-- A transfer may not start: its context is held (R138, R139). -/
def State.holdJob (s : State) (m : Nat) (u : Bool) (slot part : Nat) (paths : List (Nat × Nat)) : State :=
  let s1 := s.onJob m u fun j => if j.st = .running then { j with st := .held } else j
  if s.zeroShare slot part u paths && !(s.job m u).zeroHeld then
    ((s1.onJob m u fun j => { j with zeroHeld := true }).onMovView part fun v => { v with reedHeld := satInc v.reedHeld }).flag pgMOV part 7
  else s1

/-- The boundary of a Reed slot (R137): shares take effect, credits grow, and the slot's counts start again. Credits that an exhausted macro
held stay 0 (18_stored_data_protection.md R370). -/
def State.slotBoundary (s : State) : State :=
  let grow (share path : Nat) (c : Int) : Option Int :=
    let x := min (c + reedGrowth share path) (reedDepth share path)
    if x = reedDepth share path then none else some x
  let moved := s.dbl.chan.filter fun e => e.2.share ≠ e.2.shareNow
  let chanKeys := dedup (s.mov.chanCredit.map (·.1) ++ (moved.map fun e => (List.range 23).map fun p => e.1 * 23 + p).flatten)
  let share (k : Nat) : Nat := tabGet (fun k => if k / 23 = 0 then 256 else 0) s.mov.partShare k
  let partKeys := dedup (s.mov.partCredit.map (·.1) ++ (s.mov.partShare.map (·.1)) ++ (s.mov.partNow.map (·.1)))
  let s1 := chanKeys.foldl (fun t k => t.onMov fun v => { v with
    chanCredit := tabPut (fun _ => none) v.chanCredit k
      (if s.macroLost 0x10 (chanCreditKey k) then some 0 else grow (s.chan (k / 23)).share (k % 23) (s.chanCredit (k / 23) (k % 23))) }) s
  let s2 := partKeys.foldl (fun t k => t.onMov fun v => { v with
    partCredit := tabPut (fun _ => none) v.partCredit k
      (if s.macroLost 0x10 (partCreditKey k) then some 0 else grow (share k) (k % 23) (s.partCredit (k / 23) (k % 23))) }) s1
  let s3 := moved.foldl (fun t e => t.onChan e.1 fun c => { c with shareNow := c.share }) s2
  s3.onMov fun v => { v with slotBytes := [], planBytes := [], overSlot := [], partNow := v.partShare, slotNo := s.slotNow }

end Sys2Proof.Machine
end

