-- ==== Sys2Proof/Machine/Segments.lean ====
section
/-! DEFINITION. Segments: their dispatch to movers, bursts, the responses that return, completion and failure
(06_movers.md R127 to R144; 03_command_set.md R58 to R73). -/

namespace Sys2Proof.Machine

/-! ## Dispatch (R129) -/

/-- The command once a mover has taken a segment. -/
def Cmd.takeSeg (c : Cmd) (k : Nat) : Cmd := if c.redo.contains k then { c with redo := c.redo.erase k } else { c with next := k + 1 }

/-- The first plan entry of an engine with a waiting segment (10_drone_and_chanter.md R230). -/
def State.plannedSeg (s : State) (e : Engine) : Option (Nat × Cmd × Nat) :=
  s.cht.entry.findSome? fun (x : Nat × Entry) => match x.2.run with
    | some c => if c.st = .dispatched && s.chanter x.2 = some e then c.nextSeg.map fun k => (x.1, c, k) else none
    | none => none

/-- The movers of an engine that work, by number. -/
def State.movers (s : State) (e : Engine) : List Nat :=
  ((List.range 24).map fun k => k + (match e with | .A => 0 | .B => 24)).filter fun m => !s.mov.gone.contains m

/-- Bulk contexts of an engine that a partition holds. -/
def State.bulkHeld (s : State) (e : Engine) (p : Nat) : Nat :=
  ((s.movers e).filter fun m => match (s.job m false).work with | some w => s.workPart w = p | none => false).length

/-- The mover quota of a partition in an engine: a fraction of the movers that remain (01 R27, 13 R289). -/
def State.moverQuota (s : State) (e : Engine) (p : Nat) : Nat := (s.part p).qMov * (s.movers e).length / 24

/-- A context is idle. -/
def State.idleJob (s : State) (m : Nat) (u : Bool) : Bool := (s.job m u).st = .idle

/-- The mover for a Bulk segment. -/
def State.bulkMover (s : State) (e : Engine) : Option Nat := (s.movers e).find? fun m => s.idleJob m false

/-- The mover for an Urgent segment. -/
def State.urgentMover (s : State) (e : Engine) : Option Nat :=
  let free := (s.movers e).filter fun m => s.idleJob m true
  let both := free.find? fun m => s.idleJob m false
  both.or (match free with
    | [] => none
    | m :: ms => some (ms.foldl (fun b x => if (s.job x false).prio < (s.job b false).prio then x else b) m))

/-- An Urgent context begins: it pre-empts a Bulk context that issues (R134). -/
def State.preempt (s : State) (m : Nat) : State :=
  let b := s.job m false
  if b.st = .running ∨ b.st = .held then
    let s1 := s.onJob m false fun j => { j with st := .preempted }
    match b.work with
    | some w => s1.onMovView (s.workPart w) fun v => { v with preempt := satInc v.preempt }
    | none => s1
  else s

/-- A context takes a segment; one already complete means that the CRC word of its command is to be written again. -/
def State.startJob (s : State) (m : Nat) (u : Bool) (w : Work) (c : Cmd) (seg : Nat) (planned : Bool) : State :=
  let again : Bool := c.done.contains seg
  let j : Job := { st := .running, work := some w, seg := seg, total := if again then 1 else c.data.granules seg, planned := planned
                   crcPhase := again, asid := s.workAsid w
                   prio := match w with | .chan .. => c.prio | .plan i => (s.ownerOf (s.entry i)).prio }
  let s1 := (s.onWork w fun x => x.takeSeg seg).onJob m u fun _ => j
  if u then s1.preempt m else s1

/-- The number of a segment queue's arbiter (17 R357). -/
def queueArb (e : Engine) (u : Bool) : Nat := e.num + 2 * flag u

/-- The channels of an engine that request a mover in a class (17 R357): to the placing of the command's last segment. -/
def State.segRequests (s : State) (e : Engine) (u : Bool) : List (Nat × Bool) :=
  (s.dbl.chan.filter fun (x : Nat × Chan) => x.2.owner = e && !x.2.orphan && (s.waitingSeg x.1 u).isSome).map fun x => (x.1, false)

/-- Those whose partition may take one more context: Bulk contexts stay below the mover quota (R129). -/
def State.segAble (s : State) (e : Engine) (u : Bool) : List (Nat × Bool) :=
  (s.segRequests e u).filter fun r => u || decide (s.bulkHeld e (s.chan r.1).part < s.moverQuota e (s.chan r.1).part)

/-- An Urgent segment of an engine waits for a mover: a planned one, or a channel's (R129, R230). -/
def State.urgentWaits (s : State) (e : Engine) : Bool := (s.plannedSeg e).isSome || s.segRequests e true ≠ []

/-- SEGMENT_DISPATCH (R129, R230): planned segments first, then the channel the queue's arbiter holds or chooses. A Bulk segment takes no
mover while an Urgent one waits that a mover can take. -/
def State.segmentDispatch (s : State) (e : Engine) (u : Bool) : State :=
  let mover := if u then s.urgentMover e else s.bulkMover e
  match mover with
  | none => s
  | some m =>
    if s.engineSt e ≠ .serving || (!u && s.urgentWaits e && (s.urgentMover e).isSome) then s
    else match (if u then s.plannedSeg e else none) with
      | some (i, c, k) => s.startJob m true (.plan i) c k true
      | none =>
        let a := queueArb e u
        let s1 := s.arbCycle a (s.segRequests e u) (s.segAble e u)
        match (s1.arbiter a).holder with
        | none => s1
        | some k => match s1.waitingSeg k u with
          | none => s1
          | some (c, seg) =>
            let s2 := (s1.startJob m u (.chan k c.num) c seg false).arbUse a k
            if (c.takeSeg seg).nextSeg.isSome then s2 else s2.arbNext a (s2.segRequests e u) (s2.segAble e u) k

/-! ## Bursts (R133, R138) -/

/-- A read a transfer makes: its kind, its index, its virtual address; none for a staging offset. -/
abbrev RdAsk := RdKind × Nat × Option Word

/-- What a read must have a place for. -/
def RdAsk.ask (r : RdAsk) : Option Ask := r.2.2.map fun va => { access := 0, va := va, own := r.1 = .src }

/-- The reads of source granule `g` of a segment, in the order its data is used. -/
def DataOp.readsAt (d : DataOp) (seg g : Nat) : List RdAsk :=
  let e := d.elemAt seg g
  let off := if d.srcFixed then 0 else srcOff seg g
  let sc := g % 32 = 0
  (if d.srcScaled && sc then [(RdKind.scale, g, some (d.scale + BitVec.ofNat 64 (e / 32)))] else [])
    ++ (if d.srcScaled && d.combines && sc then [(RdKind.scale2, g, some (d.scale2 + BitVec.ofNat 64 (e / 32)))] else [])
    ++ (if !d.srcFixed || g % 64 = 0 then [(RdKind.src, g, if d.staging then none else some (d.src + BitVec.ofNat 64 off))] else [])
    ++ (if d.combines then [(RdKind.src2, g, some (d.src2 + BitVec.ofNat 64 (srcOff seg g)))] else [])

/-- The granules that `len` bytes at an address touch, each with its bytes. -/
def granulesOf (a : Word) (len : Nat) : List (Word × Nat) :=
  let o := a.toNat % 64
  (List.range ((o + len + 63) / 64)).map fun k =>
    (a - BitVec.ofNat 64 o + BitVec.ofNat 64 (64 * k), min (o + len) (64 * k + 64) - max o (64 * k))

/-- The local destination granules of `n` source granules from `g`, each with its bytes: elements, then the scales they complete. -/
def Cmd.dstGranules (c : Cmd) (seg g n : Nat) : List (Ask × Nat) :=
  let d := c.data
  let elems := if c.toPeer then [] else if d.dstFixed then [(d.dst, d.dstLen n)] else granulesOf (d.dst + BitVec.ofNat 64 (d.dstOff seg g)) (d.dstLen n)
  let e := d.elemAt seg g
  let sc := (e + 64 * n / elemBytes d.conv.sfmt) / 32 - e / 32
  let scales := if d.dstScaled then granulesOf (d.scale + BitVec.ofNat 64 (e / 32)) sc else []
  elems.map (fun x => ({ access := 1, va := x.1, own := true }, x.2)) ++ scales.map fun x => ({ access := 1, va := x.1 }, x.2)

/-- The bytes that `n` source granules send to a peer: a conversion's elements; for a reduction the source elements and their scales
(12_peer_windows_and_transport.md R276). -/
def Cmd.peerBytes (c : Cmd) (n : Nat) : Nat :=
  if c.op = 0x05 then 64 * n + (if c.data.srcScaled then 2 * n else 0) else c.data.dstLen n

/-- One access for each page that a list of accesses touches, a recorded place apart. -/
def onePerPage : List Ask → List Ask
  | [] => []
  | x :: r =>
    let same (y : Ask) : Bool := y.access = x.access && y.own = x.own && field y.va 63 12 = field x.va 63 12
    x :: (onePerPage r).filter fun y => !same y

/-- A read of a context waits for its turn on its path (R128, R133). -/
def State.queueRead (s : State) (m : Nat) (u : Bool) (kind : RdKind) (idx : Nat) (l : Loc) : State :=
  let r : Rd := { kind := kind, idx := idx, epoch := some l.epoch, host := !l.device, sent := false, path := s.pathOf l false
                  addr := l.addr &&& 0xFFFFFFFFFFFFFFC0 }
  s.onJob m u fun j => { j with reads := j.reads ++ [r] }

/-- A read of the staging area: its data is there at once; a lost granule fails the segment (18_stored_data_protection.md R370). -/
def State.readStaging (s : State) (m : Nat) (u : Bool) (w : Work) (kind : RdKind) (idx off : Nat) : State :=
  let a := (s.area (s.workPart w)).base * 65536 + off
  if s.mov.lostWords.any fun k => decide (a / 8 ≤ k) && decide (k < a / 8 + 8) then s.failWork w 0xC1
  else s.onJob m u fun j => { j with reads := j.reads ++ [{ kind := kind, idx := idx, data := some (s.stagingGranule a) }] }

/-- Reed lets a transfer start and charges it, or holds its context (R138, R139). -/
def State.reed (s : State) (m : Nat) (u : Bool) (w : Work) (paths : List (Nat × Nat)) : Bool × State :=
  let slot := s.workSlot w
  let p := s.workPart w
  let ps := sumPaths (paths.filter (·.2 ≠ 0))
  if (s.job m u).planned then (true, s.planCharge p ps)
  else if s.mayStart slot p u ps then (true, s.charge slot p ps)
  else (false, s.holdJob m u slot p ps)

/-- A transfer of `n` source granules has started. -/
def State.started (s : State) (m : Nat) (u : Bool) (n : Nat) : State :=
  ((s.onJob m u fun j => { j with
    nextG := j.nextG + n, issued := j.issued + n, zeroHeld := false, st := if j.st = .held then .running else j.st }).ops pgMOV n).bytes
      pgMOV (64 * n)

/-- A transfer with data that SRC gives (R133): translations, Reed, then its reads. -/
def State.startCopy (s : State) (m : Nat) (u : Bool) (w : Work) (c : Cmd) : State :=
  let j := s.job m u
  let d := c.data
  let n := min (if u then 1 else 64) (j.total - j.nextG)
  let rs := ((List.range n).map fun k => d.readsAt j.seg (j.nextG + k)).flatten
  let dst := c.dstGranules j.seg j.nextG n
  let asks := rs.filterMap RdAsk.ask
  let pages := onePerPage (asks ++ dst.map (·.1))
  if (if u then 1024 else 3072) < j.buffered + rs.length || (d.staging && (s.area (s.workPart w)).clearing) then s
  else match s.locateAll m u w c pages with
    | (none, s1) => s1
    | (some ls, s1) =>
      let rl := asks.filterMap (s1.locate m w c)
      let wl := dst.filterMap fun x => (s1.locate m w c x.1).map fun l => (l, x.2)
      let host := ls.any fun l => !l.device
      if c.op = 0x05 && wl.any (fun l => !l.1.device) then s1.failWork w 0x07
      else if host && !s1.masterEnabled (s1.workPart w) then s1.failWork w 0x42
      else if !j.tagsOk (ls.map (·.epoch)) then s1
      else
        let self := match c.dest with | .peer _ => s1.isSelf c.win.chip | .local_ => true
        let ccu := if c.op = 0x02 || (c.op = 0x05 && self) then [(22, 64 * n * (if d.combines then 2 else 1))] else []
        let out := match c.dest with
          | .peer _ => [(s1.peerPath c, c.peerBytes n)]
          | .local_ => []
        let paths := rl.map (fun l => (s1.pathOf l false, 64)) ++ ccu ++ out ++ wl.map fun l => (s1.writePath w c l.1 true, l.2)
        match s1.reed m u w paths with
        | (false, s2) => s2
        | (true, s2) =>
          let s3 := (s2.started m u n).hitPages m w c pages
          (rs.foldl (fun t (r : RdAsk) => match r.ask with
            | none => t.readStaging m u w r.1 r.2.1 (d.src.toNat + (if d.srcFixed then 0 else srcOff j.seg r.2.1))
            | some x => match s1.locate m w c x with | some l => t.queueRead m u r.1 r.2.1 l | none => t) s3).pumpJob m u

/-- The bytes written by granule `g` of an operation without a source, and their offset from DST (R60, R64, R65, R132). -/
def Cmd.piece (c : Cmd) (seg g : Nat) : Nat × List Byte :=
  let d := c.data
  match c.op with
  | 0x03 => (srcOff seg g, ((List.range 8).map fun _ => leBytes d.pattern.toNat 8).flatten)
  | 0x04 =>
    let o := d.dst.toNat % 64
    let lo := 64 * g - o
    (lo, (d.payload.drop lo).take (64 * (g + 1) - o - lo))
  | _ => (0, leBytes c.stamp.1.toNat 8 ++ leBytes c.stamp.2.toNat 8)

/-- A transfer of an operation without a source: FILL, INLINE_WRITE, TIMESTAMP. -/
def State.startWrite (s : State) (m : Nat) (u : Bool) (w : Work) (c : Cmd) : State :=
  let j := s.job m u
  let d := c.data
  let n := min (if u then 1 else 64) (j.total - j.nextG)
  let ps := (List.range n).map fun k => c.piece j.seg (j.nextG + k)
  let go (t : State) : State := t.started m u n |>.onJob m u fun x => { x with used := x.used + n }
  match c.dest with
  | .peer _ =>
    if !j.tagsOk [s.epochOf j.asid] then s
    else match s.reed m u w [(s.peerPath c, ps.foldl (fun a (x : Nat × List Byte) => a + x.2.length) 0)] with
    | (false, s1) => s1
    | (true, s1) =>
      ((((List.range n).zip ps).foldl (fun t x => t.queueWrite m u
        { path := s.peerPath c, burst := burstOf (j.nextG + x.1), at_ := c.peerOff x.2.1, bytes := x.2.2
          last := decide (j.total ≤ j.nextG + x.1 + 1) }) (go s1))).pumpJob m u
  | .local_ =>
    let vas : List Ask := ps.map fun (x : Nat × List Byte) => { access := 1, va := d.dst + BitVec.ofNat 64 x.1, own := true }
    let pages := onePerPage vas
    match s.locateAll m u w c pages with
    | (none, s1) => s1
    | (some ls, s1) =>
      let ws := (vas.filterMap (s1.locate m w c)).zip ps
      if ls.any (fun l => !l.device) && !s1.masterEnabled (s1.workPart w) then s1.failWork w 0x42
      else if !j.tagsOk (ls.map (·.epoch)) then s1
      else match s1.reed m u w (ws.map fun (x : Loc × (Nat × List Byte)) => (s1.writePath w c x.1 true, x.2.2.length)) with
        | (false, s2) => s2
        | (true, s2) =>
          (((List.range ws.length).zip ws).foldl (fun t (x : Nat × (Loc × (Nat × List Byte))) =>
            t.queueWrite m u { t.wrAt w c true (burstOf j.nextG) x.2.1 x.2.2.2 with elem := true, ord := 64 * (j.nextG + x.1) })
            ((go s2).hitPages m w c pages)).pumpJob m u

/-! ## ATOMIC (03_command_set.md R69; 07 R165 to R167) -/

/-- RETURN of an ATOMIC. -/
def Cmd.wantsOld (c : Cmd) : Bool := bit (slotCtl c.first) 8

/-- The old value of an ATOMIC is written to RESULT_ADDR, once it lies somewhere. -/
def State.writeOld (s : State) (m : Nat) (u : Bool) (w : Work) (c : Cmd) : State :=
  match (s.job m u).old with
  | none => s
  | some v =>
    let x : Ask := { access := 1, va := granWord c.first 0x18 }
    match s.locateAll m u w c [x] with
    | (some (l :: _), s1) =>
      if !(s1.job m u).tagsOk [l.epoch] then s1
      else
        let bs := leBytes v.toNat (typeBits c.atomicOp.type / 8)
        (((s1.hitPages m w c [x]).onJob m u fun j => { j with old := none, used := 1 }).queueWrite m u
          (s1.wrAt w c false 0 l bs)).pumpJob m u
    | (_, s1) => s1

/-- An ATOMIC goes to its executor (R69): the home for a host line, the memory-side adders for device memory. -/
def State.startAtomicOp (s : State) (m : Nat) (u : Bool) (w : Work) (c : Cmd) : State :=
  let j := s.job m u
  let g := c.first
  let va := granWord g 0x10
  let op := c.atomicOp
  let n := typeBits op.type / 8
  if s.inWindow (s.workPart w) (s.workAsid w) va n then s.failWork w 0x07
  else match s.locateAll m u w c ({ access := 2, va := va } :: (if c.wantsOld then [{ access := 1, va := granWord g 0x18 }] else [])) with
    | (none, s1) => s1
    | (some ls, s1) =>
      match ls with
      | [] => s1
      | l :: rest =>
        if ls.any (fun l => !l.device) && !s1.masterEnabled (s1.workPart w) then s1.failWork w 0x42
        else if !j.tagsOk (ls.map (·.epoch)) then s1
        else
          let paths := (if l.device then [(9, n)] else []) ++ rest.map fun r => (s1.pathOf r true, n)
          match s1.reed m u w paths with
          | (false, s2) => s2
          | (true, s2) =>
            let s3 := (s2.started m u 1).hitPages m w c [{ access := 2, va := va }]
            if l.device then (s3.queueWrite m u { s3.wrAt w c false 0 l [] with atomic := true }).pumpJob m u
            else (s3.awaitWrite m u true l.epoch).homeAsk { who := .unit (.moverAtomic m u l.epoch), kind := .atomic, addr := l.addr, op := op, part := s2.workPart w }

/-! ## The CRC word (R61, R73, R164) -/

/-- The CRC word is written, or read to be compared. -/
def State.startCrc (s : State) (m : Nat) (u : Bool) (w : Work) (c : Cmd) : State :=
  let d := c.data
  let gen := d.crc = 1
  let x : Ask := { access := if gen then 1 else 0, va := d.crcAddr }
  match s.locateAll m u w c [x] with
  | (some (l :: _), s1) =>
    if !l.device && !s1.masterEnabled (s1.workPart w) then s1.failWork w 0x42
    else if !(s.job m u).tagsOk [l.epoch] then s1
    else match s1.reed m u w [(s1.pathOf l gen, 8)] with
      | (false, s2) => s2
      | (true, s2) =>
        let s3 := ((s2.started m u 1).hitPages m w c [x]).onJob m u fun j => { j with used := 1 }
        (if gen then s3.queueWrite m u (s3.wrAt w c false crcBurst l (leBytes c.crcValue.toNat 8)) else s3.queueRead m u .crc 0 l).pumpJob m u
  | (_, s1) => s1

/-- A context has a group to convert and knows where it goes: it waits for the CCU input. -/
def State.asksCcu (s : State) (m : Nat) (u : Bool) : Bool :=
  let j := s.job m u
  match j.work with
  | none => false
  | some w => match s.workCmd w with
    | none => false
    | some c => c.converts && j.grouped c.data && decide (j.outScale.length < 64) && s.groupPlaced m w c j

/-- The next granule of a context on a path, if it has one that may go out: a read, or a write. -/
def State.granuleOn (s : State) (m : Nat) (u : Bool) (p : Nat) : Bool :=
  ((s.job m u).readOn p).isSome || ((s.job m u).writeOn p).any (s.mayWrite m u)

/-- A burst of a Bulk context goes on at a path (R133): reads of it wait there; its source is not all converted at the CCU input; writes of it
wait there, or its source still has some to produce. A context that waits for an epoch tag holds no path (05 R109; log entry 87), and none
that issues nothing more does. -/
def State.burstOn (s : State) (m p : Nat) (b : Work × Nat × Nat) : Bool :=
  let j := s.job m false
  let unused := j.used < min j.total (64 * (b.2.2 + 1))
  let blocked := match s.workCmd b.1 with | some c => s.tagBlocked m b.1 c j | none => true
  !s.fenced m && j.st ≠ .draining && !j.planned && j.work = some b.1 && j.seg = b.2.1 && j.crcPhase = (b.2.2 = crcBurst) && !blocked &&
    (if p < 4 ∨ p = 8 then (j.readOn p).isSome else if p = 22 then decide unused
     else decide unused || j.wq.any fun x => x.path = p && x.burst = b.2.2)

/-- A Bulk context has a path's grant, or keeps it under Urgent granules, for a burst that goes on. -/
def State.burstHeld (s : State) (m p : Nat) : Bool :=
  let x := s.arbiter (4 + p)
  ((x.holder = some m && !x.urgent) || x.kept = some m) && x.burst.any (s.burstOn m p)

/-- A context requests a path (R133, R136): it has a granule for it, or its burst there goes on; planned traffic requests none
(10_drone_and_chanter.md R230). -/
def State.asksPath (s : State) (m : Nat) (u : Bool) (p : Nat) : Bool :=
  let j := s.job m u
  !s.fenced m && j.st ≠ .draining && !j.planned && (s.granuleOn m u p || (p = 22 && s.asksCcu m u) || (!u && s.burstHeld m p))

/-- The side of a mover that uses a path is taken by its Urgent context: 0 to 3 and 8 are read paths, the others but the CCU's write
paths (R134, R136). -/
def State.sideTaken (s : State) (m p : Nat) : Bool :=
  let j := s.job m true
  j.st ≠ .draining && !j.planned && (if p < 4 ∨ p = 8 then j.readWaits else if p = 22 then s.asksCcu m true else j.wq.any (s.mayWrite m true))

/-- A command of a partition reads staging in a bank that is being copied (18_stored_data_protection.md R374): a bank is 16 of the pool's units
(01_hub_architecture.md R22). -/
def State.stagingCopied (s : State) (part : Nat) (d : DataOp) : Bool :=
  let a := (s.area part).base * 65536 + d.src.toNat
  d.staging && s.ras.copying.any fun x => x.1 = 8 && decide (a / 1048576 ≤ x.2) && decide (x.2 ≤ (a + d.srcBytes - 1) / 1048576)

/-- BURST_START (R133, R138): the context's data path runs on, and its next transfer starts if it may, once the reads and writes of the one
before have had their turns; a Bulk context that its mover's Urgent one pre-empts starts none while that one can issue (R134). One that reads
staging waits for a bank that is being copied (18_stored_data_protection.md R374). -/
def State.burstStart (s : State) (m : Nat) (u : Bool) : State :=
  if s.fenced m || (!u && (s.sideTaken m 8 || s.sideTaken m 9)) then s else
  let s1 := s.pumpJob m u
  let j := s1.job m u
  match j.work with
  | none => s1
  | some w => match s1.workCmd w with
    | none => s1
    | some c =>
      if j.st = .draining || j.readWaits || (!c.data.reads && j.wq ≠ []) || s1.stagingCopied (s1.workPart w) c.data then s1
      else if c.op = 0x0B ∧ j.old.isSome then s1.writeOld m u w c
      else if j.nextG = j.total then s1
      else if j.crcPhase then s1.startCrc m u w c
      else if c.op = 0x0B then s1.startAtomicOp m u w c
      else if c.data.reads then s1.startCopy m u w c
      else s1.startWrite m u w c

/-! ## The path arbiters (R133 to R135; 17_arbiters.md R357 to R361) -/

/-- The number of a path's arbiter (17 R357). -/
def pathArb (p : Nat) : Nat := 4 + p

/-- The requests on a path, by mover: of a mover whose two contexts request it, the Urgent one's (17 R357). -/
def State.pathRequests (s : State) (p : Nat) : List (Nat × Bool) :=
  (List.range 48).filterMap fun m => if s.asksPath m true p then some (m, true) else if s.asksPath m false p then some (m, false) else none

/-- The burst a Bulk context asks a path for (R133): the one it reads, converts, or writes there. -/
def Job.burstId (j : Job) (p : Nat) : Option (Work × Nat × Nat) :=
  let b (k : Nat) : Nat := if j.crcPhase then crcBurst else k
  j.work.map fun w => (w, j.seg,
    if p = 22 then b (burstOf j.used) else if (j.readOn p).isSome then b (burstOf (j.nextG - 1)) else ((j.writeOn p).map (·.burst)).getD 0)

/-- A context's turn on a path: its oldest granule there goes out, or its next group is converted. -/
def State.turn (s : State) (m : Nat) (u : Bool) (p : Nat) : State :=
  let j := s.job m u
  match j.work with
  | none => s
  | some w => match s.workCmd w with
    | none => s
    | some c => match j.readOn p, (j.writeOn p).filter (s.mayWrite m u) with
      | some r, _ => (s.sendRead m u w r).pumpJob m u
      | none, some x => (s.sendWrite m u w c x).pumpJob m u
      | none, none => (if p = 22 && s.asksCcu m u then (s.convertGroup m u w c).2 else s).pumpJob m u

/-- The cycle a path's holder has been granted passes: one granule, or none while it has none to give or the mover's Urgent context has the
side (R134); a holder whose work is gone before it has used its grant makes it a dead cycle (17 R361). -/
def State.pathUse (s : State) (p : Nat) : State :=
  let a := pathArb p
  let x := s.arbiter a
  match x.holder with
  | none => s
  | some h =>
    if s.asksPath h x.urgent p then
      if !x.urgent && s.sideTaken h p then s else (s.arbUse a h).turn h x.urgent p
    else if x.fresh then s.arbWithdraw a
    else s

/-- A path's grant ends: an Urgent holder's when it requests no more, a Bulk one's at the end of its burst (R133). -/
def State.pathEnds (s : State) (p : Nat) : Option Nat :=
  let x := s.arbiter (pathArb p)
  x.holder.filter fun h => if x.urgent then !s.asksPath h true p else !x.burst.any (s.burstOn h p)

/-- A new round at a path: a Bulk grant covers the burst its winner asks for (R133). -/
def State.pathFresh (s : State) (p : Nat) (reqs : List (Nat × Bool)) : State :=
  let s1 := s.arbDecide (pathArb p) reqs reqs
  match (s1.arbiter (pathArb p)).holder with
  | some h => s1.onArbiter (pathArb p) fun y => { y with burst := (s1.job h false).burstId p }
  | none => s1

/-- The next cycle of a path is decided (R133, R135; 17 R360): a holder whose request is down makes way for the others; a Bulk holder with its
burst not ended is set aside for Urgent granules and goes on after them without a round. -/
def State.pathDecide (s : State) (p : Nat) : State :=
  let a := pathArb p
  let x := s.arbiter a
  let ended := s.pathEnds p
  let reqs := (s.pathRequests p).filter fun r => ended ≠ some r.1
  let bulk : Option Nat := if ended.isSome then x.kept else if x.urgent then x.kept else x.holder.or x.kept
  let others := reqs.filter fun r => r.2 || bulk ≠ some r.1
  let burst := bulk.filter fun h => x.burst.any (s.burstOn h p)
  if others.any (·.2) then
    let mine := if x.urgent && ended.isNone then x.holder else none
    (s.onArbiter a fun y => { y with holder := mine, kept := burst }).arbDecide a others others
  else match burst with
    | some h => (s.onArbiter a fun y => { y with holder := some h, urgent := false, kept := none }).arbDecide a reqs reqs
    | none => (s.onArbiter a fun y => { y with holder := none, kept := none }).pathFresh p reqs

/-- One hub cycle of a path: the granule of its holder, and the decision of the next (R133 to R135; 17 R360). -/
def State.pathCycle (s : State) (p : Nat) : State := (s.pathUse p).pathDecide p

/-- The requests that stand at an arbiter (17 R357). -/
def State.requests (s : State) (a : Nat) : List (Nat × Bool) :=
  if a < 2 then s.segRequests (if a = 0 then .A else .B) false
  else if a < 4 then s.segRequests (if a = 2 then .A else .B) true
  else if a < 0x1B then s.pathRequests (a - 4)
  else s.l2tRequests (a - 0x1B)

/-- Those of them that may be granted (R129). -/
def State.able (s : State) (a : Nat) : List (Nat × Bool) :=
  if a < 2 then s.segAble (if a = 0 then .A else .B) false else s.requests a

/-- Requests that have dropped lose AGE and their wait at once (17 R359, R362), at every arbiter where some requester has waited. -/
def State.settleArbs (s : State) : State :=
  let waits := s.arb.req.filter fun (e : Nat × ArbReq) => e.2.age ≠ 0 || e.2.lost ≠ 0 || e.2.since.isSome
  (dedup (waits.map fun e => e.1 / 16384)).foldl (fun t a => t.dropRequests a (t.requests a)) s

/-- ARBITER_ROUND: one hub cycle of an arbiter (17 R358 to R363). -/
def State.arbiterRound (s : State) (a : Nat) : State :=
  if 4 ≤ a ∧ a < 0x1B then s.pathCycle (a - 4) else s.arbCycle a (s.requests a) (s.able a)

/-! ## What returns -/

/-- A completion for a stopped context of a function that is not master-enabled is discarded and counted (14 R321); not a request that was
never issued. -/
def State.lateFor (s : State) (w : Option Work) (host : Bool) (code : Code) : State :=
  match w with
  | some w => if host && code ≠ 0x42 && !s.masterEnabled (s.workPart w) then s.onHlk fun h => { h with lateCpl := satInc h.lateCpl } else s
  | none => s

/-- The work of a context fails. -/
def State.failJob (s : State) (m : Nat) (u : Bool) (code : Code) : State :=
  match (s.job m u).work with | some w => s.failWork w code | none => s

/-- Data of a read returns to a context (R128, R142, R143). -/
def State.jobData (s : State) (m : Nat) (u : Bool) (kind : RdKind) (idx : Nat) (code : Code) (poison : Bool) (data : Granule) : State :=
  let j := s.job m u
  let here (r : Rd) : Bool := r.kind = kind && r.idx = idx && r.data.isNone
  match j.reads.find? here with
  | none => s
  | some r =>
    let gone := s.onJob m u fun j => { j with reads := dropFirst here j.reads }
    if s.fenced m then gone
    else if r.drop then gone.lateFor j.work r.host code
    else if code ≠ 0 then gone.failJob m u code
    else if poison then gone.failJob m u 0xC1
    else (s.onJob m u fun j => { j with reads := modFirst here (fun r => { r with data := some data }) j.reads }).pumpJob m u

/-- A write of a context has its response (R140). -/
def State.jobWrote (s : State) (m : Nat) (u host : Bool) (epoch : BitVec 32) (code : Code) : State :=
  let j := s.job m u
  if !j.writes.contains (host, epoch) then s
  else
    let s1 := s.onJob m u fun j => { j with writes := j.writes.erase (host, epoch) }
    if s.fenced m then s1
    else if j.st = .draining then s1.lateFor j.work host code
    else if code ≠ 0 then s1.failJob m u code
    else s1.pumpJob m u

/-- One of the reads of a context's read-back returns: with the last, its posted writes are observed. -/
def Job.backOne (j : Job) : Job := if j.rbs ≤ 1 then { j with rb := .back, rbs := 0, posts := [] } else { j with rbs := j.rbs - 1 }

/-- The read-back of a context returns (R140, R142). -/
def State.jobBack (s : State) (m : Nat) (u : Bool) (code : Code) (poison : Bool) : State :=
  let j := s.job m u
  if j.rb ≠ .out then s
  else
    let s1 := s.onJob m u Job.backOne
    if j.st = .draining ∨ s.fenced m then s1
    else if code ≠ 0 then s1.failJob m u code
    else if poison then s1.failJob m u 0xC1
    else s1

/-- An ATOMIC has been performed (R69, R73). -/
def State.jobAtomic (s : State) (m : Nat) (u host : Bool) (epoch : BitVec 32) (code : Code) (old : Word) : State :=
  let j := s.job m u
  if !j.writes.contains (host, epoch) then s
  else
    let s1 := s.onJob m u fun j => { j with writes := j.writes.erase (host, epoch) }
    if s.fenced m then s1
    else if j.st = .draining then s1.lateFor j.work host code
    else if code ≠ 0 then s1.failJob m u code
    else match j.work with
      | none => s1
      | some w => match s1.workCmd w with
        | none => s1
        | some c =>
          if c.wantsOld then (s1.onJob m u fun j => { j with performed := true, old := some old }).writeOld m u w c
          else (s1.onJob m u fun j => { j with performed := true, used := 1 }).pumpJob m u

/-! ## The end of a segment (R140, R142, R144) -/

/-- A command or descriptor has reached its completion point (R58, R73). -/
def State.workDone (s : State) (w : Work) (c : Cmd) : State :=
  match w with
  | .chan k n => s.completeCmd k n
  | .plan i => (s.pulse ((s.chanter (s.entry i)).getD .A) c.cpl c.dest).planRunDone i

/-- The CRC partials of a segment. -/
def Job.partials (j : Job) (d : DataOp) (segs : Nat) : List (Nat × Nat × BitVec 32) :=
  if d.op = 0x02 ∧ d.crc ≠ 0 then
    (j.seg, j.crcLen, j.crc) :: (if d.dstScaled then [(segs + j.seg, j.crcScale.length, crcBytes 0xFFFFFFFF j.crcScale)] else [])
  else []

/-- SEGMENT_COMPLETE (R140): the checkpoint is mirrored; with the last segment, and its CRC word, the command is complete. -/
def State.segmentComplete (s : State) (m : Nat) (u : Bool) : State :=
  let j := s.job m u
  match j.work with
  | none => s
  | some w => match s.workCmd w with
    | none => s
    | some c =>
      if j.st = .draining ∨ j.rb ≠ .back ∨ s.fenced m then s
      else if j.crcPhase then ((s.onWork w fun x => { x with crcDone := true }).onJob m u fun _ => {}).workDone w c
      else
        let s1 := (s.onWork w fun x => { x with
          done := x.done ++ [j.seg], seen := if x.seen.contains j.seg then x.seen else x.seen ++ [j.seg]
          crcs := x.crcs ++ j.partials c.data c.segs }).checkpoint m
        if c.done.length + 1 < c.segs then s1.onJob m u fun _ => {}
        else if c.op = 0x02 ∧ c.data.crc ≠ 0 then
          s1.onJob m u fun j => { st := .running, work := j.work, seg := j.seg, total := 1, crcPhase := true, prio := j.prio
                                  planned := j.planned, asid := j.asid }
        else (s1.onJob m u fun _ => {}).workDone w c

/-- The code of a segment's failure (R142). -/
def segFailCode : SegFail → Code
  | .timeout => 0x41
  | .poison => 0xC1
  | .forbidden => 0x07
  | .masterDisabled => 0x42

/-- A NoC request is an access of a context. -/
def NocFor.isJob (m : Nat) (u : Bool) : NocFor → Bool
  | .read a b .. => a = m && b = u
  | .write a b _ => a = m && b = u
  | .readback a b => a = m && b = u
  | .atomic a b _ => a = m && b = u
  | _ => false

/-- The completion timeout of a context's oldest access on the NoC: it is awaited no more (R142, R144). -/
def State.jobTimeout (s : State) (m : Nat) (u : Bool) : State :=
  match s.noc.reqs.find? fun r => r.for_.isJob m u with
  | none => s
  | some r =>
    (s.onNoc fun n => { n with reqs := n.reqs.erase r }).onJob m u fun j => match r.for_ with
      | .read _ _ kind idx => { j with reads := dropFirst (fun x => x.kind = kind && x.idx = idx && x.data.isNone) j.reads }
      | .readback .. => j.backOne
      | .write _ _ epoch => { j with writes := j.writes.erase (false, epoch) }
      | .atomic _ _ epoch => { j with writes := j.writes.erase (false, epoch) }
      | _ => j

/-- SEGMENT_FAIL (R142); a stopped context's timeouts end the accesses it still awaits (R144). -/
def State.segmentFail (s : State) (m : Nat) (u : Bool) (why : SegFail) : State :=
  let s1 := if why = .timeout then s.jobTimeout m u else s
  if (s.job m u).st = .draining ∨ s.fenced m then s1 else s1.failJob m u (segFailCode why)

/-- STOPPED_CONTEXT_IDLE (R144): the last context of an ended command takes it out of INFLIGHT. -/
def State.stoppedIdle (s : State) (m : Nat) (u : Bool) : State :=
  let j := s.job m u
  if j.st = .draining && j.quiet then
    let s1 := s.onJob m u fun _ => { stopped := true }
    match j.work with
    | some (.chan k n) =>
      if (s1.jobsOf fun w => w = .chan k n).isEmpty then
        (s1.onChan k fun c => { c with cmds := c.cmds.filter fun x => !(x.num = n && x.st = .ended) }).afterInflight k
      else s1
    | some (.plan i) =>
      if (s1.jobsOf fun w => w = .plan i).isEmpty then
        (s1.onEntry i fun e => { e with run := e.run.bind fun c => if c.st = .ended then none else some c }).tryFire i
      else s1
    | none => s1
  else s

end Sys2Proof.Machine
end

