-- ==== Sys2Proof/Machine/Commands.lean ====
section
/-! DEFINITION. Management descriptors, doorbell pages, and the dispatch of a channel's commands
(02_channels_and_doorbells.md R28 to R50, R426, R427; 03_command_set.md R56 to R78; 13_partitions_and_twin_engines.md R287). -/

namespace Sys2Proof.Machine

/-! ## Management descriptors (R29 to R38) -/

/-- A submission of a descriptor (R29): with none before it in hand, its translation is asked for at once. -/
def State.mgmtSubmit (s : State) (fn : Nat) (v : Word) : State :=
  if 64 ≤ (s.mgmt fn).queue.length then s.dblFlag fn 7 0
  else (s.onMgmt fn fun m => { m with queue := m.queue ++ [v &&& 0xFFFFFFFFFFFFFFC0] }).mgmtNext fn

/-- The words of a descriptor that the hub reads (R30). -/
def descOf (g : Granule) : Desc := { w00 := granWord g 0, w08 := granWord g 8, ringBase := granWord g 0x10, w18 := granWord g 0x18 }

/-- The descriptor a function has in hand has been read, and is performed by `f` with its EVENT flag, or dropped when its read failed (R29).
Nothing happens before its read returns, or when its OP is not one that `op` admits. -/
def State.mgmtRun (s : State) (fn : Nat) (op : Nat → Bool) (f : State → Bool → Desc → State) : State :=
  match s.partAns? fn (.mgmtRead fn) with
  | none => s
  | some (code, g) =>
    let d := descOf g
    if (s.mgmt fn).await ≠ some 2 then s
    else if code ≠ 0 then (s.takeFor fn (.mgmtRead fn)).mgmtLost fn
    else if op (field d.w00 7 0) then
      f ((s.takeFor fn (.mgmtRead fn)).onMgmt fn fun m => { m with await := none }) (bit d.w00 11) d
    else s

/-- A RESULT of failure: REASON, STATUS and HANDLE (R30). -/
def State.mgmtFail (s : State) (fn : Nat) (event : Bool) (reason : Nat) (status : Code) (h : BitVec 32) : State :=
  s.mgmtResult fn event (resultWord false reason status h)

/-- The slot a descriptor's handle names: through PF0 the partition is not judged (R7); a FREE slot is named by the handle it last had. -/
def State.mgmtChan (s : State) (fn : Nat) (h : BitVec 32) : Option Nat := if fn = 0 then s.heldSlot h else s.namedSlot h fn

/-- A descriptor that acts on a channel: the handle is judged, then the state (R38). -/
def State.mgmtAct (s : State) (fn : Nat) (event : Bool) (d : Desc) (ok : Chan → Bool) (f : Nat → State) : State :=
  let h : BitVec 32 := d.w08.setWidth 32
  match s.mgmtChan fn h with
  | none => s.mgmtFail fn event 1 0x0A h
  | some k => if ok (s.chan k) then f k else s.mgmtFail fn event 4 0 h

/-- Success of a descriptor that names a channel. -/
def State.mgmtOk (s : State) (fn : Nat) (event : Bool) (d : Desc) : State :=
  s.mgmtResult fn event (resultWord true 0 0 (d.w08.setWidth 32))

/-- The lowest FREE slot of a parity. -/
def State.freeSlot (s : State) (odd : Bool) : Option Nat :=
  let first := firstFree (fun (_ : Unit) => true)
    (s.dbl.chan.filterMap fun e => if e.2.st ≠ .free && (e.1 % 2 = 1) == odd then some (e.1 / 2, ()) else none) 0
  let k := 2 * first + odd.toNat
  if k < Config.channels then some k else none

/-- The lowest FREE slot. -/
def State.lowestFree (s : State) : Option Nat :=
  match s.freeSlot false, s.freeSlot true with
  | some a, some b => some (min a b)
  | a, b => a.or b

/-- Channels of a partition that an engine owns. -/
def State.owned (s : State) (p : Nat) (e : Engine) : Nat :=
  (s.dbl.chan.filter fun x => x.2.st ≠ .free && x.2.part = p && x.2.owner = e).length

/-- The slot a CREATE takes (R32, R33). -/
def State.chooseSlot (s : State) (p : Nat) (d : Desc) : Option Nat :=
  let parity (odd : Bool) : Option Nat := (s.freeSlot odd).or (s.freeSlot (!odd))
  let want := hSlot (d.w08.setWidth 32 : BitVec 32)
  let engine := field d.w00 10 9
  if bit d.w00 8 then (if (s.chan want).st = .free then some want else parity (want % 2 = 1))
  else if s.twn.mode ≠ .shared then s.lowestFree
  else if engine = 1 then parity false
  else if engine = 2 then parity true
  else parity (decide (s.owned p .B < s.owned p .A))

/-- Owner engine of a channel created in a slot (R18). -/
def State.ownerFor (s : State) (slot : Nat) : Engine :=
  match s.twn.mode with
  | .shared => if slot % 2 = 0 then .A else .B
  | .soloA => .A
  | .soloB => .B

/-- The context of a channel just created (R34). -/
def newChan (old : Chan) (p : Nat) (owner : Engine) (born : Nat) (d : Desc) (owed : Owed) : Chan :=
  { gen := nextGen old.gen, st := .creating, part := p, owner := owner, ringBase := d.ringBase, ringLog2 := field d.w18 4 0
    asid := field d.w18 27 8, urgent := bit d.w18 32, prio := d.w18.extractLsb' 36 3, owed := some owed, born := born
    nextNum := old.nextNum, fetchNo := old.fetchNo }

/-- CREATE (R31 to R34). -/
def State.mgmtCreate (s : State) (fn : Nat) (event : Bool) (d : Desc) : State :=
  let p := if fn = 0 then field d.w00 21 16 else fn
  let log := field d.w18 4 0
  if s.closed p then s.mgmtFail fn event 6 0 0
  else if log < 6 ∨ 16 < log then s.mgmtFail fn event 1 0x05 0
  else if d.ringBase.toNat % (64 * 2 ^ log) ≠ 0 then s.mgmtFail fn event 1 0x03 0
  else if (s.part p).qChan ≤ s.chanCount p then s.mgmtFail fn event 2 0 0
  else match s.chooseSlot p d with
    | none => s.mgmtFail fn event (if s.dbl.chan.any (·.2.st = .retiring) then 3 else 2) 0 0
    | some k =>
      let old := s.chan k
      let owed : Owed := { fn := fn, event := event, handle := chanHandle (nextGen old.gen) p k }
      let s1 := ((s.onDbl fun x => { x with born := x.born + 1 }).setChan k
        fun c => newChan c p (s.ownerFor k) (s.dbl.born + 1) d owed).onMgmt fn fun m => { m with owes := true }
      (if s1.canPlace then s1.placeContext k else s1).writeContext k

/-- DESTROY (R37). -/
def State.mgmtDestroy (s : State) (fn : Nat) (event : Bool) (d : Desc) : State :=
  s.mgmtAct fn event d (fun c => c.live || c.st = .killed) fun k =>
    let owed : Owed := { fn := fn, event := event, handle := d.w08.setWidth 32 }
    ((s.retireChannel k).onChan k fun c => { c with owed := some owed }).onMgmt fn fun m => { m with owes := true }

/-- RESET (R38, R41). -/
def State.mgmtReset (s : State) (fn : Nat) (event : Bool) (d : Desc) : State :=
  s.mgmtAct fn event d Chan.live fun k => (s.resetChannel k).mgmtOk fn event d

/-- KILL (R38). -/
def State.mgmtKill (s : State) (fn : Nat) (event : Bool) (d : Desc) : State :=
  s.mgmtAct fn event d Chan.live fun k => (s.killChannel k 0 0 false).mgmtOk fn event d

/-- MODIFY (R36): the new CLASS and PRIORITY hold once its RESULT is written (`State.mgmtModified`). -/
def State.mgmtModify (s : State) (fn : Nat) (event : Bool) (d : Desc) : State :=
  if s.closed fn then s.mgmtFail fn event 6 0 (d.w08.setWidth 32)
  else s.mgmtAct fn event d (fun c => c.live || c.st = .creating) fun k =>
    (s.onMgmt fn fun m => { m with modify := some (k, (s.chan k).gen, bit d.w18 32, d.w18.extractLsb' 36 3) }).mgmtOk fn event d

/-- The RESULT write of the descriptor in hand has its response: it is observed, with MGMT_DONE where EVENT asks for it, or lost with
MGMT_FAULT (R29, R30). -/
def State.mgmtObserved (s : State) (fn : Nat) : State :=
  match s.partAns? fn (.mgmtResult fn) with
  | none => s
  | some (code, _) =>
    let m := s.mgmt fn
    if m.await ≠ some 4 then s
    else if code ≠ 0 then (s.takeFor fn (.mgmtResult fn)).mgmtLost fn
    else
      let s1 := ((s.takeFor fn (.mgmtResult fn)).mgmtModified fn).onMgmt fn fun m => { m with busy := none, await := none }
      (if m.busy = some true then s1.edge (0x600 + fn) else s1).mgmtNext fn

/-- A new channel's context has been written and mirrored, or its write failed (R34). -/
def State.contextWritten (s : State) (slot : Nat) (ok : Bool) : State :=
  let c := s.chan slot
  if c.st ≠ .creating then s
  else if ok then (s.setChan slot fun c => { c with st := .parked, code := 0 }).payOwed slot true 0
  else
    let back : Chan := { gen := c.gen, nextNum := c.nextNum, owed := c.owed, fetchNo := c.fetchNo }
    (s.setChan slot fun _ => back).payOwed slot false 0xC1

/-! ## Doorbell pages (R45 to R50, R426) -/

/-- A write to a register of a slot's doorbell page that names a generation (R45, R46): what it does once its page and generation
are right. DB_STALE_GEN and CHAN_SEL_BAD are set with CODE 0x00: the spec gives the setting no code, and R38's STATUS 0x0A no place to show in
(DESIGN CHOICE, log entry 140). -/
def State.doorbell (s : State) (fn slot : Nat) (gen : Byte) (f : State) : State :=
  let c := s.chan slot
  if c.st = .free ∨ s.glb.fatal then s.dblFlag fn 4 slot
  else if c.part ≠ fn then s.dblFlag fn 1 slot
  else if gen ≠ c.gen then s.dblFlag fn 2 slot
  else f

/-- A DB_CTL write that reached its channel (R426). -/
def State.dbCtl (s : State) (fn slot : Nat) (gen : Byte) (f : State) : State :=
  s.doorbell fn slot gen (if (s.chan slot).live then f else s.dblFlag fn 4 slot)

/-- HALT (R39, R40). -/
def State.haltChan (s : State) (slot : Nat) : State :=
  let c := s.chan slot
  if c.st = .active ∨ c.st = .parked then
    let late := c.cmds.any (c.isLate s.glb.time)
    let s1 := ((s.lateInline slot).setChan slot fun c => { (c.dropFetch.movedAt s.glb.time) with
      st := .halted, stopped := false, code := c.codeAt s.glb.time }).withdraw (Who.isRing slot)
    if late then s1.haltError slot 0x05 0 true else s1
  else s

/-- STOP (R39, R40; 06_movers.md R143). -/
def State.stopChan (s : State) (slot : Nat) : State :=
  let c := s.chan slot
  if c.st = .active ∨ c.st = .parked then
    let late := c.cmds.any (c.isLate s.glb.time)
    let s1 := (s.lateInline slot).setChan slot fun c => { ((c.discard true).dropFetch.movedAt s.glb.time) with
      st := .halted, stopped := true, code := c.codeAt s.glb.time }
    let s2 := (s1.withdrawWaits (Waiter.isChan slot)).endCmds slot fun _ => true
    let s3 := s2.onSyn fun y => { y with acts := y.acts.filter fun a => match a.from_ with | .chan k _ => k ≠ slot | _ => true }
    let s4 := s3.withdraw (Who.isRing slot)
    if late then s4.haltError slot 0x05 0 true else s4
  else s

/-- RESUME (R39; 06_movers.md R144). -/
def State.resumeChan (s : State) (slot : Nat) : State :=
  let c := s.chan slot
  if c.st = .halted ∨ c.st = .error then
    if 0 < c.inflight then s.onChan slot fun c => { c with resumeHeld := true } else s.resumeNow slot
  else s

/-- The whole commands an inline write holds, in order (R43, R49): none when it holds a part of one. -/
def inlineCmds : List Granule → Nat → Option (List (List Granule))
  | [], _ => some []
  | _, 0 => none
  | g :: rest, fuel + 1 =>
    let k := hdrSpan g
    if hdrOp g = 0xFF ∨ rest.length < k ∨ (rest.take k).any (fun c => hdrOp c ≠ 0xFF) then none
    else (inlineCmds (rest.drop k) fuel).map fun cs => (g :: rest.take k) :: cs

/-- Inline commands are accepted in order; the first that R55 rejects halts the channel, and the rest are not taken (R55). -/
def State.takeInline (s : State) (slot : Nat) (pos : BitVec 32) : List (List Granule) → State
  | [] => s
  | x :: rest =>
    let code := s.acceptCode (s.chan slot).part x
    if code ≠ 0 then s.reject slot code 0 true else (s.acceptCmd slot true pos x).takeInline slot pos rest

/-- A write to DB_INLINE (R49, R50). A ring command whose slots are announced in part counts as announced: an inline command accepted after it
waits until the rest is announced and fetched (DESIGN CHOICE, log entry 140). -/
def State.inlineWrite (s : State) (fn slot off len : Nat) (allBytes : Bool) (data : List Granule) : State :=
  let c := s.chan slot
  let refused (code : Bool) : State :=
    let s1 := s.dblFlag fn 6 slot
    if code then s1.haltError slot 0x05 0 true else s1
  let shape := allBytes && off % 64 = 0 && decide (0x100 ≤ off) && decide (off + len ≤ 0x200) && len % 64 = 0 && decide (0 < len)
    && data.length * 64 = len
  if c.st = .free ∨ s.glb.fatal then s.dblFlag fn 4 slot
  else if c.part ≠ fn then s.dblFlag fn 1 slot
  else if data.any (fun g => (hdrSeq g).extractLsb' 8 8 ≠ c.gen) then s.dblFlag fn 2 slot
  else if !c.live then s.dblFlag fn 4 slot
  else if c.st = .error then refused false
  else match inlineCmds data data.length with
    | none => refused true
    | some cs =>
      if c.st = .halted ∨ !shape ∨ 8 < c.inlineHeld + data.length then refused true
      else
        let s1 := ((s.ops pgDBL 1).onChan slot fun c => (c.rung s.glb.time).inlined s.glb.time).takeInline slot (c.f + BitVec.ofNat 32 c.avail) cs
        if (s1.chan slot).st = .parked then s1.activate slot else s1

/-- The 250 ns timer of a stale slot fires (R44). -/
def State.ringReread (s : State) (slot : Nat) : State :=
  let c := s.chan slot
  match c.stale with
  | none => s
  | some p =>
    if c.st ≠ .active ∨ !s.served slot then s
    else if !c.cached then s.awaitContext slot
    else if c.rereads < 8 then ((s.onChan slot fun c => { c with rereads := c.rereads + 1 }).readSlot slot p).runFetch slot
    else s

/-! ## Dispatch (R74, R76) -/

/-- The command that may be dispatched next, if it has an opcode (R74). -/
def State.nextCmd (s : State) (slot op : Nat) : Option Cmd := (s.readyCmd slot).filter (·.op = op)

/-- A command is dispatched, with the CLASS and PRIORITY its channel has then (R36, R76); FD and the command's record are mirrored
(13_partitions_and_twin_engines.md R295). -/
def State.markDispatched (s : State) (slot num : Nat) (f : Cmd → Cmd) : State :=
  let go (c : Chan) (x : Cmd) : Cmd :=
    if x.num = num then f { x with st := .dispatched, urgent := alwaysUrgent x.op || c.urgent, prio := c.prio } else x
  s.setChan slot fun c => { c with cmds := c.cmds.map (go c) }

/-- A data-moving command is dispatched with the destination its range settles, or fails (12 R262). -/
def State.dispatchData (s : State) (slot : Nat) (x : Cmd) : State :=
  let c := s.chan slot
  let d := x.data
  let s1 := s.ops pgPWN 1
  let (code, dest) := s1.judgeDest c.part c.asid d
  let stamp := (s.glb.time, s.cht.drone)
  if code ≠ 0 then s1.failCmd slot x code
  else s1.markDispatched slot x.num fun y => { y with dest := dest, win := s.winOf dest, flowNo := s.flowNo dest, segs := d.segments, stamp := stamp }

/-- SIGNAL is dispatched (R66; 12 R262): locally to its object's bank, or through its window. -/
def State.dispatchSignal (s : State) (slot : Nat) (x : Cmd) : State :=
  let g := x.first
  let action := field (slotCtl g) 1 0
  let value := field g 207 192
  let h := granHalf g 0x10
  let mark (t : State) : State := t.markDispatched slot x.num id
  if bit (slotCtl g) 4 then
    let w := field (granHalf g 0x14) 13 0
    let e := s.owin w
    let s1 := s.ops pgPWN 1
    if !e.en || !(s.allot false (s.chan slot).part).has w then s1.failCmd slot x 0x81
    else if s.noRoute e.chip then s1.failCmd slot x 0x82
    else (mark s1).sendSignal e h action value (.signal slot x.num)
  else
    let act : SAct := { from_ := .chan slot x.num, handle := h, action := BitVec.ofNat 2 action, value := BitVec.ofNat 16 value }
    (mark s).addAct (engineRank (s.chan slot).owner) act

/-- WAIT is dispatched (R67): its wait begins. -/
def State.dispatchWait (s : State) (slot : Nat) (x : Cmd) : State :=
  let g := x.first
  (s.markDispatched slot x.num id).beginWait (.chan slot x.num) [(s.chan slot).owner] (granHalf g 0x10)
    ((slotCtl g).setWidth 2) (granHalf g 0x14)

/-- MIGRATE_HINT is dispatched (R70; 05 R124): Skink takes the hint. -/
def State.dispatchHint (s : State) (slot : Nat) (x : Cmd) : State :=
  let g := x.first
  let c := s.chan slot
  ((s.markDispatched slot x.num id).hintRegions c.part c.asid ((slotCtl g).setWidth 2) (granWord g 0x10)
    (field g 207 192)).completeCmd slot x.num

/-- A change of arming enters an entry's list at the step from which it takes effect, its own or the current one if that is later; those
that a later one covers are dropped (R71). -/
def Entry.armAt (e : Entry) (now step : Nat) (on : Bool) : Entry :=
  let from_ := max now step
  let l := (e.arms.filter fun (a : Nat × Bool) => decide (a.1 < from_)) ++ [(from_, on)]
    ++ e.arms.filter fun (a : Nat × Bool) => decide (from_ < a.1)
  let past := l.filter fun a => decide (a.1 ≤ now)
  let last := match past.getLast? with | some (k, true) => [(k, true)] | _ => []
  { e with arms := last ++ l.filter fun a => decide (now < a.1) }

/-- One entry is armed or disarmed from a step (R71; 10 R216, R225). -/
def State.armEntry (s : State) (i step : Nat) (disarm : Bool) (catch_ : State → Nat → State) : State :=
  let e := s.entry i
  if !e.held || e.kind ≠ 1 then s
  else
    let s1 := s.onEntry i fun e => e.armAt s.droneStep step (!disarm)
    if disarm then (if e.live && decide (step ≤ e.step) then s1.endOccurrence i else s1) else catch_ s1 i

/-- A FENCE's earlier commands have reached the points its conditions 1 to 3 and 5, or COMPLETE, ask for (R77). -/
def Cmd.behindFence (x : Cmd) : Bool :=
  if onMovers x.op && x.op ≠ 0x0B then
    decide (x.segs ≤ (dedup (x.seen ++ x.done)).length) && (x.data.crc ≠ 1 || x.op ≠ 0x02 || x.crcDone)
  else false

/-- COMPLETE of a FENCE (R68). -/
def Cmd.fenceAll (x : Cmd) : Bool := bit (slotCtl x.first) 0

/-- The commands before a FENCE allow it to hold (R77). -/
def Chan.fenceClear (c : Chan) (x : Cmd) : Bool :=
  let before := c.cmds.takeWhile fun y => y.num ≠ x.num
  if x.fenceAll then before = [] else before.all Cmd.behindFence

/-- The zero-length reads of a FENCE are issued on the links that carried posted writes (R77, R78); one that cannot be issued for
want of a non-posted place is tried again. -/
def State.fenceReads (s : State) (slot num : Nat) (links : List Nat) : State :=
  let p := (s.chan slot).part
  let ok := links.all fun k => decide ((s.hlk.np.filter (·.link = k)).length < 64)
  let mark (t : State) : State := t.onChan slot fun c => { c with
    cmds := c.cmds.map fun y => if y.num = num then { y with fenceSent := true, fenceOut := links.length } else y }
  if ok then
    links.foldl (fun t k => (t.zeroRead k p (Config.fenceAddr k p) (.fence slot num)).getD t) (mark s)
  else s

/-- The FENCE of a channel goes on as far as it can: its zero-length reads go out once its other conditions hold (R77) and its engine serves
(13_partitions_and_twin_engines.md R296). -/
def State.pumpFence (s : State) (slot : Nat) : State :=
  let c := s.chan slot
  match c.cmds.find? fun x => x.st = .dispatched && x.op = 0x08 && !x.fenceSent with
  | none => s
  | some x =>
    if !c.fenceClear x || !s.served slot then s
    else if x.fenceAll || c.posted = [] then s.fenceReads slot x.num []
    else if !s.masterEnabled c.part then (s.haltError slot 0x42 x.faultSeq x.inl).afterInflight slot
    else s.fenceReads slot x.num c.posted

/-- FENCE_HELD (R77): the FENCE completes. -/
def State.fenceHeld (s : State) (slot : Nat) : State :=
  let s1 := s.pumpFence slot
  let c := s1.chan slot
  match c.cmds.find? fun x => x.st = .dispatched && x.op = 0x08 with
  | none => s1
  | some x =>
    if x.fenceSent && x.fenceOut = 0 && c.fenceClear x then
      s1.completeCmd slot x.num
    else s1

end Sys2Proof.Machine
end

