-- ==== Sys2Proof/Machine/Peer.lean ====
section
/-! DEFINITION. The transport: what a receiver checks, translates, writes and acknowledges, and a sender's re-sends, routes and failed
flows; and the writes of the window tables (12_peer_windows_and_transport.md R260 to R276, R281 to R283). -/

namespace Sys2Proof.Machine

/-! ## Numbers of a packet -/

/-- Mask of a packet's blocks: one for a packet without blocks. -/
def fullMask (h : PktHdr) : BitVec 16 := BitVec.ofNat 16 (2 ^ max 1 (min 16 h.blocks.toNat) - 1)

/-- Bit `k` of a block mask. -/
def blockBit (k : Nat) : BitVec 16 := BitVec.ofNat 16 (2 ^ k)

/-- SRC_FMT, DST_FMT, ROUND and OP of a REDUCE packet (R268). -/
def redSpec (h : PktHdr) : ConvSpec :=
  { sfmt := field h.arg 3 0, dfmt := field h.arg 7 4, mode := field h.arg 10 8, sat := false, op := 0 }

/-- Element index of block `k` of a REDUCE packet (R268, R276). -/
def redElem (h : PktHdr) (k : Nat) : Nat := field h.body 39 0 + k * (256 / elemBytes (redSpec h).sfmt)

/-- A block of a REDUCE packet holds scale bytes (R276). -/
def isScales (h : PktHdr) (k : Nat) : Bool := (redSpec h).sfmt = 6 && k + 1 = h.blocks.toNat

/-- Window offset of the first byte of block `k`. -/
def blockOff (h : PktHdr) (k : Nat) : Nat :=
  if h.kind = 2 then redElem h k * elemBytes (redSpec h).dfmt else h.body.toNat + 256 * k

/-- First window offset past what a packet addresses (R264 check 5). -/
def pktEnd (h : PktHdr) (blocks : List Block) : Nat :=
  if h.kind = 2 then
    let d := redSpec h
    blocks.foldl (fun n b => if isScales h b.k.val then n
      else max n (blockOff h b.k.val + b.bytes.length / elemBytes d.sfmt * elemBytes d.dfmt)) 0
  else if h.blocks = 0 then 0 else h.body.toNat + 256 * (h.blocks.toNat - 1) + field h.arg 8 0

/-- A source chip is permitted by an entry (R263). -/
def WinEntry.permits (e : WinEntry) (src : Nat) : Bool :=
  match field e.w0 62 61 with
  | 0 => true
  | 1 => src = field e.w0 35 24
  | 2 => decide (field e.w0 35 24 ≤ src) && decide (src ≤ field e.w0 47 36)
  | _ => false

/-- CAUSE and DETAIL of the first check a packet fails (R264, R207); 0 when it passes. -/
def State.judgePkt (s : State) (h : PktHdr) (blocks : List Block) : Nat × Code :=
  let e := s.iwin h.window.toNat
  match s.iwinPart h.window.toNat with
  | none => (1, 0)
  | some p =>
    if !bit e.w0 63 then (1, 0)
    else if e.w3.setWidth 16 ≠ h.tag then (2, 0)
    else if !e.permits h.srcChip.toNat then (3, 0)
    else if !bit e.w0 56 || (h.kind = 2 && !bit e.w0 57) then (4, 0)
    else if h.kind ≠ 3 && decide (field e.w2 47 0 < pktEnd h blocks) then (5, 0)
    else if h.kind = 3 then
      let o : BitVec 32 := h.body.setWidth 32
      if !s.goodObj o p then (6, 0x0A)
      else if !actionOk (field h.arg 1 0) (hType o) then (6, 0x06)
      else (0, 0)
    else (0, 0)

/-! ## The PSN window (R270) -/

/-- A packet lies before the window. -/
def State.beforeWindow (s : State) (h : PktHdr) : Bool := decide (2 ^ 23 ≤ psnDist h.psn (s.rxFlow h.srcChip.toNat).base)

/-- The window takes in a PSN: a sender has at most 64 unacknowledged, so what falls behind has been answered (R267, R270). -/
def RxFlow.slide (f : RxFlow) (psn : BitVec 24) : RxFlow :=
  if psnDist psn f.base < 64 then f
  else
    let b := psn - 63
    { base := b, pkts := f.pkts.filter fun p => psnDist (BitVec.ofNat 24 p.psn) b < 64 || p.busy ≠ 0 }

/-- A packet of the window. -/
def State.rxPkt (s : State) (src psn : Nat) : Option RxPkt := (s.rxFlow src).pkts.find? (·.psn = psn)

/-- A packet of the window changed. -/
def State.onRxPkt (s : State) (src psn : Nat) (f : RxPkt → RxPkt) : State :=
  s.onRx src fun x => { x with pkts := x.pkts.map fun p => if p.psn = psn then f p else p }

/-- The window has an entry for a packet. -/
def State.rxOpen (s : State) (h : PktHdr) : State :=
  let src := h.srcChip.toNat
  let s1 := s.onRx src fun f => f.slide h.psn
  if (s1.rxPkt src h.psn.toNat).isSome then s1
  else
    let e := s1.iwin h.window.toNat
    let p : RxPkt := { psn := h.psn.toNat, h := h, part := (s1.iwinPart h.window.toNat).getD 0, asid := field e.w0 19 0
                       base := e.w1 &&& 0xFFFFFFFFFFFFF000 }
    s1.onRx src fun f => { f with pkts := f.pkts ++ [p] }

/-! ## Blocks (R265, R271, R276) -/

/-- The translation request of bytes held for a block. -/
def RxPkt.ask (p : RxPkt) (b : HeldBlk) : XReq :=
  { who := .inbound p.h.srcChip.toNat p.psn b.k, part := p.part, asid := p.asid, access := 1, va := b.va }

/-- Bytes of a block wait for their translation. -/
def State.holdBlk (s : State) (p : RxPkt) (b : HeldBlk) : State :=
  (s.onRxPkt p.h.srcChip.toNat p.psn fun x => { x with held := x.held ++ [b] }).ask (p.ask b)

/-- An admitted block of a DATA packet, or of a REDUCE packet once its scales are there: converted, and held for its translation. The CCU
counts its results for the partition of the inbound window (07_number_formats_and_ccu.md R171; log entry 123). -/
def State.blkReady (s : State) (p : RxPkt) (k : Nat) (bytes : List Byte) : State :=
  let va := p.base + BitVec.ofNat 64 (blockOff p.h k)
  if p.h.kind = 2 then
    let d := redSpec p.h
    let sc := match p.scales with | some l => (l.drop (8 * k)).take 8 | none => []
    let (out, _, s1) := s.convert p.part d bytes sc [] []
    s1.holdBlk p { k := k, va := va, bytes := out }
  else s.holdBlk p { k := k, va := va, bytes := bytes }

/-- A new block with a good CRC is admitted. -/
def State.admitBlk (s : State) (h : PktHdr) (k : Nat) (bytes : List Byte) : State :=
  let src := h.srcChip.toNat
  let psn := h.psn.toNat
  let s1 := (s.onRxPkt src psn fun p => { p with busy := p.busy ||| blockBit k, refused := p.refused &&& ~~~(blockBit k) }).onIwin h.window.toNat
    fun e => { e with admitted := e.admitted + 1 }
  match s1.rxPkt src psn with
  | none => s1
  | some p =>
    if h.kind = 2 && isScales h k then
      let q := { p with scales := some bytes, raw := [] }
      (p.raw.foldl (fun t (b : Nat × List Byte) => t.blkReady q b.1 b.2) (s1.onRxPkt src psn fun _ => q))
    else if h.kind = 2 && (redSpec h).sfmt = 6 && p.scales.isNone then
      s1.onRxPkt src psn fun p => { p with raw := p.raw ++ [(k, bytes)] }
    else s1.blkReady p k bytes

/-- An admitted block is refused (R265). -/
def State.refuseBlk (s : State) (p : RxPkt) (k cause : Nat) (detail : Code) : State :=
  let src := p.h.srcChip.toNat
  if !bit p.busy k then s
  else
    let off (x : RxPkt) : RxPkt :=
      { x with busy := x.busy &&& ~~~(blockBit k), refused := x.refused ||| blockBit k, held := x.held.filter (·.k ≠ k), raw := x.raw.filter (·.1 ≠ k) }
    let s1 := (s.onRxPkt src p.psn off).onIwin p.h.window.toNat fun e => { e with admitted := e.admitted - 1 }
    s1.refuse p.h (blockBit k) cause detail (if p.h.kind = 2 then redElem p.h k else blockOff p.h k)

/-- Bytes at an address cut at granule boundaries: the granule, the offset in it, the bytes. -/
def cutGranules (a : Word) (bs : List Byte) : List (Word × Nat × List Byte) :=
  let o := a.toNat % 64
  let g := a &&& 0xFFFFFFFFFFFFFFC0
  let first := bs.take (64 - o)
  let rest := chunks 64 (bs.drop (64 - o))
  (if first = [] then [] else [(g, o, first)]) ++ ((List.range rest.length).zip rest).map fun (x : Nat × List Byte) =>
    (g + BitVec.ofNat 64 (64 * (x.1 + 1)), 0, x.2)

/-- The packet with one more granule written, at a virtual address: its last granule is the one at the highest (R271). -/
def RxPkt.wrote (q : RxPkt) (va port : Nat) (a : Word) (epoch : BitVec 32) : RxPkt :=
  let later : Bool := match q.lastAt with | some (v, _, _) => decide (v ≤ va) | none => true
  if later then { q with lastAt := some (va, port, a), backEpoch := epoch } else q

/-- Bytes of a block, from a virtual address on, are written to device memory, or reduced into it (R265, R276). -/
def State.writeBlk (s : State) (p : RxPkt) (k : Nat) (va a : Word) (epoch : BitVec 32) (bs : List Byte) : State :=
  let src := p.h.srcChip.toNat
  let red : Byte := if p.h.kind = 2 then BitVec.ofNat 8 (field p.h.arg 13 12 + (redSpec p.h).dfmt <<< 4) else 0
  (cutGranules a bs).foldl (fun t (x : Word × Nat × List Byte) =>
    let port := Config.devicePort x.1.toNat % 4
    let m : NocMsg := { opc := if p.h.kind = 2 then 0x43 else 0x41, agent := Config.peerAgent, addr := x.1
                        be := enables x.2.1 x.2.2.length, data := granOf (List.replicate x.2.1 0 ++ x.2.2), red := red }
    (t.onRxPkt src p.psn fun q => ({ q with writes := q.writes ++ [(k, epoch)] } : RxPkt).wrote va.toNat port x.1 epoch).nocRequest port m
      (.block src p.psn k epoch)) s

/-- A new access keeps an inbound packet within four epoch tags (05_invalidation_and_placement.md R109). -/
def RxPkt.tagOk (p : RxPkt) (epoch : BitVec 32) : Bool := decide ((dedup ((p.tags ++ [epoch]).map (·.toNat))).length ≤ 4)

/-- The blocks of a packet that waited for one of its epoch tags ask for their translations again (05 R109). -/
def State.askAgain (s : State) (src psn : Nat) : State :=
  match s.rxPkt src psn with
  | none => s
  | some p =>
    (p.held.filter (·.waits)).foldl (fun t b => t.ask (p.ask b))
      (s.onRxPkt src psn fun q => { q with held := q.held.map fun b => { b with waits := false } })

/-- The read-back of a packet with LAST goes out once every block of it is written (R271); once a block has been refused the sender sends the
packet no more, and what has come is all of it (R264, R273). -/
def State.rxReadBack (s : State) (src psn : Nat) : State :=
  match s.rxPkt src psn with
  | none => s
  | some p =>
    let all := p.refused ≠ 0 || p.killed || (p.mask ||| p.busy) &&& fullMask p.h = fullMask p.h
    if p.h.kind = 1 && p.h.last && all && p.held = [] && p.writes = [] && p.busy ≠ 0 && p.back = .none then
      match p.lastAt with
      | some (_, port, a) =>
        (s.onRxPkt src psn fun q => { q with back := .out }).nocRequest port { opc := 0x40, agent := Config.peerAgent, addr := a }
          (.blockBack src psn)
      | none => s.onRxPkt src psn fun q => { q with back := .back }
    else s

/-- The translation of an inbound block, or its failure, arrives (R98, R265, R112). -/
def State.inboundXlt (s : State) (x : XReq) (code : Code) (page : Option Page) : State :=
  match x.who with
  | .inbound src psn k => match s.rxPkt src psn with
    | none => s
    | some p => match p.held.find? (·.k = k), page with
      | none, none => if p.killed then (s.refuseBlk p k 9 0).rxReadBack src psn else s
      | none, some _ => s
      | some _, none => (s.refuseBlk p k (if p.killed then 9 else 8) (if p.killed then 0 else code)).rxReadBack src psn
      | some b, some g =>
        if !g.device then (s.refuseBlk p k 7 0x07).rxReadBack src psn
        else if !p.tagOk g.epoch then
          s.onRxPkt src psn fun q => { q with held := q.held.map fun x => if x.k = k then { x with waits := true } else x }
        else
          let room := 2 ^ g.size - b.va.toNat % 2 ^ g.size
          let rest := b.bytes.drop room
          let s1 := s.onRxPkt src psn fun q => { q with held := q.held.filter (·.k ≠ k) }
          let s2 := s1.writeBlk p k b.va (g.at b.va) g.epoch (b.bytes.take room)
          if rest = [] then s2 else s2.holdBlk p { k := k, va := b.va + BitVec.ofNat 64 room, bytes := rest }
  | _ => s

/-- A write of an inbound block has its response (R271); a failed one refuses the block. -/
def State.blockWrote (s : State) (src psn k : Nat) (epoch : BitVec 32) (code : Code) : State :=
  let s1 := s.onRxPkt src psn fun q => { q with writes := q.writes.erase (k, epoch) }
  match s1.rxPkt src psn with
  | none => s1
  | some p => ((if code = 0 then s1 else s1.refuseBlk p k 8 code).askAgain src psn).rxReadBack src psn

/-- The read-back of a packet with LAST returns (R271). -/
def State.blockBack (s : State) (src psn : Nat) : State :=
  s.onRxPkt src psn fun q => if q.back = .out then { q with back := .back } else q

/-- BLOCK_APPLIED (R270, R271): a block is marked applied and acknowledged, once all it produced has been accepted. -/
def State.blockApplied (s : State) (src psn k : Nat) : State :=
  match s.rxPkt src psn with
  | none => s
  | some p =>
    let done := if p.h.kind = 3 then bit p.mask k
      else p.held.all (·.k ≠ k) && p.raw.all (·.1 ≠ k) && p.writes.all (·.1 ≠ k)
        && (p.h.kind ≠ 1 || !p.h.last || p.back = .back)
    if bit p.busy k && done then
      let s1 := s.onRxPkt src psn fun q => { q with mask := q.mask ||| blockBit k, busy := q.busy &&& ~~~(blockBit k) }
      let s2 := if p.h.kind = 3 then s1 else s1.onIwin p.h.window.toNat
        fun e => { e with admitted := e.admitted - 1, applied := e.applied + 1 }
      s2.respond p.h 4 (blockBit k) 0
    else s

/-! ## What arrives -/

/-- The header of a packet passes R269, and is of the kind its row names: `f` goes on. Of a packet that its sender left incomplete nothing is
taken (15_block_ports.md R332), nor of one whose sop came before the eop of the one before it (R341). -/
def State.pktHead (s : State) (h : PktHdr) (kind : Nat) (f : State → State) : State :=
  match h.cut with
  | some p => s.portProtocol (16 + p.val)
  | none =>
  if h.early ∨ !h.hcrcOk ∨ h.kind = 0 ∨ 8 < h.kind.toNat then s.flag pgPXP 0 5
  else if h.kind.toNat ≠ kind then s
  else if h.dstChip ≠ s.peer.chipId then s.flag pgPXP 0 4
  else f s

/-- A packet that lies before the window is acknowledged with every block set, and the blocks it carries are counted (R270); another opens its place in it: `f` goes on. -/
def State.sequenced (s : State) (h : PktHdr) (carried : Nat) (f : State → State) : State :=
  if s.beforeWindow h then
    (s.onPeer fun p => { p with dup := satAdd p.dup carried }).respond h 4 (fullMask h) 0
  else f s

/-- A DATA or REDUCE packet (R264, R269, R270). -/
def State.rxData (s : State) (h : PktHdr) (blocks : List Block) : State :=
  s.sequenced h (max 1 blocks.length) fun s =>
    let (cause, detail) := s.judgePkt h blocks
    let carried := blocks.foldl (fun m b => m ||| blockBit b.k.val) (0 : BitVec 16)
    if cause ≠ 0 then
      s.refuse h (if carried = 0 then fullMask h else carried) cause detail
        (match blocks with | b :: _ => (if h.kind = 2 then redElem h b.k.val else blockOff h b.k.val) | [] => blockOff h 0)
    else
      let s1 := s.rxOpen h
      let old := match s1.rxPkt h.srcChip.toNat h.psn.toNat with | some p => (p.mask, p.busy) | none => (0, 0)
      let bad := blocks.filter fun b => !b.crcOk
      let good := blocks.filter (·.crcOk)
      let marked := good.filter fun b => bit old.1 b.k.val
      let dup := good.filter fun b => bit (old.1 ||| old.2) b.k.val
      let new := good.filter fun b => !bit (old.1 ||| old.2) b.k.val
      let maskOf (l : List Block) : BitVec 16 := l.foldl (fun m b => m ||| blockBit b.k.val) 0
      let s2 := s1.onPeer fun p => { p with crcFail := satAdd p.crcFail bad.length, dup := satAdd p.dup dup.length }
      let s3 := (s2.respond h 5 (maskOf bad) 0).respond h 4 (maskOf marked) 0
      let ended := match s1.rxPkt h.srcChip.toNat h.psn.toNat with | some p => p.killed | none => false
      match new with
      | [] => s3
      | b :: _ =>
        -- an invalidation drain has ended the transfer: what still comes is refused (05_invalidation_and_placement.md R112)
        if ended then s3.refuse h (maskOf new) 9 0 (if h.kind = 2 then redElem h b.k.val else blockOff h b.k.val)
        else new.foldl (fun t b => t.admitBlk h b.k.val b.bytes) s3

/-- A SIGNAL packet (R207, R264). -/
def State.rxSignal (s : State) (h : PktHdr) : State :=
  s.sequenced h 1 fun s =>
    let (cause, detail) := s.judgePkt h []
    if cause ≠ 0 then s.refuse h 1 cause detail 0
    else
      let s1 := s.rxOpen h
      match s1.rxPkt h.srcChip.toNat h.psn.toNat with
      | none => s1
      | some p =>
        if bit p.mask 0 || bit p.busy 0 then
          (s1.onPeer fun q => { q with dup := satInc q.dup }).respond h 4 (if bit p.mask 0 && !bit p.busy 0 then 1 else 0) 0
        else
          let act : SAct := { from_ := .peer h.srcChip.toNat h.psn.toNat, handle := h.body.setWidth 32
                              action := BitVec.ofNat 2 (field h.arg 1 0), value := h.arg.extractLsb' 16 16 }
          (s1.onRxPkt h.srcChip.toNat h.psn.toNat fun q => { q with busy := 1 }).addAct 7 act

/-! ## The sender (R271, R273 to R275) -/

/-- Work of a sender whose packet is answered: it no longer waits for it. -/
def State.pktGone (s : State) (chip psn : Nat) (f : PktFor) : State :=
  match f with
  | .mover m u => s.onJob m u fun j => { j with packets := j.packets.filter fun x => !(x.1 = chip && x.2.1 = psn) }
  | _ => s

/-- A packet is wholly acknowledged (R271). -/
def State.pktDone (s : State) (chip psn : Nat) (f : PktFor) : State :=
  let s1 := s.pktGone chip psn f
  match f with
  | .mover m u => s1.pumpJob m u
  | .signal k n => s1.completeCmd k n
  | .planSignal i k => s1.planSignalled i k
  | .notice => s1

/-- A packet is refused, or its flow has failed: its work fails (R264, R275). -/
def State.pktFail (s : State) (chip psn : Nat) (f : PktFor) (code : Code) : State :=
  let s1 := s.pktGone chip psn f
  match f with
  | .mover m u => if (s1.job m u).st = .draining then s1 else s1.failJob m u code
  | .signal k n => s1.failNum k n code
  | .planSignal i k => s1.onEntry i fun e => if e.occ = k then { e with code := code } else e
  | .notice => s1

/-- The packet of a flow that an answer names. -/
def State.unacked (s : State) (chip psn : Nat) : Option Unacked := (s.flow chip).out.find? (·.p.h.psn.toNat = psn)

/-- A packet leaves its flow, and those that wait may go. -/
def State.dropPkt (s : State) (chip psn : Nat) : State :=
  (s.onFlow chip fun f => { f with out := f.out.filter (·.p.h.psn.toNat ≠ psn) }).allRoom

/-- An ACK arrives (R271). -/
def State.rxAck (s : State) (h : PktHdr) : State :=
  let chip := h.srcChip.toNat
  let psn := h.psn.toNat
  match s.unacked chip psn with
  | none => s
  | some u =>
    let acked := u.acked ||| h.mask
    if u.p.h.blocks = 0 ∨ acked &&& fullMask u.p.h = fullMask u.p.h then (s.dropPkt chip psn).pktDone chip psn u.for_
    else s.onFlow chip fun f => { f with out := f.out.map fun x => if x.p.h.psn = h.psn then { x with acked := acked } else x }

/-- The blocks of a packet that are not acknowledged and that `mask` names, as one packet with RESEND set (R273). -/
def Unacked.again (u : Unacked) (mask : BitVec 16) : Packet :=
  let bs := u.p.blocks.filter fun (b : Nat × List Byte) => bit mask b.1 && !bit u.acked b.1
  let m := bs.foldl (fun m (b : Nat × List Byte) => m ||| blockBit b.1) (0 : BitVec 16)
  { h := { u.p.h with resend := true, mask := m }, blocks := bs }

/-- An answer that asks for none but acknowledged blocks asks for nothing. -/
def Unacked.answered (u : Unacked) (mask : BitVec 16) : Bool := u.p.h.blocks ≠ 0 && (u.again mask).blocks.isEmpty

/-- A packet is sent again. -/
def State.sendAgain (s : State) (chip : Nat) (u : Unacked) (mask : BitVec 16) : State :=
  let p := u.again mask
  (s.onPeer fun q => { q with resendCount := satAdd q.resendCount (max 1 p.blocks.length) }).transmit chip p

/-- A flow has no slot marked UP: it has failed, with all its packets (R275). -/
def State.failFlow (s : State) (chip : Nat) : State :=
  let f := s.flow chip
  let all := f.out ++ f.wait
  let psn := match f.out with | u :: _ => u.p.h.psn.toNat | [] => 0
  let s1 := (s.onFlow chip fun f => { f with out := [], wait := [], failed := true, fails := f.fails + 1 }).flag pgPXP 0 2 0x82
  let s2 := s1.fault 6 0x82 0 5 0 0 [place chip 16 ||| place psn 32, 0, place f.out.length 16, 0, 0, 0]
  all.foldl (fun t u => t.pktFail chip u.p.h.psn.toNat u.for_ 0x82) s2

/-- The packets of a flow that wait and cannot be sent any more fail with 0x82 (R275). -/
def State.failDead (s : State) (chip : Nat) : State :=
  let f := s.flow chip
  match f.wait.filter f.dead with
  | [] => s
  | us => (us.foldl (fun (t : State) u => t.pktFail chip u.p.h.psn.toNat u.for_ 0x82)
      (s.onFlow chip fun f => { f with wait := f.wait.filter fun u => !f.dead u })).allRoom

/-- Those of every flow. -/
def State.pumpFlows (s : State) : State := s.peer.flow.foldl (fun (t : State) (e : Nat × Flow) => t.failDead e.1) s

/-- UP of a chip's route slot is cleared. -/
def State.clearUp (s : State) (chip r : Nat) : State :=
  s.onPeer fun p => { p with route := tabMod (fun _ => 0) p.route chip fun (w : Word) => w &&& ~~~(place 1 (16 * r + 15)) }

/-- A route slot is declared failed (R274, R275): the flow moves on when it used the slot, every count back at 0. The loopback flow uses none
(R272). -/
def State.failRoute (s : State) (chip r : Nat) : State :=
  let used := upSlots (s.route chip)
  let s1 := (s.clearUp chip r).flag pgPXP 0 1
  if s.isSelf chip then s1
  else if s1.noRoute chip then s1.failFlow chip
  else if used.head? = some r then
    let s2 := s1.onFlow chip fun f => { f with
      slot := (upSlots (s1.route chip)).headD 0, out := f.out.map fun u => { u with resends := 0 } }
    (s2.flow chip).out.foldl (fun t u => t.sendAgain chip u 0xFFFF) s2
  else s1

/-- PXP_RESEND_MAX, 0 taken as 1 (R283). -/
def State.resendMax (s : State) : Nat := max 1 s.peer.resendMax.toNat

/-- A re-send of a packet falls due (R273); the loopback flow never re-sends (R272). -/
def State.resendPkt (s : State) (chip psn : Nat) (mask : BitVec 16) : State :=
  match s.unacked chip psn with
  | none => s
  | some u =>
    if s.isSelf chip || u.answered mask then s
    else if s.resendMax ≤ u.resends then s.failRoute chip ((upSlots (s.route chip)).headD 0)
    else
      (s.onFlow chip fun f => { f with
        out := f.out.map fun x => if x.p.h.psn.toNat = psn then { x with resends := x.resends + 1 } else x }).sendAgain chip u mask

/-- A NACK arrives (R273, R264): CAUSE 0 asks for blocks again, another refuses them. -/
def State.rxNack (s : State) (h : PktHdr) : State :=
  let chip := h.srcChip.toNat
  let psn := h.psn.toNat
  match s.unacked chip psn with
  | none => s
  | some u => if field h.arg 7 0 = 0 then s.resendPkt chip psn h.mask else (s.dropPkt chip psn).pktFail chip psn u.for_ 0x81

/-- fabf_up of a port falls (15_block_ports.md R341). -/
def State.portFalls (s : State) (f : Nat) : State :=
  let bad : List (Nat × Nat) := (s.peer.route.map fun (e : Nat × Word) =>
    ((upSlots e.2).filter fun r => slotPort e.2 r = f).map fun r => (e.1, r)).flatten
  bad.foldl (fun t x => t.failRoute x.1 x.2) (s.onPeer fun p => { p with portDown := f :: p.portDown.filter (· ≠ f) })

/-- The route a flow takes: its slot, egress port and tag (R274). -/
def routeUsed (w : Word) : Nat × Nat × Nat := let r := (upSlots w).headD 0; (r, slotPort w r, slotTag w r)

/-- A write of PXP_ROUTE (R274, R275): re-sends are counted on one route (R273). -/
def State.writeRoute (s : State) (v : Word) : State :=
  let chip := s.peer.routeSel.toNat
  let had := !(upSlots (s.route chip)).isEmpty
  let keep : Word := if s.macroLost 0x10 (4 * 65536 + chip) then 0x0FFF0FFF0FFF0FFF else 0x8FFF8FFF8FFF8FFF
  let s1 := s.onPeer fun p => { p with route := tabPut (fun _ => 0) p.route chip (v &&& keep) }
  if (upSlots (s1.route chip)).isEmpty then (if had && !s.isSelf chip then s1.failFlow chip else s1)
  else
    let same : Bool := routeUsed (s1.route chip) = routeUsed (s.route chip)
    (s1.onFlow chip fun f => { f with
      failed := false, slot := (upSlots (s1.route chip)).headD 0
      out := f.out.map fun u => if same then u else { u with resends := 0 } }).allRoom

/-! ## The window tables (R260 to R266, R282) -/

/-- A PWN sticky bit of a partition's view. -/
def State.pwnFlag (s : State) (p b : Nat) : State := s.flag pgPWN p b

/-- A word of an entry. -/
def WinEntry.word (e : WinEntry) (k : Nat) : Word := match k with | 0 => e.w0 | 1 => e.w1 | 2 => e.w2 | _ => e.w3

/-- The entry with a word changed: reserved bits are kept clear (R260, R263). -/
def WinEntry.put (e : WinEntry) (inbound : Bool) (k : Nat) (v : Word) : WinEntry :=
  match k with
  | 0 => { e with w0 := v &&& (if inbound then 0xE300FFFFFF0FFFFF else 0x80000000000FFFFF) }
  | 1 => { e with w1 := v &&& 0xFFFFFFFFFFFFF000 }
  | 2 => { e with w2 := v &&& (if inbound then 0xFFFFFFFFFFFF else 0xFFFFFFFFFFFFF000) }
  | _ => { e with w3 := v &&& (if inbound then 0xFFFF else 0xFFFFFFFF0FFF) }

/-- A function's PWN view. -/
def State.pwnView (s : State) (f : Nat) : PwnView := tabGet (fun _ => {}) s.peer.view f

/-- A write of a word of the selected outbound entry (R261, R282). -/
def State.writeOwin (s : State) (fn k : Nat) (v : Word) : State :=
  let i := (s.pwnView fn).owinSel.toNat
  let e := s.owin i
  let n := e.put false k v
  let put (x : WinEntry) : State := s.onPeer fun p => { p with owin := tabPut (fun _ => {}) p.owin i x }
  let off : WinEntry := { n with w0 := n.w0 &&& 0x7FFFFFFFFFFFFFFF }
  if !(s.allot false fn).has i then s.pwnFlag fn 5
  else if e.en then
    if n = e then s else if k = 0 ∧ !n.en then put n else s.pwnFlag fn 3
  else if s.macroLost 0x10 (2 * 65536 + i) then put off
  else if n.en then
    if field n.w2 63 12 < field n.w1 63 12 then (put off).pwnFlag fn 2
    else if s.windowsOn fn (field n.w0 19 0) n.lo n.hi ≠ [] then (put off).pwnFlag fn 1
    else put n
  else put n

/-- A write of a word of the selected inbound entry (R263, R266, R282). -/
def State.writeIwin (s : State) (fn k : Nat) (v : Word) : State :=
  let i := (s.pwnView fn).iwinSel.toNat
  let e := s.iwin i
  let n := e.put true k v
  let put (x : WinEntry) : State := s.onIwin i fun _ => x
  if !(s.allot true fn).has i then s.pwnFlag fn 5
  else if e.en then
    if n = e then s else if k = 0 ∧ !n.en then put { n with busy := decide (0 < n.admitted) } else s.pwnFlag fn 4
  else if s.macroLost 0x10 (3 * 65536 + i) then put { n with w0 := n.w0 &&& 0x7FFFFFFFFFFFFFFF }
  else put n

/-- Every block admitted through a disabled entry has been answered (R266). -/
def State.iwinDrained (s : State) (i : Nat) : State :=
  if (s.iwin i).busy ∧ (s.iwin i).admitted = 0 then s.onIwin i fun e => { e with busy := false } else s

/-- EN 0 is written to every entry of a partition (R266). -/
def State.closeWindows (s : State) (p : Nat) : State :=
  let off (e : WinEntry) : WinEntry := { e with w0 := e.w0 &&& 0x7FFFFFFFFFFFFFFF, busy := e.en && decide (0 < e.admitted) || e.busy }
  let s1 := (s.peer.owin.filter fun e => (s.allot false p).has e.1).foldl (fun (t : State) (e : Nat × WinEntry) =>
    t.onPeer fun q => { q with owin := tabPut (fun _ => {}) q.owin e.1 { e.2 with w0 := e.2.w0 &&& 0x7FFFFFFFFFFFFFFF } }) s
  (s.peer.iwin.filter fun e => (s.allot true p).has e.1).foldl (fun (t : State) (e : Nat × WinEntry) => t.onIwin e.1 off) s1

/-- A write of PWN_PART_OWIN or PWN_PART_IWIN (R282). COUNT is held as written; a run ends with the table (log entry 81). -/
def State.writeAllot (s : State) (inbound : Bool) (v : Word) : State :=
  let p := s.peer.psel.toNat
  let n : Allot :=
    if inbound then { base := field v 15 0, count := field v 32 16 } else { base := field v 13 0, count := field v 30 16 }
  let size := if inbound then 65536 else 16384
  let stop (a : Allot) : Nat := min size (a.base + a.count)
  let overlaps (q : Nat) : Bool :=
    let a := s.allot inbound q
    q ≠ p && decide (0 < a.count) && decide (0 < n.count) && decide (a.base < stop n) && decide (n.base < stop a)
  let old := s.allot inbound p
  let mine (e : Nat × WinEntry) : Bool := e.2.en && old.has e.1 && !n.has e.1
  if (List.range 64).any overlaps then s.pwnFlag 0 6
  else if (if inbound then s.peer.iwin else s.peer.owin).any mine then s.pwnFlag 0 7
  else s.onPeer fun q =>
    if inbound then { q with iAllot := tabPut iAllotDflt q.iAllot p n } else { q with oAllot := tabPut oAllotDflt q.oAllot p n }

end Sys2Proof.Machine
end

