-- ==== Sys2Proof/Machine/Chanter.lean ====
section
/-! DEFINITION. The Drone and Chanter: updates, lag, regress and loss, windows and occurrences, arming, pulses, slips, and plan images
(10_drone_and_chanter.md R209 to R238; 12_peer_windows_and_transport.md R277 to R280; 09_sync_objects.md R202). -/

namespace Sys2Proof.Machine

/-! ## Broadcasts (R211, R277) -/

/-- The chips enabled in PXP_BCAST_CHILD (12 R283). -/
def State.children (s : State) : List Nat :=
  ((List.range 4).filter fun c => bit s.peer.child (16 * c + 15)).map fun c => field s.peer.child (16 * c + 11) (16 * c)

/-- The hub is a Drone master that holds for a slip (R213, R280). -/
def Cht.holding (c : Cht) : Bool := c.master && c.slipHolders ≠ []

/-- The master broadcasts its Drone value (R211). -/
def State.broadcast (s : State) : State :=
  if !s.cht.master then s
  else s.children.foldl (fun t c =>
    t.transmit c { h := { t.header 6 c with body := s.cht.drone, arg := BitVec.ofNat 32 s.cht.holding.toNat } }) s

/-! ## Windows and occurrences (R216 to R223) -/

/-- A closing at a step's end comes before what falls due at the start of the next step (R217). -/
def WinEvt.early (v : WinEvt) : Bool := !v.opens && v.at_ = (v.step + 1) * 16777216

/-- The order of window events (R217, R219). -/
def WinEvt.before (a b : WinEvt) : Bool :=
  decide (a.at_ < b.at_) || (a.at_ = b.at_ && ((a.early && !b.early) || (a.early = b.early && decide (a.i < b.i))))

/-- An event put in its place among others. -/
def insertEvt (v : WinEvt) : List WinEvt → List WinEvt
  | [] => [v]
  | w :: r => if v.before w then v :: w :: r else w :: insertEvt v r

/-- The window events of an entry that a move of the Drone from `a` to `b` causes (R216); an update crosses whole what opens and closes in it
(R218). `base` is the value before the update's first edge (R210). -/
def Entry.events (e : Entry) (i base a b : Nat) (upd : Bool) : List WinEvt :=
  if !e.held || e.kind ≠ 1 then []
  else
    let s0 := a / 16777216
    let steps := ((List.range (b / 16777216 + 1 - s0)).map (s0 + ·)).filter fun k => k % e.period = e.offset
    (steps.map fun k =>
      let o := k * 16777216 + e.start
      let c := k * 16777216 + e.end_
      let opens : Bool := decide (a < o) && decide (o ≤ b) && e.covers k
      let closes : Bool := decide (a < c) && decide (c ≤ b)
      (if opens then [({ at_ := o, i := i, step := k, opens := true, whole := upd && closes } : WinEvt)] else []) ++
      (if closes then [({ at_ := c, i := i, step := k, opens := false, whole := upd && opens
                          split := upd && decide (base < o) && decide (o ≤ a) } : WinEvt)] else [])).flatten

/-- The window events of a move, in order (R217, R219). -/
def State.windowEvents (s : State) (base a b : Nat) (upd : Bool) : List WinEvt :=
  ((s.cht.entry.map fun (e : Nat × Entry) => e.2.events e.1 base a b upd).flatten).foldr insertEvt []

/-- The edges of this hub cycle on the Drone pins so far (R210). -/
def State.pinCycle (s : State) : PinCycle :=
  match s.cht.pins with
  | some p => if p.at_ = s.glb.time then p else { at_ := s.glb.time, base := s.cht.drone }
  | none => { at_ := s.glb.time, base := s.cht.drone }

/-- 0xA5: the late occurrence of an entry is dropped when the next one opens (R223). -/
def State.dropLate (s : State) (i : Nat) : State :=
  let e := s.entry i
  if e.live ∧ !e.fired ∧ e.action ≠ 4 then
    (((s.withdrawWaits (Waiter.isPlan i)).onEntry i fun e => { e with code := 0xA5 }).planFault i 0xA5
      (BitVec.ofNat 64 e.step) 0 0 0).chtFlag e.part 4 i 0xA5
  else s

/-- 0xA2: an occurrence misses its deadline (R218, R223). -/
def State.missDeadline (s : State) (i : Nat) : State :=
  let e := s.entry i
  (((s.onEntry i fun e => { e with code := 0xA2 }).onChtView e.part fun v => { v with deadline := satInc v.deadline }).planFault i 0xA2
    (BitVec.ofNat 64 e.step) 0 0 0).chtFlag e.part 2 i 0xA2

/-- An update crosses the window that has just opened whole: WINDOW_SKIPPED is set, and an entry with DEADLINE raises 0xA2 (R218). -/
def State.skipWindow (s : State) (i : Nat) : State :=
  let t := s.chtFlag (s.entry i).part 5 i
  if (s.entry i).deadline then t.missDeadline i else t

/-- An occurrence opens (R216, R221, R226). -/
def State.openWindow (s : State) (i step : Nat) : State :=
  let s1 := (s.ops pgCHT 1).dropLate i
  let s2 := s1.onEntry i fun e => { e with
    open_ := true, live := true, step := step, fired := false, done := e.action = 4, gatePassed := false, fallback := false,
    runOld := e.run.isSome, occ := e.occ + 1, last := some step }
  let e := s2.entry i
  if e.action = 4 then s2.setRow i true
  else if e.gateEn then (s2.beginWait (.plan i) [(s2.chanter e).getD .A] e.gate e.gateCond e.gateTimeout).tryFire i
  else s2.tryFire i

/-- An occurrence closes (R218, R221, R223): what an update crosses whole has raised its 0xA2 as it opened. -/
def State.closeWindow (s : State) (i step : Nat) (whole : Bool) : State :=
  let e := s.entry i
  if !e.open_ ∨ e.step ≠ step then s
  else
    let s1 := ((s.ops pgCHT 1).setRow i false).onEntry i fun e => { e with
      open_ := false, live := e.live && !e.fired && e.action ≠ 4 }
    if e.deadline && !whole && !e.done then s1.missDeadline i else s1

/-- A window event takes effect (R216, R225): an opening, where the arming still covers its step. -/
def State.takeEvent (s : State) (v : WinEvt) : State :=
  if !v.opens then
    let e := s.entry v.i
    let t := s.closeWindow v.i v.step (v.whole || v.split)
    if v.split && e.open_ && e.step = v.step then t.skipWindow v.i else t
  else if !((s.entry v.i).held && (s.entry v.i).covers v.step) then s
  else
    let t := s.openWindow v.i v.step
    if v.whole then t.skipWindow v.i else t

/-- One window event takes effect, judged at the value at which it fell due (R219). An event of an entry whose engine is in failover waits
for the adoption (13_partitions_and_twin_engines.md R298). -/
def State.windowEvent (s : State) (v : WinEvt) : State :=
  let s1 := s.onCht fun c => { c with drone := BitVec.ofNat 64 v.at_ }
  let e := s.entry v.i
  if (s.chanter e).isSome then s1.takeEvent v
  else if s.ownerKnown e then s1.onCht fun c => { c with due := c.due ++ [v] }
  else s1

/-- The Drone moves forward to a value: the windows it crosses open and close (R216 to R219), and a master broadcasts the value when STEP
changes (R211). -/
def State.moveDrone (s : State) (v : Word) (upd : Bool) : State :=
  let evs := s.windowEvents s.pinCycle.base.toNat s.cht.drone.toNat v.toNat upd
  let t := (evs.foldl State.windowEvent s).onCht fun c => { c with drone := v }
  if field v 63 24 = s.droneStep then t else t.broadcast

/-- The window events that fell due during a failover take effect at the adoption, each at the value at which it fell due; and what was ready
to fire fires (13 R298 step 3). -/
def State.adoptEvents (s : State) (is : List Nat) : State :=
  let d := s.cht.drone
  let s1 := (s.cht.due.foldl State.windowEvent (s.onCht fun c => { c with due := [] })).onCht fun c => { c with drone := d }
  is.foldl State.tryFire s1

/-- An armed window that the Drone is inside, and whose step has not opened yet, opens at once (R71, R216). -/
def State.catchWindow (s : State) (i : Nat) : State :=
  let e := s.entry i
  let k := s.droneStep
  let p := field s.cht.drone 23 0
  if !s.cht.held ∧ e.held ∧ e.kind = 1 ∧ !e.open_ ∧ e.last ≠ some k ∧ s.armed e ∧ k % e.period = e.offset ∧
      e.start ≤ p ∧ p < e.end_ then
    if (s.chanter e).isSome then s.openWindow i k
    else if s.ownerKnown e then
      s.onCht fun c => { c with due := c.due ++ [{ at_ := s.cht.drone.toNat, i := i, step := k, opens := true, whole := false }] }
    else s
  else s

/-- The armed windows that the Drone is inside open, where their steps have not: what was armed during a hold opens at its end (R214,
R216). -/
def State.catchWindows (s : State) : State := (s.cht.entry.map (·.1)).foldl State.catchWindow s

/-- The occurrence state of an entry is cleared, as at arming (R214). -/
def State.clearOccurrence (s : State) (i : Nat) : State :=
  (s.endOccurrence i).onEntry i fun e => { e with
    step := 0, fired := false, done := false, gatePassed := false, fallback := false, runOld := e.run.isSome, occ := e.occ + 1
    last := none }

/-- A PLAN_ARM of one entry (R71): arming an entry with no occurrence clears its occurrence state. -/
def State.planArm (s : State) (i step : Nat) (disarm : Bool) : State :=
  let e := s.entry i
  let fresh := !disarm && e.held && e.kind = 1 && !e.live && !s.armed e
  (if fresh then s.clearOccurrence i else s).armEntry i step disarm State.catchWindow

/-! ## Updates (R210 to R215) -/

/-- SRC in force: 3 is taken as 0 (R238). -/
def Cht.source (c : Cht) : Nat := if c.src = 3 then 0 else c.src.toNat

/-- 0xA3 or 0xA4 (R214, R215, R237): recorded for partition 0 and every partition with an armed entry. -/
def State.droneCode (s : State) (b : Nat) (code : Code) (other : Word) : State :=
  let parts := (List.range 64).filter fun p => p = 0 || s.cht.entry.any fun (e : Nat × Entry) => e.2.held && e.2.part = p && s.armed e.2
  parts.foldl (fun t p => (t.fault 5 code p 5 0 0 [s.cht.drone, other, 0, 0, 0, 0]).flag pgCHT p b code) s

/-- An update is judged against the Drone's value and applied (R214). -/
def State.judgeUpdate (s : State) (u : Word) : State :=
  let c := s.cht
  let d := c.drone
  let near : Bool := field u 63 24 = field d 63 24 && decide (d.toNat - u.toNat ≤ c.regressTol.toNat)
  if u.toNat < d.toNat then
    if near then s.onCht fun c => { c with lagAt := some u, lost := false, frac := 0 }
    else (s.onCht fun c => { c with held := true, lost := false, lagAt := none, frac := 0 }).droneCode 9 0xA3 u
  else
    let s1 := s.onCht fun c => { c with held := false, lost := false, lagAt := none, frac := 0 }
    (if c.held then s1.catchWindows else s1).moveDrone u true

/-- A source update arrives: a holding master keeps the latest (R213), else it is judged (R214). -/
def State.update (s : State) (u : Word) : State :=
  let s1 := s.onCht fun c => { c with latest := some u }
  if s.cht.holding then s1.onCht fun c => { c with kept := some u, lost := false } else s1.judgeUpdate u

/-- CHT_DRONE_SET (R210). -/
def State.droneSet (s : State) (v : Word) : State := if s.cht.source = 0 then s.update v else s

/-- A Drone pin edge: a level seen for one sample sets DRONE_PIN_GLITCH and may not be counted (15_block_ports.md R342). -/
def State.pinEdge (s : State) (glitch : Bool) (f : State → State) : State :=
  if s.cht.source ≠ 1 then s
  else if !glitch then f s
  else
    let (n, s1) := (s.flag pgGLB 0 6 0 32).draw
    if Config.glitchCounts n then f s1 else s1

/-- The update that the edges of one hub cycle give: (STEP + 1, 0) for drone_step, (STEP, PHASE + CHT_TICK_INC) for drone_tick with PHASE
saturating, (STEP + 1, CHT_TICK_INC) for both, of the value before them (R210). -/
def PinCycle.value (p : PinCycle) (inc : Nat) : Word :=
  if p.step then place ((field p.base 63 24 + 1) % 2 ^ 40) 24 ||| BitVec.ofNat 64 (if p.tick then inc else 0)
  else place (field p.base 63 24) 24 ||| BitVec.ofNat 64 (min 0xFFFFFF (field p.base 23 0 + inc))

/-- An edge on a Drone pin: the update that the hub cycle's edges so far give (R210). -/
def State.pinUpdate (s : State) (f : PinCycle → PinCycle) : State :=
  let p := f s.pinCycle
  (s.onCht fun c => { c with pins := some p }).update (p.value s.cht.tickInc.toNat)

/-- A drone_step edge (R210). -/
def State.stepPin (s : State) : State := s.pinUpdate fun p => { p with step := true }

/-- A drone_tick edge (R210). -/
def State.tickPin (s : State) : State := s.pinUpdate fun p => { p with tick := true }

/-- Interpolation over some hub cycles (R212, R214): it stops at the end of the step. -/
def State.interpolate (s : State) (cycles : Nat) : State :=
  let c := s.cht
  if c.rate = 0 ∨ c.held ∨ c.lost ∨ c.holding ∨ (c.source = 2 ∧ c.slipRx) then s
  else
    let from_ := c.lagAt.getD c.drone
    let tot := c.frac.toNat + cycles * c.rate.toNat
    let ph := field from_ 23 0 + tot / 65536
    let v := place (field from_ 63 24) 24 ||| BitVec.ofNat 64 (min 0xFFFFFF ph)
    let s1 := s.onCht fun c => { c with frac := if ph < 0xFFFFFF then BitVec.ofNat 16 tot else 0 }
    if c.lagAt.isSome ∧ v.toNat ≤ c.drone.toNat then s1.onCht fun c => { c with lagAt := some v }
    else (s1.onCht fun c => { c with lagAt := none }).moveDrone v false

/-- The source is lost (R215). -/
def State.droneLoss (s : State) : State :=
  if s.cht.lossLimit = 0 ∨ s.cht.lost then s
  else (s.onCht fun c => { c with lost := true, lagAt := none, frac := 0 }).droneCode 10 0xA4 0

/-- REBASE (R214): the Drone takes the latest update. A lost source stays lost until one comes (R215). -/
def State.rebase (s : State) : State :=
  match s.cht.latest with
  | none => s
  | some u =>
    let s1 := (s.cht.entry.map (·.1)).foldl (fun t i => if (t.entry i).kind = 1 then t.clearOccurrence i else t) s
    let s2 := s1.onCht fun c => { c with drone := u, held := false, lagAt := none, frac := 0, due := [] }
    let s3 := s2.catchWindows
    if field u 63 24 = s.droneStep then s3 else s3.broadcast

/-! ## Slips (R213, R278 to R280; 09 R202) -/

/-- SYN_SLIP_MAX in hub cycles (09 R208). -/
def State.slipCycles (s : State) : Nat := s.syn.slipMax.toNat * Config.usCycles

/-- A slip is in force on the chip (R279). -/
def State.slipping (s : State) : Bool := s.skk.thermal ≠ 0 || s.cht.slipRx || s.cht.holding

/-- A wait is on an object created with SLIP. -/
def State.slips (s : State) (w : WRec) : Bool := (s.obj (hIdx w.handle)).slip

/-- Every wait on an affected object is changed. -/
def State.onSlipWaits (s : State) (f : WRec → WRec) : State :=
  s.syn.rec_.foldl (fun (t : State) (e : Nat × Option WRec) => match e.2 with
    | some w => if s.slips w then t.setWrec e.1 (some (f w)) else t
    | none => t) s

/-- The deadlines of affected waits are extended by the time the slip has lasted, at most SYN_SLIP_MAX (09 R202). -/
def State.extendWaits (s : State) : State :=
  let stop := min s.glb.time.toNat (s.syn.slipAt.toNat + s.slipCycles)
  s.onSlipWaits fun w => { w with deadline := w.deadline + BitVec.ofNat 64 (stop - max s.syn.slipAt.toNat w.linked.toNat) }

/-- The pause of deadlines follows the slip (09 R202). -/
def State.followSlip (s : State) : State :=
  if s.slipping = s.syn.slip then s
  else if s.slipping then
    let s1 := s.onSyn fun y => { y with slip := true, slipOver := false, slipAt := s.glb.time }
    if s.syn.slipMax = 0 then s1 else s1.onSlipWaits fun w => { w with slipped := true }
  else (if s.syn.slipOver then s else s.extendWaits).onSyn fun y => { y with slip := false, slipOver := false }

/-- A slip outlasts SYN_SLIP_MAX: deadlines count again (09 R202). -/
def State.slipExpire (s : State) : State :=
  if s.syn.slip ∧ !s.syn.slipOver then
    (s.extendWaits.onSyn fun y => { y with slipOver := true }).flag pgSYN 0 8
  else s

/-- The master's hold ends: the latest kept update is applied if it lies after the held value (R213). -/
def State.endHold (s : State) : State :=
  let s1 := s.onCht fun c => { c with kept := none }
  (match s.cht.kept with
   | some u => if s.cht.drone.toNat < u.toNat then s1.judgeUpdate u else s1
   | none => s1).followSlip

/-- A SLIP reaches a master (R213, R280). -/
def State.slipFrom (s : State) (chip : Nat) : State :=
  if !s.cht.master ∨ s.cht.slipHolders.contains chip then s
  else (s.onCht fun c => { c with slipHolders := chip :: c.slipHolders, slipHeld := satInc c.slipHeld }).followSlip

/-- A SLIP_END reaches a master (R280). -/
def State.slipEndFrom (s : State) (chip : Nat) : State :=
  if !s.cht.slipHolders.contains chip then s
  else
    let s1 := s.onCht fun c => { c with slipHolders := c.slipHolders.filter (· ≠ chip) }
    if s1.cht.slipHolders = [] then s1.endHold else s1

/-- A master's hold reaches SYN_SLIP_MAX (R280). -/
def State.slipLimit (s : State) : State :=
  if s.cht.holding then (s.onCht fun c => { c with slipHolders := [] }).endHold else s

/-- A sequenced SLIP or SLIP_END packet: acknowledged, and acted on once (12 R270, R278). -/
def State.rxSlip (s : State) (h : PktHdr) (f : State → State) : State :=
  s.sequenced h 1 fun s =>
    let s1 := s.rxOpen h
    let old := match s1.rxPkt h.srcChip.toNat h.psn.toNat with | some p => p.mask | none => 0
    if bit old 0 then (s1.onPeer fun q => { q with dup := satInc q.dup }).respond h 4 1 0
    else f ((s1.onRxPkt h.srcChip.toNat h.psn.toNat fun p => { p with mask := 1 }).respond h 4 1 0)

/-- A slip notice goes to the master: to the hub's own Chanter on a master, else as a packet (R278). -/
def State.sendSlip (s : State) (end_ : Bool) : State :=
  let chip := s.cht.masterChip.toNat
  let me := s.peer.chipId.toNat
  let s1 := s.onPeer fun p => { p with slipSent := !end_ }
  if s.cht.master then (if end_ then s1.slipEndFrom me else s1.slipFrom me)
  else
    let h := s1.header (if end_ then 8 else 7) chip
    (s1.sendPkt chip { h with body := s.skk.thermal.setWidth 64 } [] .notice (s1.flow chip).fails).2

/-- A stack's thermal notice is asserted (R278; 05_invalidation_and_placement.md R116). -/
def State.thermalOn (s : State) (stack : Nat) : State :=
  if bit s.skk.thermal stack then s
  else
    let first : Bool := s.skk.thermal = 0
    let s1 := (s.onSkk fun k => { k with thermal := k.thermal ||| BitVec.ofNat 8 (2 ^ stack) }).flag pgPXP 0 3
    let s2 := s1.thermalFrames stack
    (if first then s2.sendSlip false else s2).followSlip

/-- A stack's thermal notice clears (R278). -/
def State.thermalOff (s : State) (stack : Nat) : State :=
  if !bit s.skk.thermal stack then s
  else
    let s1 := s.onSkk fun k => { k with thermal := k.thermal &&& ~~~(BitVec.ofNat 8 (2 ^ stack)) }
    (if s1.skk.thermal = 0 then s1.sendSlip true else s1).followSlip

/-! ## Broadcasts received (R277) -/

/-- A DRONE packet arrives (R210, R277): forwarded to the children, and an update of a FABRIC receiver. -/
def State.rxDrone (s : State) (h : PktHdr) : State :=
  if s.cht.source = 2 ∧ h.srcChip ≠ s.cht.masterChip then s.flag pgCHT 0 11
  else
    let s1 := (s.children.filter fun c => !s.isSelf c).foldl (fun t c => t.transmit c { h := { h with dstChip := BitVec.ofNat 12 c } }) s
    let s2 := (s1.onCht fun c => { c with slipRx := bit h.arg 0 }).followSlip
    if s.cht.source = 2 then s2.update h.body else s2

/-! ## Configuration (R210, R211, R238) -/

/-- An entry is armed, now or from a later step. -/
def State.anyArmed (s : State) : Bool :=
  s.cht.entry.any fun (e : Nat × Entry) => e.2.held && (s.armed e.2 || e.2.arms.any fun (a : Nat × Bool) => a.2 && decide (s.droneStep < a.1))

/-- A write of CHT_DRONE_CFG (R210, R211). -/
def State.writeDroneCfg (s : State) (v : Word) : State :=
  let src := BitVec.ofNat 2 (field v 1 0)
  let chg : Bool := (if src = 3 then 0 else src.toNat) ≠ s.cht.source
  let refused := chg && s.anyArmed && !s.cht.held
  let src' := if refused then s.cht.src else src
  let m := bit v 4
  let bad := m && src' = 2
  let s1 := if refused || bad then s.flag pgCHT 0 12 else s
  (s1.onCht fun c => { c with
    masterChip := BitVec.ofNat 12 (field v 27 16), src := src', master := m && !bad
    slipHolders := if m && !bad then c.slipHolders else [], kept := if m && !bad then c.kept else none }).followSlip

/-- A write of CHT_RSV_MAX (R233). -/
def State.writeRsvMax (s : State) (v : Word) : State :=
  let path := field s.cht.rsvSel 20 16
  let k := field s.cht.rsvSel 5 0 * 23 + path
  let n := field v 17 0
  if 22 < path then s
  else
    let sum := (List.range 64).foldl (fun (a : Nat) p => if p * 23 + path = k then a else a + tabGet (fun _ => 0) s.cht.rsvMax (p * 23 + path)) n
    if pathCap path < sum then s.flag pgCHT 0 13 else s.onCht fun c => { c with rsvMax := tabPut (fun _ => 0) c.rsvMax k n }

/-! ## Pulses (R224) -/

/-- A completion pulse reaches a plan entry (R224). -/
def State.planPulse (s : State) (h : BitVec 32) : State :=
  let s1 := s.onCht fun c => { c with pulses := dropFirst (fun x => x = h) c.pulses }
  let i := hIdx h
  let e := s1.entry i
  if s1.goodEntry h (hPart h) ∧ e.kind = 1 ∧ s1.armed e then (s1.onEntry i fun e => { e with count := satInc e.count }).tryFire i
  else s1.onChtView (hPart h) fun v => { v with pulseDiscard := satInc v.pulseDiscard }

/-! ## Plan images (R234 to R236) -/

/-- Entries a partition holds (R238). -/
def State.entryCount (s : State) (p : Nat) : Nat := (s.cht.entry.filter fun (e : Nat × Entry) => e.2.held && e.2.part = p).length

/-- Rows a partition holds. -/
def State.rowCount (s : State) (p : Nat) : Nat := (s.cht.row.filter fun (e : Nat × Row) => e.2.held && e.2.part = p).length

/-- An index of the plan entry store is in use: held, or its descriptor still runs. -/
def Entry.used (e : Entry) : Bool := e.held || e.run.isSome

/-- The plan entry indices that a load may not take, rising: those used, and those of a lost bank (18_stored_data_protection.md R370). -/
def State.usedEntries (s : State) : List Nat :=
  if s.ras.lostCap.any (·.1 = 0x0C) then
    (List.range Config.planEntries).filter fun k => (s.entry k).used || s.bankLost 0x0C (k / 8192)
  else (s.cht.entry.filter fun (e : Nat × Entry) => e.2.used).map (·.1)

/-- The lowest start of `n` free indices at or after `from_` (R235). -/
def freeRun (n : Nat) (from_ : Nat) : List Nat → Nat
  | [] => from_
  | k :: r => if k < from_ then freeRun n from_ r else if from_ + n ≤ k then from_ else freeRun n (k + 1) r

/-- The lowest `n` free rows (R235). -/
def State.freeRows (s : State) (n : Nat) : List Nat :=
  ((List.range Config.rows).filter fun k => !(tabGet (fun _ => ({} : Row)) s.cht.row k).held).take n

/-- The counts of a header are within their ranges: the image's extent is known. -/
def PlanImage.sized (m : PlanImage) : Bool :=
  decide (1 ≤ m.nEntries) && decide (m.nEntries ≤ 65536) && decide (m.nRows ≤ 512) && decide (m.nSymbols ≤ 4096)

/-- A row of an image is within its ranges (R234). -/
def PlanRow.ok (r : PlanRow) : Bool := decide (r.path ≤ 22) && decide (1 ≤ r.bytes) && decide (r.bytes ≤ pathCap r.path)

/-- The bodies of a START entry, with the completion target taken out unless it is a core's (R227). -/
def imageSlots (es : List Granule) (k : Nat) (e : Entry) : List Granule :=
  let b1 := es.getD (k + 1) 0
  let cpl := granWord b1 8
  let b1' := if field cpl 2 0 = 1 then b1 else granPut b1 8 0
  bodySlots b1' (if e.bodies = 2 then some (es.getD (k + 2) 0) else none)

/-- A START entry's bodies are there and keep the opcode's rules (R227, R235). -/
def State.bodiesOk (s : State) (part : Nat) (m : PlanImage) (k : Nat) (e : Entry) : Bool :=
  let b1 := m.entries.getD (k + 1) 0
  let cpl := granWord b1 8
  let op := field b1 15 8
  let sl := imageSlots m.entries k e
  decide (k + e.bodies < m.nEntries)
    && (List.range e.bodies).all (fun j => field (m.entries.getD (k + 1 + j) 0) 3 0 = 2)
    && (op = 1 || op = 2 || op = 3 || op = 5)
    && decide (field cpl 2 0 ≤ 3)
    && (field cpl 2 0 ≠ 2 || decide (field cpl 63 32 < m.nSymbols)) && (field cpl 2 0 ≠ 3 || decide (field cpl 63 32 < m.nEntries))
    && encoded op sl && aligned? op sl && s.lengthsOk part op sl

/-- An entry of an image holds its ranges (R220, R234, R235). -/
def State.imageEntryOk (s : State) (part : Nat) (m : PlanImage) (k : Nat) : Bool :=
  let e : Entry := { body := m.entries.getD k 0 }
  let sym (x : BitVec 32) : Bool := decide (x.toNat < m.nSymbols)
  match e.kind with
  | 1 =>
    decide (e.action ≤ 4) && decide (e.start < e.end_) && decide (e.end_ ≤ 16777216) && field (granWord e.body 0x10) 15 0 ≠ 0
      && decide (e.offset < e.period) && sym e.owner
      && (!e.gateEn || (e.gateTimeout ≠ 0 && e.gateCond ≠ 3 && sym e.gate && field (granHalf e.body 0x1C) 1 0 < 3))
      && match e.action with
        | 1 => s.bodiesOk part m k e
        | 2 => sym e.arg0 && decide (1 ≤ field e.arg1 16 0) && decide (field e.arg1 16 0 ≤ 65536)
        | 3 => sym e.arg0 && decide (field e.arg1 17 16 ≤ 2) && (field e.arg1 17 16 ≠ 0 || e.value ≠ 0)
            && (!bit e.arg1 14 || decide (field e.arg1 13 0 < m.nSymbols))
        | 4 => decide (field e.arg0 8 0 < m.nRows)
        | _ => true
  | 0 => true
  | 2 => true
  | _ => false

/-- The image is well formed (R235 check 3). -/
def State.imageGood (s : State) (part : Nat) (m : PlanImage) : Bool :=
  m.magic = 0x54504843 && m.version = 1 && m.sized && m.crcOk && (m.rows.take m.nRows).all PlanRow.ok
    && (List.range m.nEntries).all (s.imageEntryOk part m)

/-- A channel handle is bound to a channel of the partition; an OWNER to a live one (R235 check 4). -/
def State.bindsChan (s : State) (part : Nat) (live : Bool) (h : BitVec 32) : Bool :=
  match s.goodChan h part with
  | none => false
  | some k => !live || (s.chan k).live || (s.chan k).st = .creating

/-- The handles an entry binds pass (R235 check 4). -/
def State.entryBinds (s : State) (part : Nat) (m : PlanImage) (k : Nat) : Bool :=
  let e : Entry := { body := m.entries.getD k 0 }
  let sym (x : BitVec 32) : BitVec 32 := m.symbols.getD x.toNat 0
  let obj := sym e.arg0
  let cpl := granWord (m.entries.getD (k + 1) 0) 8
  let pulse := sym (BitVec.ofNat 32 (field cpl 63 32))
  e.kind ≠ 1 ||
    (s.bindsChan part true (sym e.owner)
      && (!e.gateEn || (s.goodObj (sym e.gate) part && condOk e.gateCond.toNat (hType (sym e.gate))))
      && match e.action with
        | 1 => field cpl 2 0 ≠ 2 || s.goodObj pulse part
        | 2 => s.bindsChan part false (sym e.arg0)
        | 3 => actionOk (field e.arg1 17 16) (hType obj) && (bit e.arg1 14 || s.goodObj obj part)
        | _ => true)

/-- With an image's rows, a partition would reserve more than CHT_RSV_MAX in some slot of some path, its own rows counted (R233). -/
def State.overReserved (s : State) (part : Nat) (rows : List PlanRow) : Bool :=
  (List.range 23).any fun path =>
    let mine := (s.cht.row.filter fun (e : Nat × Row) => e.2.held && e.2.part = part && e.2.path = path).map
      (fun (e : Nat × Row) => (e.2.bytes, e.2.mask)) ++ (rows.filter fun x => x.path = path).map fun x => (x.bytes, x.mask)
    mine ≠ [] && (List.range 1024).any fun k =>
      decide (tabGet (fun _ => 0) s.cht.rsvMax (part * 23 + path)
        < mine.foldl (fun (a : Nat) (x : Nat × BitVec 1024) => if bit x.2 k then a + x.1 else a) 0)

/-- A word with its low, or high, half replaced. -/
def halfPut (w : Word) (high : Bool) (h : BitVec 32) : Word :=
  if high then (w &&& 0xFFFFFFFF) ||| place h.toNat 32 else (w &&& 0xFFFFFFFF00000000) ||| h.setWidth 64

/-- An entry of an image with its symbols and indices relocated (R234, R235). -/
def relocate (m : PlanImage) (rows : List Nat) (handle : Nat → BitVec 32) (g : Granule) : Granule :=
  let e : Entry := { body := g }
  let sym (x : Nat) : BitVec 32 := m.symbols.getD x 0
  match e.kind with
  | 1 =>
    let g1 := granPut g 0 (halfPut (granWord g 0) true (sym e.owner.toNat))
    let g2 := if e.gateEn then granPut g1 0x18 (halfPut (granWord g 0x18) false (sym e.gate.toNat)) else g1
    let a0 : BitVec 32 := match e.action with
      | 2 => sym e.arg0.toNat
      | 3 => sym e.arg0.toNat
      | 4 => BitVec.ofNat 32 (rows.getD (field e.arg0 8 0) 0)
      | _ => e.arg0
    let win := field (sym (field e.arg1 13 0)) 13 0
    let a1 : BitVec 32 := if e.action = 3 && bit e.arg1 14 then (e.arg1 &&& 0xFFFFC000) ||| BitVec.ofNat 32 win else e.arg1
    granPut g2 0x20 (place a1.toNat 32 ||| place a0.toNat 0)
  | 2 =>
    let cpl := granWord g 8
    match field cpl 2 0 with
    | 2 => granPut g 8 (halfPut cpl true (sym (field cpl 63 32)))
    | 3 => granPut g 8 (halfPut cpl true (handle (field cpl 63 32)))
    | _ => g
  | _ => g

/-- A function's load ends with a result (R238). -/
def State.loadResult (s : State) (fn : Nat) (r : BitVec 3) (h : Option (BitVec 32)) : State :=
  s.onChtView fn fun v => { v with
    busy := false, result := r, handle := h.getD v.handle, lines := [], binds := [], readDone := false, readBad := false, loaded := none }

/-- The entries and rows of an image are placed, disarmed, and the resolution of its descriptors begins: the load ends with it (R235). -/
def State.placeImage (s : State) (fn : Nat) (m : PlanImage) (base : Nat) : State :=
  let n := s.cht.loads + 1
  let rows := s.freeRows m.nRows
  let gen (k : Nat) : Byte := nextGen (s.entry (base + k)).gen
  let handle (k : Nat) : BitVec 32 := objHandle (gen k) fn 3 (base + k)
  -- the second body of a START holds no completion target
  let second (k : Nat) : Bool := decide (2 ≤ k) && (let e : Entry := { body := m.entries.getD (k - 2) 0 }
    e.kind = 1 && e.action = 1 && e.bodies = 2)
  let body (k : Nat) : Granule := let g := m.entries.getD k 0; if second k then g else relocate m rows handle g
  let s1 := (List.range m.nEntries).foldl (fun (t : State) k => t.onEntry (base + k) fun _ =>
    { gen := gen k, body := body k, held := true, part := fn, img := n, occ := (s.entry (base + k)).occ + 1
      resNo := (s.entry (base + k)).resNo + 1 }) (s.onCht fun c => { c with loads := n })
  let s2 := (rows.zip m.rows).foldl (fun (t : State) (x : Nat × PlanRow) => t.onCht fun c => { c with
    row := tabPut (fun _ => {}) c.row x.1 { held := true, part := fn, img := n, path := x.2.path, bytes := x.2.bytes, mask := x.2.mask } }) s1
  let starts := ((List.range m.nEntries).map (base + ·)).filter fun i => (s2.entry i).kind = 1 && (s2.entry i).action = 1
  (starts.foldl State.resolve s2).onChtView fn fun v => { v with loaded := some (handle 0, starts) }

/-- A resolution of one of some entries' descriptors is under way. -/
def State.resolving (s : State) (is : List Nat) : Bool :=
  let mine (x : XReq) : Bool := match x.who with | .resolve i _ no => is.contains i && (s.entry i).resNo = no | _ => false
  let x := s.xlt
  x.lookups.any mine || x.missA.any mine || x.missB.any mine || x.locks.any (fun w => mine w.req || w.joiners.any mine)
    || x.walk.any fun (e : Nat × Option Walk) => match e.2 with | some w => mine w.req || w.joiners.any mine | none => false

/-- A load whose image is placed returns the first handle once its descriptors are resolved (R235): PARTITION_CLOSED where its entries have
gone meanwhile (DESIGN CHOICE, log entry 78). -/
def State.pumpLoad (s : State) (fn : Nat) : State :=
  match (s.chtView fn).loaded with
  | none => s
  | some (h, starts) =>
    if !s.goodEntry h fn then s.loadResult fn 7 none
    else if s.resolving starts then s
    else s.loadResult fn 0 (some h)

/-- The loads go on. -/
def State.pumpLoads (s : State) : State :=
  (s.cht.view.filter fun (e : Nat × ChtView) => e.2.loaded.isSome).foldl (fun (t : State) (e : Nat × ChtView) => t.pumpLoad e.1) s

/-! ### The bytes of an image (R234) -/

/-- MAGIC, VERSION, ENTRIES, ROWS, SYMBOLS and CRC of an image's header. -/
def imageHead (g : Granule) : PlanImage :=
  { magic := granHalf g 0, version := g.extractLsb' 32 16, nEntries := field g 80 64, nRows := field g 105 96, nSymbols := field g 143 128
    crc := granHalf g 0x14 }

/-- Lines of an image after its header. -/
def PlanImage.bodyLines (m : PlanImage) : Nat := m.nEntries + 3 * m.nRows

/-- A row of 192 bytes. -/
def imageRow (g : List Granule) : PlanRow :=
  let g0 := g.getD 0 0
  { path := field g0 4 0, bytes := field g0 49 32, mask := (g.getD 1 0).setWidth 1024 ||| ((g.getD 2 0).setWidth 1024 <<< 512) }

/-- The 4-byte handles of a binding table, from an offset in its first line. -/
def bindSymbols (off : Nat) (ls : List Granule) : List (BitVec 32) :=
  (chunks 4 ((ls.map granBytes).flatten.drop off)).map fun b => BitVec.ofNat 32 (leNat b)

/-- An image and its binding table, from the lines read of them: CRC covers every byte after the header (07 R164). -/
def imageOf (lines binds : List Granule) (off : Nat) : PlanImage :=
  let m := imageHead (lines.headD 0)
  let body := (lines.drop 1).take m.bodyLines
  { m with
    entries := body.take m.nEntries, rows := (chunks 3 (body.drop m.nEntries)).map imageRow, symbols := bindSymbols off binds
    crcOk := crcFinal (body.foldl (fun c g => crcBytes c (granBytes g)) 0xFFFFFFFF) = m.crc }

/-- The host physical address of a function's image. -/
def ChtView.imageAt (v : ChtView) : Word := v.image &&& 0xFFFFFFFFFFFFFFC0

/-- The host physical address of its binding table. -/
def ChtView.bindAt (v : ChtView) : Word := v.bindTab &&& 0xFFFFFFFFFFFFFFFC

/-- Lines of the binding table to be read. -/
def ChtView.bindLines (v : ChtView) (m : PlanImage) : Nat :=
  if m.nSymbols = 0 then 0 else (v.bindAt.toNat % 64 + 4 * m.nSymbols + 63) / 64

/-- The image and the binding table lie in the partition's host ranges (R235 check 2). -/
def State.imageInRange (s : State) (fn : Nat) (m : PlanImage) : Bool :=
  let v := s.chtView fn
  s.inRange fn 0 v.imageAt (64 + 64 * m.bodyLines) && (m.nSymbols = 0 || s.inRange fn 0 v.bindAt (4 * m.nSymbols))

/-- A line of the image, or of the binding table, is read. -/
def State.imageAsk (s : State) (fn : Nat) (bind : Bool) (k : Nat) (base : Word) : State :=
  s.forPart fn (.image fn bind k) fun t => t.unitRead (.image fn bind k) fn ((base &&& 0xFFFFFFFFFFFFFFC0) + BitVec.ofNat 64 (64 * k))

/-- The reads of a load have ended, well or not. -/
def State.imageEnd (s : State) (fn : Nat) (bad : Bool) : State :=
  s.onChtView fn fun v => { v with readDone := true, readBad := bad }

/-- The next line of a load is read: the header, the entries and rows it counts, the binding table (R234, R235). -/
def State.imageNext (s : State) (fn : Nat) : State :=
  let v := s.chtView fn
  let m := imageHead (v.lines.headD 0)
  if v.lines = [] then s.imageAsk fn false 0 v.imageAt
  else if !m.sized then s.imageEnd fn false
  else if !s.imageInRange fn m then s.imageEnd fn true
  else if v.lines.length < 1 + m.bodyLines then s.imageAsk fn false v.lines.length v.imageAt
  else if v.binds.length < v.bindLines m then s.imageAsk fn true v.binds.length v.bindAt
  else s.imageEnd fn false

/-- A line of a load arrives, or fails (R235 check 2; 14_host_link_endpoint.md R321). -/
def State.imageLine (s : State) (fn : Nat) (bind : Bool) (k : Nat) (code : Code) (g : Granule) : State :=
  let v := s.chtView fn
  if !v.busy || v.readDone || k ≠ (if bind then v.binds.length else v.lines.length) then s
  else if code ≠ 0 || !s.masterEnabled fn then s.imageEnd fn true
  else if bind then (s.onChtView fn fun v => { v with binds := v.binds ++ [g] }).imageNext fn
  else (s.onChtView fn fun v => { v with lines := v.lines ++ [g] }).imageNext fn

/-- The bytes of the image a function loads, and of its binding table, as read. -/
def ChtView.planImage (v : ChtView) : PlanImage := imageOf v.lines v.binds (v.bindAt.toNat % 64)

/-- IMAGE_READ_DONE: the image is loaded, or refused with the first check that fails (R235); a partition that has closed since loads nothing
(13_partitions_and_twin_engines.md R287). -/
def State.imageRead (s : State) (fn : Nat) : State :=
  let v := s.chtView fn
  let m := v.planImage
  if !v.busy ∨ !v.readDone ∨ v.loaded.isSome then s
  else if s.closed fn then s.loadResult fn 7 none
  else if v.readBad then s.loadResult fn 1 none
  else if !s.imageGood fn m then s.loadResult fn 2 none
  else if !(List.range m.nEntries).all (s.entryBinds fn m) then s.loadResult fn 3 none
  else
    let base := freeRun m.nEntries 0 s.usedEntries
    let rows := m.rows.take m.nRows
    if Config.planEntries < base + m.nEntries ∨ (s.part fn).qEntries < s.entryCount fn + m.nEntries then s.loadResult fn 4 none
    else if (s.freeRows m.nRows).length < m.nRows ∨ (s.part fn).qRows < s.rowCount fn + m.nRows then s.loadResult fn 5 none
    else if s.overReserved fn rows then s.loadResult fn 6 none
    else s.placeImage fn m base

/-- PLAN_LOAD (R235, R287): the image is read. -/
def State.planLoad (s : State) (fn : Nat) : State :=
  let v := s.chtView fn
  if v.busy then s.flag pgCHT fn 8
  else if s.closed fn then s.loadResult fn 7 none
  else if !s.masterEnabled fn ∨ !s.inRange fn 0 v.imageAt 64 then s.loadResult fn 1 none
  else (s.onChtView fn fun v => { v with
    busy := true, lines := [], binds := [], readDone := false, readBad := false, loaded := none }).imageNext fn

/-- An entry is freed: disarmed at once, its index free when its descriptor no longer runs (R236). -/
def State.freePlan (s : State) (i : Nat) : State :=
  ((s.endOccurrence i).dropResolve i).onEntry i fun e => if e.run.isNone then { gen := e.gen, occ := e.occ + 1, resNo := e.resNo } else { e with
    held := false, arms := [], count := 0, fired := false }

/-- The rows of loads of which no entry is held are freed (R236). -/
def State.freeImageRows (s : State) : State :=
  let gone (r : Row) : Bool := !(s.cht.entry.any fun (e : Nat × Entry) => e.2.held && e.2.img = r.img)
  s.onCht fun c => { c with row := c.row.filter fun (e : Nat × Row) => !(e.2.held && gone e.2) }

/-- Some entries and their rows are freed (R236). -/
def State.freeEntries (s : State) (is : List Nat) : State := (is.foldl State.freePlan s).freeImageRows

/-- The entries of a partition, by index. -/
def State.entriesOf (s : State) (p : Nat) : List Nat := (s.cht.entry.filter fun (e : Nat × Entry) => e.2.held && e.2.part = p).map (·.1)

/-- PLAN_FREE (R236). -/
def State.planFree (s : State) (fn : Nat) (h : BitVec 32) (count : Nat) : State :=
  let is := (List.range count).map (hIdx h + ·)
  if (s.chtView fn).busy then s.flag pgCHT fn 8
  else if count = 0 ∨ !s.goodEntry h fn ∨ !is.all (fun i => (s.entry i).held && (s.entry i).part = fn) then s.loadResult fn 3 none
  else (s.freeEntries is).loadResult fn 0 (some h)

end Sys2Proof.Machine
end

