-- ==== Sys2Proof/Machine/Front.lean ====
section
/-! DEFINITION. The dispatch of a channel's next command, and what waits for it: the halt of a channel for a rejected command, and its kill
for a translation fault on its ring (02_channels_and_doorbells.md R44, R427; 03_command_set.md R71 to R77). -/

namespace Sys2Proof.Machine

/-! ## Dispatch (R74) -/

/-- The next command of a channel is dispatched by `f`, when it has the opcode (R74); a failed ring slot that waited for it halts the channel
then (R427). -/
def State.dispatch (s : State) (slot op : Nat) (f : State → Cmd → State) : State :=
  match s.nextCmd slot op with
  | none => s
  | some x => (f s x).haltFetch slot

/-- NOP completes at dispatch (R72). -/
def State.dispatchNop (s : State) (slot : Nat) (x : Cmd) : State := (s.markDispatched slot x.num id).completeCmd slot x.num

/-- FENCE is dispatched (R77). -/
def State.dispatchFence (s : State) (slot : Nat) (x : Cmd) : State := s.markDispatched slot x.num id

/-- ATOMIC is dispatched, as one segment for a mover context (R69, R128). -/
def State.dispatchAtomic (s : State) (slot : Nat) (x : Cmd) : State := s.markDispatched slot x.num fun y => { y with segs := 1 }

/-- PLAN_ARM is dispatched (R71). -/
def State.dispatchArm (s : State) (slot : Nat) (x : Cmd) : State :=
  let g := x.first
  ((planRange x.slots).foldl (fun t i => t.planArm i (field g 231 192) (bit (slotCtl g) 0)) (s.markDispatched slot x.num id)).completeCmd
    slot x.num

/-- A command is dispatched as its opcode says. -/
def State.dispatchAs (s : State) (slot : Nat) (x : Cmd) : State :=
  match x.op with
  | 0x08 => s.dispatchFence slot x
  | 0x09 => s.dispatchSignal slot x
  | 0x0A => s.dispatchWait slot x
  | 0x0B => s.dispatchAtomic slot x
  | 0x0F => s.dispatchNop slot x
  | 0x10 => s.dispatchHint slot x
  | 0x12 => s.dispatchArm slot x
  | _ => s.dispatchData slot x

/-! ## What waits for a dispatch -/

/-- The commands of a channel that R74 lets be dispatched are dispatched; `fuel` bounds them. -/
def State.dispatchReady (s : State) (slot : Nat) : Nat → State
  | 0 => s
  | fuel + 1 => match s.readyCmd slot with
    | none => s
    | some x => (s.dispatchAs slot x).dispatchReady slot fuel

/-- A channel with a rejected command halts in ERROR, once the commands that R74 has dispatched by then are dispatched (R44, R55). -/
def State.settleReject (s : State) (slot : Nat) : State :=
  match (s.chan slot).reject with
  | none => s
  | some r => (s.dispatchReady slot (s.chan slot).cmds.length).haltReject slot r

/-- A translation fault on the ring that F has come to kills the channel, once every command before it has been dispatched (R427). -/
def State.killFetch (s : State) (slot : Nat) : State :=
  let c := s.chan slot
  match c.failedSlot with
  | none => s
  | some h =>
    if c.st ≠ .active ∨ !kills h.fail ∨ c.before then s
    else s.xltKill (c.ringReq slot h.pos) (h.flt.getD { code := h.fail }) slot (c.f.setWidth 16) false 0

/-- A channel has a rejected command, or a translation fault at F with nothing before it. -/
def Chan.settling (c : Chan) : Bool := c.reject.isSome || (c.st = .active && kills c.failedAt && !c.before)

/-- What the channels' fetches have come to takes effect. -/
def State.settleFetches (s : State) : State :=
  (s.dbl.chan.filter fun (e : Nat × Chan) => e.2.settling).foldl (fun (t : State) (e : Nat × Chan) => (t.settleReject e.1).killFetch e.1) s

end Sys2Proof.Machine
end

