-- ==== Sys2Proof/Machine/Parts.lean ====
section
/-! DEFINITION. Partitions: what a disable and an FLR take away, quotas and their drains (13_partitions_and_twin_engines.md R284 to R294;
16_event_concentrator.md R354; 06_movers.md R145; 19_power_reset_and_bringup.md R402). -/

namespace Sys2Proof.Machine

/-! ## What a partition gives up -/

/-- A PRT sticky bit. -/
def State.prtFlag (s : State) (b : Nat) : State := s.flag pgPRT 0 b

/-- Staging units are written with zeros (R145). -/
def State.zeroUnits (s : State) (us : List Nat) : State :=
  s.onMov fun v => { v with
    staging := v.staging.filter (fun (c : Host.Cell) => !us.contains (c.1 / 65536))
    lostWords := v.lostWords.filter fun k => !us.contains (k / 8192) }

/-- The units of an area. -/
def Area.units (a : Area) : List Nat := (List.range a.size).map (a.base + ·)

/-- The whole area of a partition is cleared (R145). -/
def State.clearArea (s : State) (p : Nat) : State :=
  let us := (s.area p).units
  if us = [] then s else (s.zeroUnits us).onArea p fun o => { o with clearing := true }

/-- The sources of a partition that are enabled or pending, or are so at reset (R345, R355). -/
def State.sourcesOf (s : State) (p : Nat) : List Nat :=
  let first := (List.range 21).map fun c => 0x40 + 64 * c + p
  let more := (s.evc.src.map (·.1)).filter fun n => srcPart n = p && !first.contains n
  first ++ (if p = 0 then [1] else []) ++ more.filter (· ≠ 1)

/-- The sources, claim stacks and thresholds of a partition are reset (R354). -/
def State.resetEvents (s : State) (p : Nat) : State :=
  let s1 := (s.sourcesOf p).foldl (fun (t : State) n => t.onSrc n fun x => { x with en := false, pending := false }) s
  let mine := (List.range 256).filter fun k => (s.tgt k).valid && (s.tgt k).part.toNat = p
  let s2 := mine.foldl (fun (t : State) k => t.onTgt k fun g => { g with stack := [], thresh := 0 }) s1
  (List.range 256).foldl State.refresh s2

/-- The Reed credits of a partition stand at their depth (R137). -/
def State.freshCredits (s : State) (p : Nat) : State :=
  s.onMov fun v => { v with partCredit := v.partCredit.filter fun (e : Nat × Option Int) => e.1 / 23 ≠ p || s.macroLost 0x10 (partCreditKey e.1) }

/-- The pending migrations of a partition before step 8 are abandoned, without a notice (R123): entries stay locked, and one with an access
outstanding goes once that has ended. -/
def State.abandonPending (s : State) (p : Nat) : State :=
  let out (e : Pending) : Bool := e.part = p && e.st ≠ .swapping && e.st ≠ .undoing
  let gone (v : Inv) : Bool := s.skk.pending.any fun e => out e && v.from_ = .migrate e.ticket
  let quiet (e : Pending) : Pending := if out e then { e with st := .undoing, pages := [], cas := [], fail := none } else e
  (s.onXlt fun t => { t with invs := t.invs.filter fun v => !gone v }).onSkk
    fun k => { k with pending := (k.pending.filter fun e => !out e || e.out.isSome).map quiet }

/-- A quota register is written (R303): it holds the value written (00_scope.md R12); one above the maximum acts as the maximum, for nothing
exceeds it. -/
def Part.setQuota (q : Part) (r : Quota) (v : Word) : Part :=
  match r with
  | .chan => { q with qChan := field v 14 0 }
  | .engine => { q with qWalk := field v 13 8, qMov := field v 4 0 }
  | .l2t => { q with wayBase := field v 11 8, qWays := field v 4 0 }
  | .sync => { q with qSync := field v 16 0 }
  | .plan => { q with qRows := field v 41 32, qEntries := field v 16 0 }
  | .evt => { q with qEvt := field v 8 0 }

/-- The quotas written during a disable are in force (R286). -/
def Part.withHeld (q : Part) : Part := { (q.held.foldl (fun (x : Part) (h : Quota × Word) => x.setQuota h.1 h.2) q) with held := [] }

/-! ## The disable sequence and the FLR of a partition (R286, R402) -/

/-- Every non-FREE channel of a partition enters RETIRING (R286 step 2); one in CREATING does once its creation has ended, for R39 has no
transition from CREATING to RETIRING (02_channels_and_doorbells.md R39). -/
def State.retireAll (s : State) (p : Nat) : State := (s.channelsOf p).foldl State.retireChannel s

/-- A partition's shutdown starts, or starts again. -/
def State.startClose (s : State) (p : Nat) : State := (s.onPart p fun q => { q with closing := .channels }).retireAll p

/-- A partition is DISABLING or ENABLE_PENDING. -/
def Part.disables (q : Part) : Bool := q.st = .disabling || q.st = .enablePending

/-- The placed regions of a partition that are not yet in a recall go into one (R286 step 3). -/
def State.recallAllOf (s : State) (p : Nat) : State :=
  (s.skk.placed.filter fun e => e.part = p && e.rcl = .none).foldl (fun (t : State) e => t.beginRecall e.frame) s

/-- Objects, plans and windows of a partition go, and the migrations an FLR abandons (R286, R402). -/
def State.dropResources (s : State) (p : Nat) : State :=
  let objs := (s.syn.obj.filter fun (e : Nat × Obj) => e.2.st ≠ .free && e.2.part = p).map (·.1)
  let s1 := (objs.foldl State.destroyObj s)
  let s2 := (s1.freeEntries (s1.entriesOf p)).closeWindows p
  let s3 := if (s.part p).disables then s2.onSkk fun k => { k with
      lostFrames := k.lostFrames.filter (·.1 ≠ p), placed := k.placed.filter fun e => !k.lostFrames.contains (p, e.frame) } else s2
  if s.inFlr p then s3.abandonPending p else s3

/-- Every ASID of a partition is unbound (R286 step 4). -/
def State.unbindAll (s : State) (p : Nat) : State :=
  let asids := (s.xlt.binds.filter fun b => b.part = p && !b.closing).map (·.asid)
  (asids.foldl State.closeBinding s).internalInv (.partition p) p asids 0 0

/-- The last steps of a shutdown: staging, credits, queues, events (R286 steps 5 and 6; R402 steps 6 and 7). -/
def State.lastSteps (s : State) (p : Nat) : State :=
  ((((s.clearArea p).freshCredits p).closeQueue false p).closeQueue true p).resetEvents p

/-- A shutdown goes one step on, if what it waits for has come. Step 4 waits also for the bindings that an UNBIND was already closing (R286,
R288: the set of bound ASIDs is empty after it). -/
def State.closeStep (s : State) (p : Nat) : State :=
  let goTo (t : State) (c : Closing) : State := t.onPart p fun q => { q with closing := c }
  match (s.part p).closing with
  | .channels => if s.channelsOf p = [] then goTo (s.dropResources p) .recalls else s.retireAll p
  | .recalls =>
    if !(s.part p).disables then goTo (s.unbindAll p) .unbind
    else if s.skk.placed.any (·.part = p) || s.skk.pending.any (·.part = p) then s.recallAllOf p
    else goTo (s.unbindAll p) .unbind
  | .unbind =>
    match s.drainedFrom (.partition p) with
    | none => s
    | some v =>
      if s.xlt.binds.any fun b => b.part = p && !v.asids.any (·.1 = b.asid) then s
      else goTo (((s.dropInv v.id).onXlt fun t => { t with binds := t.binds.filter fun b => !v.asids.any (·.1 = b.asid) }).lastSteps p) .last
  | _ => s

/-- The shutdowns of every partition go on as far as they can. -/
def State.pumpParts (s : State) : State :=
  (s.prt.part.filter fun (e : Nat × Part) => e.2.closing ≠ .none && e.2.closing ≠ .last).foldl
    (fun (t : State) (e : Nat × Part) => (((t.closeStep e.1).closeStep e.1).closeStep e.1).closeStep e.1) s

/-- PRT_CTL (R285): the partition PRT_PSEL selects. -/
def State.enablePart (s : State) : State :=
  let p := s.prt.psel.toNat
  if p = 0 then s.prtFlag 2
  else if !links4.any (s.fnOn p) then s.prtFlag 1
  else match (s.part p).st with
    | .disabled => (((s.onPart p fun q => { q with st := .enabled }).freshCredits p).ltrSince s).ops pgPRT 1
    | .disabling => s.onPart p fun q => { q with st := .enablePending }
    | _ => s

/-- PRT_CTL DISABLE (R285, R286). -/
def State.disablePart (s : State) : State :=
  let p := s.prt.psel.toNat
  if p = 0 then s.prtFlag 2
  else match (s.part p).st with
    | .enabled => (((s.onPart p fun q => { q with st := .disabling, drainAt := [] }).ltrSince s).ops pgPRT 1).startClose p
    | .enablePending => s.onPart p fun q => { q with st := .disabling }
    | _ => s

/-- The disable sequence is complete (R286, R288): an enable that waits takes effect, with its credits at their depth (06_movers.md R137).
The quotas written meanwhile are in force from here: a DISABLED partition holds nothing they could bound before its next enable. -/
def State.disableDone (s : State) (p : Nat) : State :=
  let q := s.part p
  if q.disables && q.closing = .last then
    let s1 := s.onPart p fun q => { q.withHeld with
      st := if q.st = .enablePending then .enabled else .disabled, closing := if s.inFlr p then .last else .none }
    if q.st = .enablePending then ((s1.freshCredits p).ltrSince s).ops pgPRT 1 else s1.ltrSince s
  else s

/-! ## Quotas and drains (R289 to R293) -/

/-- Bulk contexts of a partition beyond its quota in an engine. -/
def State.moverExcess (s : State) (p : Nat) (e : Engine) : Nat := s.bulkHeld e p - s.moverQuota e p

/-- Targets a partition holds (16 R348). -/
def State.targetsOf (s : State) (p : Nat) : List Nat := (List.range 256).filter fun k => (s.tgt k).valid && (s.tgt k).part.toNat = p

/-- A partition's use of a drained resource exceeds its quota (R292). -/
def State.exceeds (s : State) (p : Nat) : Drained → Bool
  | .channels => decide ((s.part p).qChan < s.chanCount p)
  | .movers => decide (0 < s.moverExcess p .A) || decide (0 < s.moverExcess p .B)
  | .objects => decide ((s.part p).qSync < s.objCount p)
  | .plan => decide ((s.part p).qEntries < s.entryCount p) || decide ((s.part p).qRows < s.rowCount p)
  | .targets => decide ((s.part p).qEvt < (s.targetsOf p).length)

/-- The five resources that drain. -/
def allDrained : List Drained := [.channels, .movers, .objects, .plan, .targets]

/-- The drains of a partition that go on: a drain ends when use fits (R292). -/
def State.draining (s : State) (p : Nat) : List (Drained × Word) := (s.part p).drainAt.filter fun (d : Drained × Word) => s.exceeds p d.1

/-- The resources whose drain a quota register may start. -/
def quotaDrains : Quota → List Drained
  | .chan => [.channels]
  | .engine => [.movers]
  | .l2t => []
  | .sync => [.objects]
  | .plan => [.plan]
  | .evt => [.targets]

/-- The L2T entries of a partition in ways it may not use are invalidated (R292). -/
def State.trimWays (s : State) (p : Nat) : State :=
  let out (e : Nat × Option Page) : Bool := match e.2 with
    | some g => s.asidPart g.asid = p && !s.mayAllocate p (e.1 % 16)
    | none => false
  s.onXlt fun t => { t with l2t := t.l2t.filter fun e => !out e }

/-- The quota of a drained resource is lower in `b` than in `a`. -/
def Part.lowered (a b : Part) : Drained → Bool
  | .channels => decide (b.qChan < a.qChan)
  | .movers => decide (b.qMov < a.qMov)
  | .objects => decide (b.qSync < a.qSync)
  | .plan => decide (b.qEntries < a.qEntries) || decide (b.qRows < a.qRows)
  | .targets => decide (b.qEvt < a.qEvt)

/-- A quota in force is set (R291 to R293): a drain in progress before the write goes on, on its own timer, while use still exceeds the quota;
a quota lowered below the use starts one where none is in progress. -/
def State.applyQuota (s : State) (p : Nat) (r : Quota) (v : Word) : State :=
  let before := s.part p
  let going := s.draining p
  let s1 := s.onPart p fun q => q.setQuota r v
  let s2 := if r = .l2t then s1.trimWays p else s1
  let old := going.filter fun (x : Drained × Word) => s2.exceeds p x.1
  let starts (d : Drained) : Bool := before.lowered (s2.part p) d && s2.exceeds p d && !old.any fun (x : Drained × Word) => x.1 = d
  let new := ((quotaDrains r).filter starts).map fun d => (d, s.glb.time)
  s2.onPart p fun q => { q with drainAt := old ++ new }

/-- QUOTA_WRITE (R286, R291 to R293): for a partition in its disable sequence the value is held until the next enable. -/
def State.writeQuota (s : State) (r : Quota) (v : Word) : State :=
  let p := s.prt.psel.toNat
  if (s.part p).disables then s.onPart p fun q => { q with held := q.held ++ [(r, v)] } else s.applyQuota p r v

/-- A TYPE 0x7 record (R302). -/
def State.capRecord (s : State) (p : Nat) (code : Code) (source engine : Nat) (requester : BitVec 32) (resource failed count : Nat)
    (w18 : Word) (handle : BitVec 32) (start : Word) : State :=
  s.fault 7 code p source engine requester
    [place resource 0 ||| place failed 8 ||| place count 32, w18 ||| place handle.toNat 32, start, 0, 0, 0]

/-- Insertion into a list in falling order of a measure. -/
def insertBy (f : Nat → Nat) (x : Nat) : List Nat → List Nat
  | [] => [x]
  | y :: ys => if f y < f x then x :: y :: ys else y :: insertBy f x ys

/-- A list in falling order of a measure. -/
def sortBy (f : Nat → Nat) (l : List Nat) : List Nat := l.foldl (fun a x => insertBy f x a) []

/-- The most recently created channels are killed with 0xE1, until the count fits (R292). No command caused the kill: DB_FAULT reads 0 (log
entry 124). -/
def State.reclaimChannels (s : State) (p : Nat) (start : Word) : State :=
  let ks := (sortBy (fun k => (s.chan k).born) (s.channelsOf p)).take (s.chanCount p - (s.part p).qChan)
  ks.foldl (fun (t : State) k =>
    if (t.chan k).live then
      (t.killChannel k 0xE1 0 false).capRecord p 0xE1 0 (t.chan k).owner.num (t.handleOf k) 1 0 1 0 0 start
    else t) s

/-- A segment's work is put back in its queue, to run from its start (R292, 01 R27). -/
def State.requeue (s : State) (m : Nat) (u : Bool) : State :=
  match (s.job m u).work with
  | none => s
  | some w =>
    let seg := (s.job m u).seg
    let s1 := (s.onWork w fun x => { x with redo := x.redo ++ [seg] }).stopJob m u
    if u then s1.resumeBulk m else s1

/-- The Bulk contexts of an engine whose segments a reclaim may move: idempotent, and not already ended. -/
def State.movable (s : State) (p : Nat) (e : Engine) : List Nat :=
  (s.movers e).reverse.filter fun m =>
    let j := s.job m false
    match j.work with
    | some w => s.workPart w = p && j.st ≠ .draining && j.st ≠ .idle && (match s.workCmd w with
      | some c => c.op = 0x01 || c.op = 0x02 || c.op = 0x03
      | none => false)
    | none => false

/-- The idempotent segments beyond the quota are moved (R292). -/
def State.reclaimMovers (s : State) (p : Nat) (start : Word) : State :=
  let ms := (s.movable p .A).take (s.moverExcess p .A) ++ (s.movable p .B).take (s.moverExcess p .B)
  let s1 := ms.foldl (fun (t : State) m => t.requeue m false) s
  if ms = [] then s1 else s1.capRecord p 0xE1 5 0 0 2 0 ms.length 0 0 start

/-- The most recently created objects are abandoned and destroyed, until the count fits (R292). -/
def State.reclaimObjects (s : State) (p : Nat) (start : Word) : State :=
  let mine := s.prt.objOrder.reverse.filter fun i => (s.obj i).part = p
  (mine.take (s.objCount p - (s.part p).qSync)).foldl (fun (t : State) i =>
    let h := t.objHandleOf i
    (t.destroyObj i).capRecord p 0xE1 5 0 0 5 0 1 0 h start) s

/-- The most recently loaded image of a partition, whole, is freed (R292). -/
def State.freeNewest (s : State) (p : Nat) (start : Word) : State :=
  let mine := s.entriesOf p
  match mine with
  | [] => s
  | i :: is =>
    let newest := is.foldl (fun b k => max b (s.entry k).img) (s.entry i).img
    let its := mine.filter fun k => (s.entry k).img = newest
    (s.freeEntries its).capRecord p 0xE1 5 0 0 6 0 1 0 (s.entryHandle (its.headD 0)) start

/-- Images are freed until entries and rows fit; `fuel` bounds them. -/
def State.reclaimPlans (s : State) (p : Nat) (start : Word) : Nat → State
  | 0 => s
  | fuel + 1 => if s.exceeds p .plan && s.entriesOf p ≠ [] then (s.freeNewest p start).reclaimPlans p start fuel else s

/-- A target is unassigned: its sources disabled, its stack emptied, and so its request withdrawn (16 R348). -/
def State.unassign (s : State) (t : Nat) : State :=
  let routed := (s.evc.src.filter fun (e : Nat × Source) => e.2.target.toNat = t && e.2.en).map (·.1)
  let dflt := if t = 0 then (List.range 0x540).map (· + 0x40) ++ [1] else []
  let s1 := (dflt ++ routed).foldl (fun (a : State) n =>
    if (a.src n).target.toNat = t then a.onSrc n fun x => { x with en := false, pending := false } else a) s
  (s1.onTgt t fun g => { g with valid := false, stack := [] }).refresh t

/-- The most recently assigned targets are unassigned until the count fits (16 R354). -/
def State.reclaimTargets (s : State) (p : Nat) (start : Word) : State :=
  let ts := (sortBy (fun t => (s.tgt t).stamp) (s.targetsOf p)).take ((s.targetsOf p).length - (s.part p).qEvt)
  let s1 := ts.foldl State.unassign s
  if ts = [] then s1 else s1.capRecord p 0xE1 5 0 0 7 0 ts.length 0 0 start

/-- PRT_DRAIN_LIMIT expires on a drain (R292): the excess is reclaimed, and DRAINING clears. -/
def State.drainEnds (s : State) (p : Nat) (d : Drained) : State :=
  match (s.draining p).find? fun (x : Drained × Word) => x.1 = d with
  | none => s
  | some (_, start) =>
    let s1 := match d with
      | .channels => s.reclaimChannels p start
      | .movers => s.reclaimMovers p start
      | .objects => s.reclaimObjects p start
      | .plan => s.reclaimPlans p start 65536
      | .targets => s.reclaimTargets p start
    (s1.onPart p fun q => { q with drainAt := q.drainAt.filter fun (x : Drained × Word) => x.1 ≠ d }).prtFlag 3

end Sys2Proof.Machine
end

