-- ==== Sys2Proof/Machine/Twin.lean ====
section
/-! DEFINITION. Twin engines: failure, failover, adoption, withdrawal, engine reset (13_partitions_and_twin_engines.md R295 to R302;
09_sync_objects.md R205; 05_invalidation_and_placement.md R113). -/

namespace Sys2Proof.Machine

/-- A TWN sticky bit. -/
def State.twnFlag (s : State) (b : Nat) : State := s.flag pgTWN 0 b

/-- The state with the status of an engine set. -/
def State.setEngine (s : State) (e : Engine) (x : EngineSt) : State :=
  s.onTwn fun t => match e with | .A => { t with stA := x } | .B => { t with stB := x }

/-- The mode in which an engine serves alone (R17). -/
def soloOf : Engine → TwinMode
  | .A => .soloA
  | .B => .soloB

/-- The requests in the hands of an engine's walkers and in its miss queue are looked up afresh: it issues no more (R296). -/
def State.fenceWalks (s : State) (e : Engine) : State :=
  let mine := s.xlt.walk.filter fun (x : Nat × Option Walk) => walkerEngine x.1 = e
  let held : List XReq := (mine.map fun (x : Nat × Option Walk) => match x.2 with | some w => w.req :: w.joiners | none => []).flatten
  let missed := s.missQ e
  let s1 := (s.onMissQ e fun _ => []).onXlt fun t => { t with walk := t.walk.filter fun (x : Nat × Option Walk) => walkerEngine x.1 ≠ e }
  (held ++ missed).foldl State.ask s1

/-- Every context of every mover is stopped: HUB_FATAL stops every DMA (R297). -/
def State.stopAll (s : State) : State :=
  s.mov.job.foldl (fun (t : State) (x : Nat × Job) =>
    if x.2.st = .idle then t else t.onJob (x.1 / 2) (x.1 % 2 = 1) Job.stop) s

/-- TWN_LAST_FAILOVER of a declaration (R304). -/
def failoverWord (e : Engine) (time : Word) : Word := place e.num 63 ||| BitVec.ofNat 64 (field time 62 0)

/-- A serving engine is declared failed while the other serves: a failover begins (R298 step 1). -/
def State.beginFailover (s : State) (e : Engine) (resetAfter : Bool) : State :=
  let s1 := (s.setEngine e .failed).onTwn fun t => { t with
    mode := soloOf e.other, withdrawing := none, failedEngine := e, failover := .quiesce, resetAfter := resetAfter
    queue := [], late := [], touched := [], halted := 0, adopted := 0, lastFailover := failoverWord e s.glb.time }
  (s1.twnFlag (1 + e.num)).fenceWalks e

/-- An engine is declared failed (R296, R297). -/
def State.declareFailed (s : State) (e : Engine) (resetAfter : Bool := false) : State :=
  let t := s.twn
  let sameCycle : Bool := t.failover = .quiesce && t.lastFailover = failoverWord t.failedEngine s.glb.time
  if s.engineSt e ≠ .serving then (if s.engineSt e = .failed then s else s.setEngine e .failed)
  else if s.engineSt e.other = .serving then s.beginFailover e resetAfter
  else if sameCycle ∧ t.failedEngine = .B then s
  else if sameCycle then (s.setEngine .A .serving).beginFailover .B resetAfter
  else
    let s1 := (s.setEngine e .failed).onTwn fun t => { t with lastFailover := failoverWord e s.glb.time }
    ((s1.twnFlag (1 + e.num)).fenceWalks e).hubFatal.stopAll

/-! ## The mirror (R295; 01_hub_architecture.md R20) -/

/-- What the mirror holds of a dispatched command that is not complete (R295). -/
structure MirrorCmd where
  /-- Its SEQ. -/
  seq : BitVec 16
  /-- It was an inline command. -/
  inl : Bool
  /-- Its opcode. -/
  op : Nat
  /-- The resolved parameters, an INLINE_WRITE's payload among them: the slots, and where its writes go. -/
  slots : List Granule
  /-- The destination its dispatch settled. -/
  dest : Dest
  /-- Its segments in all. -/
  segs : Nat
  /-- The checkpoints: segments complete, with the CRC-32C partial of each. -/
  done : List Nat
  /-- The CRC-32C partials. -/
  crcs : List (Nat × Nat × BitVec 32)
deriving DecidableEq, Repr

/-- What the mirror holds of a channel (R295). -/
structure MirrorChan where
  /-- FD: one past the last ring command dispatched. -/
  fd : BitVec 32
  /-- The accepted tail. -/
  ta : BitVec 17
  /-- Its state. -/
  st : ChState
  /-- CODE of the status word. -/
  code : Code
  /-- STOPPED of the status word. -/
  stopped : Bool
  /-- Inline commands accepted and not dispatched, with their slots. -/
  held : List (List Granule)
  /-- The dispatched commands that are not complete. -/
  cmds : List MirrorCmd
  /-- DB_FAULT: SEQ. -/
  faultSeq : BitVec 16
  /-- DB_FAULT: INLINE. -/
  faultInline : Bool
deriving DecidableEq, Repr

/-- The dispatched count FD (R295): what has been consumed, but for the ring commands not yet dispatched. -/
def Chan.fd (c : Chan) : BitVec 32 := match c.cmds.find? fun x => x.st = .waiting && !x.inl with | some x => x.pos | none => c.f

/-- A command as the mirror holds it. -/
def Cmd.mirrored (x : Cmd) : MirrorCmd :=
  { seq := x.seq, inl := x.inl, op := x.op, slots := x.slots, dest := x.dest, segs := x.segs, done := x.done, crcs := x.crcs }

/-- A channel as the mirror holds it (R295). -/
def Chan.mirrored (c : Chan) : MirrorChan :=
  { fd := c.fd, ta := c.ta, st := c.st, code := c.code, stopped := c.stopped
    held := (c.cmds.filter fun x => x.inl && x.st = .waiting).map (·.slots)
    cmds := (c.cmds.filter fun x => x.st ≠ .waiting).map Cmd.mirrored
    faultSeq := c.faultSeq, faultInline := c.faultInline }

/-- The mirror store of an engine (R295, R301; log entry 136): the other engine's channels, by slot, each update having arrived before anything that waits for
it (01_hub_architecture.md R20). An engine that has failed or is being reset holds none; one that is READY has loaded it again from the hub
store. -/
def State.mirrorStore (s : State) (e : Engine) : List (Nat × MirrorChan) :=
  if s.engineSt e = .serving ∨ s.engineSt e = .ready then
    (s.dbl.chan.filter fun (x : Nat × Chan) => x.2.st ≠ .free && x.2.owner = e.other).map fun x => (x.1, x.2.mirrored)
  else []

/-! ## Quiesce (R298 step 2) -/

/-- The contexts of an engine that are not idle. -/
def State.engineJobs (s : State) (e : Engine) : List (Nat × Bool × Job) :=
  (s.mov.job.filter fun (x : Nat × Job) => moverEngine (x.1 / 2) = e && x.2.st ≠ .idle).map
    fun (x : Nat × Job) => (x.1 / 2, x.1 % 2 = 1, x.2)

/-- The channels of an engine with a write whose response is still to come. -/
def State.writing (s : State) (e : Engine) : List Nat :=
  (s.engineJobs e).filterMap fun (x : Nat × Bool × Job) =>
    if x.2.2.writes = [] ∧ x.2.2.packets = [] then none else x.2.2.work.map s.workSlot

/-- TWN_QUIESCE_LIMIT expires (R298 step 2). -/
def State.quiesceExpired (s : State) : State :=
  if s.twn.failover = .quiesce then s.onTwn fun t => { t with late := s.writing t.failedEngine } else s

/-- A context of the failed engine: its segment is to run again on the survivor, and what it issued is absorbed (R298, R299). -/
def State.orphanJob (s : State) (m : Nat) (u : Bool) : State :=
  let j := s.job m u
  if j.st = .draining then s
  else
    let redo := match j.work with
      | some w => s.onWork w fun x => { x with redo := x.redo ++ [j.seg] }
      | none => s
    redo.stopJob m u

/-! ## The survivor's Chanter, and wait records (R298 steps 3 and 4; R205) -/

/-- A planned descriptor of the failed engine: a REDUCE_PUT ends with 0xE3 and its occurrence is not DONE; another runs on (R230). -/
def State.adoptPlan (s : State) (i : Nat) : State :=
  match (s.entry i).run with
  | some c => if c.op = 0x05 then s.onEntry i fun e => { e with run := none, runOld := false, code := 0xE3 } else s
  | none => s

/-- A wait record of the failed half moves to the survivor's, in its place in the list; one that finds no place ends with 0xE2
(R205). -/
def State.moveRec (s : State) (dst : Engine) (r : Nat) : State :=
  match s.wrec r with
  | none => s
  | some w => match s.freeRec dst with
    | some k =>
      ((s.setWrec r none).setWrec k (some w)).onObj (hIdx w.handle) fun o =>
        { o with waiters := o.waiters.map fun x => if x = r then k else x }
    | none => (s.unlink r).waitEnds w.who w.handle 0xE2

/-- Every record of an engine's half moves to the other's. -/
def State.moveRecs (s : State) (e : Engine) : State :=
  let mine := (s.syn.rec_.map (·.1)).filter fun r => decide (halfBase e ≤ r) && decide (r < halfBase e + Config.halfRecords)
  let s1 := mine.foldl (fun (t : State) r => t.moveRec e.other r) s
  s1.onSyn fun y => { y with stalled := y.stalled.map fun w => if w.half = e then { w with half := e.other } else w }

/-- The order of adoption: Urgent before Bulk, PRIORITY from 7 down, SLOT rising (R298 step 5). -/
def Chan.adoptKey (c : Chan) : Nat := (flag c.urgent) * 8 + c.prio.toNat

/-- The units of an engine are cleared for its reset: its idle movers, and its miss queue (R301). -/
def State.clearEngine (s : State) (e : Engine) : State :=
  (s.onMov fun v => { v with job := v.job.filter fun (x : Nat × Job) => !(moverEngine (x.1 / 2) = e && x.2.quiet) }).setEngine e .resetting

/-- The records of a failover's end (R298 step 6), and what follows it. -/
def State.endFailover (s : State) : State :=
  let e := s.twn.failedEngine
  let start := BitVec.ofNat 64 (field s.twn.lastFailover 62 0)
  let s1 := s.twn.touched.foldl (fun (t : State) (x : Nat × Nat) =>
    t.capRecord x.1 0xE2 5 e.other.num 0 8 e.num x.2 0 0 start) s
  (if s1.twn.resetAfter then s1.clearEngine e else s1).onTwn
    fun t => { t with failover := .none, resetAfter := false, late := [], touched := [] }

/-- The failed engine has fallen quiet, or its late channels are set aside: the survivor takes over its Chanter entries and its wait
records, and adoption begins (R298; R113). -/
def State.quiesceDone (s : State) : State :=
  let t := s.twn
  let e := t.failedEngine
  if t.failover ≠ .quiesce ∨ !(s.writing e).all t.late.contains then s
  else
    let own (h : Holder) : Bool := match h with | .mover m _ => moverEngine m = e | _ => false
    let s1 := (s.engineJobs e).foldl (fun (a : State) (x : Nat × Bool × Job) => a.orphanJob x.1 x.2.1) s
    let s2 := s1.onXlt fun x => { x with invs := x.invs.map fun v => { v with holders := v.holders.filter fun h => !own h } }
    let mine := (s2.dbl.chan.filter fun (x : Nat × Chan) => x.2.st ≠ .free && x.2.owner = e).map (·.1)
    let s3 := mine.foldl (fun (a : State) k => a.onChan k fun c => { c with orphan := true }) s2
    let plans := (s3.cht.entry.filter fun (x : Nat × Entry) => (x.2.held || x.2.run.isSome) && (s3.ownerOf x.2).orphan).map (·.1)
    let s4 := ((plans.foldl State.adoptPlan s3).adoptEvents plans).moveRecs e
    let order := sortBy (fun k => (s4.chan k).adoptKey) mine
    let s5 := s4.onTwn fun t => { t with failover := .adopt, queue := order }
    if order = [] then s5.endFailover else s5

/-! ## Adoption (R298 step 5, R299) -/

/-- A command of an adopted channel that is not run again (R299). -/
def Cmd.unsafe_ (x : Cmd) : Bool := x.st = .dispatched && (x.op = 0x05 || x.op = 0x09 || x.op = 0x0B)

/-- A dispatched command of an adopted channel as the survivor takes it up (R299). -/
def Cmd.adopted (x : Cmd) (now : Word × Word) : Cmd :=
  if x.st ≠ .dispatched then x
  else if x.op = 0x11 then { x with stamp := now }
  else if x.op = 0x08 then { x with fenceSent := false, fenceOut := 0 }
  else x

/-- The fetch starts again from FD: what was fetched and not dispatched is read again; inline commands are held on (R299). -/
def Chan.fromFD (c : Chan) : Chan :=
  { c.dropFetch with cmds := c.cmds.filter fun x => x.st ≠ .waiting || x.inl, f := c.fd }

/-- The completions of a channel's zero-length reads are no longer awaited. -/
def State.dropFences (s : State) (slot : Nat) : State :=
  let drop (n : NpReq) : NpReq := match n.holder with
    | .fence k _ => if k = slot then { n with holder := .gone } else n
    | _ => n
  s.onHlk fun h => { h with np := h.np.map drop }

/-- The TYPE 0x7 record of a command ended with 0xE3 (R302). -/
def State.unsafeRecord (s : State) (slot : Nat) (x : Cmd) : State :=
  let e := s.twn.failedEngine
  s.capRecord (s.chan slot).part 0xE3 0 e.other.num (s.handleOf slot) 8 e.num 0
    (place x.faultSeq.toNat 0 ||| place x.inl.toNat 16 ||| place x.op 24) 0 (BitVec.ofNat 64 (field s.twn.lastFailover 62 0))

/-- A channel is adopted (R299). The fetch starts again from FD, also for a PARKED channel whose F this sets back: its announced slots are to
be fetched again. -/
def State.adoptWork (s : State) (slot : Nat) : State :=
  let bad := (s.chan slot).cmds.filter Cmd.unsafe_
  let now := (s.glb.time, s.cht.drone)
  let s1 := ((s.dropFences slot).withdraw (Who.isRing slot)).setChan slot fun c =>
    let kept : List Cmd := (c.cmds.filter fun (x : Cmd) => !x.unsafe_).map fun (x : Cmd) => x.adopted now
    ({ c with cmds := kept } : Chan).fromFD
  let s2 := bad.foldl (fun (t : State) x => t.unsafeRecord slot x) s1
  match bad with
  | [] =>
    let back : Bool := (s2.chan slot).f ≠ (s.chan slot).f
    if (s2.chan slot).st = .active then s2.startFetch slot
    else if (s2.chan slot).st = .parked && back then s2.activate slot
    else s2
  | x :: _ => (s2.haltError slot 0xE3 x.faultSeq x.inl).afterInflight slot

/-- A channel with a write outstanding past the limit is halted in ERROR with 0xE2, and nothing of it runs again (R298 step 2). -/
def State.haltLate (s : State) (slot : Nat) : State :=
  let oldest := (s.chan slot).cmds.find? (·.st = .dispatched)
  let s1 := ((s.dropFences slot).withdrawWaits (Waiter.isChan slot)).endCmds slot fun _ => true
  let (q, i) := match oldest with | some x => (x.faultSeq, x.inl) | none => (0, false)
  s1.haltError slot 0xE2 q i

/-- The count of a partition in the failover's records goes up by `n`. -/
def addTouched (p n : Nat) : List (Nat × Nat) → List (Nat × Nat)
  | [] => [(p, n)]
  | (q, k) :: r => if q = p then (q, k + n) :: r else (q, k) :: addTouched p n r

/-- CHANNEL_ADOPT (R298 step 5): the next channel of the queue. -/
def State.adoptNext (s : State) : State :=
  match s.twn.failover, s.twn.queue with
  | .adopt, k :: rest =>
    let p := (s.chan k).part
    let isLate := s.twn.late.contains k
    let n := if isLate then 0 else 1
    let own := (s.onTwn fun t => { t with queue := rest }).onChan k fun c => { c with owner := s.twn.failedEngine.other, orphan := false }
    let count (t : State) : State := t.onTwn fun t => { t with
      adopted := t.adopted + n, halted := t.halted + (1 - n), touched := addTouched p n t.touched }
    let s2 := if (s.chan k).st = .free then own else if isLate then count (own.haltLate k) else count (own.adoptWork k)
    if rest = [] then s2.endFailover else s2
  | _, _ => s

/-! ## Withdrawal, return and reset of an engine (R300, R301) -/

/-- TWN_MODE is written with SOLO of an engine (R300). -/
def State.writeSolo (s : State) (e : Engine) : State :=
  if s.twn.mode = .shared ∧ s.twn.withdrawing.isNone then s.onTwn fun t => { t with withdrawing := some e.other } else s

/-- A withdrawn engine has nothing in flight, or PRT_DRAIN_LIMIT expires (R300). -/
def State.withdrawn (s : State) : State :=
  match s.twn.withdrawing with
  | some e => s.declareFailed e
  | none => s

/-- TWN_MODE is written with SHARED (R300). -/
def State.writeShared (s : State) : State :=
  let back : Option Engine := match s.twn.mode with | .shared => none | .soloA => some .B | .soloB => some .A
  match back with
  | none => s
  | some e => if s.engineSt e = .ready then (s.setEngine e .serving).onTwn fun t => { t with mode := .shared } else s.twnFlag 4

/-- TWN_CTL resets an engine (R301). -/
def State.resetEngine (s : State) (e : Engine) : State :=
  match s.engineSt e with
  | .serving => if s.engineSt e.other = .serving then s.declareFailed e true else s.twnFlag 5
  | .resetting => s
  | _ =>
    if s.twn.failover ≠ .none ∧ s.twn.failedEngine = e then s.onTwn fun t => { t with resetAfter := true } else s.clearEngine e

/-- An engine's reset ends (R301). -/
def State.engineReady (s : State) (e : Engine) (ok : Bool) : State :=
  if s.engineSt e = .resetting then s.setEngine e (if ok then .ready else .failed) else s

/-- An error on the twin port: the mirror update is sent again (R304). -/
def State.twinError (s : State) : State := s.mirror.twnFlag 3

end Sys2Proof.Machine
end

