-- ==== Sys2Proof/Machine/Link.lean ====
section
/-! DEFINITION. The host links: bus mastering, FLR, functions, links that come and go, zero-length reads, remaps
(14_host_link_endpoint.md R305 to R325; 19_power_reset_and_bringup.md R397 to R403). -/

namespace Sys2Proof.Machine

/-- An HLK sticky bit. -/
def State.hlkFlag (s : State) (b : Nat) (code : Code := 0) : State := s.flag pgHLK 0 b code


/-! ## Zero-length reads (R320 to R323) -/

/-- A FENCE fails (R77, R321): its channel halts in ERROR naming it, and the FENCE is among what is not dispatched (R40). -/
def State.fenceFails (s : State) (slot num : Nat) (code : Code) : State :=
  match s.cmdOf slot num with
  | none => s
  | some c => (s.haltError slot code c.faultSeq c.inl).afterInflight slot

/-- The holder of a zero-length read fails with a code, or has its completion (code 0). -/
def State.npAnswer (s : State) (n : NpReq) (code : Code) (poison : Bool) : State :=
  match n.holder with
  | .fence slot num =>
    if code ≠ 0 then s.fenceFails slot num code
    else if poison then s.fenceFails slot num 0xC1
    else s.onChan slot fun c => { c with cmds := c.cmds.map fun x => if x.num = num then { x with fenceOut := x.fenceOut - 1 } else x }
  | .readback m u => s.jobBack m u code poison
  | .stray => s.onMov fun v => { v with stray := v.stray.filter fun x => !(x.asked && x.link = n.link && x.fn = n.fn) }
  | .gone => s

/-- The outstanding request of a link and tag. -/
def State.npReq (s : State) (link tag : Nat) : Option NpReq := s.hlk.np.find? fun n => n.link = link && n.tag = tag

/-- A request is outstanding no more. -/
def State.npDrop (s : State) (link tag : Nat) : State :=
  s.onHlk fun h => { h with np := h.np.filter fun n => !(n.link = link && n.tag = tag) }

/-- CXLIO_COMPLETION (R320 to R322, R325): one that matches no request is unexpected; of a request whose function has stopped mastering the bus
it is only counted; another status than Successful Completion is 0x41 to the holder, poisoned data 0xC1. -/
def State.completion (s : State) (link tag : Nat) (success poison : Bool) : State :=
  match s.npReq link tag with
  | none =>
    let s1 := (s.onHlk fun h => { h with unexpCpl := satInc h.unexpCpl }).hlkFlag 2 0x43
    if (s.link link).up then s1.aerAt link 0 .unexpectedCpl true else s1
  | some n =>
    let s1 := s.npDrop link tag
    if n.late then s1.onHlk fun h => { h with lateCpl := satInc h.lateCpl }
    else if !success then (s1.hlkFlag 1 0x41).npAnswer n 0x41 false
    else if poison then (s1.aerAt link n.fn .poisoned true).npAnswer n 0 true
    else s1.npAnswer n 0 false

/-- COMPLETION_TIMEOUT (R320). -/
def State.completionTimeout (s : State) (link tag : Nat) : State :=
  match s.npReq link tag with
  | none => s
  | some n =>
    let s1 := s.npDrop link tag
    if n.late then s1
    else
      let s2 := (s1.onHlk fun h => { h with cplTimeout := satInc h.cplTimeout }).hlkFlag 1 0x41
      (s2.aerAt link n.fn .cplTimeout).npAnswer n 0x41 false

/-! ## A function stops being master-enabled (R321) -/

/-- A context has a request to the host outstanding. -/
def Job.awaitsHost (j : Job) : Bool :=
  j.reads.any (fun r => r.host && r.sent && r.data.isNone) || j.writes.any (·.1) ||
    (j.rb = .out && (j.posts ≠ [] || (match j.last with | .host _ => true | _ => false)))

/-- The requests to the home that units have outstanding for a partition (R321). -/
def State.unitsOut (s : State) (p : Nat) : List UnitFor :=
  let rings := ((s.dbl.chan.filter fun (e : Nat × Chan) => e.2.part = p).map fun (e : Nat × Chan) =>
    e.2.reads.map fun q => UnitFor.ringRead e.2.owner e.1 q e.2.fetchNo).flatten
  let walks := (List.range 64).filterMap fun w => (s.walker w).bind fun x =>
    if x.req.part ≠ p then none
    else match x.at_ with | .line => some (UnitFor.walkLine w x.no) | .update _ => some (.walkUpdate w x.no) | .locked => none
  let mgmt := match (s.mgmt p).await with | some 2 => [UnitFor.mgmtRead p] | some 4 => [.mgmtResult p] | _ => []
  let invs := s.xlt.invs.filterMap fun v => match v.from_ with
    | .desc f _ _ => if f = p && !v.begun then some (UnitFor.invRead v.id) else none
    | _ => none
  let v := s.chtView p
  let image := if v.busy && !v.readDone then
      [UnitFor.image p false v.lines.length, .image p true v.binds.length].filter fun u => (s.home.line.any fun l => l.2.asks u) else []
  rings ++ walks ++ mgmt ++ invs ++ image

/-- Work of a partition is outstanding: a command dispatched and not complete, a plan entry's too, or a request to the host of any holder,
descriptors and plan images among them. -/
def State.workOut (s : State) (p : Nat) : Bool :=
  (s.dbl.chan.any fun (e : Nat × Chan) => e.2.st ≠ .free && e.2.part = p && decide (0 < e.2.inflight))
    || (s.cht.entry.any fun (e : Nat × Entry) => e.2.run.isSome && e.2.part = p)
    || s.hlk.np.any (fun n => n.fn = p && !n.late) || s.unitsOut p ≠ []

/-- The holders of a partition's requests to the host fail with 0x42, and what returns later is discarded (R321). -/
def State.silence (s : State) (p : Nat) : State :=
  let s0 := ((if s.workOut p then s.hlkFlag 3 else s).onHome fun h => { h with late := h.late ++ s.unitsOut p }).onMov
    fun v => { v with stray := v.stray.filter (·.fn ≠ p) }
  let late (n : NpReq) : NpReq := if n.fn = p then { n with late := true } else n
  let fences := s0.hlk.np.filter fun n => n.fn = p && !n.late
  let s1 := s0.onHlk fun h => { h with np := h.np.map late }
  let s2 := fences.foldl (fun (t : State) n => match n.holder with | .fence k c => t.fenceFails k c 0x42 | _ => t) s1
  let jobs := s2.mov.job.filter fun (e : Nat × Job) =>
    e.2.st ≠ .draining && e.2.awaitsHost && (match e.2.work with | some w => s2.workPart w = p | none => false)
  let s3 := jobs.foldl (fun (t : State) (e : Nat × Job) => match e.2.work with | some w => t.failWork w 0x42 | none => t) s2
  let rings := s3.dbl.chan.filter fun (e : Nat × Chan) => e.2.part = p && e.2.reads ≠ []
  let s4 := rings.foldl (fun (t : State) (e : Nat × Chan) =>
    e.2.reads.foldl (fun (t : State) q => t.slotArrived e.1 q 0 0x42) t) s3
  let reading (x : Walk) : Bool := x.req.part = p && (match x.at_ with | .locked => false | _ => true)
  let s5 := (List.range 64).foldl (fun (t : State) w => match t.walker w with
    | some x => if reading x then t.walkBlocked w x 0x42 else t
    | none => t) s4
  let read (v : Inv) : Bool := !v.begun && (match v.from_ with | .desc f _ _ => f = p | _ => false)
  let s6 := if s5.xlt.invs.any read then (s5.onXlt fun t => { t with invs := t.invs.filter fun v => !read v }).xltFlag p 8 else s5
  let s7 := match (s6.mgmt p).await with
    | some 2 => s6.mgmtLost p
    | some 4 => s6.mgmtLost p
    | _ => s6
  if (s7.chtView p).busy then s7.loadResult p 1 none else s7

/-- A function is master-enabled again: MSI-X messages held in the PBA are sent, and its queues go on (R321). -/
def State.unsilence (s : State) (p : Nat) : State := ((s.msixRetry p).pump false p).pump true p

/-- The configuration of functions and links changes: each function that stops or starts being master-enabled is treated so, and
an LTR message tells the host of a new L (R321, R396). -/
def State.reconfig (s : State) (f : State → State) : State :=
  let t := f s
  functions.foldl (fun (a : State) p =>
    if s.busMaster p && !t.busMaster p then a.silence p
    else if t.busMaster p && !s.busMaster p then a.unsilence p
    else a) (t.ltrSince s)

/-! ## FLR (R311, R322, R402, R403) -/

/-- The reset of a function's hub state starts (R402): its requests silenced, its management queue and MSI-X table reset. -/
def State.startFlr (s : State) (p : Nat) : State :=
  if s.inFlr p then s
  else
    let s1 := s.reconfig fun t => t.onHlk fun h => { h with flr := h.flr ++ [p] }
    ((s1.onHlk fun h => { h with msix := h.msix.filter fun (e : Nat × MsixEntry) => e.1 / 32 ≠ p }).onMgmt p fun _ => {}).startClose p

/-- The reset of the whole hub by PF0's FLR starts (R402): every partition at once. -/
def State.startPfFlr (s : State) : State :=
  if s.hlk.flr.contains 0 then s
  else
    let s1 := s.reconfig fun t => t.onHlk fun h => { h with flr := [0] }
    functions.foldl (fun (t : State) p => (t.onMgmt p fun _ => {}).startClose p) (s1.onHlk fun h => { h with msix := [] })

/-- The functions that were enabled and are so on no link are reset (R311); with every link down, the whole hub (R323). -/
def State.lostFunctions (s : State) (f : State → State) : State :=
  let t := s.reconfig f
  if links4.any (fun l => (s.link l).up) && !links4.any (fun l => (t.link l).up) then t.startPfFlr
  else functions.foldl (fun (a : State) p =>
    if p ≠ 0 && links4.any (s.fnOn p) && !links4.any (t.fnOn p) then a.startFlr p else a) t

/-- Bus Master Enable of an instance, and where it is set the other control fields the write carries (R321, R327). -/
def State.setBme (s : State) (fn link : Nat) (ctl : Option FnCtl) : State :=
  s.reconfig fun t => t.onInst link fn fun i => match ctl with
    | none => { i with bme := false }
    | some c => i.enable c

/-- VF_FLR (R311, R402): the instance's configuration is reset, but for VF Enable. -/
def State.vfFlr (s : State) (fn link : Nat) : State :=
  if fn = 0 then s
  else ((s.startFlr fn).resetInst link fn { en := (s.inst link fn).en }).ltrSince s

/-- PF_FLR (R311, R402): the instance's configuration is reset, and VF Enable of the link. -/
def State.pfFlr (s : State) (link : Nat) : State :=
  let s1 := s.startPfFlr
  let s2 := functions.foldl (fun (t : State) f => if f = 0 then t else t.resetInst link f {}) (s1.resetInst link 0 {})
  (s2.onLink link fun k => { k with cacheEn := false }).ltrSince s

/-- The FLR of a VF completes (R311, R322): no request of it is outstanding at the home, and the enables held for it take effect. -/
def State.vfFlrDone (s : State) (fn : Nat) : State :=
  if fn ≠ 0 && s.hlk.flr.contains fn && (s.part fn).closing = .last && !s.homeWorks fn then
    let held := s.hlk.heldEnable.filter (·.2 = fn)
    let s1 := s.onPart fn fun q => { q with closing := if q.disables then .last else .none }
    s1.reconfig fun t =>
      held.foldl (fun (a : State) e => if (a.link e.1).up then a.onInst e.1 fn fun i => { i with en := true } else a)
        (t.onHlk fun h => { h with
          flr := h.flr.filter (· ≠ fn), heldEnable := h.heldEnable.filter (·.2 ≠ fn), np := h.np.filter (·.fn ≠ fn) })
  else s

/-- VF_ENABLE (R311). -/
def State.vfEnable (s : State) (fn link : Nat) : State :=
  if fn = 0 ∨ !(s.link link).up then s
  else if s.inFlr fn then s.onHlk fun h => { h with heldEnable := h.heldEnable ++ [(link, fn)] }
  else s.reconfig fun t => t.onInst link fn fun i => { i with en := true }

/-- VF_DISABLE (R311). -/
def State.vfDisable (s : State) (fn link : Nat) : State :=
  if fn = 0 then s
  else (s.onHlk fun h => { h with heldEnable := h.heldEnable.filter (· ≠ (link, fn)) }).lostFunctions
    fun t => t.resetInst link fn {}

/-! ## Links (R306, R310, R323, R340) -/

/-- A link comes up (R306). -/
def State.linkUp (s : State) (link : Nat) (flit : Bool) (speed : BitVec 4) (width : BitVec 5) : State :=
  s.reconfig fun t => t.onLink link fun k => { k with up := true, flit256 := flit, speed := speed, width := width }

/-- The effects of a link down (R323): its requests fail with 0x45, its lines are dropped, it leaves its group, and its instances are
reset. -/
def State.linkFalls (s : State) (link : Nat) : State :=
  let lost := s.hlk.np.filter (·.link = link)
  let s1 := s.onHlk fun h => { h with np := h.np.filter (·.link ≠ link) }
  let s2 := lost.foldl (fun (t : State) n => if n.late then t else t.npAnswer n 0x45 false) s1
  (s2.hlkFlag 5).lostFunctions fun t =>
    (functions.foldl (fun (a : State) f => a.resetInst link f {}) (t.onLink link fun _ => {})).homeLinkDown link

/-- LINK_DOWN. -/
def State.linkDown (s : State) (link : Nat) : State := if (s.link link).up then s.linkFalls link else s

/-- PERST# of links 1 to 3 (R340): their instances and CXL.cache state are reset, with the effects of a link down. -/
def State.perstLink (s : State) (link : Nat) : State := s.linkFalls link

/-- Cache Writeback and Invalidate is written (R310). -/
def State.cacheWbInv (s : State) : State := (s.onHlk fun h => { h with cacheDrain := true }).recallAll

/-- Cache_Enable of a link is cleared (R310): the link takes no new request, and lines held through it are written back on it, those in a
transaction as it ends. -/
def State.cacheOff (s : State) (link : Nat) : State :=
  let s1 := s.onLink link fun k => { k with cacheEn := false }
  (s1.home.line.foldl (fun (t : State) (p : Nat × Line) =>
    if p.2.entry && p.2.via = link && p.2.txn.isNone then t.recallLine p.1 else t) s1).runHome

/-- Cache_Enable of a link is set (R306). -/
def State.cacheOn (s : State) (link : Nat) : State := s.onLink link fun k => { k with cacheEn := true }

/-! ## Remaps (R306, R307, R326) -/

/-- The frames at which a range map may change: the ends of ranges. -/
def State.mapFrames (s : State) : List Nat :=
  0 :: ((List.range 8).map fun i => [field (s.hlkRange i).base 63 12, field (s.hlkRange i).limit 63 12 + 1]).flatten

/-- Some host line leaves on another link in the second state (R307): within a region of one range the links repeat every 12 frames. -/
def State.remaps (s t : State) : Bool :=
  (s.mapFrames ++ t.mapFrames).any fun b => (List.range 12).any fun k =>
    s.cacheLink (BitVec.ofNat 64 (4096 * (b + k))) ≠ t.cacheLink (BitVec.ofNat 64 (4096 * (b + k)))

/-- A remap register takes a value, for the range `sel`. -/
def State.setMap (s : State) (r : RemapReg) (sel : Nat) (v : Word) : State :=
  match r with
  | .groupMap => s.onHlk fun h => { h with groupMap := v &&& 0x83838383 }
  | .rangeBase => s.onHlk fun h => { h with
      ranges := tabMod (fun _ => {}) h.ranges sel fun (x : HlkRange) => { x with base := v &&& 0xFFFFFFFFFFFFF031 } }
  | .rangeLimit => s.onHlk fun h => { h with
      ranges := tabMod (fun _ => {}) h.ranges sel fun (x : HlkRange) => { x with limit := v &&& 0xFFFFFFFFFFFFF000 } }

/-- Range `sel`, if enabled, meets another enabled range (R306). -/
def State.rangeMeets (s : State) (sel : Nat) : Bool :=
  let lo (i : Nat) : Nat := field (s.hlkRange i).base 63 12
  let hi (i : Nat) : Nat := field (s.hlkRange i).limit 63 12
  bit (s.hlkRange sel).base 0 && (List.range 8).any fun i =>
    i ≠ sel && bit (s.hlkRange i).base 0 && decide (lo i ≤ hi i) && decide (lo sel ≤ hi sel) && decide (lo i ≤ hi sel) &&
      decide (lo sel ≤ hi i)

/-- HLK_REMAP (R306, R307). -/
def State.hlkRemap (s : State) (r : RemapReg) (v : Word) : State :=
  let sel := s.hlk.rsel.toNat
  let t := s.setMap r sel v
  if s.hlk.remap.isSome then s.hlkFlag 7
  else if r ≠ .groupMap && t.rangeMeets sel then s.hlkFlag 6
  else if s.remaps t then (s.onHlk fun h => { h with remap := some { reg := r, sel := sel, v := v } }).recallAll
  else t

/-- REMAP_DONE (R307): the home is empty, and the held write takes effect. -/
def State.remapDone (s : State) : State :=
  match s.hlk.remap with
  | none => s
  | some x => if s.homeEmpty then ((s.onHlk fun h => { h with remap := none }).setMap x.reg x.sel x.v).homeResume else s

/-! ## D-states (19_power_reset_and_bringup.md R397 to R399) -/

/-- A write of a function's Power Management Control/Status register: the D-state, PME_En, and 1 to clear PME_Status. -/
def State.writePm (s : State) (fn : Nat) (d : BitVec 2) (pmeEn clearPme : Bool) : State :=
  links4.foldl (fun (t : State) l => t.onInst l fn fun i => { i with
    dstate := d, pmeEn := pmeEn, pmeStatus := i.pmeStatus && !clearPme }) s

/-- D3HOT (R398): D3_WITH_WORK for each function that leaves D0 with work outstanding. -/
def State.d3hot (s : State) (fn : Nat) (pmeEn clearPme : Bool) : State :=
  let left := functions.filter fun p => (p = fn || fn = 0) && s.inD0 p && s.workOut p
  (left.foldl (fun (t : State) p => t.flag pgPWR p 1) s).reconfig fun t => t.writePm fn 3 pmeEn clearPme

/-- D0_RETURN (R398, R399). -/
def State.d0Return (s : State) (fn : Nat) (pmeEn clearPme : Bool) : State :=
  s.reconfig fun t => (t.writePm fn 0 pmeEn clearPme).onPwr fun p => { p with pmeSent := p.pmeSent.filter (· ≠ fn) }

end Sys2Proof.Machine
end

