-- ==== Sys2Proof/Machine/Power.lean ====
section
/-! DEFINITION. Power states, D3cold, the resets of the whole hub and the bootstrap window (19_power_reset_and_bringup.md R389 to R407). -/

namespace Sys2Proof.Machine

/-! ## The permitted state (R390) -/

/-- An inbound window of a partition is enabled. -/
def State.anyInbound (s : State) : Bool := s.peer.iwin.any fun (e : Nat × WinEntry) => e.2.en

/-- The deepest state a latency permits. -/
def depthOf (l : Nat) : Nat := if l < 200 then 0 else if l < 5000 then 1 else if l < 150000 then 2 else 3

/-- LIMIT of PWR_STATE: 0 Run to 3 Hibernate (R390). -/
def State.limit (s : State) : Nat :=
  if s.anyArmed || s.cht.master || s.pwr.forceRun then 0
  else if s.anyInbound then min 2 (depthOf s.latency) else depthOf s.latency

/-- Number of a power state. -/
def PwrSt.num : PwrSt → Nat
  | .run => 0
  | .doze => 1
  | .nap => 2
  | .hibernate => 3

/-- hln_pm_allow of every link (R389; 15_block_ports.md R340). -/
def State.pmAllow (s : State) : Nat := s.pwr.st.num - 1

/-- The hub is idle (R391). -/
def State.idle (s : State) : Bool :=
  s.dbl.chan.all (fun (e : Nat × Chan) => e.2.st ≠ .active) && s.mov.job.all (fun (e : Nat × Job) => e.2.st = .idle) &&
    s.xlt.walk.all (fun (e : Nat × Option Walk) => e.2.isNone) && s.xlt.missA = [] && s.xlt.missB = [] && s.xlt.lookups = [] &&
    s.xlt.locks = [] && s.xlt.invs = [] && s.xlt.invQueue = [] && s.skk.pending = [] &&
    s.skk.placed.all (fun e => e.rcl = .none || e.rcl = .failed) &&
    s.home.line.all (fun (e : Nat × Line) => e.2.txn.isNone) && s.ras.rebuild.isNone && s.ras.scrub.isNone &&
    s.peer.flow.all (fun (e : Nat × Flow) => e.2.out = [] && e.2.wait = [])

/-- The hub goes from one state into the next deeper one, if it is idle and may. -/
def State.enter (s : State) (from_ into : PwrSt) (f : State → State) : State :=
  if s.pwr.st = from_ && decide (into.num ≤ s.limit) && s.idle then ((f s).onPwr fun p => { p with st := into }).ops pgPWR 1 else s

/-- DOZE_ENTRY (R391). -/
def State.doze (s : State) : State := s.enter .run .doze id

/-- Every Eft is flushed, its tallies added (R389, R114). -/
def State.flushEfts (s : State) : State := (s.xlt.eft.map (·.1)).foldl (fun (t : State) k => t.eftDrop (k / 128) (k % 128)) s

/-- NAP_ENTRY (R391). -/
def State.nap (s : State) : State := s.enter .doze .nap State.flushEfts

/-- The context cache is written to the hub store and powered off (R389). -/
def State.dropContexts (s : State) : State :=
  ((s.dbl.chan.filter fun (e : Nat × Chan) => e.2.cached).map (·.1)).foldl
    (fun (t : State) k => (t.onChan k fun c => { c with cached := false }).writeContext k) s

/-- HIBERNATE_ENTRY (R389, R391): the host lines are written back and dropped first; once none is held, the contexts are written and
the state is entered. -/
def State.hibernate (s : State) : State :=
  let may : Bool := s.pwr.st = .nap && decide (3 ≤ s.limit)
  if may && s.homeEmpty then (s.enter .nap .hibernate State.dropContexts).onPwr fun p => { p with entering := false }
  else if may && s.idle && !s.pwr.entering then (s.onPwr fun p => { p with entering := true }).recallAll
  else s

/-- A hub deeper than its limit wakes at once (R390); an entry into Hibernate ends once no host line is held. -/
def State.pumpPower (s : State) : State :=
  if s.limit < s.pwr.st.num then s.awake else if s.pwr.entering then s.hibernate else s

/-- PWR_WLB is written (R390). -/
def State.writeWlb (s : State) (p : Nat) (v : BitVec 32) : State :=
  (s.onPwr fun q => { q with wlb := tabPut (fun _ => 0xC8) q.wlb p v }).ltrSince s

/-! ## Resets (R400 to R404) -/

/-- The machine in a cold reset (R401): PWR_WAKE_CAUSE is kept, and hub_ready is low. -/
def State.coldState (s : State) (cause : BitVec 3) : State :=
  { State.reset with
    glb := { ready := false }, hlk := { headers := s.hlk.headers }, pwr := { wakeCause := s.pwr.wakeCause, resetCause := cause }
    out := if s.skk.mapAck then s.out ++ [.mapoutAck false] else s.out, free := s.free, pending := s.pending }

/-- The machine in a warm reset (R401): configuration space, link state, field remaps and GLB_TIME are kept. -/
def State.warmState (s : State) : State :=
  { s.coldState 2 with
    glb := { time := s.glb.time, ready := false }, hlk := { links := s.hlk.links, inst := s.hlk.inst, aer := s.hlk.aer, headers := s.hlk.headers }
    ras := { remapped := s.ras.remapped, repairs := s.ras.repairs } }

/-- cold_rst_n is low (R401); a cold reset in progress absorbs it (R403). -/
def State.coldReset (s : State) : State := if !s.glb.ready && !s.pwr.d3cold && s.pwr.resetCause ≠ 2 then s else s.coldState 0

/-- GLB_WARM_RESET is written (R401). -/
def State.warmReset (s : State) (v : Word) : State := if field v 15 0 = 0x5752 then s.warmState else s

/-- hl0_perst_n is asserted (R340, R400): D3cold when PF0 is in D3hot with PME_En set, else a cold reset. -/
def State.perst0 (s : State) : State :=
  if s.pwr.d3cold then s
  else if s.glb.ready && (s.inst 0 0).dstate = 3 && (s.inst 0 0).pmeEn then
    (s.coldState 0).onPwr fun p => { p with d3cold := true, wakeEn := s.pwr.wakeEn }
  else if !s.glb.ready && s.pwr.resetCause ≠ 2 then s
  else s.coldState 1

/-- PERST (R340). -/
def State.perst (s : State) (link : Nat) : State := if link = 0 then s.perst0 else s.inner fun t => t.awake.perstLink link

/-- Reset initialisation finishes (R331, R401); in D3cold hl0_perst_n has been deasserted, and the cold reset that ends it too (R400). -/
def State.hubReady (s : State) : State :=
  if s.pwr.d3cold then
    let t := (s.coldState 4).onGlb fun g => { g with ready := true }
    if s.pwr.wakeReq then t.flag pgPWR 0 2 else t
  else if s.glb.ready then s
  else s.onGlb fun g => { g with ready := true }

/-- Bit of a wake condition in PWR_WAKE_EN (R409). -/
def wakeBit : WakeCond → Nat
  | .fabric => 0
  | .dronePin => 1
  | .thermal => 2

/-- WAKE_REQ (R400): the first enabled wake condition in D3cold. -/
def State.raiseWake (s : State) (c : WakeCond) : State :=
  if s.pwr.d3cold && !s.pwr.wakeReq && s.pwr.wakeEn.getLsbD (wakeBit c) then
    s.onPwr fun p => { p with wakeReq := true, wakeCause := BitVec.ofNat 3 (2 ^ wakeBit c) }
  else s

/-- The hub after a PF FLR (R401, R402): every register at its reset value, every partition but 0 DISABLED; link state, configuration,
field remaps, retirements, GLB_TIME, HUB_FATAL, the ports, the transport's flows and the home's lines are kept. -/
def State.restored (s : State) : State :=
  let held := s.hlk.heldEnable
  let blocks := (s.glb.blocks.filter fun (e : Nat × PageCounters) => e.2.degraded).map
    fun (e : Nat × PageCounters) => (e.1, { degraded := true : PageCounters })
  let gens := s.dbl.chan.foldl (fun (t : Tab Chan) (e : Nat × Chan) => tabPut (fun _ => {}) t e.1
    { gen := e.2.gen, fetchNo := e.2.fetchNo + 1 }) []
  let objs := s.syn.obj.foldl (fun (t : Tab Obj) (e : Nat × Obj) => tabPut (fun _ => {}) t e.1 { gen := e.2.gen }) []
  let entries := s.cht.entry.foldl (fun (t : Tab Entry) (e : Nat × Entry) => tabPut (fun _ => {}) t e.1
    { gen := e.2.gen, occ := e.2.occ + 1, resNo := e.2.resNo + 1 }) []
  let t : State := { State.reset with
    glb := { time := s.glb.time, fatal := s.glb.fatal, blocks := blocks
             sticky := if s.glb.fatal then [(0, { en := 0xFE, bits := 0x10 })] else [] }
    hlk := { links := s.hlk.links, inst := s.hlk.inst, aer := s.hlk.aer, headers := s.hlk.headers }
    noc := s.noc, xlt := { walkNo := s.xlt.walkNo, nextInv := s.xlt.nextInv }, dbl := { chan := gens }, syn := { obj := objs }, cht := { entry := entries }
    mov := { gone := s.mov.gone, spareA := s.mov.spareA, spareB := s.mov.spareB }, ccu := { retired := s.ccu.retired }
    skk := { thermal := s.skk.thermal, mapped := s.skk.mapped, mapReq := s.skk.mapReq, mapAck := s.skk.mapAck, mapEarly := s.skk.mapEarly }
    home := { line := s.home.line, clock := s.home.clock, answers := s.home.answers, late := s.home.late, held := s.home.held, todo := s.home.todo
              woken := s.home.woken, flush := s.home.flush, snps := s.home.snps }
    peer := { flow := s.peer.flow, rx := s.peer.rx, loop := s.peer.loop, portDown := s.peer.portDown, slipSent := s.peer.slipSent }
    ras := { remapped := s.ras.remapped, repairs := s.ras.repairs, bankUsed := s.ras.bankUsed, lostCap := s.ras.lostCap, retiredStacks := s.ras.retiredStacks
             walkSpareA := s.ras.walkSpareA, walkSpareB := s.ras.walkSpareB, walkGone := s.ras.walkGone }
    pwr := { wakeCause := s.pwr.wakeCause, resetCause := 3 }
    out := s.out, free := s.free, pending := s.pending }
  held.foldl (fun (a : State) e => if (a.link e.1).up then a.onInst e.1 e.2 fun i => { i with en := true } else a) t

/-- FLR_COMPLETE (R322, R401, R402). -/
def State.flrDone (s : State) (fn : Nat) : State :=
  if fn ≠ 0 then s.vfFlrDone fn
  else if s.hlk.flr.contains 0 && functions.all (fun p => (s.part p).closing = .last && !s.homeWorks p) then s.restored.ltrSince s
  else s

/-! ## The bootstrap window (R405 to R407) -/

/-- The window closes once its writes have their responses, and the doorbells held for them pulse boot_go (R405, R406). -/
def State.bootSettle (s : State) : State :=
  if s.pwr.bootOut ≠ 0 then s
  else
    let s1 := (List.range s.pwr.bootHeld).foldl (fun (t : State) _ => t.emit .bootGo) s
    s1.onPwr fun p => { p with bootHeld := 0, bootOpen := p.bootOpen && !p.closing, closing := false }

/-- A bootstrap write has its NoC response. -/
def State.bootWrote (s : State) : State := (s.onPwr fun p => { p with bootOut := p.bootOut - 1 }).bootSettle

/-- BOOT_CLOSE (R406). -/
def State.bootClose (s : State) : State := (s.onPwr fun p => { p with closing := true }).bootSettle

/-- BOOT_DOORBELL (R405, R407). -/
def State.bootDoorbell (s : State) : State := (s.onPwr fun p => { p with bootHeld := p.bootHeld + 1 }).bootSettle

end Sys2Proof.Machine
end

