-- ==== Sys2Proof/Machine/Units.lean ====
section
/-! DEFINITION. Movers and walkers that fail their self-check or lose their arrays (01_hub_architecture.md R27). -/

namespace Sys2Proof.Machine

/-- A retirement is recorded: RETIRED of the unit's page, and UNIT_RETIRED (01 R27). -/
def State.unitRetired (s : State) (pg : Nat) : State := (s.retire pg).flag pgRAS 0 5

/-- The work of a failed mover's context runs again from its last checkpoint, or ends with 0xE3 (01 R27). -/
def State.redoJob (s : State) (m : Nat) (u : Bool) : State :=
  let j := s.job m u
  match j.work with
  | none => s
  | some w => match s.workCmd w with
    | none => s
    | some c =>
      if j.st = .draining ∨ j.st = .idle then s
      else if c.op = 0x05 ∨ c.op = 0x0B then s.failWork w 0xE3
      else s.requeue m u

/-- A spare unit takes a unit's number: it brings its own rows, none of them remapped or lost (01 R27; R371). The rows the factory used go by
the place (log entry 31). -/
def Ras.freshUnit (r : Ras) (strs : List Nat) (n : Nat) : Ras :=
  let kept (str bank : Nat) : Bool := !(strs.contains str && bank = n)
  { r with
    remapped := r.remapped.filter fun x => kept x.1.str x.1.bank, ceRows := r.ceRows.filter fun x => kept x.1.str x.1.bank
    rowCopy := r.rowCopy.filter fun x => kept x.1.str x.1.bank, lostMarks := r.lostMarks.filter fun x => kept x.1 x.2.1 }

/-- A mover is retired (01 R27): a spare of its engine takes its place, or the engine runs with one fewer. -/
def State.retireMover (s : State) (m : Nat) : State :=
  if s.mov.gone.contains m then s
  else
    let spare := if m < 24 then s.mov.spareA else s.mov.spareB
    let s1 := (s.redoJob m true).redoJob m false
    let s2 := if spare = 0 then s1 else s1.onRas fun r => r.freshUnit [1, 2] m
    (s2.onMov fun v =>
      if spare = 0 then { v with gone := m :: v.gone }
      else if m < 24 then { v with spareA := v.spareA - 1 } else { v with spareB := v.spareB - 1 }).unitRetired pgMOV

/-- A walk starts again from the root on another walker (01 R27; 18_stored_data_protection.md R370): `avoid` is the number of the one that lost
its state; none where a spare has taken the number. -/
def State.reroot (s : State) (w : Nat) (avoid : Option Nat := none) : State :=
  match s.walker w with
  | none => s
  | some x => ((x.req :: x.joiners).map fun (r : XReq) => ({ r with root := true, avoid := avoid } : XReq)).foldl State.ask (s.setWalker w none)

/-- A walker is retired (01 R27): its walk starts again on another, from the root. -/
def State.retireWalker (s : State) (w : Nat) : State :=
  if s.ras.walkGone.contains w then s
  else
    let spare := if w < 32 then s.ras.walkSpareA else s.ras.walkSpareB
    ((s.reroot w).onRas fun r =>
      if spare = 0 then { r with walkGone := w :: r.walkGone }
      else if w < 32 then { (r.freshUnit [3] w) with walkSpareA := r.walkSpareA - 1 }
      else { (r.freshUnit [3] w) with walkSpareB := r.walkSpareB - 1 }).unitRetired pgXLT

/-! ## Reading the repair map (18_stored_data_protection.md R386) -/

/-- The next line of the map is read through the home, as every read of the hub (08_memory_model.md R174). -/
def State.repairAsk (s : State) (k : Nat) : State :=
  s.forPart 0 (.repair k) fun t => t.unitRead (.repair k) 0 ((s.ras.repairAt &&& 0xFFFFFFFFFFFFFFC0) + BitVec.ofNat 64 (64 * k))

/-- A line of the map arrives, or its read fails. -/
def State.repairLine (s : State) (k : Nat) (code : Code) (g : Granule) : State :=
  match s.ras.repairBusy with
  | none => s
  | some n =>
    if s.ras.repairEnd.isSome || k ≠ s.ras.repairLines.length then s
    else if code ≠ 0 || !s.masterEnabled 0 then s.onRas fun r => { r with repairEnd := some false }
    else
      let s1 := s.onRas fun r => { r with repairLines := r.repairLines ++ [g] }
      if s.ras.repairAt.toNat % 64 + 8 * n ≤ 64 * (k + 1) then s1.onRas fun r => { r with repairEnd := some true } else s1.repairAsk (k + 1)

/-- The entries of the map read, in order. -/
def Ras.repairWords (r : Ras) (n : Nat) : List Word :=
  (List.range n).map fun i =>
    let o := r.repairAt.toNat % 64 + 8 * i
    granWord (r.repairLines.getD (o / 64) 0) (o % 64)

end Sys2Proof.Machine
end

