-- ==== Sys2Proof/Machine/Flow.lean ====
section
/-! DEFINITION. What moves between the hub's own units: answers of the home, translations of inbound blocks, the loopback path, FENCEs whose
conditions come to hold; and the forms in which a command's meaning runs (11_coherence_home.md R246; 12_peer_windows_and_transport.md
R272; 03_command_set.md R77; 19_power_reset_and_bringup.md R393). -/

namespace Sys2Proof.Machine

/-! ## Between the units -/

/-- A request of a unit still awaits its answer: for a row that stands for the answer's arrival (log entry 98). -/
def State.awaited (s : State) (u : UnitFor) : Bool :=
  match u with
  | .walkLine w n => (s.walker w).any fun x => x.no = n && x.at_ = .line
  | .ringRead _ k pos n => (s.chan k).fetchNo = n && (s.chan k).reads.contains pos
  | .mgmtRead fn => (s.mgmt fn).await = some 2
  | .mgmtResult fn => (s.mgmt fn).await = some 4
  | .invRead id => s.xlt.invs.any fun v => v.id = id && !v.begun
  | .record notice p => (s.queue notice p).flight.isSome
  | _ => false

/-- An answer of the home reaches the unit that asked (11 R246). -/
def State.unitAnswer (s : State) (u : UnitFor) (code : Code) (data : Granule) (poison : Bool) : State :=
  match u with
  | .moverRead m urgent kind idx => s.jobData m urgent kind idx code poison data
  | .moverWrite m urgent epoch => s.jobWrote m urgent true epoch code
  | .moverBack m urgent => s.jobBack m urgent code poison
  | .moverAtomic m urgent epoch => s.jobAtomic m urgent true epoch code (granWord data 0)
  | .walkUpdate w n => s.walkUpdated w n code (granWord data 0)
  | .invResult fn event => s.invResulted fn event code
  | .image fn bind k => s.imageLine fn bind k (lineCode code poison) data
  | .repair k => s.repairLine k (lineCode code poison) data
  | .placeRead ticket k => s.entryLine ticket k (lineCode code poison) data
  | .copyRead ticket _ => s.copyRead ticket (lineCode code poison) data
  | .placeCas ticket k => s.placeSwapped ticket k code (granWord data 0)
  | .recallCas frame k => s.recallSwapped frame k code (granWord data 0)
  | .copyWrite frame _ => s.recallWrote frame code
  | .releaseRead frame k => s.releaseLine frame k (lineCode code poison) data
  | _ => s

/-- The first answer that no row stands for, or whose request nobody awaits any more. -/
def State.nextAnswer (s : State) : Option (UnitFor × Code × Granule × Bool) :=
  s.home.answers.find? fun a => !a.1.rowed || s.home.late.contains a.1 || !s.awaited a.1

/-- An answer of the home arrives: what its holder's 0x42 has made late is discarded and counted (14_host_link_endpoint.md R321). -/
def State.delivered (s : State) (a : UnitFor × Code × Granule × Bool) : State :=
  let s1 := s.onHome fun h => { h with answers := dropFirst (fun x => x = a) h.answers }
  if s.home.late.contains a.1 then
    let s2 := s1.onHome fun h => { h with late := h.late.erase a.1 }
    if a.2.1 = 0x42 then s2 else s2.onHlk fun h => { h with lateCpl := satInc h.lateCpl }
  else if a.1.rowed then s1
  else s1.unitAnswer a.1 a.2.1 a.2.2.1 a.2.2.2

/-- A packet arrives at the transport (R264 to R280). -/
def State.rxPacket (s : State) (p : Packet) : State :=
  let h := p.h
  let blocks : List Block := (p.blocks.zip p.crcs).map fun (b : (Nat × List Byte) × BitVec 32) =>
    { k := Fin.ofNat 16 b.1.1, crc := b.2, bytes := b.1.2 }
  match h.kind.toNat with
  | 1 => s.pktHead h 1 fun t => t.rxData h blocks
  | 2 => s.pktHead h 2 fun t => t.rxData h blocks
  | 3 => s.pktHead h 3 fun t => t.rxSignal h
  | 4 => s.pktHead h 4 fun t => t.rxAck h
  | 5 => s.pktHead h 5 fun t => t.rxNack h
  | 6 => s.pktHead h 6 fun t => t.rxDrone h
  | 7 => s.pktHead h 7 fun t => t.rxSlip h fun t => t.slipFrom h.srcChip.toNat
  | 8 => s.pktHead h 8 fun t => t.rxSlip h fun t => t.slipEndFrom h.srcChip.toNat
  | _ => s

/-- One thing on its way between two units arrives; none when nothing is. -/
def State.flowOnce (s : State) : Option State :=
  match s.nextAnswer with
  | some a => some (s.delivered a)
  | none =>
    if s.home.woken ≠ [] then some s.wakeLocks
    else match s.xlt.inbound with
      | (x, code, page) :: rest => some ((s.onXlt fun t => { t with inbound := rest }).inboundXlt x code page)
      | [] => match s.peer.loop with
        | p :: rest => some ((s.onPeer fun q => { q with loop := rest }).rxPacket p)
        | [] => none

/-- What is on its way arrives; `fuel` bounds how much. -/
def State.flowFor (s : State) : Nat → State
  | 0 => s
  | fuel + 1 => match s.flowOnce with | none => s | some t => t.flowFor fuel

/-- A dispatched FENCE that has not issued its zero-length reads. -/
def Chan.fencing (c : Chan) : Bool := c.cmds.any fun x => x.st = .dispatched && x.op = 0x08 && !x.fenceSent

/-- The FENCEs of every channel go on (R77). -/
def State.pumpFences (s : State) : State :=
  (s.dbl.chan.filter fun (e : Nat × Chan) => e.2.fencing).foldl (fun (t : State) (e : Nat × Chan) => t.pumpFence e.1) s

/-- The posted writes of stopped work that an invalidation in progress waits for and that have not been asked after. -/
def State.strays (s : State) : List Stray := s.mov.stray.filter fun x => !x.asked && s.xlt.invs.any fun v => v.begun && v.waitsFor x.asid x.epoch

/-- Posted writes of stopped work that an invalidation in progress waits for are asked after: a zero-length read goes behind them on their link
(05_invalidation_and_placement.md R113; log entry 131). -/
def State.pumpStrays (s : State) : State :=
  s.strays.foldl (fun t x =>
    if !t.mov.stray.contains x then t
    else match t.zeroRead x.link x.fn x.addr .stray with
      | none => t
      | some t1 => t1.onMov fun v => { v with
          stray := v.stray.map fun y => if y.link = x.link && y.fn = x.fn then { y with asked := true } else y }) s

/-- All that the hub's units pass between them arrives, what the fetches have come to takes effect, and the FENCEs and the shutdowns of
partitions go on. -/
def State.runOn (s : State) : State := (((s.flowFor 65536).settleFetches).flowFor 65536).pumpFlows.pumpFences.pumpLoads.pumpStrays.pumpParts.pumpDrain.pumpPower.settleArbs

/-! ## Messages from the NoC (15_block_ports.md R333) -/

/-- Number of a class: 0 REQ, 1 SNP, 2 RSP (R334). -/
def classNum : NocClass → Nat
  | .req => 0
  | .snp => 1
  | .rsp => 2

/-- Credits that the hub allots the NoC for a class of a port, over its slots: two on a data port, one on port 4 (R333, R334, R337). -/
def hubCredits (port : Nat) (c : NocClass) : Nat :=
  if port = 4 then (match c with | .req => 64 | .snp => 0 | .rsp => 64)
  else 2 * (match c with | .req => 32 | .snp => 16 | .rsp => 48)

/-- The credits of the hub that the NoC has spent in this hub cycle: those of a cycle before have come back. -/
def State.creditsSpent (s : State) (port : Nat) (c : NocClass) : Nat :=
  if s.noc.inAt = s.glb.time then tabGet (fun _ => 0) s.noc.inUse (port * 3 + classNum c) else 0

/-- A credit of the hub for a class of a port is spent. -/
def Noc.spend (n : Noc) (now : Word) (key : Nat) : Noc :=
  { n with inAt := now, inUse := tabMod (fun _ => 0) (if n.inAt = now then n.inUse else []) key (· + 1) }

/-- A message of a class reaches the hub on a port: it spends a credit, which the hub returns as it takes the message; one without a credit is
discarded and sets PORT_PROTOCOL (R333; log entry 138). -/
def State.nocIn (s : State) (port : Nat) (c : NocClass) (f : State → State) : State :=
  if s.creditsSpent port c < hubCredits port c then f (s.onNoc fun n => n.spend s.glb.time (port * 3 + classNum c))
  else s.portProtocol port

/-- Port and class of a message that the hub can only discard. -/
def strayPlace : NocStray → Nat × NocClass
  | .signalAck p => (p.val, .rsp)
  | .undefinedOpc p c _ => (p.val, c)
  | .wrongClass p c _ => (p.val, c)

/-- The data port on which an agent's answers come. -/
def agentPort (id : Nat) : Nat := Config.agentPort id % 4

/-! ## The forms of a meaning -/

/-- Something arrives at a port, or a deadline expires: the hub wakes and acts, and its units go on (R393). -/
def State.arrives (s : State) (f : State → State) : State := s.act fun t => (f t).runOn

/-- An answer the hub waits for arrives. -/
def State.answered (s : State) (f : State → State) : State := s.actAnswer fun t => (f t).runOn

/-- An access to a register that a function's running FLR discards (R311). -/
def State.onPage (s : State) (fn : Nat) (f : State → State) : State := s.paged fn fun t => (f t).runOn

/-- A read of a register that is answered to the host: during the function's FLR it completes with zeros (R311). -/
def State.readPage (s : State) (fn : Nat) (f : State → Word × State) : State :=
  s.act fun t =>
    if t.inFlr fn then t.tlp.emit (.cpl none fn 0)
    else
      let r := f t.tlp
      (r.2.emit (.cpl none fn r.1)).runOn

/-- A configuration request to a function on a link, where the command names it: served, or while the function's FLR runs completed with
Request Retry Status (R311, R416). -/
def State.configured (s : State) (fn : Nat) (link : Option Nat) (f : State → State) : State :=
  s.act fun t => if t.inFlr fn then t.tlp.emit (.retry link fn) else (f (t.tlp.ops pgEPF 1)).runOn

/-- An access to a view page a DISABLED partition's function may not use (13_partitions_and_twin_engines.md R284). -/
def State.viewed (s : State) (fn : Nat) (f : State → State) : State := s.view fn fun t => (f t).runOn

/-- A sequencer of the hub acts, and its units go on. -/
def State.within (s : State) (f : State → State) : State := s.inner fun t => (f t).runOn

end Sys2Proof.Machine
end

