-- ==== Sys2Proof/Machine/Status.lean ====
section
/-! DEFINITION. Which blocks have work in progress, and in which a request waits (21_register_pages.md R418, R421). -/

namespace Sys2Proof.Machine

/-- STATUS.ACTIVE of a page (R418): the block has work in progress. Which work counts is the model's reading (log entry 34). -/
def State.activePage (s : State) (pg : Nat) : Bool :=
  match pg with
  | 0x00 => s.pwr.closing || s.pwr.bootOut ≠ 0
  | 0x01 => s.hlk.np ≠ [] || s.hlk.remap.isSome || s.hlk.cacheDrain
  | 0x02 => s.hlk.flr ≠ []
  | 0x03 => s.dbl.chan.any (fun (e : Nat × Chan) => e.2.cmds ≠ [] || e.2.reads ≠ [] || e.2.want ≠ []) ||
      s.dbl.mgmt.any (fun (e : Nat × Mgmt) => e.2.busy.isSome || e.2.queue ≠ [])
  | 0x04 => s.dbl.chan.any fun (e : Nat × Chan) => e.2.loadWait
  | 0x05 => s.xlt.walk.any (fun (e : Nat × Option Walk) => e.2.isSome) || s.xlt.missA ≠ [] || s.xlt.missB ≠ [] || s.xlt.lookups ≠ [] ||
      s.xlt.locks ≠ [] || s.xlt.invs ≠ [] || s.xlt.invQueue ≠ []
  | 0x06 => s.skk.pending ≠ [] || s.skk.hints ≠ [] || s.skk.placed.any fun e => e.rcl ≠ .none && e.rcl ≠ .failed
  | 0x07 => s.mov.job.any (fun (e : Nat × Job) => e.2.st ≠ .idle) || s.mov.area.any fun (e : Nat × Area) => e.2.clearing
  | 0x08 => s.mov.job.any fun (e : Nat × Job) => e.2.acc ≠ []
  | 0x09 => s.home.line.any fun (e : Nat × Line) => e.2.txn.isSome
  | 0x0A => s.peer.iwin.any fun (e : Nat × WinEntry) => e.2.admitted ≠ 0
  | 0x0B => s.peer.flow.any (fun (e : Nat × Flow) => e.2.out ≠ [] || e.2.wait ≠ []) ||
      s.peer.rx.any (fun (e : Nat × RxFlow) => e.2.pkts.any fun p => p.busy ≠ 0) || s.peer.loop ≠ []
  | 0x0C => s.syn.acts ≠ [] || s.syn.stalled ≠ []
  | 0x0D => s.cht.entry.any (fun (e : Nat × Entry) => e.2.live) || s.cht.view.any fun (e : Nat × ChtView) => e.2.busy
  | 0x0E => s.evc.tgt.any fun (e : Nat × Target) => e.2.req
  | 0x0F => s.arb.req.any fun (e : Nat × ArbReq) => e.2.since.isSome
  | 0x10 => s.ras.scrub.isSome || s.ras.rebuild.isSome || s.ras.repairBusy.isSome || s.ras.copying ≠ []
  | 0x11 => s.twn.failover ≠ .none || s.twn.withdrawing.isSome
  | 0x12 => s.pwr.entering
  | 0x13 => s.prt.part.any fun (e : Nat × Part) => e.2.closing ≠ .none
  | _ => false

/-- A request waits for a resource of the block (R421). Which waits count is the model's reading (log entry 34). -/
def State.stalledPage (s : State) (pg : Nat) : Bool :=
  match pg with
  | 0x04 => s.dbl.chan.any fun (e : Nat × Chan) => e.2.loadWait
  | 0x05 => s.xlt.lookups ≠ [] || s.xlt.missA ≠ [] || s.xlt.missB ≠ []
  | 0x07 => s.mov.job.any fun (e : Nat × Job) => e.2.st = .held
  | 0x09 => s.home.held ≠ [] || s.home.line.any fun (e : Nat × Line) => e.2.parked ≠ [] || e.2.retry ≠ [] || e.2.atomics ≠ []
  | 0x0B => s.peer.flow.any fun (e : Nat × Flow) => e.2.wait ≠ []
  | 0x0C => s.syn.stalled ≠ []
  | 0x0D => s.syn.stalled.any fun x => match x.who with | .plan _ => true | _ => false
  | 0x0F => s.arb.req.any fun (e : Nat × ArbReq) => e.2.since.isSome
  | _ => false

/-- CHT_REC_STALL of each partition counts a hub cycle for each gate that retries for a record
(10_drone_and_chanter.md R226, R238). -/
def State.countGates (s : State) : State :=
  s.syn.stalled.foldl (fun (t : State) x =>
    match x.who with
    | .plan i => t.onChtView (s.entry i).part fun v => { v with recStall := satInc v.recStall }
    | _ => t) s

end Sys2Proof.Machine
end

