-- ==== Sys2Proof/Machine/Clock.lean ====
section
/-! DEFINITION. What one hub cycle does when no command waits (21_register_pages.md R421, R423). -/

namespace Sys2Proof.Machine

/-- A hub cycle of a page's counters (R421). -/
def State.cycleOf (s t : State) (pg : Nat) : State :=
  if s.activePage pg || s.stalledPage pg then
    t.onCount pg fun c => { c with
      active := if s.activePage pg then satInc c.active else c.active, stall := if s.stalledPage pg then satInc c.stall else c.stall }
  else t

/-- ACTIVE_CYCLES and STALL_CYCLES of every page count (R421). -/
def State.countCycle (s : State) : State := (List.range 21).foldl s.cycleOf s

/-- One hub cycle passes: GLB_TIME advances by 1 (R423), and the cycle counters count. -/
def State.hubCycle (s : State) : State :=
  let t := if s.glb.ready && !s.pwr.d3cold then s.countCycle.countGates else s
  t.onGlb fun g => { g with time := g.time + 1 }

end Sys2Proof.Machine
end

