-- ==== Sys2Proof/Machine/Ras.lean ====
section
/-! DEFINITION. Stored-data protection: corrections, uncorrectable words, row remaps, banks and ways retired, the hub store's slots and
rebuilds, scrubs, the repair map and channel map-outs (18_stored_data_protection.md R367 to R388; 15_block_ports.md R343). -/

namespace Sys2Proof.Machine

/-! ## Structures (R370) -/

/-- The structure code of the hub store. -/
def hubStore : Nat := 0x20

/-- A structure code of R370. -/
def structDefined (c : Nat) : Bool := (decide (1 ≤ c) && decide (c ≤ 0x11)) || c = hubStore

/-- The page that counts a structure's corrections and uncorrectable words (21_register_pages.md R421; log entry 33). -/
def structPage (c : Nat) : Nat :=
  match c with
  | 0x02 | 0x08 => pgMOV
  | 0x06 | 0x07 => pgCOH
  | 0x09 => pgPXP
  | 0x0A => pgCTX
  | 0x0B | 0x0E => pgSYN
  | 0x0C => pgCHT
  | 0x0D => pgSKK
  | 0x0F => pgEVC
  | 0x11 | 0x20 => pgRAS
  | _ => pgXLT

/-- The structure has a spare bank (01_hub_architecture.md R22). -/
def hasSpareBank (c : Nat) : Bool := decide (4 ≤ c) && decide (c ≤ 0x0D)

/-- Banks of a structure (01 R22), or ways of a set-associative one. -/
def bankCount (c : Nat) : Nat :=
  match c with
  | 0x08 | 0x09 => 16
  | 0x0A => 4
  | 0x0B | 0x0C | 0x0D => 8
  | _ => 0

/-- REMAINING of a record (R387): banks, ways or slots still in service. -/
def State.remaining (s : State) (str bank : Nat) : Nat :=
  if str = hubStore then 4 - s.ras.lost.length
  else if str = 5 then s.waysLeft 5 bank 8
  else if str = 4 ∨ str = 6 ∨ str = 7 then s.waysLeft str bank 16
  else bankCount str - s.banksLost str

/-! ## Records and counts (R368, R370, R387) -/

/-- A TYPE 0x8 record in partition 0's fault queue (R387). -/
def State.storedRecord (s : State) (event : Nat) (code : Code) (str bank spare mac row loc syndrome slots : Nat) : State :=
  s.fault 8 code 0 5 0 0
    [place str 0 ||| place event 8 ||| place bank 16 ||| place spare 24 ||| place mac 32 ||| place row 48, BitVec.ofNat 64 loc,
     place syndrome 0 ||| place slots 8 ||| place (s.remaining str bank) 32, 0, 0, 0]

/-- A RAS sticky bit. -/
def State.rasFlag (s : State) (b : Nat) (code : Code := 0) : State := s.flag pgRAS 0 b code

/-- A correction is counted and reported (R368). -/
def State.countCe (s : State) (str : Nat) : State :=
  ((((s.onRas fun r => { r with ce := satInc r.ce }).onCount (structPage str) fun c => { c with ce := satInc c.ce }).rasFlag 1).aer 0 .correctedInternal)

/-- An uncorrectable word is counted and recorded (R370, R387), with 0xC1 or, of a mirror checkpoint, with no code (R382; log entry 139). -/
def State.countUe (s : State) (h : ScrubHit) (loc slots : Nat) (code : Code := 0xC1) : State :=
  (((s.onRas fun r => { r with ue := satInc r.ue }).onCount (structPage h.struct_.toNat) fun c => { c with ue := satInc c.ue }).rasFlag 2
    code).storedRecord 2 code h.struct_.toNat h.bank.toNat 0xFF h.mac.toNat h.row.toNat loc h.syndrome.toNat slots

/-! ## What an uncorrectable word costs (R370, R382) -/

/-- An entry of the peer retransmit buffer is lost: its segment fails, and it is not sent again. -/
def State.loseBlock (s : State) (pick : Nat) : State :=
  let of (c : Nat) (u : Unacked) : List (Nat × Unacked × Nat) :=
    (u.p.blocks.filter fun (b : Nat × List Byte) => !bit u.acked b.1).map fun (b : Nat × List Byte) => (c, u, b.1)
  let all := (s.peer.flow.map fun (e : Nat × Flow) => (e.2.out.map fun u => of e.1 u).flatten).flatten
  match all[pick % all.length]? with
  | none => s
  | some (chip, u, k) =>
    let gone (x : Unacked) : Unacked := { x with
      p := { x.p with blocks := x.p.blocks.filter fun (b : Nat × List Byte) => b.1 ≠ k }, acked := x.acked ||| blockBit k }
    let s1 := s.onFlow chip fun f => { f with out := f.out.map fun x => if x.p.h.psn = u.p.h.psn then gone x else x }
    let s2 := match u.for_ with | .mover m urgent => s1.failJob m urgent 0xC1 | _ => s1
    if (gone u).p.blocks = [] then s2.dropPkt chip u.p.h.psn.toNat else s2

/-- An entry of a configuration table is disabled: the ASID table, the profiles, the windows, the routes, the reservation rows, Reed's
credits (R370). -/
def State.disableTable (s : State) (kind i : Nat) : State :=
  match kind with
  | 0 => match s.xlt.binds[i % s.xlt.binds.length]? with
    | some b => s.onXlt fun x => { x with binds := x.binds.filter (·.asid ≠ b.asid) }
    | none => s
  | 1 => s.onXlt fun x => { x with prof := tabPut profDflt x.prof (i % 8) {} }
  | 2 => s.onPeer fun p =>
    let off (e : WinEntry) : WinEntry := { e with w0 := e.w0 &&& 0x7FFFFFFFFFFFFFFF }
    { p with owin := tabMod (fun _ => {}) p.owin (i % 16384) off }
  | 3 => s.onIwin (i % 65536) fun e => { e with
      w0 := e.w0 &&& 0x7FFFFFFFFFFFFFFF, busy := e.busy || (bit e.w0 63 && decide (0 < e.admitted)) }
  | 4 => s.onPeer fun p => { p with route := tabMod (fun _ => 0) p.route (i % 4096) fun (v : Word) => v &&& 0x0FFF0FFF0FFF0FFF }
  | 5 => s.onCht fun c => { c with row := tabMod (fun _ => {}) c.row (i % 512) fun (r : Row) => { r with enabled := false } }
  | 6 => s.onMov fun v => { v with chanCredit := tabPut (fun _ => none) v.chanCredit (i % 376832) (some 0) }
  | _ => s.onMov fun v => { v with partCredit := tabPut (fun _ => none) v.partCredit (i % 1472) (some 0) }

/-- An uncorrectable word of a structure acts as R370 says; `e` is the entry it belongs to. -/
def State.loseWord (s : State) (str bank index e : Nat) : State :=
  match str with
  | 0x01 => s.setEft (e / 128 % 48) (e % 128) {}
  | 0x02 => s.failJob (bank % 48) (e % 2 = 1) 0xC1
  | 0x03 => s.reroot (bank % 64) (some (bank % 64))
  | 0x04 => s.onXlt fun t => { t with l2t := tabDel t.l2t e }
  | 0x05 => s.onXlt fun t => { t with walkc := t.walkc.eraseIdx (e % (t.walkc.length + 1)) }
  | 0x06 =>
    if (s.line e).dc = 1 then s.onLine e fun l => { l with dc := 0, data := 0, poison := false }
    else if (s.line e).dc = 2 then s.onLine e fun l => { l with poison := true }
    else s
  | 0x07 => s.flushSet (e % 131072)
  | 0x08 => s.onMov fun v => { v with lostWords := (e % 2097152) :: v.lostWords.filter (· ≠ e % 2097152) }
  | 0x09 => s.loseBlock e
  | 0x0A => if (s.chan (e % 16384)).cached then s.onChan (e % 16384) fun c => { c with cached := false, loadWait := true } else s
  | 0x0B => s.abandon (e % 65536)
  | 0x0C => s.disarm (e % 65536)
  | 0x0D => s.onSkk fun k => { k with count := tabDel k.count (e % 1048576) }
  | 0x0F =>
    let ns := (Config.wordSources bank index).filter realSourceNum
    let s1 := ns.foldl (fun (t : State) n => t.onSrc n fun x => { x with pending := true }) s
    ns.foldl (fun (t : State) n => t.refresh (t.src n).target.toNat) s1
  | 0x10 => s.disableTable (e % 8) (e / 8)
  | 0x11 =>
    let bs := (List.range 64).map (64 * (index % 32768) + ·)
    s.onRas fun r => { r with valid := bs.foldl insertNat r.valid }
  | _ => s
where
  /-- A source the map does not reserve (16_event_concentrator.md R345). -/
  realSourceNum (n : Nat) : Bool := n = 1 || (decide (0x40 ≤ n) && decide (n < 0x680)) || (decide (0x800 ≤ n) && decide (n < 0x2000))

/-! ## Rows, banks and ways (R371 to R374) -/

/-- Spare rows of a macro in use: the factory's and the field's. -/
def State.sparesUsed (s : State) (r : RowName) : Nat :=
  min 2 (Config.factoryRows r.str r.bank r.mac) +
    (s.ras.remapped.filter fun (x : RowName × Nat) => x.1.str = r.str && x.1.bank = r.bank && x.1.mac = r.mac).length

/-- A row was remapped in this hub cycle: a second trigger that meets it makes no remap (R372). -/
def State.rowJust (s : State) (r : RowName) : Bool := s.ras.rowCopy.any fun x => x.1 = r && x.2 = s.glb.time

/-- A row is being copied into its spare row, in the 64 hub cycles after the remap's own: what reads it waits for the copy, and is judged
against the spare row after it (R372). -/
def State.rowBusy (s : State) (r : RowName) : Bool :=
  s.ras.rowCopy.any fun x => x.1 = r && x.2 ≠ s.glb.time && decide ((s.glb.time - x.2).toNat < 64)

/-- A remap of a row into the macro's next spare row: the copy begins (R372). -/
def State.remapInto (s : State) (r : RowName) : State :=
  (s.onRas fun a => { a with
    remapped := a.remapped ++ [(r, s.sparesUsed r)], repairs := satInc a.repairs
    rowCopy := (r, s.glb.time) :: a.rowCopy.filter fun x => x.1 ≠ r && decide ((s.glb.time - x.2).toNat < 64) }).rasFlag 3

/-- Lines of the directory or the device cache that the lost ways of a bank hold are recalled (R374, R244); those in a transaction follow as
it ends. -/
def State.recallWays (s : State) (str bank : Nat) (all : Bool) : State :=
  let mine (e : Nat × Line) : Bool :=
    (all || s.wayLost str bank (Config.lineWay str e.1)) &&
      (if str = 7 then e.2.entry && dirSet e.1 / 8192 = bank else e.2.dc ≠ 0 && dcSet e.1 / 1024 = bank)
  ((s.home.line.filter mine).foldl (fun (t : State) (e : Nat × Line) =>
    if e.2.txn.isNone then t.recallLine e.1 else t.onLine e.1 fun l => { l with leaves := true }) s).runHome

/-- A bank, or the lost ways of one, give up what they hold before they leave service (R374). -/
def State.emptyBank (s : State) (str bank : Nat) (all : Bool) : State :=
  match str with
  | 0x04 => s.onXlt fun t => { t with
      l2t := t.l2t.filter fun (e : Nat × Option Page) => e.1 / 65536 ≠ bank || (!all && !s.wayLost 4 bank (e.1 % 16)) }
  | 0x05 => s.onXlt fun t => { t with
      walkc := t.walkc.filter fun w => Config.walkBank w.asid % 2 ≠ bank ||
        (!all && !s.wayLost 5 bank (Config.lineWay 5 (w.prefix_ * 8 + w.level))) }
  | 0x06 => s.recallWays 6 bank all
  | 0x07 => s.recallWays 7 bank all
  | _ => s

/-- Capacity that goes with an exhausted macro (R370). -/
def State.shrink (s : State) (r : RowName) : State :=
  match r.str with
  | 0x04 | 0x05 | 0x06 | 0x07 => s.emptyBank r.str r.bank false
  | 0x08 =>
    let top := 256 - 16 * s.banksLost 8
    (List.range 64).foldl (fun (t : State) p =>
      if top < (t.area p).base + (t.area p).size then t.onArea p fun a => { a with size := top - a.base } else t) s
  | 0x0A => s.evictTo (s.contextMax + 1) s.evictable.length
  | 0x0B => ((s.syn.obj.filter fun (e : Nat × Obj) => e.1 / 8192 = r.bank).map (·.1)).foldl (fun t i => t.abandon i) s
  | 0x0C => ((s.cht.entry.filter fun (e : Nat × Entry) => e.1 / 8192 = r.bank).map (·.1)).foldl State.disarm s
  | 0x0D => s.onSkk fun k => { k with count := k.count.filter fun (e : Nat × BitVec 16) => e.1 / 131072 ≠ r.bank }
  | 0x0F =>
    let ns := (List.range 8192).filter fun n => Config.entryMacro 0x0F n = r.bank * 65536 + r.mac
    let s1 := ns.foldl (fun (t : State) n => t.onSrc n fun x => { x with en := false, pending := false }) s
    (List.range 256).foldl State.refresh s1
  | 0x10 =>
    let gone (k : Nat) : Bool := Config.entryMacro 0x10 k = r.bank * 65536 + r.mac
    let bs := (s.xlt.binds.map (·.asid)).filter fun i => gone (bindKey i)
    let fs := (List.range 8).filter fun i => gone (65536 + i)
    let ks := (s.dbl.chan.map fun (e : Nat × Chan) => (List.range 23).map (e.1 * 23 + ·)).flatten.filter fun i => gone (chanCreditKey i)
    let ps := (List.range 1472).filter fun i => gone (partCreditKey i)
    let os := (s.peer.owin.map (·.1)).filter fun i => gone (2 * 65536 + i)
    let is := (s.peer.iwin.map (·.1)).filter fun i => gone (3 * 65536 + i)
    let cs := (s.peer.route.map (·.1)).filter fun i => gone (4 * 65536 + i)
    let rs := (s.cht.row.map (·.1)).filter fun i => gone (5 * 65536 + i)
    let go (t : State) (k : Nat) (is : List Nat) : State := is.foldl (fun (t : State) i => t.disableTable k i) t
    let s1 := s.onXlt fun x => { x with binds := x.binds.filter fun (b : Binding) => !bs.contains b.asid }
    go (go (go (go (go (go (go s1 1 fs) 2 os) 3 is) 4 cs) 5 rs) 6 ks) 7 ps
  | _ => s

/-- A macro has no spare row left (R373): its unit is retired, the spare bank takes over, or capacity shrinks with 0xC2. -/
def State.exhaust (s : State) (r : RowName) (loc syndrome : Nat) : State :=
  let record (t : State) (event : Nat) (code : Code) : State := t.storedRecord event code r.str r.bank 0xFF r.mac r.row loc syndrome 0
  match r.str with
  | 0x01 => s.retireMover (r.bank % 48)
  | 0x02 => s.retireMover (r.bank % 48)
  | 0x03 => s.retireWalker (r.bank % 64)
  | _ =>
    if hasSpareBank r.str && !s.ras.bankUsed.contains r.str then
      record (((s.emptyBank r.str r.bank true).onRas fun a => { a with
        bankUsed := r.str :: a.bankUsed
        copying := if r.str < 8 then a.copying else (r.str, r.bank) :: a.copying.filter (· ≠ (r.str, r.bank))
        remapped := a.remapped.filter fun (x : RowName × Nat) => !(x.1.str = r.str && x.1.bank = r.bank) }).unitRetired (structPage r.str))
        3 0
    else
      let key := (r.str, r.bank * 65536 + r.mac)
      let known : Bool := if bankCount r.str = 0 then s.ras.lostCap.contains key else s.bankLost r.str r.bank
      if known then s
      else
        let s1 := (s.onRas fun a => { a with lostCap := key :: a.lostCap }).shrink r
        record ((s1.unitRetired (structPage r.str)).rasFlag 4 0xC2) 4 0xC2

/-- A row is to be remapped (R371 to R373): once in a hub cycle. -/
def State.remapRow (s : State) (r : RowName) (loc syndrome : Nat) : State :=
  let n := s.sparesUsed r
  if s.rowJust r then s else
  let s0 := s.onRas fun a => { a with ceRows := a.ceRows.filter fun (x : RowName × Word) => x.1 ≠ r }
  if n < 2 then (s0.remapInto r).storedRecord 1 0 r.str r.bank n r.mac r.row loc syndrome 0 else s0.exhaust r loc syndrome

/-- The row of a word. -/
def rowOf (h : ScrubHit) : RowName := { str := h.struct_.toNat, bank := h.bank.toNat, mac := h.mac.toNat, row := h.row.toNat }

/-- A row gives a corrected error (R371): within the window of its previous one it is remapped; else it is tracked, among 256. -/
def State.trackRow (s : State) (h : ScrubHit) : State :=
  let r := rowOf h
  match s.ras.ceRows.find? fun (x : RowName × Word) => x.1 = r with
  | some (_, t) =>
    if s.glb.time.toNat - t.toNat ≤ s.ras.ceWindow.toNat * Config.usCycles then s.remapRow r h.index.toNat h.syndrome.toNat
    else s.onRas fun a => { a with ceRows := (r, s.glb.time) :: a.ceRows.filter fun (x : RowName × Word) => x.1 ≠ r }
  | none => s.onRas fun a => { a with ceRows := ((r, s.glb.time) :: a.ceRows).take 256 }

/-- BANK_COPY_DONE (R374): the copy into the spare bank has finished, and what waited for the bank goes on. -/
def State.bankCopyDone (s : State) (str : Nat) : State :=
  let s1 := s.onRas fun r => { r with copying := r.copying.filter (·.1 ≠ str) }
  let waits (e : Nat × Chan) : Bool := e.2.st = .active && s.bankCopies 0x0A (Config.ctxBank e.1)
  if str = 0x0A then ((s.dbl.chan.filter waits).map (·.1)).foldl State.runFetch s1 else s1

/-! ## Lost slots and rebuilds (R379 to R381) -/

/-- A stack has a channel mapped out, or on its way out (R343, R380). -/
def State.stackOut (s : State) (k : Nat) : Bool :=
  s.skk.mapped.any (·.1 = k) || s.skk.mapEarly.any (·.1 = k) || s.skk.mapReq.any (·.1 = k)

/-- The standby stacks that may take a slot (R380). -/
def State.candidates (s : State) : List Nat :=
  (List.range 8).filter fun k => !(List.range 4).any (fun i => s.slotStack i = k) && !s.ras.retiredStacks.contains k && !s.stackOut k
    && !s.ras.rebuild.any (·.target = k)

/-- The stack a rebuild writes: the lowest candidate under no thermal notice, else the lowest (R380). -/
def State.rebuildTarget (s : State) : Option Nat :=
  (s.candidates.find? fun k => !bit s.skk.thermal k).or s.candidates.head?

/-- A slot's rebuild starts, or waits for the one in progress (R380, R381). -/
def State.startRebuild (s : State) (slot : Nat) : State :=
  match s.ras.rebuild with
  | some r =>
    if r.slot = slot || s.ras.rebuildNext.contains slot then s else s.onRas fun a => { a with rebuildNext := a.rebuildNext ++ [slot] }
  | none => match s.rebuildTarget with
    | none => s
    | some t => s.onRas fun a => { a with rebuild := some { slot := slot, target := t } }

/-- A slot is declared lost (R379). -/
def State.declareLost (s : State) (slot : Nat) : State :=
  if s.ras.lost.contains slot then s
  else
    let s1 := (s.onRas fun a => { a with lost := slot :: a.lost, run := tabPut (fun _ => 0) a.run slot 0 }).rasFlag 6
    let s2 := s1.storedRecord 5 0 hubStore (s1.slotStack slot) 0xFF 0 0 0 0 s1.lostMask
    let s3 := if s2.ras.lost.length = 2 then
        (s2.rasFlag 7 0xC1).storedRecord 7 0xC1 hubStore (s1.slotStack slot) 0xFF 0 0 0 0 s1.lostMask
      else s2
    if s3.ras.autoRebuild then s3.startRebuild slot else s3

/-- A block of the hub store has been read, and needed correction or erasure in the slots `ks` (R379): the run of each of them that is not lost
goes on, and every other run ends; a run of RAS_LOSS_RUN blocks loses its slot. -/
def State.slotRuns (s : State) (ks : List Nat) : State :=
  let on := (List.range 4).filter fun k => ks.contains k && !s.ras.lost.contains k
  let n (k : Nat) : Nat := tabGet (fun _ => 0) s.ras.run k + 1
  let s1 := s.onRas fun r => { r with run := on.foldl (fun (t : Tab Nat) k => tabPut (fun _ => 0) t k (n k)) [] }
  (on.filter fun k => decide (max 1 s.ras.lossRun.toNat ≤ n k)).foldl State.declareLost s1

/-- Reed lets the hub's own Bulk traffic run, charged to partition 0 (R380, R383; 06_movers.md R138): its credits, and the room that the
reservations leave. -/
def State.storePaced (s : State) (paths : List (Nat × Nat)) : Bool :=
  paths.all fun x => decide (tabGet (fun _ => 0) s.mov.slotBytes x.1 + s.reserved x.1 none + x.2 ≤ pathCap x.1)
    && s.creditOk false (s.partCredit 0 x.1) x.2

/-- Partition 0's Reed credits are charged (R380, R383). -/
def State.chargeZero (s : State) (path bytes : Nat) : State :=
  s.onMov fun v => { v with
    slotBytes := tabMod (fun _ => 0) v.slotBytes path (· + bytes)
    partCredit := tabPut (fun _ => none) v.partCredit path (some (s.partCredit 0 path - bytes)) }

/-- Bytes that a read of a block takes from the slots that serve. -/
def State.storeReadBytes (s : State) : Nat := 32 * (4 - s.ras.lost.length)

/-- REBUILD_BLOCK (R380, R381): the next written block is read, copied or solved, and written into the target, once Reed lets it; what waited
for the block goes on. -/
def State.rebuildBlock (s : State) : State :=
  match s.ras.rebuild with
  | none => s
  | some r => match s.nextBlock r.p with
    | none => s
    | some b =>
      let read := if s.ras.lost.contains r.slot then s.storeReadBytes else 32
      if !s.storePaced [(8, read), (9, 32)] then s
      else
        let s1 := (((s.onRas fun a => { a with rebuild := some { r with p := b + 1 } }).chargeZero 8 read).chargeZero 9 32).emit (.hubStore false b)
        (s1.emit (.storeCopy r.slot r.target (s.storeAddr r.target (32 * b)))).releaseStores b

/-- The rebuilds that wait go on; a slot of a stack that is being mapped out, with no candidate, is lost (R380). `fuel` bounds them. -/
def State.nextRebuild (s : State) : Nat → State
  | 0 => s
  | fuel + 1 => match s.ras.rebuildNext with
    | [] => s
    | k :: rest =>
      let s1 := (s.onRas fun a => { a with rebuildNext := rest }).startRebuild k
      if s1.ras.rebuild.isSome then s1
      else (if s1.skk.mapReq.any (·.1 = s1.slotStack k) then s1.declareLost k else s1).nextRebuild fuel

/-- REBUILD_DONE (R380): RAS_HS_SLOTS names the target, and the old stack is a candidate no more. -/
def State.rebuildDone (s : State) : State :=
  match s.ras.rebuild with
  | none => s
  | some r =>
    if (s.nextBlock r.p).isSome then s
    else
      let old := s.slotStack r.slot
      let slots := (s.ras.hsSlots &&& ~~~(place 7 (8 * r.slot))) ||| place (r.target % 8) (8 * r.slot)
      let s1 := (s.onRas fun a => { a with
        hsSlots := slots, retiredStacks := old :: a.retiredStacks, lost := a.lost.filter (· ≠ r.slot), rebuild := none }).rasFlag 8
      (s1.storedRecord 6 0 hubStore r.target 0xFF 0 0 0 0 s1.lostMask).nextRebuild 4

/-! ## Reading a word or a block (R367 to R371, R377, R379, R382) -/

/-- What the read of a word or a block has given: nothing to correct, a correction, or what cannot be corrected. -/
inductive ScrubOut where
  | clean
  | corrected (h : ScrubHit)
  | uncorrectable (h : ScrubHit)
deriving DecidableEq, Repr

/-- The bits set in a syndrome. -/
def synWeight (v : Byte) : Nat := ((List.range 8).filter fun k => v.getLsbD k).length

/-- A syndrome equals one column of the code, and so names the bit to correct (R367): every column has odd weight, and those of the check bits are
the units (DEDUCED from R369; log entry 139). -/
def synColumn (v : Byte) : Bool := synWeight v = 1 || (synWeight v % 2 = 1 && Config.hsiaoColumn v)

/-- The key of a word's mark. -/
def markKey (h : ScrubHit) : Nat × Nat × Nat := (h.struct_.toNat, h.bank.toNat, h.index.toNat)

/-- A word is marked lost (R369): one of staging SRAM until its bytes are written. -/
def State.markedLost (s : State) (h : ScrubHit) : Bool :=
  if h.struct_ = 8 then s.mov.lostWords.contains (h.index.toNat % 2097152) else s.ras.lostMarks.contains (markKey h)

/-- A whole-word write has replaced a word (R369). -/
def State.wordWritten (s : State) (h : ScrubHit) : State := s.onRas fun r => { r with lostMarks := r.lostMarks.filter (· ≠ markKey h) }

/-- An uncorrectable word is marked lost (R369, R370). -/
def State.markLost (s : State) (h : ScrubHit) : State :=
  if h.struct_ = 8 then s else s.onRas fun r => { r with lostMarks := (markKey h) :: r.lostMarks.filter (· ≠ markKey h) }

/-- What an array word gives (R367, R369): a word marked lost has the syndrome 0xFF. -/
def State.wordOutcome (s : State) (h : ScrubHit) : ScrubOut :=
  let h1 := if s.markedLost h then { h with syndrome := 0xFF } else h
  if h1.syndrome = 0 then .clean else if synColumn h1.syndrome then .corrected h1 else .uncorrectable h1

/-- What an uncorrectable hub-store block costs, and the location its record names (R382, R387). -/
def State.loseStored (s : State) (b : Nat) : Nat × State :=
  match Config.storeUse b with
  | 1 => (b, s.disarm (Config.storeItem b % 65536))
  | 2 =>
    let f := Config.storeItem b
    ((frameAddr f).toNat, match s.skk.placed.find? (·.frame = f) with
      | some e => s.onSkk fun k => { k with lostFrames := (e.part, f) :: k.lostFrames.filter (·.2 ≠ f) }
      | none => s)
  | _ => (b, s)

/-- A slot's piece of a block is an erasure: the slot is lost, or its channel was removed early (R379; 15_block_ports.md R343). -/
def State.erasedSlots (s : State) (b : Nat) : List Nat := (List.range 4).filter fun k => s.ras.lost.contains k || s.slotRemoved k b

/-- The bits of a list of slots. -/
def slotBits (ks : List Nat) : BitVec 4 := ks.foldl (fun m k => m ||| BitVec.ofNat 4 (2 ^ k)) 0

/-- The slots whose bits are set. -/
def slotList (v : BitVec 4) : List Nat := (List.range 4).filter fun k => v.getLsbD k

/-- The outcome of a read of hub-store block `b` (R377, R379): with three slots lost every read gives 0xC1 (01_hub_architecture.md R27). What is
solved from lost slots alone needs no correction (log entry 139). -/
def State.storeOutcome (s : State) (b : Nat) (p : Pieces) : ScrubOut :=
  let hit (ks : BitVec 4) : ScrubHit := { struct_ := BitVec.ofNat 8 hubStore, bank := 0, mac := 0, row := 0, index := BitVec.ofNat 32 b, syndrome := 0, slots := ks }
  let lost := s.erasedSlots b
  if 3 ≤ lost.length then .uncorrectable (hit (slotBits lost))
  else match decodeBlock lost (pieceOf p) with
    | none => .uncorrectable (hit (slotBits (lost ++ (List.range 4).filter fun k => (pieceOf p k).isNone)))
    | some (ks, _) => if ks.all fun k => s.ras.lost.contains k then .clean else .corrected (hit (slotBits ks))

/-- The slots of block `b` whose pieces are written back: those that were corrected or solved, and serve (R377). -/
def State.mends (s : State) (b : Nat) (p : Pieces) : List (Nat × List Byte) :=
  match decodeBlock (s.erasedSlots b) (pieceOf p) with
  | none => []
  | some (ks, bs) => ks.filterMap fun k => (s.slotTarget k b).map fun stack => (stack, slotPiece k fun i => bs.getD i 0)

/-- The pieces of a block's slots that were corrected are written back (R377). -/
def State.storeMend (s : State) (b : Nat) (p : Pieces) : State :=
  (s.mends b p).foldl (fun (t : State) x => t.emit (.storePiece x.1 (s.storeAddr x.1 (32 * b)) x.2)) s

/-- An array word has been read with an outcome (R368, R370, R371). -/
def State.wordRead (s : State) (r : ScrubOut) : State :=
  match r with
  | .clean => s
  | .corrected h => (s.countCe h.struct_.toNat).trackRow h
  | .uncorrectable h =>
    let i := h.index.toNat
    let s1 := ((s.countUe h i 0).markLost h).loseWord h.struct_.toNat h.bank.toNat i (Config.wordEntry h.struct_.toNat h.bank.toNat i)
    s1.remapRow (rowOf h) i h.syndrome.toNat

/-- Hub-store block `b` has been read with an outcome (R377, R379, R382). -/
def State.storeRead (s : State) (b : Nat) (r : ScrubOut) : State :=
  match r with
  | .clean => s.slotRuns []
  | .corrected h => (s.countCe hubStore).slotRuns (slotList h.slots)
  | .uncorrectable h =>
    let (loc, s1) := s.loseStored b
    (s1.slotRuns (slotList h.slots)).countUe h loc (s1.lostMask ||| h.slots.toNat) (if Config.storeUse b = 3 then 0 else 0xC1)

/-- Hub-store block `b` is read: one not written gives zeros, with no access to device memory (R378). -/
def State.readBlock (s : State) (b : Nat) (p : Pieces) : State :=
  if s.ras.valid.contains b then ((s.emit (.hubStore false b)).storeMend b p).storeRead b (s.storeOutcome b p) else s

/-- A copy of the first 256 bytes of a context can be read: four blocks from `b`, whose pieces start at `at_` (R382). -/
def State.copyGood (s : State) (b : Nat) (ps : List Pieces) (at_ : Nat) : Bool :=
  (List.range 4).all fun k => !s.ras.valid.contains (b + at_ + k) ||
    (match s.storeOutcome (b + at_ + k) (ps.getD (at_ + k) {}) with | .uncorrectable _ => false | _ => true)

/-- A waiting context is loaded from its 16 blocks (R28), which give `ps`; when both copies of its first 256 bytes fail the channel halts in ERROR
with 0xC1, and so it does at each later load (R382). It waits for a block that a rebuild is at, and for a bank that is being copied (R374,
R381). -/
def State.contextLoad (s : State) (slot : Nat) (ps : List Pieces) : State :=
  let c := s.chan slot
  let b := Config.contextBlock slot
  if !c.loadWait || !s.canPlace || s.bankCopies 0x0A (Config.ctxBank slot) || (List.range 16).any (fun k => s.atRebuild (b + k)) then s
  else
    let good := s.copyGood b ps 0 || s.copyGood b ps (4 * (1 + Config.ctxCopy % 3))
    let s1 := (List.range 16).foldl (fun (t : State) k => t.readBlock (b + k) (ps.getD k {})) (s.ops pgCTX 1)
    if good && !c.ctxLost then (s1.placeContext slot).runFetch slot
    else ((s1.onChan slot fun c => { c with ctxLost := true, loadWait := false }).flag pgCTX c.part 1 0xC1).haltError slot 0xC1
      (c.f.setWidth 16) false

/-! ## Scrubs (R383 to R385) -/

/-- An outcome of a scrub is counted in it (R383). -/
def Scrub.count (x : Scrub) (r : ScrubOut) : Scrub :=
  match r with
  | .clean => x
  | .corrected _ => { x with ce := x.ce + 1 }
  | .uncorrectable _ => { x with ue := x.ue + 1, first := x.first.or (some x.at_) }

/-- What is read next is of a structure, and is read: a block is not where a rebuild is (R381), a word's row is not being copied (R372). -/
def State.scrubCan (s : State) (r : ScrubIn) (str at_ : Nat) : Bool :=
  match r with
  | .word h _ => h.struct_.toNat = str && str ≠ hubStore && h.index.toNat = at_ && !s.rowBusy (rowOf h)
  | .block _ => str = hubStore && !s.atRebuild at_

/-- A word, or block `b`, is read by a scrub: its outcome, and the state after it. -/
def State.scrubRead (s : State) (r : ScrubIn) (b : Nat) : ScrubOut × State :=
  match r with
  | .word h written =>
    let s1 := if written then s.wordWritten h else s
    (s1.wordOutcome h, s1.wordRead (s1.wordOutcome h))
  | .block p => (s.storeOutcome b p, s.readBlock b p)

/-- The bytes of device memory that a scrub reads and writes back, by path (R383). -/
def State.scrubPaths (s : State) (r : ScrubIn) (b : Nat) : List (Nat × Nat) :=
  match r with
  | .word .. => []
  | .block p => [(8, s.storeReadBytes), (9, 32 * (s.mends b p).length)]

/-- SCRUB_START (R383): RAS_SCRUB_CMD. -/
def State.scrubStart (s : State) (v : Word) : State :=
  let str := field v 15 8
  if s.ras.scrub.isSome then s.rasFlag 12
  else if bit v 0 && structDefined str then
    s.onRas fun r => { r with scrub := some { str := str, at_ := r.scrubBase.toNat, last := r.scrubLimit.toNat } }
  else s

/-- The block or word a scrub reads next: unwritten hub-store blocks are skipped (R385). -/
def State.scrubNext (s : State) (x : Scrub) : Option Nat :=
  let k := if x.str = hubStore then s.nextBlock x.at_ else some x.at_
  k.filter fun k => decide (k ≤ x.last)

/-- RANGE_SCRUB_BLOCK (R383): the next block or word, once Reed lets it. -/
def State.scrubBlock (s : State) (r : ScrubIn) : State :=
  match s.ras.scrub with
  | none => s
  | some x => match s.scrubNext x with
    | none => s
    | some k =>
      if !s.scrubCan r x.str k || !s.storePaced (s.scrubPaths r k) then s
      else
        let o := s.scrubRead r k
        let s1 := o.2.onRas fun a => { a with scrub := some { ({ x with at_ := k }).count o.1 with at_ := k + 1 } }
        ((s.scrubPaths r k).foldl (fun (t : State) y => t.chargeZero y.1 y.2) s1).ops pgRAS 1

/-- SCRUB_DONE (R383). -/
def State.scrubDone (s : State) : State :=
  match s.ras.scrub with
  | none => s
  | some x =>
    if (s.scrubNext x).isSome then s
    else (s.onRas fun r => { r with
      scrub := none, scrubSum := place 1 63 ||| place (min 0xFFFFFF x.ue) 32 ||| place (min 0xFFFFFF x.ce) 0
      scrubFirst := match x.first with | some k => place 1 63 ||| place (k % 4294967296) 0 | none => 0 }).rasFlag 9

/-- The background walker holds: an entry is armed, or the hub is in Nap or Hibernate (R384; 19_power_reset_and_bringup.md R392). -/
def State.bgHolds (s : State) : Bool := s.anyArmed || s.pwr.st = .nap || s.pwr.st = .hibernate

/-- The background walker reads what it comes to next, in structure-code order: an array word, or after those the hub-store block `b`, unless that
read waits. -/
def State.bgCan (s : State) (r : ScrubIn) (b : Nat) : Bool :=
  match r with
  | .word h _ => decide (s.ras.bgAt < Config.arrayWords) && structDefined h.struct_.toNat && h.struct_.toNat ≠ hubStore &&
    decide (s.ras.bgStr ≤ h.struct_.toNat) && !s.rowBusy (rowOf h)
  | .block _ => decide (Config.arrayWords ≤ s.ras.bgAt) && s.ras.valid.contains b && !s.atRebuild b

/-- BACKGROUND_SCRUB (R384): the next word or block; at the end of a pass with ONCE, EN clears. -/
def State.bgScrub (s : State) (r : ScrubIn) : State :=
  let b := s.ras.valid.getD (s.ras.bgAt - Config.arrayWords) 0
  let none_ : Bool := decide (Config.arrayWords + s.ras.valid.length ≤ s.ras.bgAt)
  if !s.ras.bgEn || s.bgHolds || !(none_ || s.bgCan r b) then s
  else
    let next := s.ras.bgAt + 1
    let ends := decide (Config.arrayWords + s.ras.valid.length ≤ next)
    ((if none_ then s else (s.scrubRead r b).2).onRas fun a => { a with
      bgAt := if ends then 0 else next, bgStr := if ends then 0 else match r with | .word h _ => h.struct_.toNat | .block _ => hubStore
      bgEn := a.bgEn && !(ends && a.bgOnce) }).ops pgRAS 1

/-! ## The repair map (R386) -/

/-- REPAIR_LOAD: RAS_REPAIR_CMD. -/
def State.repairLoad (s : State) (v : Word) : State :=
  let n := field v 12 0
  if s.ras.repairBusy.isSome || !bit v 63 || n = 0 || decide (4096 < n) then s
  else
    let base := s.ras.repairBase &&& 0xFFFFFFFFFFFFFFF8
    let s1 := s.onRas fun r => { r with repairFail := false, repairSkip := 0, repairDone := 0 }
    if s.inRange 0 0 base (8 * n) && s.masterEnabled 0 then
      (s1.onRas fun r => { r with repairBusy := some n, repairAt := base, repairLines := [], repairEnd := none }).repairAsk 0
    else s1.onRas fun r => { r with repairFail := true }

/-- An entry of the map is applied, or skipped. -/
def State.repairEntry (s : State) (e : Word) : State :=
  let r : RowName := { str := field e 63 56, bank := field e 55 48, mac := field e 47 32, row := field e 31 16 }
  if !structDefined r.str || s.ras.remapped.any (fun (x : RowName × Nat) => x.1 = r) || decide (2 ≤ s.sparesUsed r) then
    (s.onRas fun a => { a with repairSkip := a.repairSkip + 1 }).rasFlag 10
  else (s.remapInto r).onRas fun a => { a with repairDone := a.repairDone + 1 }

/-- REPAIR_READ_DONE: the map is applied once all of it has been read; a failed read ends the load with READ_FAIL. -/
def State.repairRead (s : State) : State :=
  match s.ras.repairBusy, s.ras.repairEnd with
  | some n, some ok =>
    let s1 := s.onRas fun r => { r with repairBusy := none, repairLines := [], repairEnd := none }
    if ok then (s.ras.repairWords n).foldl State.repairEntry s1 else s1.onRas fun r => { r with repairFail := true }
  | _, _ => s

/-! ## Map-outs (15_block_ports.md R343; R117, R380) -/

/-- A placement whose frame is leaving and whose copy has not started takes another (R116, R117). -/
def State.leaveFrame (s : State) (e : Pending) : State :=
  if s.frameLeaves e.frame && (e.st = .reading || e.st = .asked || e.st = .draining || e.st = .rereading) then
    match (s.freeFrame e.part).1 with
    | some f => s.onPend e.ticket fun e => { e with frame := f }
    | none => s
  else s

/-- MAPOUT_REQUEST: regions placed in the channel are recalled, and a slot of its stack is rebuilt, or declared lost. -/
def State.mapoutRequest (s : State) (stack chan : Nat) : State :=
  if s.skk.mapReq.isSome then s
  else
    let s1 := (s.onSkk fun k => { k with mapReq := some (stack, chan) }).recallChannel stack chan
    let s2 := s1.skk.pending.foldl State.leaveFrame s1
    ((List.range 4).filter fun k => s2.slotStack k = stack && !s2.ras.lost.contains k).foldl (fun (t : State) k =>
      if t.ras.rebuild.isNone && t.rebuildTarget.isNone then t.declareLost k else t.startRebuild k) s2

/-- A map-out may be acknowledged: no region is placed in the channel, and no slot that still serves is in its stack. -/
def State.mapoutReady (s : State) (c : Nat × Nat) : Bool :=
  let in_ (f : Nat) : Bool := frameStack f = c.1 && (Config.frameChan f).val = c.2
  !s.skk.placed.any (fun e => in_ e.frame) && !s.skk.pending.any (fun e => in_ e.frame) &&
    (List.range 4).all fun k => s.slotStack k ≠ c.1 || s.ras.lost.contains k

/-- MAPOUT_ACK: mc_mapout_ack rises. -/
def State.mapoutAck (s : State) : State :=
  match s.skk.mapReq with
  | none => s
  | some c =>
    if !s.skk.mapAck && s.mapoutReady c then
      (s.onSkk fun k => { k with mapAck := true, mapped := k.mapped ++ [c] }).emit (.mapoutAck true)
    else s

/-- MAPOUT_REQ_FALL: the acknowledgment falls; a request withdrawn before it took the channel early. -/
def State.mapoutFall (s : State) : State :=
  match s.skk.mapReq with
  | none => s
  | some c =>
    let s1 := s.onSkk fun k => { k with mapReq := none }
    if s.skk.mapAck then (s1.onSkk fun k => { k with mapAck := false }).emit (.mapoutAck false)
    else (s1.onSkk fun k => { k with mapEarly := k.mapEarly ++ [c] }).flag pgGLB 0 7 0 33

/-! ## Register writes (R388) -/

/-- RAS_HS_BASE, or RAS_HS_SLOTS, is written: only while the valid-bit map is empty. -/
def State.writeStore (s : State) (f : Ras → Ras) : State := if s.ras.valid = [] then s.onRas f else s.rasFlag 11

/-- RAS_HS_CMD. -/
def State.storeCommand (s : State) (v : Word) : State :=
  match field v 1 0 with
  | 1 => s.declareLost (field v 5 4)
  | 2 => s.startRebuild (field v 5 4)
  | _ => s

end Sys2Proof.Machine
end

