-- ==== Sys2Proof/Machine/RunChannels.lean ====
section
/-! DEFINITION. The meanings of the commands on channels, and of the dispatch of a channel's next command
(02_channels_and_doorbells.md; 03_command_set.md). -/

namespace Sys2Proof.Machine

/-! ## Management descriptors -/

/-- MGMT_SUBMIT (R29). -/
def execMgmtSubmit (fn : Fn) (v : Word) (s : State) : Host.Outcome State Fault Refusal :=
  .next (s.viewed fn.toNat fun s => s.mgmtSubmit fn.toNat v)
/-- CREATE (R31). -/
def execCreate (fn : Fn) (s : State) : Host.Outcome State Fault Refusal :=
  .next (s.within fun s => s.mgmtRun fn.toNat (fun o => o = 1) fun t ev d => t.mgmtCreate fn.toNat ev d)
/-- DESTROY (R37). -/
def execDestroy (fn : Fn) (s : State) : Host.Outcome State Fault Refusal :=
  .next (s.within fun s => s.mgmtRun fn.toNat (fun o => o = 2) fun t ev d => t.mgmtDestroy fn.toNat ev d)
/-- RESET (R41). -/
def execReset (fn : Fn) (s : State) : Host.Outcome State Fault Refusal :=
  .next (s.within fun s => s.mgmtRun fn.toNat (fun o => o = 3) fun t ev d => t.mgmtReset fn.toNat ev d)
/-- KILL (R38). -/
def execKill (fn : Fn) (s : State) : Host.Outcome State Fault Refusal :=
  .next (s.within fun s => s.mgmtRun fn.toNat (fun o => o = 4) fun t ev d => t.mgmtKill fn.toNat ev d)
/-- MODIFY (R36). -/
def execModify (fn : Fn) (s : State) : Host.Outcome State Fault Refusal :=
  .next (s.within fun s => s.mgmtRun fn.toNat (fun o => o = 5) fun t ev d => t.mgmtModify fn.toNat ev d)
/-- BAD_OP: an undefined OP (R30). -/
def execBadOp (fn : Fn) (s : State) : Host.Outcome State Fault Refusal :=
  .next (s.within fun s => s.mgmtRun fn.toNat (fun o => decide (o < 1 ∨ 5 < o))
    fun t ev d => t.mgmtFail fn.toNat ev 5 0 (d.w08.setWidth 32))
/-- MGMT_RESULT_OBSERVED (R29). -/
def execMgmtResultObserved (fn : Fn) (s : State) : Host.Outcome State Fault Refusal :=
  .next (s.arrives fun s => s.mgmtObserved fn.toNat)
/-- CONTEXT_WRITTEN (R34). -/
def execContextWritten (slot : Slot) (ok : Bool) (s : State) : Host.Outcome State Fault Refusal :=
  .next (s.within fun s => s.contextWritten slot.toNat ok)
/-- RETIRE_DRAINED (R37). -/
def execRetireDrained (slot : Slot) (s : State) : Host.Outcome State Fault Refusal :=
  .next (s.within fun s => s.retireDrained slot.toNat)
/-- RETIRE_LIMIT_EXPIRED (R37). -/
def execRetireLimitExpired (slot : Slot) (s : State) : Host.Outcome State Fault Refusal :=
  .next (s.arrives fun s => s.retireExpired slot.toNat)
/-- CONTEXT_LOAD (R28). -/
def execContextLoad (slot : Slot) (ok : List Pieces) (s : State) : Host.Outcome State Fault Refusal :=
  .next (s.within fun s => s.contextLoad slot.toNat ok)

/-! ## Doorbell pages -/

/-- The home's answer to the read of a ring slot is taken, when there is one of the kind the row names: the slot's bytes, or a failure (R44,
R427; log entry 98). -/
def State.ringAnswer (s : State) (slot : Nat) (pos : BitVec 32) (ok : Bool) : State :=
  let c := s.chan slot
  let u (e : Engine) : UnitFor := .ringRead e slot pos c.fetchNo
  match [Engine.A, Engine.B].find? fun e => (s.partAns? c.part (u e)).isSome with
  | none => s
  | some e => match s.partAns? c.part (u e) with
    | none => s
    | some (code, g) => if decide (code = 0) = ok then (s.takeFor c.part (u e)).slotArrived slot pos g code else s

/-- DB_TAIL (R47): GENERATION in [31:24], the tail in [16:0]. -/
def execDbTail (fn : Fn) (slot : Slot) (v : Word) (s : State) : Host.Outcome State Fault Refusal :=
  .next (s.viewed fn.toNat fun s => s.doorbell fn.toNat slot.toNat (v.extractLsb' 24 8) (s.tailWrite slot.toNat (field v 16 0)).2)
/-- HALT (R426). -/
def execHalt (fn : Fn) (slot : Slot) (gen : Byte) (s : State) : Host.Outcome State Fault Refusal :=
  .next (s.viewed fn.toNat fun s => s.dbCtl fn.toNat slot.toNat gen (s.haltChan slot.toNat))
/-- STOP (R143, R426). -/
def execStop (fn : Fn) (slot : Slot) (gen : Byte) (s : State) : Host.Outcome State Fault Refusal :=
  .next (s.viewed fn.toNat fun s => s.dbCtl fn.toNat slot.toNat gen (s.stopChan slot.toNat))
/-- RESUME (R39). -/
def execResume (fn : Fn) (slot : Slot) (gen : Byte) (s : State) : Host.Outcome State Fault Refusal :=
  .next (s.viewed fn.toNat fun s => s.dbCtl fn.toNat slot.toNat gen (s.resumeChan slot.toNat))
/-- DB_INLINE (R49). -/
def execDbInline (fn : Fn) (slot : Slot) (off : BitVec 12) (len : Nat) (allBytes : Bool) (data : List Granule) (s : State) :
    Host.Outcome State Fault Refusal :=
  .next (s.viewed fn.toNat fun s => (s.bytes pgHLK len).inlineWrite fn.toNat slot.toNat off.toNat len allBytes data)
/-- RING_SLOT_RETURN (R44). -/
def execRingSlotReturn (slot : Slot) (pos : BitVec 32) (s : State) : Host.Outcome State Fault Refusal :=
  .next (s.arrives fun s => s.ringAnswer slot.toNat pos true)
/-- RING_REREAD (R44). -/
def execRingReread (slot : Slot) (s : State) : Host.Outcome State Fault Refusal :=
  .next (s.within fun s => s.ringReread slot.toNat)
/-- RING_READ_FAIL (R427). -/
def execRingReadFail (slot : Slot) (pos : BitVec 32) (s : State) : Host.Outcome State Fault Refusal :=
  .next (s.arrives fun s => s.ringAnswer slot.toNat pos false)

/-! ## Dispatch -/

/-- COPY (R59). -/
def execCopy (slot : Slot) (s : State) : Host.Outcome State Fault Refusal :=
  .next (s.within fun s => s.dispatch slot.toNat 0x01 fun t x => t.dispatchData slot.toNat x)
/-- COPY_CONVERT (R61). -/
def execCopyConvert (slot : Slot) (s : State) : Host.Outcome State Fault Refusal :=
  .next (s.within fun s => s.dispatch slot.toNat 0x02 fun t x => t.dispatchData slot.toNat x)
/-- FILL (R60). -/
def execFill (slot : Slot) (s : State) : Host.Outcome State Fault Refusal :=
  .next (s.within fun s => s.dispatch slot.toNat 0x03 fun t x => t.dispatchData slot.toNat x)
/-- INLINE_WRITE (R64). -/
def execInlineWrite (slot : Slot) (s : State) : Host.Outcome State Fault Refusal :=
  .next (s.within fun s => s.dispatch slot.toNat 0x04 fun t x => t.dispatchData slot.toNat x)
/-- REDUCE_PUT (R63). -/
def execReducePut (slot : Slot) (s : State) : Host.Outcome State Fault Refusal :=
  .next (s.within fun s => s.dispatch slot.toNat 0x05 fun t x => t.dispatchData slot.toNat x)
/-- FENCE (R77). -/
def execFence (slot : Slot) (s : State) : Host.Outcome State Fault Refusal :=
  .next (s.within fun s => s.dispatch slot.toNat 0x08 fun t x => t.dispatchFence slot.toNat x)
/-- SIGNAL (R66). -/
def execSignal (slot : Slot) (s : State) : Host.Outcome State Fault Refusal :=
  .next (s.within fun s => s.dispatch slot.toNat 0x09 fun t x => t.dispatchSignal slot.toNat x)
/-- WAIT (R67). -/
def execWait (slot : Slot) (s : State) : Host.Outcome State Fault Refusal :=
  .next (s.within fun s => s.dispatch slot.toNat 0x0A fun t x => t.dispatchWait slot.toNat x)
/-- ATOMIC (R69). -/
def execAtomic (slot : Slot) (s : State) : Host.Outcome State Fault Refusal :=
  .next (s.within fun s => s.dispatch slot.toNat 0x0B fun t x => t.dispatchAtomic slot.toNat x)
/-- NOP (R72). -/
def execNop (slot : Slot) (s : State) : Host.Outcome State Fault Refusal :=
  .next (s.within fun s => s.dispatch slot.toNat 0x0F fun t x => t.dispatchNop slot.toNat x)
/-- MIGRATE_HINT (R70). -/
def execMigrateHint (slot : Slot) (s : State) : Host.Outcome State Fault Refusal :=
  .next (s.within fun s => s.dispatch slot.toNat 0x10 fun t x => t.dispatchHint slot.toNat x)
/-- TIMESTAMP (R65). -/
def execTimestamp (slot : Slot) (s : State) : Host.Outcome State Fault Refusal :=
  .next (s.within fun s => s.dispatch slot.toNat 0x11 fun t x => t.dispatchData slot.toNat x)
/-- PLAN_ARM (R71). -/
def execPlanArm (slot : Slot) (s : State) : Host.Outcome State Fault Refusal :=
  .next (s.within fun s => s.dispatch slot.toNat 0x12 fun t x => t.dispatchArm slot.toNat x)
/-- FENCE_HELD (R77). -/
def execFenceHeld (slot : Slot) (s : State) : Host.Outcome State Fault Refusal :=
  .next (s.within fun s => s.fenceHeld slot.toNat)

end Sys2Proof.Machine
end

