-- ==== Sys2Proof/Machine/Evc.lean ====
section
/-! DEFINITION. The registers of the event concentrator: sources raised, cleared and routed, targets assigned, claims and completes
(16_event_concentrator.md R345 to R352, R356). -/

namespace Sys2Proof.Machine

/-- A sticky bit of the EVC page in a function's view. -/
def State.evcFlag (s : State) (fn b : Nat) : State := s.flag pgEVC fn b

/-- A software source (R345). -/
def softSource (n : Nat) : Bool := decide (0x800 ≤ n) && decide (n < 0x2000)

/-- A number the source map gives a partition: not the spurious ID, not reserved (R345). -/
def realSource (n : Nat) : Bool := n = 1 || (decide (0x40 ≤ n) && decide (n < 0x680)) || softSource n

/-- Source `n` is of partition `p` (R345). -/
def ownSource (p n : Nat) : Bool := realSource n && srcPart n = p

/-- Target `t` is held by partition `p` (R348). -/
def State.holdsTarget (s : State) (p t : Nat) : Bool := (s.tgt t).valid && (s.tgt t).part.toNat = p

/-- The source a function's EVC_SRC_SEL names (R356). -/
def State.srcSelOf (s : State) (fn : Nat) : Nat := (tabGet (fun _ => (0 : BitVec 13)) s.evc.srcSel fn).toNat

/-- EVC_SRC_SEL is written (R356): a source of another partition is not selected. -/
def State.writeSrcSel (s : State) (fn n : Nat) : State :=
  if ownSource fn n then s.onEvc fun e => { e with srcSel := tabPut (fun _ => 0) e.srcSel fn (BitVec.ofNat 13 n) }
  else s.evcFlag fn 3

/-- EVC_SRC_RAISE (R345, R356): a software source of the function's partition, or of any through PF0. -/
def State.raiseSource (s : State) (fn n : Nat) : State :=
  if softSource n && (fn = 0 || srcPart n = fn) then s.edge n else s.evcFlag fn 3

/-- EVC_SRC_CLEAR (R351): PENDING is cleared. -/
def State.clearSource (s : State) (fn n : Nat) : State :=
  if ownSource fn n then (s.onSrc n fun x => { x with pending := false, edgeAt := none }).refresh (s.src n).target.toNat else s.evcFlag fn 3

/-- A source takes EN, TARGET and LEVEL (R347): EN 0 clears PENDING, and both targets see the change. -/
def State.routeSource (s : State) (n : Nat) (en : Bool) (target : Byte) (level : BitVec 5) : State :=
  let old := (s.src n).target.toNat
  ((s.onSrc n fun x => { en := en && !s.macroLost 0x0F n, level := level, target := target, pending := x.pending && en }).refresh old).refresh target.toNat

/-- EVC_SRC_CFG is written with a whole value (R347, R356): the selected source, and a TARGET its partition holds. -/
def State.writeSrcCfg (s : State) (fn : Nat) (v : Word) : State :=
  let n := s.srcSelOf fn
  if !ownSource fn n then s.evcFlag fn 3
  else if !s.holdsTarget fn (field v 15 8) then s.evcFlag fn 1
  else s.routeSource n (bit v 16) (v.extractLsb' 8 8) (v.setWidth 5)

/-- EVC_SRC_CFG as it reads (R356). -/
def State.srcCfg (s : State) (fn : Nat) : Word :=
  let n := s.srcSelOf fn
  let x := s.src n
  if !ownSource fn n then 0
  else place x.pending.toNat 31 ||| place ((s.tgt x.target.toNat).stack.any (·.1 = n)).toNat 30 ||| place x.en.toNat 16 |||
    place x.target.toNat 8 ||| place x.level.toNat 0

/-- EVC_TGT_ASSIGN is written (R348): TGT_QUOTA past the quota; else the target is unassigned first, then assigned. -/
def State.assignTarget (s : State) (v : Word) : State :=
  let t := s.evc.tsel.toNat
  let p := field v 53 48
  let others := (s.targetsOf p).filter (· ≠ t)
  if bit v 63 && decide ((s.part p).qEvt < others.length + 1) then s.evcFlag 0 5
  else
    let s1 := (s.unassign t).onEvc fun e => { e with stamp := e.stamp + 1 }
    (s1.onTgt t fun g => { g with
      valid := bit v 63, part := BitVec.ofNat 6 p, vector := v.setWidth 5, stamp := s1.evc.stamp }).refresh t

/-- EVC_TGT_ASSIGN as it reads (R356). -/
def State.tgtAssign (s : State) : Word :=
  let g := s.tgt s.evc.tsel.toNat
  place g.valid.toNat 63 ||| place g.part.toNat 48 ||| place g.vector.toNat 0

/-- A target register is touched: TGT_FOREIGN for a target the partition does not hold (R356). -/
def State.onHeld (s : State) (fn t : Nat) (f : State → State) : State := if s.holdsTarget fn t then f s else s.evcFlag fn 4

/-- EVC_CLAIM is read (R351): the value, and the state after. -/
def State.claimRead (s : State) (fn t : Nat) : Word × State :=
  if s.holdsTarget fn t then s.claim t else (0, s.evcFlag fn 4)

/-- EVC_COMPLETE (R352): the entry leaves the stack, wherever it stands. -/
def State.completeWrite (s : State) (fn t n : Nat) : State :=
  s.onHeld fn t fun s =>
    if (s.tgt t).stack.any (·.1 = n) then
      (s.onTgt t fun g => { g with stack := dropFirst (fun x => x.1 = n) g.stack }).refresh t
    else s.evcFlag fn 2

/-- EVC_THRESH is written (R349, R356). -/
def State.writeThresh (s : State) (fn t : Nat) (v : BitVec 5) : State :=
  s.onHeld fn t fun s => (s.onTgt t fun g => { g with thresh := v }).refresh t

/-- EVC_TGT_STATUS as it reads (R356). -/
def State.tgtStatus (s : State) (t : Nat) : Word :=
  let g := s.tgt t
  place g.req.toNat 16 ||| place (g.stack.length % 32) 8 ||| place (running g).toNat 0

end Sys2Proof.Machine
end

