-- ==== Sys2Proof/Machine/RunEvc.lean ====
section
/-! DEFINITION. The meanings of the commands on the event concentrator (16_event_concentrator.md). -/

namespace Sys2Proof.Machine

/-- EVC_SRC_RAISE (R345). -/
def execEvcSrcRaise (fn : Fn) (v : Word) (s : State) : Host.Outcome State Fault Refusal :=
  .next (s.onPage fn.toNat fun s => s.raiseSource fn.toNat (field v 12 0))
/-- EVC_SRC_CLEAR (R351). -/
def execEvcSrcClear (fn : Fn) (v : Word) (s : State) : Host.Outcome State Fault Refusal :=
  .next (s.onPage fn.toNat fun s => s.clearSource fn.toNat (field v 12 0))
/-- EVC_SRC_CFG (R347). -/
def execEvcSrcCfg (fn : Fn) (v : Word) (s : State) : Host.Outcome State Fault Refusal :=
  .next (s.onPage fn.toNat fun s => s.writeSrcCfg fn.toNat v)
/-- EVC_TGT_ASSIGN (R348). -/
def execEvcTgtAssign (v : Word) (s : State) : Host.Outcome State Fault Refusal := .next (s.onPage 0 fun s => s.assignTarget v)
/-- EVC_CLAIM (R351): the value read is answered to the host. -/
def execEvcClaim (fn : Fn) (t : Byte) (s : State) : Host.Outcome State Fault Refusal :=
  .next (s.readPage fn.toNat fun s => s.claimRead fn.toNat t.toNat)
/-- EVC_COMPLETE (R352). -/
def execEvcComplete (fn : Fn) (t : Byte) (v : Word) (s : State) : Host.Outcome State Fault Refusal :=
  .next (s.onPage fn.toNat fun s => s.completeWrite fn.toNat t.toNat (field v 12 0))
/-- SOURCE_EDGE (R346): a reserved source and the spurious ID are never raised (R345). -/
def execSourceEdge (src : BitVec 13) (s : State) : Host.Outcome State Fault Refusal :=
  .next (s.within fun s => if realSource src.toNat then s.edge src.toNat else s)

end Sys2Proof.Machine
end

