-- ==== Sys2Proof/Machine/RunHome.lean ====
section
/-! DEFINITION. The meanings of the commands at the coherence home: requests and answers of on-die agents, answers and snoops of the host,
and the home's limits (11_coherence_home.md). -/

namespace Sys2Proof.Machine

/-- An AtomicReq is judged, then asked of the home (R246, R254; 03_command_set.md R69; 07_number_formats_and_ccu.md R165). -/
def State.atomicRequest (s : State) (r : HReq) (op type : Nat) (operand compare : Word) : State :=
  let id := r.agent.toNat
  let req : HomeReq := { who := .agent id r.tag.toNat r.port.val, kind := .atomic, addr := r.addr }
  let known : Bool := decide (256 ≤ id) && decide (id < 1280) && r.port.val ≠ 4 && !s.home.disabled.contains id
  if known && !atomicDefined op type then s.err req 0x06
  else if known && !multOf (typeBits type / 8) r.addr then s.err req 0x03
  else s.agentReq r .atomic 0 ⟨op, type, operand, compare⟩

/-- A host snoop; in Hibernate the snoop responder answers it without a wake (19_power_reset_and_bringup.md R393, R394). -/
def State.hostSnoop (s : State) (link : Nat) (addr : Word) (kind : Nat) : State :=
  if s.pwr.st = .hibernate then s.within fun t => t.onHostSnoop link addr kind else s.arrives fun t => t.onHostSnoop link addr kind

/-- READ_SHARED (R253). -/
def execReadShared (r : HReq) (s : State) : Host.Outcome State Fault Refusal :=
  .next (s.arrives fun s => s.nocIn r.port.val .req fun s => s.agentReq r .readShared)
/-- READ_UNIQUE (R253). -/
def execReadUnique (r : HReq) (s : State) : Host.Outcome State Fault Refusal :=
  .next (s.arrives fun s => s.nocIn r.port.val .req fun s => s.agentReq r .readUnique)
/-- READ_NO_ALLOC (R253). -/
def execReadNoAlloc (r : HReq) (s : State) : Host.Outcome State Fault Refusal :=
  .next (s.arrives fun s => s.nocIn r.port.val .req fun s => s.agentReq r .readNoAlloc)
/-- WRITE_NO_ALLOC (R253). -/
def execWriteNoAlloc (r : HReq) (data : Granule) (s : State) : Host.Outcome State Fault Refusal :=
  .next (s.arrives fun s => s.nocIn r.port.val .req fun s => s.agentReq r .writeNoAlloc data)
/-- WRITE_BACK (R253, R257). -/
def execWriteBack (r : HReq) (data : Granule) (s : State) : Host.Outcome State Fault Refusal :=
  .next (s.arrives fun s => s.nocIn r.port.val .req fun s => s.onWriteBack r data)
/-- ACK_S (R253). -/
def execAckS (h : SnpHdr) (addr : Word) (s : State) : Host.Outcome State Fault Refusal :=
  .next (s.answered fun s => s.nocIn (agentPort h.agent.toNat) .rsp fun s => s.snoopAnswer h addr .ackS 0)
/-- ACK_I (R253). -/
def execAckI (h : SnpHdr) (addr : Word) (s : State) : Host.Outcome State Fault Refusal :=
  .next (s.answered fun s => s.nocIn (agentPort h.agent.toNat) .rsp fun s => s.snoopAnswer h addr .ackI 0)
/-- DATA_S (R253). -/
def execDataS (h : SnpHdr) (addr : Word) (data : Granule) (s : State) : Host.Outcome State Fault Refusal :=
  .next (s.answered fun s => s.nocIn (agentPort h.agent.toNat) .rsp fun s => s.snoopAnswer h addr .dataS data)
/-- DATA_I (R253). -/
def execDataI (h : SnpHdr) (addr : Word) (data : Granule) (s : State) : Host.Outcome State Fault Refusal :=
  .next (s.answered fun s => s.nocIn (agentPort h.agent.toNat) .rsp fun s => s.snoopAnswer h addr .dataI data)
/-- DATA_CUR (R253). -/
def execDataCur (h : SnpHdr) (addr : Word) (data : Granule) (s : State) : Host.Outcome State Fault Refusal :=
  .next (s.answered fun s => s.nocIn (agentPort h.agent.toNat) .rsp fun s => s.snoopAnswer h addr .dataCur data)
/-- MISS (R253). -/
def execMiss (h : SnpHdr) (addr : Word) (s : State) : Host.Outcome State Fault Refusal :=
  .next (s.answered fun s => s.nocIn (agentPort h.agent.toNat) .rsp fun s => s.snoopAnswer h addr .miss 0)
/-- WB_PENDING (R257). -/
def execWbPending (h : SnpHdr) (addr : Word) (s : State) : Host.Outcome State Fault Refusal :=
  .next (s.answered fun s => s.nocIn (agentPort h.agent.toNat) .rsp fun s => s.snoopAnswer h addr .wbPending 0)
/-- GO_S: an answer to RdShared (R247, R253). -/
def execGoS (addr : Word) (data : Granule) (s : State) : Host.Outcome State Fault Refusal :=
  .next (s.arrives fun s => (s.bytes pgHLK 64).onGo addr [.isH] false false data)
/-- GO_E: an answer to RdShared or RdOwn (R247, R253). -/
def execGoE (addr : Word) (data : Granule) (s : State) : Host.Outcome State Fault Refusal :=
  .next (s.arrives fun s => (s.bytes pgHLK 64).onGo addr [.isH, .imH, .smH, .atmH, .atmS] true false data)
/-- GO_M: an answer to RdOwn (R247, R253). -/
def execGoM (addr : Word) (data : Granule) (s : State) : Host.Outcome State Fault Refusal :=
  .next (s.arrives fun s => (s.bytes pgHLK 64).onGo addr [.imH, .smH, .atmH, .atmS] true false data)
/-- GO_WRITEPULL (R247). -/
def execGoWritepull (addr : Word) (s : State) : Host.Outcome State Fault Refusal :=
  .next (s.answered fun s => s.onWritePull addr)
/-- GO_I (R247). -/
def execGoI (addr : Word) (s : State) : Host.Outcome State Fault Refusal :=
  .next (s.answered fun s => s.onGoI addr)
/-- GO_ERR (R258). -/
def execGoErr (addr : Word) (data : Granule) (s : State) : Host.Outcome State Fault Refusal :=
  .next (s.answered fun s => s.onGoErr addr data)
/-- HOST_DATA (R247). -/
def execHostData (addr : Word) (poison : Bool) (data : Granule) (s : State) : Host.Outcome State Fault Refusal :=
  .next (s.answered fun s => (s.bytes pgHLK 64).onHostData addr poison data)
/-- HOME_ATOMIC_DONE (R254). -/
def execHomeAtomicDone (addr : Word) (s : State) : Host.Outcome State Fault Refusal :=
  .next (s.within fun s => s.atomicDone addr)
/-- SNP_INV (R255). -/
def execSnpInv (link : BitVec 2) (addr : Word) (s : State) : Host.Outcome State Fault Refusal :=
  .next (s.hostSnoop link.toNat addr 0)
/-- SNP_DATA (R255). -/
def execSnpData (link : BitVec 2) (addr : Word) (s : State) : Host.Outcome State Fault Refusal :=
  .next (s.hostSnoop link.toNat addr 1)
/-- SNP_CUR (R255). -/
def execSnpCur (link : BitVec 2) (addr : Word) (s : State) : Host.Outcome State Fault Refusal :=
  .next (s.hostSnoop link.toNat addr 2)
/-- CREDIT_LIMIT_EXPIRED (R250). -/
def execCreditLimitExpired (addr : Word) (s : State) : Host.Outcome State Fault Refusal :=
  .next (s.arrives fun s => s.creditExpired addr)
/-- SNOOP_LIMIT_EXPIRED (R258). -/
def execSnoopLimitExpired (agent : BitVec 8) (addr : Word) (s : State) : Host.Outcome State Fault Refusal :=
  .next (s.arrives fun s => s.snoopExpired agent addr)
/-- HOST_LIMIT_EXPIRED (R258). -/
def execHostLimitExpired (addr : Word) (s : State) : Host.Outcome State Fault Refusal :=
  .next (s.arrives fun s => s.hostExpired addr)
/-- ATOMIC_REQ (R254): an undefined OP or TYPE fails with 0x06, a misaligned address with 0x03. SCOPE bears on no order the hub keeps and no
result it gives (08_memory_model.md R182). -/
def execAtomicReq (r : HReq) (_scope : BitVec 2) (op type : BitVec 4) (operand compare : Word) (s : State) : Host.Outcome State Fault Refusal :=
  .next (s.arrives fun s => s.nocIn r.port.val .req fun s => s.atomicRequest r op.toNat type.toNat operand compare)

end Sys2Proof.Machine
end

