-- ==== Sys2Proof/Machine/RunLink.lean ====
section
/-! DEFINITION. The meanings of the commands on the host links and functions (14_host_link_endpoint.md;
19_power_reset_and_bringup.md R398, R402). -/

namespace Sys2Proof.Machine

/-- BUS_MASTER_DISABLE (R321). -/
def execBusMasterDisable (fn : Fn) (link : BitVec 2) (s : State) : Host.Outcome State Fault Refusal :=
  .next (s.configured fn.toNat (some link.toNat) fun s => s.setBme fn.toNat link.toNat none)
/-- BUS_MASTER_ENABLE (R321). -/
def execBusMasterEnable (fn : Fn) (link : BitVec 2) (ctl : FnCtl) (s : State) : Host.Outcome State Fault Refusal :=
  .next (s.configured fn.toNat (some link.toNat) fun s => s.setBme fn.toNat link.toNat (some ctl))
/-- VF_FLR (R402). -/
def execVfFlr (fn : Fn) (link : BitVec 2) (s : State) : Host.Outcome State Fault Refusal :=
  .next (s.configured fn.toNat (some link.toNat) fun s => s.vfFlr fn.toNat link.toNat)
/-- PF_FLR (R402). -/
def execPfFlr (link : BitVec 2) (s : State) : Host.Outcome State Fault Refusal := .next (s.configured 0 (some link.toNat) fun s => s.pfFlr link.toNat)
/-- VF_ENABLE (R311). -/
def execVfEnable (fn : Fn) (link : BitVec 2) (s : State) : Host.Outcome State Fault Refusal :=
  .next (s.configured 0 (some link.toNat) fun s => s.vfEnable fn.toNat link.toNat)
/-- VF_DISABLE (R311). -/
def execVfDisable (fn : Fn) (link : BitVec 2) (s : State) : Host.Outcome State Fault Refusal :=
  .next (s.configured 0 (some link.toNat) fun s => s.vfDisable fn.toNat link.toNat)
/-- CACHE_WRITEBACK_INVALIDATE (R310). -/
def execCacheWritebackInvalidate (link : BitVec 2) (s : State) : Host.Outcome State Fault Refusal :=
  .next (s.configured 0 (some link.toNat) State.cacheWbInv)
/-- CACHE_ENABLE_CLEAR (R310). -/
def execCacheEnableClear (link : BitVec 2) (s : State) : Host.Outcome State Fault Refusal :=
  .next (s.configured 0 (some link.toNat) fun s => s.cacheOff link.toNat)
/-- CACHE_ENABLE_SET (R306). -/
def execCacheEnableSet (link : BitVec 2) (s : State) : Host.Outcome State Fault Refusal :=
  .next (s.configured 0 (some link.toNat) fun s => s.cacheOn link.toNat)
/-- LINK_UP (R306, R340). -/
def execLinkUp (link : BitVec 2) (flit256 : Bool) (speed : BitVec 4) (width : BitVec 5) (s : State) : Host.Outcome State Fault Refusal :=
  .next (s.arrives fun s => s.linkUp link.toNat flit256 speed width)
/-- LINK_DOWN (R323). -/
def execLinkDown (link : BitVec 2) (s : State) : Host.Outcome State Fault Refusal := .next (s.arrives fun s => s.linkDown link.toNat)
/-- CXLIO_COMPLETION (R320 to R322). -/
def execCxlioCompletion (link : BitVec 2) (tag : BitVec 14) (success poison : Bool) (s : State) : Host.Outcome State Fault Refusal :=
  .next (s.arrives fun s => s.tlp.completion link.toNat tag.toNat success poison)
/-- COMPLETION_TIMEOUT (R320). -/
def execCompletionTimeout (link : BitVec 2) (tag : BitVec 14) (s : State) : Host.Outcome State Fault Refusal :=
  .next (s.arrives fun s => s.completionTimeout link.toNat tag.toNat)
/-- HLK_REMAP (R307). -/
def execHlkRemap (r : RemapReg) (v : Word) (s : State) : Host.Outcome State Fault Refusal := .next (s.onPage 0 fun s => s.hlkRemap r v)
/-- REMAP_DONE (R307). -/
def execRemapDone (s : State) : Host.Outcome State Fault Refusal := .next (s.within State.remapDone)
/-- D3HOT (R398). -/
def execD3hot (fn : Fn) (pmeEn clearPme : Bool) (s : State) : Host.Outcome State Fault Refusal := .next (s.configured fn.toNat none fun s => s.d3hot fn.toNat pmeEn clearPme)
/-- D0_RETURN (R398). -/
def execD0Return (fn : Fn) (pmeEn clearPme : Bool) (s : State) : Host.Outcome State Fault Refusal := .next (s.configured fn.toNat none fun s => s.d0Return fn.toNat pmeEn clearPme)

end Sys2Proof.Machine
end

