-- ==== Sys2Proof/Machine/Conf.lean ====
section
/-! DEFINITION. Configuration space: what a configuration read of a function's instance on a link returns (14_host_link_endpoint.md R305,
R308, R309, R311 to R314, R318, R325). The places of the header's registers and of the fields of the capabilities are PCI Express's and
CXL's (PRESUMED, log entry 126). -/

namespace Sys2Proof.Machine

/-- A capability of the list (R313): its offset, its ID, whether PF0 has it, whether a VF has it. -/
structure Capability where
  off : Nat
  id : Nat
  pf : Bool
  vf : Bool
deriving DecidableEq, Repr

/-- The capabilities below 0x100 (R313). -/
def capsLow : List Capability := [⟨0x040, 0x01, true, false⟩, ⟨0x050, 0x10, true, true⟩, ⟨0x090, 0x11, true, true⟩]

/-- The extended capabilities the hub serves (R313); those at 0x200 to 0x2FF are the link controller's. -/
def capsHigh : List Capability :=
  [⟨0x100, 0x0001, true, true⟩, ⟨0x150, 0x0003, true, false⟩, ⟨0x160, 0x000E, true, true⟩, ⟨0x170, 0x0010, true, false⟩,
   ⟨0x1B0, 0x0018, true, false⟩, ⟨0x1C0, 0x001E, true, false⟩, ⟨0x1D0, 0x0025, true, false⟩, ⟨0x300, 0x0023, true, false⟩,
   ⟨0x340, 0x0023, true, false⟩, ⟨0x370, 0x0023, true, false⟩, ⟨0x390, 0x0023, true, true⟩]

/-- A function has a capability. -/
def Capability.of (c : Capability) (fn : Nat) : Bool := if fn = 0 then c.pf else c.vf

/-- The capability after one at `off` in a function's list, 0 at the end (R313). PF0's Data Link Feature is followed by the link
controller's at 0x200. -/
def nextCap (caps : List Capability) (fn off : Nat) : Nat :=
  if fn = 0 ∧ off = 0x1D0 then 0x200
  else match caps.find? fun c => decide (off < c.off) && c.of fn with
    | some c => c.off
    | none => 0

/-- The Vendor ID register of a function (R312). -/
def vendorId (fn : Nat) : BitVec 16 := if fn = 0 then Config.tieVendorId else 0xFFFF

/-- The bits of a dword that host software may set and that the hub holds without acting on them: parity and SERR# enables, cache line size
and interrupt line; the BARs' addresses by their sizes (R318); of Device Control, Link Control, Device Control 2 and Link Control 2 what has
no effect here; of SR-IOV NumVFs, VF MSE, ARI, the page size and the VF BARs; LTR's limits; the L1 PM controls; CXL's configuration lock. -/
def confRaw (fn off : Nat) : BitVec 32 :=
  match off with
  | 0x04 => 0x00000540
  | 0x0C => 0x000000FF
  | 0x3C => 0x000000FF
  | 0x58 => 0x00007D0F
  | 0x78 => 0x00001200
  | _ =>
    if fn ≠ 0 then 0
    else match off with
      | 0x10 => 0xFE000000
      | 0x14 => 0xFFFFFFFF
      | 0x18 => 0xFC000000
      | 0x1C => 0xFFFFFFFF
      | 0x20 => 0xFF000000
      | 0x24 => 0xFFFFFFFF
      | 0x60 => 0x000003CB
      | 0x80 => 0x0000FFBF
      | 0x178 => 0x00000018
      | 0x180 => 0x0000FFFF
      | 0x190 => 0x00000011
      | 0x194 => 0xFFC00000
      | 0x198 => 0xFFFFFFFF
      | 0x19C => 0xFC000000
      | 0x1A0 => 0xFFFFFFFF
      | 0x1A4 => 0xFF000000
      | 0x1A8 => 0xFFFFFFFF
      | 0x1B4 => 0x1FFF1FFF
      | 0x1C8 => 0xE3FFFF0F
      | 0x1CC => 0x000000FB
      | 0x314 => 0x00000001
      | _ => 0

/-- What those bits are at reset: the SR-IOV page size is 4 KiB (log entry 137). -/
def confRawDflt (off : Nat) : BitVec 32 := if off = 0x190 then 1 else 0

/-- Those bits as they stand. -/
def Inst.rawAt (i : Inst) (fn off : Nat) : BitVec 32 := tabGet confRawDflt i.raw off &&& confRaw fn off

/-- A field of a dword. -/
def place32 (v k : Nat) : BitVec 32 := BitVec.ofNat 32 (v * 2 ^ k)

/-- A dword of the Type 0 header (R312): Memory Space Enable and Bus Master Enable stand in Command, and Status names a capability list;
BAR0 and BAR2 are 64-bit, BAR4 64-bit and prefetchable, and a VF has none of its own (R318); no Expansion ROM (R308). -/
def State.confHeader (s : State) (link fn off : Nat) : BitVec 32 :=
  let i := s.inst link fn
  match off with
  | 0x00 => (if fn = 0 then (0x0C94 : BitVec 16) else 0xFFFF) ++ vendorId fn
  | 0x04 => 0x00100000 ||| place32 i.mse.toNat 1 ||| place32 i.bme.toNat 2
  | 0x08 => (0x120000 : BitVec 24) ++ (Config.ddtWord 1).extractLsb' 48 8
  | 0x10 => if fn = 0 then 0x4 else 0
  | 0x18 => if fn = 0 then 0x4 else 0
  | 0x20 => if fn = 0 then 0xC else 0
  | 0x2C => Config.tieSubsystem
  | 0x34 => if fn = 0 then 0x40 else 0x50
  | _ => 0

/-- A dword of the PCI Express capability (R308, R313): payloads to 512 bytes, 8-, 10- and 14-bit tags, FLR, completion timeout ranges A to D
without disable, LTR in PF0, no AtomicOps and no TPH; the L0s and L1 latencies, and what the link controller reports, are free. -/
def State.confPcie (s : State) (link fn off : Nat) : BitVec 32 :=
  let i := s.inst link fn
  let l := s.link link
  match off with
  | 0x54 => 0x10008022 ||| (Config.confWord link fn off &&& 0x00000FC0)
  | 0x58 => place32 i.ro.toNat 4 ||| place32 i.mps.toNat 5
  | 0x5C => 0x00000906 ||| (Config.confWord link fn off &&& 0xFF07F000)
  | 0x60 => place32 l.speed.toNat 16 ||| place32 l.width.toNat 20
  | 0x74 => 0x0003000F ||| place32 (Machine.flag (fn = 0)) 11
  | 0x78 => place32 i.cto.toNat 0 ||| place32 i.ido.toNat 8 ||| place32 (Machine.flag (fn = 0 && i.ltrEn)) 10
  | 0x7C => 0x0000007E
  | _ => 0

/-- A dword of Advanced Error Reporting (R308, R325): ECRC generation and check are there, Multiple Header Recording is not. -/
def State.confAer (s : State) (link fn off : Nat) : BitVec 32 :=
  let a := s.aerOf link fn
  match off with
  | 0x104 => a.unc
  | 0x108 => a.uncMask
  | 0x10C => a.uncSev
  | 0x110 => a.cor
  | 0x114 => a.corMask
  | 0x118 => 0x000000A0 ||| a.first.setWidth 32 ||| place32 a.ecrcGen.toNat 6 ||| place32 a.ecrcChk.toNat 8
  | 0x11C => a.header.extractLsb' 0 32
  | 0x120 => a.header.extractLsb' 32 32
  | 0x124 => a.header.extractLsb' 64 32
  | 0x128 => a.header.extractLsb' 96 32
  | _ => 0

/-- A dword of a capability that PF0 alone has: Power Management, Device Serial Number, SR-IOV with its VF BARs, L1 PM Substates, and the CXL
DVSECs (R305, R308 to R310, R312, R313, R318): CXL.cache and CXL.io, no CXL.mem and no viral; the cache of 16 units of 1 MiB, Cache Invalid; the
component registers in BAR0 page 0x02. The revisions and lengths of the CXL DVSECs are free. -/
def State.confPf (s : State) (link off : Nat) : BitVec 32 :=
  let i := s.inst link 0
  let l := s.link link
  match off with
  | 0x044 => place32 i.pmeStatus.toNat 15 ||| place32 i.pmeEn.toNat 8 ||| 8 ||| i.dstate.setWidth 32
  | 0x154 => Config.tieSerial.extractLsb' 0 32
  | 0x158 => Config.tieSerial.extractLsb' 32 32
  | 0x178 => place32 (Machine.flag ((List.range 64).any fun f => f ≠ 0 && (s.inst link f).en)) 0
  | 0x17C => 0x003F003F
  | 0x184 => 0x00010001
  | 0x188 => 0x0C950000
  | 0x18C => 0x00000011
  | 0x194 => 0x4
  | 0x19C => 0x4
  | 0x1A4 => 0xC
  | 0x1C4 => 0x0000001F ||| (Config.confWord link 0 off &&& 0x00FBFF00)
  | 0x1D4 => Config.confWord link 0 off
  | 0x1D8 => Config.confWord link 0 off
  | 0x304 => (Config.confWord link 0 off &&& 0xFFFF0000) ||| 0x1E98
  | 0x308 => 0x00430000
  | 0x30C => 2 ||| place32 l.cacheEn.toNat 0
  | 0x310 => place32 l.cacheInvalid.toNat 16
  | 0x314 => 0x10020000
  | 0x344 => (Config.confWord link 0 off &&& 0xFFFF0000) ||| 0x1E98
  | 0x348 => 0x20030007
  | 0x34C => Config.confWord link 0 off
  | 0x374 => (Config.confWord link 0 off &&& 0xFFFF0000) ||| 0x1E98
  | 0x378 => 0x00000008
  | 0x37C => 0x00020100
  | _ => if 0x200 ≤ off ∧ off < 0x300 then Config.confWord link 0 off else 0

/-- A dword of a capability, without what host software may set freely: MSI-X, whose table and PBA are in BAR0 page 0x01 (R313, R319), the
Umavon DVSEC (R314), and the others. -/
def State.confBody (s : State) (link fn off : Nat) : BitVec 32 :=
  match off with
  | 0x094 => 0x00010000
  | 0x098 => 0x00010800
  | 0x394 => (0x0201 : BitVec 16) ++ vendorId fn
  | 0x398 => 0x00004758
  | 0x39C => 0x00400000
  | 0x3A0 => Config.tieSerial.extractLsb' 0 32
  | 0x3A4 => Config.tieSerial.extractLsb' 32 32
  | 0x3A8 => BitVec.ofNat 32 (link % 4 + 16 * (links4.foldl (fun n l => n + (s.link l).up.toNat * 2 ^ l) 0) + 256 * (fn % 64))
  | _ =>
    if 0x54 ≤ off ∧ off < 0x90 then s.confPcie link fn off
    else if 0x104 ≤ off ∧ off < 0x150 then s.confAer link fn off
    else if fn = 0 then s.confPf link off
    else 0

/-- The upper half of a capability's header below 0x100 (R308, R313): PME from D3hot and D3cold, no D1 and D2; an endpoint, version 2; MSI-X's
Table Size, Enable and Function Mask. -/
def State.capUpper (s : State) (link fn off : Nat) : BitVec 16 :=
  let i := s.inst link fn
  match off with
  | 0x40 => 0xC003 ||| ((Config.confWord link fn off).extractLsb' 16 16 &&& 0x01C0)
  | 0x50 => 0x0002
  | _ => BitVec.ofNat 16 (31 + i.msixMask.toNat * 2 ^ 14 + i.msixEn.toNat * 2 ^ 15)

/-- The header of a capability: below 0x100 its ID and the next one's offset; above, its ID and the next one's offset, whose version is the
standard's. -/
def State.confCapHeader (s : State) (link fn off : Nat) : Option (BitVec 32) :=
  if off < 0x100 then
    match capsLow.find? fun c => c.off = off && c.of fn with
    | none => none
    | some c =>
      some (s.capUpper link fn off ++ BitVec.ofNat 16 (c.id + 256 * nextCap capsLow fn off))
  else
    match capsHigh.find? fun c => c.off = off && c.of fn with
    | none => none
    | some c => some ((Config.confWord link fn off &&& 0x000F0000) ||| BitVec.ofNat 32 (c.id + 2 ^ 20 * nextCap capsHigh fn off))

/-- A configuration read of the aligned dword at `off` (R312 to R314): none where the instance is not there, so the request is not the hub's,
or while the function's FLR runs, when it completes with Request Retry Status (R311). -/
def State.confRead (s : State) (link fn off : Nat) : Option (BitVec 32) :=
  if !(s.link link).up || !(fn = 0 || (s.inst link fn).en) || s.inFlr fn then none
  else
    let fixed := if off < 0x40 then s.confHeader link fn off else (s.confCapHeader link fn off).getD (s.confBody link fn off)
    some (fixed ||| (s.inst link fn).rawAt fn off)

/-- The BARs of a function's instance on a link respond: Memory Space Enable is set, and the function is in D0
(14_host_link_endpoint.md R325; 19_power_reset_and_bringup.md R398). -/
def State.barOn (s : State) (fn link : Nat) : Bool := (s.inst link fn).mse && (s.inst link fn).dstate = 0 && (s.inst link 0).dstate = 0

/-- An Unsupported Request (14_host_link_endpoint.md R318, R325): advisory for a posted one; one that is not posted completes so. -/
def State.unsupported (s : State) (fn link : Nat) (posted : Bool) : State :=
  let s1 := s.aerAt link fn .unsupported posted
  if posted then s1 else s1.emit (.unsupported link fn)

end Sys2Proof.Machine
end

