-- ==== Sys2Proof/Machine/RunMovers.lean ====
section
/-! DEFINITION. Staging areas and BAR4, CCU lanes, and the meanings of the commands on movers, staging
and the CCU (06_movers.md; 07_number_formats_and_ccu.md R162, R170; 01_hub_architecture.md R27; 19_power_reset_and_bringup.md R405). -/

namespace Sys2Proof.Machine

/-! ## Staging (R145, R146) -/

/-- A MOV sticky bit of a partition's view. -/
def State.movFlag (s : State) (p b : Nat) : State := s.flag pgMOV p b

/-- Two areas share a unit. -/
def Area.meets (a b : Area) : Bool :=
  decide (0 < a.size) && decide (0 < b.size) && decide (a.base < b.base + b.size) && decide (b.base < a.base + a.size)

/-- A channel of a partition has a SRC_STAGING command dispatched and not complete. -/
def State.stagingBusy (s : State) (p : Nat) : Bool :=
  s.dbl.chan.any fun (e : Nat × Chan) => e.2.st ≠ .free && e.2.part = p && e.2.cmds.any fun x => x.st ≠ .waiting && x.data.staging

/-- A write of MOV_STG_AREA for the partition MOV_PSEL selects (R145). -/
def State.writeArea (s : State) (v : Word) : State :=
  let p := field s.mov.psel 5 0
  let a : Area := { base := field v 7 0, size := field v 24 16 }
  if 256 < a.size ∨ 256 - 16 * s.banksLost 8 < a.base + a.size then s.movFlag 0 8
  else if (List.range 64).any fun q => q ≠ p && a.meets (s.area q) then s.movFlag 0 5
  else if s.stagingBusy p then s.movFlag 0 6
  else
    let passed := a.units.filter fun u => tabGet (fun _ => 0) s.mov.unitOwner u ≠ p
    let s1 := passed.foldl (fun (t : State) u => t.onMov fun m => { m with unitOwner := tabPut (fun _ => 0) m.unitOwner u p }) s
    (s1.zeroUnits passed).onArea p fun o => { base := a.base, size := a.size, clearing := o.clearing || passed ≠ [] }

/-- The zeros have been written (R145). -/
def State.clearDone (s : State) (p : Nat) : State := s.onArea p fun o => { o with clearing := false }

/-- A write through the bootstrap window, granule by granule (19_power_reset_and_bringup.md R405). -/
def State.bootWrite (s : State) (link off : Nat) (bytes : List (Option Byte)) : State :=
  let a := 16777216 * s.pwr.aperture.toNat + off
  let at_ (g k : Nat) : Option Byte := if 64 * g + k < a then none else (bytes.getD (64 * g + k - a) none)
  let gs := if a % 64 = 0 then [a / 64] else [a / 64, a / 64 + 1]
  gs.foldl (fun (t : State) g =>
    let be := (List.range 64).foldl (fun (w : Word) k => if (at_ g k).isSome then w ||| place 1 k else w) 0
    if be = 0 then t
    else
      let m : NocMsg := { opc := 0x41, agent := Config.bootAgent, addr := BitVec.ofNat 64 (64 * g), be := be
                          data := granOf ((List.range 64).map fun k => (at_ g k).getD 0) }
      (t.onPwr fun q => { q with bootOut := q.bootOut + 1 }).nocRequest (Config.devicePort (64 * g) % 4) m (.boot link)) s

/-- A BAR4 write (R146): wholly within the area, and of whole aligned 8-byte words; one that is neither sets both bits. -/
def State.bar4Write (s : State) (fn link off : Nat) (bytes : List (Option Byte)) : State :=
  let a := s.area fn
  let ks := (List.range bytes.length).filter fun k => (bytes.getD k none).isSome
  let word (k : Nat) : Bool := (List.range 8).all fun j =>
    let b := (off + k) / 8 * 8 + j
    decide (off ≤ b) && (bytes.getD (b - off) none).isSome
  if fn = 0 && s.pwr.bootOpen then s.bootWrite link off bytes
  else
    let out := a.clearing || !ks.all (fun k => decide (off + k < a.size * 65536))
    let partial_ := !ks.all word
    if out || partial_ then
      let t := if out then s.movFlag fn 2 else s
      if partial_ then t.movFlag fn 3 else t
    else ks.foldl (fun (t : State) k => t.stagingWrite (a.base * 65536 + off + k) [(bytes.getD k none).getD 0]) s

/-- A host read of BAR4 (R146). -/
def State.bar4Read (s : State) (fn : Nat) : State := s.movFlag fn 1

/-! ## CCU lanes (R162, R170) -/

/-- A CCU lane is retired (R170): the beat runs again on another lane, and nothing of the failed attempt is written. -/
def State.retireLane (s : State) (n : Nat) : State :=
  if !s.activeLanes.contains n then s
  else (s.onCcu fun c => { c with retired := n :: c.retired }).unitRetired pgCCU

/-- CCU_SR_SEED is written: every lane's generator starts from it, after the beats of that hub cycle (R162). -/
def State.seed (s : State) (v : Word) : State := s.onCcu fun c => c.reseed s.glb.time v

/-! ## The commands -/

/-- SEGMENT_DISPATCH (R129). -/
def execSegmentDispatch (e : Engine) (urgent : Bool) (s : State) : Host.Outcome State Fault Refusal :=
  .next (s.within fun s => s.segmentDispatch e urgent)
/-- BURST_START (R138). -/
def execBurstStart (m : Fin 48) (urgent : Bool) (s : State) : Host.Outcome State Fault Refusal :=
  .next (s.within fun s => s.burstStart m.val urgent)
/-- SEGMENT_COMPLETE (R140). -/
def execSegmentComplete (m : Fin 48) (urgent : Bool) (s : State) : Host.Outcome State Fault Refusal :=
  .next (s.within fun s => s.segmentComplete m.val urgent)
/-- SEGMENT_FAIL (R142). -/
def execSegmentFail (m : Fin 48) (urgent : Bool) (why : SegFail) (s : State) : Host.Outcome State Fault Refusal :=
  .next (s.arrives fun s => s.segmentFail m.val urgent why)
/-- STOPPED_CONTEXT_IDLE (R144). -/
def execStoppedContextIdle (m : Fin 48) (urgent : Bool) (s : State) : Host.Outcome State Fault Refusal :=
  .next (s.within fun s => s.stoppedIdle m.val urgent)
/-- REED_SLOT_BOUNDARY (R137). -/
def execReedSlotBoundary (s : State) : Host.Outcome State Fault Refusal := .next (s.within State.slotBoundary)
/-- BAR4_WRITE (R146); of one whose sender dropped valid, or changed the payload, before it had all transferred on a host link, nothing is
taken (15_block_ports.md R332). -/
def execBar4Write (fn : Fn) (off : BitVec 24) (bytes : List (Option Byte)) (link : BitVec 2) (cut : Bool) (s : State) :
    Host.Outcome State Fault Refusal :=
  if cut then .next (s.arrives fun s => s.portProtocol (8 + link.toNat))
  else .next (s.onPage fn.toNat fun s =>
    if !s.barOn fn.toNat link.toNat then s.unsupported fn.toNat link.toNat true
    else (s.bytes pgHLK (bytes.filter Option.isSome).length).bar4Write fn.toNat link.toNat off.toNat bytes)
/-- BAR4_READ (R146): it completes with zeros. -/
def execBar4Read (fn : Fn) (s : State) : Host.Outcome State Fault Refusal :=
  .next (s.readPage fn.toNat fun s => (0, s.bar4Read fn.toNat))
/-- MOV_STG_AREA (R145). -/
def execMovStgArea (v : Word) (s : State) : Host.Outcome State Fault Refusal :=
  .next (s.onPage 0 fun s => s.writeArea v)
/-- STAGING_CLEAR_DONE (R145). -/
def execStagingClearDone (p : Fn) (s : State) : Host.Outcome State Fault Refusal :=
  .next (s.within fun s => s.clearDone p.toNat)
/-- CCU_SR_SEED (R162). -/
def execCcuSrSeed (v : Word) (s : State) : Host.Outcome State Fault Refusal :=
  .next (s.onPage 0 fun s => s.seed v)
/-- LANE_RESIDUE_ERROR (R170). -/
def execLaneResidueError (lane : Fin 66) (s : State) : Host.Outcome State Fault Refusal :=
  .next (s.within fun s => s.retireLane lane.val)
/-- UNIT_SELF_CHECK_FAIL (01 R27). -/
def execUnitSelfCheckFail (u : HubUnit) (s : State) : Host.Outcome State Fault Refusal :=
  .next (s.within fun s => match u with
    | .mover m => s.retireMover m.val
    | .walker w => s.retireWalker w.val
    | .lane l => s.retireLane l.val)

end Sys2Proof.Machine
end

