-- ==== Sys2Proof/Machine/RunParts.lean ====
section
/-! DEFINITION. The meanings of the commands on partitions, quotas and the twin engines (13_partitions_and_twin_engines.md). -/

namespace Sys2Proof.Machine

/-- ENABLE (R285). -/
def execEnable (s : State) : Host.Outcome State Fault Refusal := .next (s.onPage 0 State.enablePart)
/-- DISABLE (R285, R286). -/
def execDisable (s : State) : Host.Outcome State Fault Refusal := .next (s.onPage 0 State.disablePart)
/-- DISABLE_COMPLETE (R286). -/
def execDisableComplete (p : Fn) (s : State) : Host.Outcome State Fault Refusal := .next (s.within fun s => s.disableDone p.toNat)
/-- QUOTA_WRITE (R292). -/
def execQuotaWrite (q : Quota) (v : Word) (s : State) : Host.Outcome State Fault Refusal := .next (s.onPage 0 fun s => s.writeQuota q v)
/-- PRT_DRAIN_EXPIRED (R292). -/
def execPrtDrainExpired (p : Fn) (d : Drained) (s : State) : Host.Outcome State Fault Refusal :=
  .next (s.arrives fun s => s.drainEnds p.toNat d)
/-- FAILURE_DECLARED (R296, R297). -/
def execFailureDeclared (e : Engine) (s : State) : Host.Outcome State Fault Refusal := .next (s.arrives fun s => s.declareFailed e)
/-- QUIESCE_DONE (R298). -/
def execQuiesceDone (s : State) : Host.Outcome State Fault Refusal := .next (s.within State.quiesceDone)
/-- QUIESCE_LIMIT_EXPIRED (R298). -/
def execQuiesceLimitExpired (s : State) : Host.Outcome State Fault Refusal := .next (s.arrives State.quiesceExpired)
/-- CHANNEL_ADOPT (R299). -/
def execChannelAdopt (s : State) : Host.Outcome State Fault Refusal := .next (s.within State.adoptNext)
/-- SOLO_A (R300). -/
def execSoloA (s : State) : Host.Outcome State Fault Refusal := .next (s.onPage 0 fun s => s.writeSolo .A)
/-- SOLO_B (R300). -/
def execSoloB (s : State) : Host.Outcome State Fault Refusal := .next (s.onPage 0 fun s => s.writeSolo .B)
/-- SHARED (R300). -/
def execShared (s : State) : Host.Outcome State Fault Refusal := .next (s.onPage 0 State.writeShared)
/-- ENGINE_WITHDRAWN (R300). -/
def execEngineWithdrawn (s : State) : Host.Outcome State Fault Refusal := .next (s.arrives State.withdrawn)
/-- RESET_A (R301). -/
def execResetA (s : State) : Host.Outcome State Fault Refusal := .next (s.onPage 0 fun s => s.resetEngine .A)
/-- RESET_B (R301). -/
def execResetB (s : State) : Host.Outcome State Fault Refusal := .next (s.onPage 0 fun s => s.resetEngine .B)
/-- ENGINE_READY (R301). -/
def execEngineReady (e : Engine) (ok : Bool) (s : State) : Host.Outcome State Fault Refusal :=
  .next (s.within fun s => s.engineReady e ok)
/-- TWIN_PORT_ERROR (R304). -/
def execTwinPortError (_e : Engine) (s : State) : Host.Outcome State Fault Refusal := .next (s.within State.twinError)

end Sys2Proof.Machine
end

