-- ==== Sys2Proof/Machine/RunPlans.lean ====
section
/-! DEFINITION. The meanings of the commands on the Drone, plans and slips (10_drone_and_chanter.md), on windows and the transport
(12_peer_windows_and_transport.md), and of a slip that outlasts its limit (09_sync_objects.md R202). -/

namespace Sys2Proof.Machine

/-! ## The Drone and Chanter -/

/-- CHT_DRONE_SET (R210): present in the PF0 page only (R238). -/
def execChtDroneSet (fn : Fn) (v : Word) (s : State) : Host.Outcome State Fault Refusal :=
  .next (s.onPage fn.toNat fun s => if fn = 0 then s.droneSet v else s)
/-- DRONE_STEP (R210). -/
def execDroneStep (glitch : Bool) (s : State) : Host.Outcome State Fault Refusal :=
  .next (s.arrives fun s => s.pinEdge glitch State.stepPin)
/-- DRONE_TICK (R210). -/
def execDroneTick (glitch : Bool) (s : State) : Host.Outcome State Fault Refusal :=
  .next (s.arrives fun s => s.pinEdge glitch State.tickPin)
/-- DRONE (12 R277). -/
def execDrone (h : PktHdr) (s : State) : Host.Outcome State Fault Refusal :=
  .next (s.arrives fun s => s.pktHead h 6 fun t => t.rxDrone h)
/-- DRONE_BROADCAST (R211). -/
def execDroneBroadcast (s : State) : Host.Outcome State Fault Refusal := .next (s.within State.broadcast)
/-- DRONE_INTERPOLATE (R212). -/
def execDroneInterpolate (cycles : BitVec 32) (s : State) : Host.Outcome State Fault Refusal :=
  .next (s.within fun s => s.interpolate cycles.toNat)
/-- DRONE_LOST (R215). -/
def execDroneLost (s : State) : Host.Outcome State Fault Refusal := .next (s.arrives State.droneLoss)
/-- REBASE (R214): present in the PF0 page only (R238). -/
def execRebase (fn : Fn) (s : State) : Host.Outcome State Fault Refusal := .next (s.onPage fn.toNat fun s => if fn = 0 then s.rebase else s)
/-- CHT_DRONE_CFG (R210): present in the PF0 page only (R238). -/
def execChtDroneCfg (fn : Fn) (v : Word) (s : State) : Host.Outcome State Fault Refusal :=
  .next (s.onPage fn.toNat fun s => if fn = 0 then s.writeDroneCfg v else s)
/-- PLAN_PULSE (R224). -/
def execPlanPulse (handle : BitVec 32) (s : State) : Host.Outcome State Fault Refusal :=
  .next (s.within fun s => s.planPulse handle)
/-- SLIP (R213). -/
def execSlip (h : PktHdr) (s : State) : Host.Outcome State Fault Refusal :=
  .next (s.arrives fun s => s.pktHead h 7 fun t => t.rxSlip h fun t => t.slipFrom h.srcChip.toNat)
/-- SLIP_END (12 R280). -/
def execSlipEnd (h : PktHdr) (s : State) : Host.Outcome State Fault Refusal :=
  .next (s.arrives fun s => s.pktHead h 8 fun t => t.rxSlip h fun t => t.slipEndFrom h.srcChip.toNat)
/-- SLIP_LIMIT_EXPIRED (12 R280). -/
def execSlipLimitExpired (s : State) : Host.Outcome State Fault Refusal := .next (s.arrives State.slipLimit)
/-- SLIP_EXPIRED (09 R202). -/
def execSlipExpired (s : State) : Host.Outcome State Fault Refusal := .next (s.arrives State.slipExpire)
/-- PLAN_LOAD (R235). -/
def execPlanLoad (fn : Fn) (s : State) : Host.Outcome State Fault Refusal := .next (s.viewed fn.toNat fun s => s.planLoad fn.toNat)
/-- IMAGE_READ_DONE (R235). -/
def execImageReadDone (fn : Fn) (s : State) : Host.Outcome State Fault Refusal :=
  .next (s.arrives fun s => s.imageRead fn.toNat)
/-- PLAN_FREE (R236). -/
def execPlanFree (fn : Fn) (handle : BitVec 32) (count : BitVec 17) (s : State) : Host.Outcome State Fault Refusal :=
  .next (s.viewed fn.toNat fun s => s.planFree fn.toNat handle count.toNat)

/-! ## Windows and transport -/

/-- A packet with blocks arrives on a fabric port. -/
def execPacketData (h : PktHdr) (blocks : List Block) (s : State) : Host.Outcome State Fault Refusal :=
  .next (s.arrives fun s => s.pktHead h 1 fun t => t.rxData h blocks)
/-- PACKET_REDUCE (12 R276). -/
def execPacketReduce (h : PktHdr) (blocks : List Block) (s : State) : Host.Outcome State Fault Refusal :=
  .next (s.arrives fun s => s.pktHead h 2 fun t => t.rxData h blocks)
/-- PACKET_SIGNAL (09 R207). -/
def execPacketSignal (h : PktHdr) (s : State) : Host.Outcome State Fault Refusal :=
  .next (s.arrives fun s => s.pktHead h 3 fun t => t.rxSignal h)
/-- PACKET_ACK (12 R271). -/
def execPacketAck (h : PktHdr) (s : State) : Host.Outcome State Fault Refusal :=
  .next (s.arrives fun s => s.pktHead h 4 fun t => t.rxAck h)
/-- PACKET_NACK (12 R273). -/
def execPacketNack (h : PktHdr) (s : State) : Host.Outcome State Fault Refusal :=
  .next (s.arrives fun s => s.pktHead h 5 fun t => t.rxNack h)
/-- BLOCK_APPLIED (12 R271). -/
def execBlockApplied (src : BitVec 12) (psn : BitVec 24) (k : Fin 16) (s : State) : Host.Outcome State Fault Refusal :=
  .next (s.within fun s => s.blockApplied src.toNat psn.toNat k.val)
/-- RESEND_TIMEOUT (12 R273). -/
def execResendTimeout (dst : BitVec 12) (psn : BitVec 24) (s : State) : Host.Outcome State Fault Refusal :=
  .next (s.arrives fun s => s.resendPkt dst.toNat psn.toNat 0xFFFF)
/-- FABRIC_PORT_DOWN (15 R341). -/
def execFabricPortDown (f : Fin 12) (s : State) : Host.Outcome State Fault Refusal := .next (s.arrives fun s => s.portFalls f.val)
/-- PXP_ROUTE (12 R274). -/
def execPxpRoute (v : Word) (s : State) : Host.Outcome State Fault Refusal := .next (s.onPage 0 fun s => s.writeRoute v)
/-- PWN_OWIN (12 R261). -/
def execPwnOwin (fn : Fn) (word : BitVec 2) (v : Word) (s : State) : Host.Outcome State Fault Refusal :=
  .next (s.viewed fn.toNat fun s => s.writeOwin fn.toNat word.toNat v)
/-- PWN_IWIN (12 R266). -/
def execPwnIwin (fn : Fn) (word : BitVec 2) (v : Word) (s : State) : Host.Outcome State Fault Refusal :=
  .next (s.viewed fn.toNat fun s => s.writeIwin fn.toNat word.toNat v)
/-- IWIN_DRAINED (12 R266). -/
def execIwinDrained (i : BitVec 16) (s : State) : Host.Outcome State Fault Refusal := .next (s.within fun s => s.iwinDrained i.toNat)
/-- WINDOW_ALLOTMENT (12 R282). -/
def execWindowAllotment (inbound : Bool) (v : Word) (s : State) : Host.Outcome State Fault Refusal :=
  .next (s.onPage 0 fun s => s.writeAllot inbound v)

end Sys2Proof.Machine
end

