-- ==== Sys2Proof/Machine/ConfWrite.lean ====
section
/-! DEFINITION. Configuration space: what a configuration write of a function's instance on a link does (14_host_link_endpoint.md R306, R308,
R310, R311, R321, R325; 16_event_concentrator.md R350; 19_power_reset_and_bringup.md R396, R398). The places of the fields are PCI Express's
and CXL's (PRESUMED, log entry 126). -/

namespace Sys2Proof.Machine

/-- The dword bits that a write of `size` bytes at `off` covers. -/
def confMask (off size : Nat) : BitVec 32 := BitVec.ofNat 32 ((2 ^ (8 * size) - 1) <<< (8 * (off % 4)))

/-- A register after a write of the bits `m`: the written ones of `w`, the rest as before. -/
def written (old w m : BitVec 32) : BitVec 32 := (old &&& ~~~m) ||| (w &&& m)

/-- A one-bit field after such a write. -/
def writtenBit (old : Bool) (w m : BitVec 32) (b : Nat) : Bool := if bit32 m b then bit32 w b else old

/-- An instance changes, and bus mastering with it (R321). -/
def State.setInst (s : State) (link fn : Nat) (f : Inst → Inst) : State := s.reconfig fun t => t.onInst link fn f

/-- A write of the Command register (R321). -/
def State.writeCommand (s : State) (link fn : Nat) (w m : BitVec 32) : State :=
  s.setInst link fn fun i => { i with mse := writtenBit i.mse w m 1, bme := writtenBit i.bme w m 2 }

/-- A write of PF0's Power Management Control/Status register (19_power_reset_and_bringup.md R397 to R399): a D-state that is not implemented is
not taken. -/
def State.writePmcsr (s : State) (link : Nat) (w m : BitVec 32) : State :=
  let i := s.inst link 0
  let en := writtenBit i.pmeEn w m 8
  let clear := bit32 (w &&& m) 15
  if m &&& 3 = 0 then s.writePm 0 i.dstate en clear
  else match (w &&& 3).toNat with
    | 0 => s.d0Return 0 en clear
    | 3 => s.d3hot 0 en clear
    | _ => s.writePm 0 i.dstate en clear

/-- A write of Device Control: Relaxed Ordering and MPS, and Initiate Function Level Reset (R308, R311). -/
def State.writeDevCtl (s : State) (link fn : Nat) (w m : BitVec 32) : State :=
  let s1 := s.onInst link fn fun i => { i with
    ro := writtenBit i.ro w m 4, mps := if m &&& 0xE0 = 0 then i.mps else w.extractLsb' 5 3 }
  if bit32 (w &&& m) 15 then (if fn = 0 then s1.pfFlr link else s1.vfFlr fn link) else s1

/-- A write of Device Control 2: the Completion Timeout Value, ID-Based Ordering, and LTR (R308, R320). -/
def State.writeDevCtl2 (s : State) (link fn : Nat) (w m : BitVec 32) : State :=
  s.onInst link fn fun i => { i with
    cto := if m &&& 0xF = 0 then i.cto else w.setWidth 4, ido := writtenBit i.ido w m 8
    ltrEn := if fn = 0 then writtenBit i.ltrEn w m 10 else i.ltrEn }

/-- A write of MSI-X Message Control: pending vectors that may now go are sent (16_event_concentrator.md R350). -/
def State.writeMsixCtl (s : State) (link fn : Nat) (w m : BitVec 32) : State :=
  (s.onInst link fn fun i => { i with msixMask := writtenBit i.msixMask w m 30, msixEn := writtenBit i.msixEn w m 31 }).msixRetry fn

/-- The AER registers after a write at `off`: status bits are cleared by 1, masks and severities taken where the hub has the error (R325). -/
def Aer.put (a : Aer) (off : Nat) (w m : BitVec 32) : Aer :=
  match off with
  | 0x104 => { a with unc := a.unc &&& ~~~(w &&& m) }
  | 0x108 => { a with uncMask := written a.uncMask w m &&& 0x005D5000 }
  | 0x10C => { a with uncSev := written a.uncSev w (m &&& 0x005D5000) }
  | 0x110 => { a with cor := a.cor &&& ~~~(w &&& m) }
  | 0x114 => { a with corMask := written a.corMask w m &&& 0x0000E000 }
  | 0x118 => { a with ecrcGen := writtenBit a.ecrcGen w m 6, ecrcChk := writtenBit a.ecrcChk w m 8 }
  | _ => a

/-- A write of SR-IOV Control of PF0's instance: VF Enable with the VFs that NumVFs names, and VF MSE (R311). -/
def State.writeSriov (s : State) (link : Nat) (w m : BitVec 32) : State :=
  let count := ((s.inst link 0).rawAt 0 0x180).toNat
  let s1 := if bit32 m 3 then
      functions.foldl (fun (t : State) f => if f = 0 then t else t.onInst link f fun i => { i with mse := bit32 w 3 }) s
    else s
  if !bit32 m 0 then s1
  else if bit32 w 0 then functions.foldl (fun (t : State) f => if f = 0 ∨ count < f ∨ (t.inst link f).en then t else t.vfEnable f link) s1
  else functions.foldl (fun (t : State) f => if f = 0 ∨ !(t.inst link f).en then t else t.vfDisable f link) s1

/-- A write of the CXL Device DVSEC's control registers of PF0's instance (R306, R310): Cache_Enable, and Cache Writeback and Invalidate. -/
def State.writeCxl (s : State) (link off : Nat) (w m : BitVec 32) : State :=
  if off = 0x30C ∧ bit32 m 0 then (if bit32 w 0 then s.cacheOn link else s.cacheOff link)
  else if off = 0x310 ∧ bit32 (w &&& m) 1 then s.cacheWbInv
  else s

/-- A configuration write (R308 to R313, R325): the fields that the hub acts on, and those it only holds. An instance that is not there takes
none. -/
def State.confWrite (s : State) (link fn off size : Nat) (v : Word) : State :=
  let o := off / 4 * 4
  let m := confMask off size
  let w : BitVec 32 := (v <<< (8 * (off % 4))).setWidth 32
  if (s.confRead link fn o).isNone then s
  else
    let s1 := if confRaw fn o = 0 then s
      else s.onInst link fn fun i => { i with raw := tabPut confRawDflt i.raw o (written (i.rawAt fn o) w m &&& confRaw fn o) }
    match o with
    | 0x04 => s1.writeCommand link fn w m
    | 0x58 => s1.writeDevCtl link fn w m
    | 0x78 => s1.writeDevCtl2 link fn w m
    | 0x90 => s1.writeMsixCtl link fn w m
    | _ =>
      if 0x104 ≤ o ∧ o < 0x11C then s1.onAer link fn fun a => a.put o w m
      else if fn ≠ 0 then s1
      else match o with
        | 0x044 => s1.writePmcsr link w m
        | 0x178 => s1.writeSriov link w m
        | _ => s1.writeCxl link o w m

end Sys2Proof.Machine
end

