-- ==== Sys2Proof/Machine/Ddt.lean ====
section
/-! DEFINITION. The Device Description Table (14_host_link_endpoint.md R315 to R317): the X9's, with the 21 blocks of
21_register_pages.md R416 and no block a licensee adds (DESIGN CHOICE, log entry 11). -/

namespace Sys2Proof.Machine

/-- The block codes with registers in VF views (21 R416). -/
def vfBlocks : List Nat := [0x02, 0x03, 0x05, 0x06, 0x07, 0x08, 0x0A, 0x0C, 0x0D, 0x0E, 0x0F, 0x12, 0x13]

/-- The page entries (R316): block code, instance 0, BAR0 page, VF_VIEW, version 0x01. -/
def ddtPages : List Word :=
  (List.range 21).map fun c => place c 0 ||| place (0x20 + c) 16 ||| place (flag (vfBlocks.contains c)) 32 ||| place 0x01 40

/-- The X9's value of each key, from key 0x0001 on (R317). -/
def ddtValues : List Nat :=
  [4000000, 16384, 64, 24, 2, 32, 4, 524288, 16384, 128, 1024, 768, 256, 2097152, 16777216, 16777216, 16777216, 65536, 131072,
   65536, 512] ++ [16384, 65536, 4096, 8192, 192, 64, 2048, 412316860416, 8, 268435456, 64, 4, 12]

/-- The parameter entries (R317): key and value. -/
def ddtParams : List Word :=
  (List.range ddtValues.length).map fun k => place (k + 1) 0 ||| BitVec.ofNat 64 (ddtValues.getD k 0 <<< 16)

/-- PAGE_OFF: behind the header, where the integrator puts the page table (R315; log entry 11). -/
def ddtPageOff : Nat := 0x30 + 8 * (Config.ddtGap 0 % 1024)

/-- PARAM_OFF: behind the page table. -/
def ddtParamOff : Nat := ddtPageOff + 8 * ddtPages.length + 8 * (Config.ddtGap 1 % 1024)

/-- LENGTH: the bytes in use. -/
def ddtLength : Nat := ddtParamOff + 8 * ddtParams.length

/-- The 8-byte word at an offset from 0x20 on: the tables' places, FORMATS and the stack bits, the tables. -/
def ddtBody (off : Nat) : Word :=
  if off = 0x20 then
    place ddtPageOff 0 ||| place ddtPages.length 16 ||| place ddtParamOff 32 ||| place ddtParams.length 48
  else if off = 0x28 then 0x3FF ||| place Config.stackLsb 32 ||| place Config.stackBits 40
  else if ddtPageOff ≤ off ∧ off < ddtPageOff + 8 * ddtPages.length then ddtPages.getD ((off - ddtPageOff) / 8) 0
  else if ddtParamOff ≤ off ∧ off < ddtLength then ddtParams.getD ((off - ddtParamOff) / 8) 0
  else Config.ddtWord (off / 8)

/-- CRC: the CRC-32C of bytes 0x20 to LENGTH − 1 (R315). -/
def ddtCrc : BitVec 32 :=
  crc32c ((List.range ((ddtLength - 0x20) / 8)).map fun k => leBytes (ddtBody (0x20 + 8 * k)).toNat 8).flatten

/-- The Device Description Table (R315): ID, SIGNATURE and FORMAT with HUB_REVISION, LENGTH with CRC, and what follows; the word at 0x18 holds
no field. -/
def ddt (off : Nat) : Word :=
  match off with
  | 0x00 => 0x10000
  | 0x08 => 0x0000000134584847 ||| (Config.ddtWord 1 &&& 0xFFFF000000000000)
  | 0x10 => place ddtLength 0 ||| place ddtCrc.toNat 32
  | 0x18 => 0
  | _ => ddtBody off

end Sys2Proof.Machine
end

