-- ==== Sys2Proof/Machine/Regs.lean ====
section
/-! DEFINITION. The register map: what each register of BAR0's block pages reads as, what a write of it does, and what a read does
beside (00_scope.md R10 to R12; 21_register_pages.md R416 to R425; each chapter's register table). -/

namespace Sys2Proof.Machine

/-! ## Kinds of register (R12) -/

/-- A register as an access by a function sees it. `put` takes the value written and the bits written; `take` the bits read. -/
structure Reg where
  /-- The value it reads as. -/
  get : State → Nat → Word
  /-- What a write does. -/
  put : State → Nat → Word → Word → State := fun s _ _ _ => s
  /-- What a read does. -/
  take : State → Nat → Word → State := fun s _ _ => s

/-- A read-only register. -/
def ro (f : State → Nat → Word) : Reg := { get := f }

/-- A register whose fields `mask` are written; bits not written keep their value, and reserved bits are ignored (R11). -/
def rw (mask : Word) (f : State → Nat → Word) (g : State → Nat → Word → State) : Reg :=
  { get := f
    put := fun s fn v m => if m &&& mask = 0 then s else g s fn (((f s fn &&& ~~~m) ||| (v &&& m)) &&& mask) }

/-- A register that a read clears, the bytes it covers alone (R10). -/
def rc (f : State → Nat → Word) (g : State → Nat → Word → State) : Reg :=
  { get := f, take := fun s fn m => g s fn (f s fn &&& ~~~m) }

/-- A register whose bits a write of 1 clears. -/
def w1c (f : State → Nat → Word) (g : State → Nat → Word → State) : Reg :=
  { get := f, put := fun s fn v m => g s fn (f s fn &&& ~~~(v &&& m)) }

/-- A register whose write is an action: it acts when it covers a bit of the field `key` that names the action; bits not written are 0
(log entry 38). -/
def wo (key : Word) (act : State → Nat → Word → State) : Reg :=
  { get := fun _ _ => 0, put := fun s fn v m => if m &&& key = 0 then s else act s fn (v &&& m) }

/-- A number as a register's value. -/
def num (n : Nat) : Word := BitVec.ofNat 64 n

/-! ## The common header (R418 to R421) -/

/-- CAPS.VF_VIEW of a page (R416). -/
def vfView (pg : Nat) : Bool :=
  [0x02, 0x03, 0x05, 0x06, 0x07, 0x08, 0x0A, 0x0C, 0x0D, 0x0E, 0x0F, 0x12, 0x13].contains pg

/-- A page's counters change. -/
def State.onPageCounters (s : State) (pg : Nat) (f : PageCounters → PageCounters) : State :=
  s.onGlb fun g => { g with blocks := tabMod (fun _ => {}) g.blocks pg f }

/-- The counters cleared, but for what was counted in this hub cycle (R421): CTL.CNT_FREEZE and STATUS.DEGRADED stand (R418). -/
def PageCounters.cleared (c : PageCounters) (time : Word) : PageCounters := { c with toCounts := c.nowOf time }

/-- CNT_CLEAR of a page (R418, R421). -/
def State.clearPage (s : State) (pg : Nat) : State := s.onPageCounters pg fun c => c.cleared s.glb.time

/-- CLEAR_ALL: the counters of every page (R425). -/
def State.clearAll (s : State) : State := (List.range 21).foldl State.clearPage s

/-- DBG_TRACE_CLEAR: the ring is emptied and WRAPPED cleared (R425). -/
def State.traceClear (s : State) : State := s.onGlb fun g => { g with trace := [], tracePtr := 0, traceWrapped := false }

/-- STICKY as a write of 1 leaves it: HUB_FATAL is not cleared so (R423), nor is a bit the hub sets in that cycle (00_scope.md R13). -/
def State.writeSticky (s : State) (pg fn : Nat) (v : Word) : State :=
  let k := s.sticky pg fn
  let w := v ||| (k.bits &&& k.now s.glb.time)
  s.setView pg fn { k with bits := if pg = 0 then w ||| (k.bits &&& 0x10) else w }

/-- A counter's value after a read that clears the bytes `m`: what was counted in this hub cycle counts after the clear (R421). -/
def PageCounters.taken (c : PageCounters) (time : Word) (f : Counts → Word) (m : Word) : Word :=
  ((f c.toCounts - f (c.nowOf time)) &&& ~~~m) + f (c.nowOf time)

/-- A block counter of PF0's page (R421). -/
def counter (pg : Nat) (f : Counts → Word) (g : PageCounters → Word → PageCounters) : Reg :=
  { get := fun s fn => if fn = 0 then f (s.page pg).toCounts else 0
    take := fun s fn m => if fn = 0 then s.onPageCounters pg fun c => g c (c.taken s.glb.time f m) else s }

/-- OPS or BYTES of the movers: undefined while the last segment of a context was stopped (06_movers.md R144; log entry 36). -/
def progress (f : Counts → Word) (g : PageCounters → Word → PageCounters) : Reg :=
  let open_ (s : State) : Bool := s.mov.job.any (·.2.stopped)
  let get (s : State) (fn : Nat) : Word :=
    if fn = 0 then if open_ s then Config.stoppedCount s.free else f (s.page pgMOV).toCounts else 0
  { get := get
    take := fun s fn m =>
      let t := if fn ≠ 0 then s
        else if open_ s then s.onPageCounters pgMOV fun c => g c (get s fn &&& ~~~m)
        else s.onPageCounters pgMOV fun c => g c (c.taken s.glb.time f m)
      if open_ s then t.draw.2 else t }

/-- CTL, in PF0's page only (R418). -/
def ctl (pg : Nat) : Reg :=
  { get := fun s fn => if fn = 0 then num (s.page pg).freeze.toNat else 0
    put := fun s fn v m =>
      if fn ≠ 0 then s
      else
        let t := if bit (v &&& m) 1 then s.clearPage pg else s
        if bit m 0 then t.onPageCounters pg fun c => { c with freeze := bit v 0 } else t }

/-- STICKY_FIRST: writing 1 to VALID clears the register (R418), but for what the hub sets in that cycle (00_scope.md R13). -/
def stickyFirst (pg : Nat) : Reg :=
  { get := fun s fn => (s.sticky pg fn).first
    put := fun s fn v m => if bit (v &&& m) 63 then s.setView pg fn { s.sticky pg fn with first := (s.sticky pg fn).firstNow s.glb.time } else s }

/-- The header of a page's view. -/
def header (pg off : Nat) : Option Reg :=
  match off with
  | 0x00 => some (ro fun _ _ => place pg 24 ||| 0x10000)
  | 0x08 => some (ro fun _ _ => place (stickyImpl pg) 32 ||| place 7 4 ||| num (vfView pg).toNat)
  | 0x10 => some (ctl pg)
  | 0x18 => some (ro fun s _ => place (s.page pg).degraded.toNat 1 ||| num (s.activePage pg).toNat)
  | 0x20 => some (w1c (fun s fn => (s.sticky pg fn).bits) fun s fn v => s.writeSticky pg fn v)
  | 0x28 => some (rw (num (stickyImpl pg)) (fun s fn => (s.sticky pg fn).en) fun s fn v => s.setView pg fn { s.sticky pg fn with en := v })
  | 0x30 => some (stickyFirst pg)
  | 0x38 => some (rc (fun s fn => (s.sticky pg fn).count.setWidth 64) fun s fn v =>
      s.setView pg fn { s.sticky pg fn with count := v.setWidth 32 })
  | 0x40 => some (counter pg (·.active) fun c v => { c with active := v })
  | 0x48 => some (if pg = pgMOV then progress (·.ops) fun c v => { c with ops := v } else counter pg (·.ops) fun c v => { c with ops := v })
  | 0x50 => some (counter pg (·.stall) fun c v => { c with stall := v })
  | 0x58 => some (if pg = pgMOV then progress (·.bytes) fun c v => { c with bytes := v } else counter pg (·.bytes) fun c v => { c with bytes := v })
  | 0x60 => some (counter pg (·.ce) fun c v => { c with ce := v })
  | 0x68 => some (counter pg (·.ue) fun c v => { c with ue := v })
  | 0x70 => some (counter pg (·.retired) fun c v => { c with retired := v })
  | _ => none

/-! ## GLB, CTX and DBG (R410, R423 to R425) -/

/-- GLB_BOOT_CTL (R410). -/
def bootCtl : Reg :=
  { get := fun s _ => place s.pwr.aperture.toNat 8 ||| num s.pwr.bootOpen.toNat
    put := fun s _ v m =>
      let t := if bit m 8 then s.onPwr fun p => { p with aperture := v.extractLsb' 8 4 } else s
      if bit (v &&& m) 1 then t.bootClose else t }

/-- GLB. -/
def regsGLB (off : Nat) : Option Reg :=
  match off with
  | 0x100 => some (ro fun s _ => s.glb.time)
  | 0x200 => some (wo 0xFFFF fun s _ v => s.warmReset v)
  | 0x208 => some bootCtl
  | 0x210 => some (rw 0xFFFFFFFFFFFFFFFF (fun s _ => s.pwr.bootArg) fun s _ v => s.onPwr fun p => { p with bootArg := v })
  | 0x218 => some (wo 0xFFFFFFFFFFFFFFFF fun s _ _ => s.bootDoorbell)
  | 0x220 => some (ro fun s _ => s.pwr.resetCause.setWidth 64)
  | _ => none

/-- CTX. -/
def regsCTX (off : Nat) : Option Reg :=
  match off with
  | 0x100 => some (ro fun s _ => num s.cachedCount)
  | 0x108 => some (rc (fun s _ => s.glb.ctxFetchWait.setWidth 64) fun s _ v => s.onGlb fun g => { g with ctxFetchWait := v.setWidth 32 })
  | 0x110 => some (rc (fun s _ => s.glb.ctxEvict.setWidth 64) fun s _ v => s.onGlb fun g => { g with ctxEvict := v.setWidth 32 })
  | 0x118 => some (rc (fun s _ => s.glb.ctxWrite.setWidth 64) fun s _ v => s.onGlb fun g => { g with ctxWrite := v.setWidth 32 })
  | _ => none

/-- The trace entry that DBG_TRACE_IDX selects. -/
def State.traceSel (s : State) : TraceEntry := tabGet (fun _ => {}) s.glb.trace s.glb.traceIdx.toNat

/-- DBG_CTL (R425). -/
def dbgCtl : Reg :=
  { get := fun s _ => num s.glb.freezeAll.toNat
    put := fun s _ v m =>
      let t := if bit (v &&& m) 1 then s.clearAll else s
      if bit m 0 then t.onGlb fun g => { g with freezeAll := bit v 0 } else t }

/-- DBG. -/
def regsDBG (off : Nat) : Option Reg :=
  match off with
  | 0x100 => some dbgCtl
  | 0x108 => some (rw 0x80000000001FFFFF (fun s _ => place s.glb.traceEn.toNat 63 ||| s.glb.traceMask.setWidth 64)
      fun s _ v => s.onGlb fun g => { g with traceEn := bit v 63, traceMask := v.setWidth 21 })
  | 0x110 => some (ro fun s _ => place s.glb.traceWrapped.toNat 12 ||| s.glb.tracePtr.setWidth 64)
  | 0x118 => some (rw 0xFFF (fun s _ => s.glb.traceIdx.setWidth 64) fun s _ v => s.onGlb fun g => { g with traceIdx := v.setWidth 12 })
  | 0x120 => some (ro fun s _ => s.traceSel.time)
  | 0x128 => some (ro fun s _ => s.traceSel.info)
  | 0x130 => some (rc (fun s _ => s.glb.traceLost.setWidth 64) fun s _ v => s.onGlb fun g => { g with traceLost := v.setWidth 32 })
  | 0x138 => some (wo 1 fun s _ v => if bit v 0 then s.traceClear else s)
  | _ => none

/-! ## HLK and EPF (14_host_link_endpoint.md R326, R327) -/

/-- HLK_LINK_STATUS of a link. -/
def State.linkStatus (s : State) (l : Nat) : Word :=
  let k := s.link l
  place k.up.toNat 31 ||| place (s.carries l).toNat 30 ||| place k.flit256.toNat 29 ||| place k.width.toNat 16 ||| num k.speed.toNat

/-- HLK. -/
def regsHLK (off : Nat) : Option Reg :=
  match off with
  | 0x100 => some (rw 0x83838383 (fun s _ => s.hlk.groupMap) fun s _ v => s.hlkRemap .groupMap v)
  | 0x108 => some (rw 7 (fun s _ => s.hlk.rsel.setWidth 64) fun s _ v => s.onHlk fun h => { h with rsel := v.setWidth 3 })
  | 0x110 => some (rw 0xFFFFFFFFFFFFF031 (fun s _ => (s.hlkRange s.hlk.rsel.toNat).base) fun s _ v => s.hlkRemap .rangeBase v)
  | 0x118 => some (rw 0xFFFFFFFFFFFFF000 (fun s _ => (s.hlkRange s.hlk.rsel.toNat).limit) fun s _ v => s.hlkRemap .rangeLimit v)
  | 0x120 => some (ro fun s _ => num s.hlk.remap.isSome.toNat)
  | 0x128 => some (rw 3 (fun s _ => s.hlk.linkSel.setWidth 64) fun s _ v => s.onHlk fun h => { h with linkSel := v.setWidth 2 })
  | 0x130 => some (ro fun s _ => s.linkStatus s.hlk.linkSel.toNat)
  | 0x138 => some (ro fun s _ => num ((s.hlk.np.filter fun n => n.link = s.hlk.linkSel.toNat).length % 128))
  | 0x140 => some (rc (fun s _ => s.hlk.lateCpl.setWidth 64) fun s _ v => s.onHlk fun h => { h with lateCpl := v.setWidth 32 })
  | 0x148 => some (rc (fun s _ => s.hlk.cplTimeout.setWidth 64) fun s _ v => s.onHlk fun h => { h with cplTimeout := v.setWidth 32 })
  | 0x150 => some (rc (fun s _ => s.hlk.unexpCpl.setWidth 64) fun s _ v => s.onHlk fun h => { h with unexpCpl := v.setWidth 32 })
  | _ => none

/-- EPF_FUNC_STATE of the selected instance. -/
def State.funcState (s : State) : Word :=
  let l := field s.hlk.funcSel 9 8
  let f := field s.hlk.funcSel 5 0
  let i := s.inst l f
  place i.dstate.toNat 16 ||| place i.tag14.toNat 12 ||| place i.ro.toNat 11 ||| place i.mps.toNat 8 ||| place i.cto.toNat 4 |||
    place (s.inFlr f).toNat 3 ||| place i.mse.toNat 2 ||| place i.bme.toNat 1 ||| num (s.fnOn f l).toNat

/-- EPF_LINKS of a function. -/
def State.epfLinks (s : State) (f : Nat) : Word :=
  links4.foldl (fun w l => w ||| place ((s.fnOn f l && (s.inst l f).bme)).toNat (4 + l) ||| place (s.fnOn f l).toNat l)
    (place (s.masterEnabled f).toNat 8)

/-- EPF. -/
def regsEPF (off : Nat) : Option Reg :=
  match off with
  | 0x100 => some (rw 0x33F (fun s _ => s.hlk.funcSel.setWidth 64) fun s _ v => s.onHlk fun h => { h with funcSel := v.setWidth 10 })
  | 0x108 => some (ro fun s _ => s.funcState)
  | 0x400 => some (ro fun s fn => s.epfLinks fn)
  | _ => none

/-! ## DBL (02_channels_and_doorbells.md R51) -/

/-- DBL. -/
def regsDBL (off : Nat) : Option Reg :=
  match off with
  | 0x100 => some (wo 0xFFFFFFFFFFFFFFC0 fun s fn v => s.mgmtSubmit fn v)
  | 0x108 => some (rw 0xFFFFF (fun s fn => num (s.mgmt fn).asid) fun s fn v => s.onMgmt fn fun m => { m with asid := v.toNat })
  | 0x110 => some (ro fun s fn => num (s.mgmt fn).queue.length)
  | 0x118 => some (rw 0xFFFFF (fun s fn => (s.mgmt fn).retireLimit.setWidth 64)
      fun s fn v => s.onMgmt fn fun m => { m with retireLimit := v.setWidth 20 })
  | 0x120 => some (ro fun s fn => num (s.chanCount fn))
  | _ => none

/-! ## XLT (04_translation.md R81 to R83, R88, R104; 05 R126) -/

/-- A write to a register of a profile (R82): profiles 0 and 1 are read-only, and one that a bound ASID uses is not changed. -/
def State.writeProfile (s : State) (n : Nat) (f : Profile → Profile) : State :=
  if n < 2 then s
  else if s.xlt.binds.any (·.prof = n) then s.flag pgXLT 0 6
  else if s.macroLost 0x10 (65536 + n) then s
  else s.onXlt fun t => { t with prof := tabMod profDflt t.prof n f }

/-- A register of a profile. -/
def profileReg (n off : Nat) : Option Reg :=
  match off with
  | 0x00 => some (rw 0x000001003F3F0F37 (fun s _ => (s.profile n).fmt) fun s _ v => s.writeProfile n fun p => { p with fmt := v })
  | 0x08 => some (rw 0xFFFFFFFFFFFFFFFF (fun s _ => (s.profile n).bitsA) fun s _ v => s.writeProfile n fun p => { p with bitsA := v })
  | 0x10 => some (rw 0x000000FFFFFFFFFF (fun s _ => (s.profile n).bitsB) fun s _ v => s.writeProfile n fun p => { p with bitsB := v })
  | 0x18 => some (rw 0xFFFFFFFFFFFFFFFF (fun s _ => (s.profile n).rsv) fun s _ v => s.writeProfile n fun p => { p with rsv := v })
  | _ => none

/-- The range that XLT_PSEL selects. -/
def State.selRange (s : State) : PRange := s.prange (field s.xlt.psel 5 0) (field s.xlt.psel 8 8) (field s.xlt.psel 18 16)

/-- XLT_BIND_CMD (R81). -/
def State.bindCmd (s : State) (fn : Nat) (v : Word) : State :=
  if (s.bindRegs fn).busy then s.xltFlag fn 5
  else match field v 1 0 with
    | 1 => s.bindAsid fn (field v 27 8)
    | 2 => s.unbindAsid fn (field v 27 8)
    | _ => s

/-- XLT, from 0x0200. -/
def regsXLT (off : Nat) : Option Reg :=
  match off with
  | 0x200 => some (rw 0xFFFFFFFFFFFF (fun s _ => s.xlt.walkCtl) fun s _ v => s.onXlt fun t => { t with walkCtl := v })
  | 0x208 => some (rw 0x7013F (fun s _ => s.xlt.psel) fun s _ v => s.onXlt fun t => { t with psel := v })
  | 0x210 => some (rw 0xFFFFFFFFFFFFF001 (fun s _ => s.selRange.base) fun s _ v => s.writePrange false v)
  | 0x218 => some (rw 0xFFFFFFFFFFFFF000 (fun s _ => s.selRange.limit) fun s _ v => s.writePrange true v)
  | 0x220 => some (rw 0x1FFF (fun s _ => num (tabGet asidMaxDflt s.xlt.asidMax (field s.xlt.psel 5 0))) fun s _ v => s.onXlt fun t => { t with
      asidMax := tabPut asidMaxDflt t.asidMax (field t.psel 5 0) v.toNat })
  | 0x228 => some (rw 0x3FF (fun s _ => s.xlt.clientSel.setWidth 64) fun s _ v => s.onXlt fun t => { t with clientSel := v.setWidth 10 })
  | 0x230 => some (rw 0x13F
      (fun s _ => place (s.client s.xlt.clientSel.toNat).en.toNat 8 ||| num (s.client s.xlt.clientSel.toNat).part)
      fun s _ v => s.onXlt fun t => { t with
        client := tabPut (fun _ => {}) t.client t.clientSel.toNat { en := bit v 8, part := field v 5 0 } })
  | 0x238 => some (rw 0xFFFFFF (fun s _ => s.xlt.drainLimit.setWidth 64) fun s _ v => s.onXlt fun t => { t with drainLimit := v.setWidth 24 })
  | 0x400 => some (rw 0xFFFFFFFFFFFFF710 (fun s fn => (s.bindRegs fn).root) fun s fn v => s.onBind fn fun b => { b with root := v })
  | 0x408 => some (wo 3 fun s fn v => s.bindCmd fn v)
  | 0x410 => some (ro fun s fn => place (s.bindRegs fn).busy.toNat 63 ||| place (s.bindRegs fn).asid 8 ||| (s.bindRegs fn).result.setWidth 64)
  | 0x418 => some (rw 0xFFFFFFFFFFFFF001 (fun s fn => (s.queue false fn).base) fun s fn v => s.writeBase false fn false v)
  | 0x420 => some (rw 0x1F (fun s fn => (s.queue false fn).size.setWidth 64) fun s fn v => s.writeBase false fn true v)
  | 0x428 => some (rw 0x1FFFF (fun s fn => num (s.queue false fn).head) fun s fn v => s.writeHead false fn v)
  | 0x430 => some (ro fun s fn => num (s.queue false fn).tail)
  | 0x438 => some (ro fun s fn => (s.queue false fn).overflow.setWidth 64)
  | 0x440 => some (rc (fun s fn => (tabGet (fun _ => (0 : BitVec 32)) s.xlt.suppressed fn).setWidth 64)
      fun s fn v => s.onXlt fun t => { t with suppressed := tabPut (fun _ => 0) t.suppressed fn (v.setWidth 32) })
  | 0x448 => some (ro fun s fn => num (s.asidCount fn))
  | 0x450 => some (wo 0xFFFFFFFFFFFFFFC0 fun s fn v => s.invSubmit fn v)
  | 0x458 => some (ro fun s fn => num (s.invQueued fn))
  | _ => profileReg ((off - 0x100) / 0x20) (if off < 0x200 then off % 0x20 else 1)

/-! ## SKK (05_invalidation_and_placement.md R125) -/

/-- The partition that SKK_PSEL selects. -/
def State.skkSel (s : State) : Nat := s.skk.psel.toNat

/-- A pool register is written: the pool is judged anew (R116). -/
def State.writePool (s : State) (f : SkkPart → SkkPart) : State :=
  (s.onSkkPart s.skkSel fun k => { f k with poolBad := false }).judgePool s.skkSel

/-- SKK_REQ (R125); a RELEASE reads the 16 entries in host memory (R122). -/
def State.skkReq (s : State) (fn : Nat) (v : Word) : State :=
  match field v 63 60 with
  | 1 => s.accept fn (field v 31 16)
  | 2 => s.decline fn (field v 31 16)
  | 3 => s.recall fn (field v 47 16)
  | 4 => s.release fn (field v 47 16)
  | _ => s

/-- SKK. -/
def regsSKK (off : Nat) : Option Reg :=
  match off with
  | 0x100 => some (rw 0x3F (fun s _ => s.skk.psel.setWidth 64) fun s _ v => s.onSkk fun k => { k with psel := v.setWidth 6 })
  | 0x108 => some (rw 0x8000FFFF0000FF00
      (fun s _ => place (s.skkPart s.skkSel).en.toNat 63 ||| place (s.skkPart s.skkSel).thresh.toNat 32 |||
        place (s.skkPart s.skkSel).pendMax.toNat 8)
      fun s _ v => s.onSkkPart s.skkSel fun k => { k with
        en := bit v 63, thresh := v.extractLsb' 32 16, pendMax := v.extractLsb' 8 8 })
  | 0x110 => some (rw 0xFFFFFFFFFFFF0001 (fun s _ => (s.skkPart s.skkSel).poolBase) fun s _ v => s.writePool fun k => { k with poolBase := v })
  | 0x118 => some (rw 0xFFFFFFFFFFFF0000 (fun s _ => (s.skkPart s.skkSel).poolLimit) fun s _ v => s.writePool fun k => { k with poolLimit := v })
  | 0x120 => some (rw 0xFFFFF (fun s _ => s.skk.decay.setWidth 64) fun s _ v => s.onSkk fun k => { k with decay := v.setWidth 20 })
  | 0x128 => some (rw 0xFFFFFF (fun s _ => s.skk.ackLimit.setWidth 64) fun s _ v => s.onSkk fun k => { k with ackLimit := v.setWidth 24 })
  | 0x130 => some (ro fun s _ => s.skk.thermal.setWidth 64)
  | 0x138 => some (ro fun s _ => num s.skk.pending.length)
  | 0x400 => some (rw 0xFFFFFFFFFFFFF001 (fun s fn => (s.queue true fn).base) fun s fn v => s.writeBase true fn false v)
  | 0x408 => some (rw 0x1F (fun s fn => (s.queue true fn).size.setWidth 64) fun s fn v => s.writeBase true fn true v)
  | 0x410 => some (rw 0x1FFFF (fun s fn => num (s.queue true fn).head) fun s fn v => s.writeHead true fn v)
  | 0x418 => some (ro fun s fn => num (s.queue true fn).tail)
  | 0x420 => some (ro fun s fn => (s.queue true fn).overflow.setWidth 64)
  | 0x428 => some (wo 0xF000000000000000 fun s fn v => s.skkReq fn v)
  | 0x430 => some (rc (fun s fn => (s.skkPart fn).hintDropped.setWidth 64)
      fun s fn v => s.onSkkPart fn fun k => { k with hintDropped := v.setWidth 32 })
  | 0x438 => some (rc (fun s fn => (s.skkPart fn).skipped.setWidth 64)
      fun s fn v => s.onSkkPart fn fun k => { k with skipped := v.setWidth 32 })
  | 0x440 => some (ro fun s fn => num (s.skk.placed.filter fun e => e.part = fn).length)
  | _ => none

/-! ## MOV and CCU (06_movers.md R149; 07_number_formats_and_ccu.md R172) -/

/-- The path that MOV_PSEL selects: above 22 is taken as 22. -/
def State.selPath (s : State) : Nat := min 22 (field s.mov.psel 20 16)

/-- The index of MOV_PART_SHARE that MOV_PSEL selects. -/
def State.shareKey (s : State) : Nat := field s.mov.psel 5 0 * 23 + s.selPath

/-- The reset entry of MOV_PART_SHARE. -/
def shareDflt (k : Nat) : Nat := if k / 23 = 0 then 256 else 0

/-- The number of a mover context's state in MOV_CTX_STATUS. -/
def JobSt.num : JobSt → Nat
  | .idle => 0
  | .running => 1
  | .preempted => 2
  | .held => 3
  | .completing => 4
  | .draining => 5

/-- The context that MOV_CTX_SEL names (R149). -/
def State.ctxJob (s : State) : Job := s.job (field s.mov.ctxSel 5 0) (bit s.mov.ctxSel 8)

/-- MOV_CTX_STATUS (R149); after a STOP the count is undefined until the context takes a new segment (R144; log entry 36). -/
def State.ctxStatus (s : State) : Word :=
  let j := s.ctxJob
  let h : Nat := match j.work with | some w => (s.handleOf (s.workSlot w)).toNat | none => 0
  let n := if j.stopped then Config.stoppedProgress s.free else j.issued
  place h 32 ||| place (n % 65536) 16 ||| num j.st.num

/-- MOV_ENG_STATUS (R149). -/
def State.engStatus (s : State) : Word :=
  place s.mov.spareB 24 ||| place (s.movers .B).length 16 ||| place s.mov.spareA 8 ||| num (s.movers .A).length

/-- The channel that MOV_CHAN_SEL names, if its handle passes R7. -/
def State.movChan (s : State) (fn : Nat) : Option Nat := s.goodChan (s.movView fn).chanSel fn

/-- MOV_CHAN_SHARE: an access with a handle that fails R7 sets CHAN_SEL_BAD (R149). -/
def chanShare : Reg :=
  let get (s : State) (fn : Nat) : Word := match s.movChan fn with | some k => num (s.chan k).share | none => 0
  { get := get
    put := fun s fn v m => match s.movChan fn with
      | some k => s.onChan k fun c => { c with share := field ((get s fn &&& ~~~m) ||| (v &&& m)) 8 0 }
      | none => s.movFlag fn 4
    take := fun s fn _ => if (s.movChan fn).isNone then s.movFlag fn 4 else s }

/-- MOV. -/
def regsMOV (off : Nat) : Option Reg :=
  match off with
  | 0x100 => some (rw 0x1F003F (fun s _ => s.mov.psel.setWidth 64) fun s _ v => s.onMov fun m => { m with psel := v.setWidth 21 })
  | 0x108 => some (rw 0x1FF (fun s _ => num (tabGet shareDflt s.mov.partShare s.shareKey))
      fun s _ v => s.onMov fun m => { m with partShare := tabPut shareDflt m.partShare s.shareKey v.toNat })
  | 0x110 => some (ro fun s _ => num (pathCap s.selPath))
  | 0x118 => some (rw 0xFFFFF (fun s _ => s.mov.urgentDebt.setWidth 64) fun s _ v => s.onMov fun m => { m with urgentDebt := v.setWidth 20 })
  | 0x120 => some (rw 0x1FF00FF (fun s _ => place (s.area (field s.mov.psel 5 0)).size 16 ||| num (s.area (field s.mov.psel 5 0)).base)
      fun s _ v => s.writeArea v)
  | 0x128 => some (ro fun s _ => s.engStatus)
  | 0x130 => some (rw 0x13F (fun s _ => s.mov.ctxSel.setWidth 64) fun s _ v => s.onMov fun m => { m with ctxSel := v.setWidth 9 })
  | 0x138 => some { get := fun s _ => s.ctxStatus, take := fun s _ _ => if s.ctxJob.stopped then s.draw.2 else s }
  | 0x400 => some (rw 0xFFFFFFFF (fun s fn => (s.movView fn).chanSel.setWidth 64)
      fun s fn v => s.onMovView fn fun w => { w with chanSel := v.setWidth 32 })
  | 0x408 => some chanShare
  | 0x410 => some (ro fun s fn => place (s.area fn).size 16 ||| num (s.area fn).clearing.toNat)
  | 0x418 => some (rc (fun s fn => (s.movView fn).preempt.setWidth 64)
      fun s fn v => s.onMovView fn fun w => { w with preempt := v.setWidth 32 })
  | 0x420 => some (rc (fun s fn => (s.movView fn).reedHeld.setWidth 64)
      fun s fn v => s.onMovView fn fun w => { w with reedHeld := v.setWidth 32 })
  | _ => none

/-- A counter of the CCU page. -/
def ccuCounter (f : CcuCount → BitVec 48) (g : CcuCount → BitVec 48 → CcuCount) : Reg :=
  rc (fun s fn => (f (s.ccuCount fn)).setWidth 64) fun s fn v => s.onCcuCount fn fun c => g c (v.setWidth 48)

/-- CCU. -/
def regsCCU (off : Nat) : Option Reg :=
  match off with
  | 0x100 => some (ro fun s _ =>
      place s.ccu.retired.length 16 ||| place (2 - s.ccu.retired.length) 8 ||| num s.activeLanes.length)
  | 0x108 => some (ro fun s _ => num (8 * s.activeLanes.length))
  | 0x110 => some (rw 0xFFFFFFFFFFFFFFFF (fun s _ => s.ccu.seed) fun s _ v => s.seed v)
  | 0x400 => some (ccuCounter (·.nan) fun c v => { c with nan := v })
  | 0x408 => some (ccuCounter (·.ovf) fun c v => { c with ovf := v })
  | 0x410 => some (ccuCounter (·.sat) fun c v => { c with sat := v })
  | 0x418 => some (ccuCounter (·.clamp) fun c v => { c with clamp := v })
  | 0x420 => some (ccuCounter (·.atomic) fun c v => { c with atomic := v })
  | _ => none

/-! ## COH (11_coherence_home.md R259) -/

/-- COH_AGENT_CFG: EN of the selected ID; PORT is the die's, and 4 for the internal requesters (R240). -/
def State.agentCfg (s : State) : Word :=
  let id := s.home.agentSel.toNat
  place (if 1280 ≤ id ∧ id < 1408 then 4 else Config.agentPort id % 4) 8 ||| num (!s.home.disabled.contains id).toNat

/-- A write of COH_AGENT_CFG; an agent enabled again may hold lines again (R240, R258). -/
def State.writeAgentCfg (s : State) (v : Word) : State :=
  let id := s.home.agentSel.toNat
  s.onHome fun h => { h with
    disabled := if bit v 0 then h.disabled.filter (· ≠ id) else insertNat h.disabled id
    dead := if bit v 0 then h.dead.filter (· ≠ id) else h.dead }

/-- A write of COH_HOLD, which coh_hold[8:0] follows (R251, R259). -/
def State.writeHold (s : State) (v : BitVec 9) : State :=
  let t := s.onHome fun h => { h with hold := v }
  t.emit (.cohHold t.cohHold)

/-- A counter of the COH page. -/
def cohCounter (f : Home → BitVec 32) (g : Home → BitVec 32 → Home) : Reg :=
  rc (fun s _ => (f s.home).setWidth 64) fun s _ v => s.onHome fun h => g h (v.setWidth 32)

/-- COH. -/
def regsCOH (off : Nat) : Option Reg :=
  match off with
  | 0x100 => some (rw 0x1FF (fun s _ => s.home.hold.setWidth 64) fun s _ v => s.writeHold (v.setWidth 9))
  | 0x108 => some (rw 0xFFFF (fun s _ => s.home.snoopLimit.setWidth 64) fun s _ v => s.onHome fun h => { h with snoopLimit := v.setWidth 16 })
  | 0x110 => some (rw 0xFFFFFF (fun s _ => s.home.hostLimit.setWidth 64) fun s _ v => s.onHome fun h => { h with hostLimit := v.setWidth 24 })
  | 0x118 => some (rw 0xFFFF (fun s _ => s.home.creditLimit.setWidth 64) fun s _ v => s.onHome fun h => { h with creditLimit := v.setWidth 16 })
  | 0x120 => some (rw 0x7FF (fun s _ => s.home.agentSel.setWidth 64) fun s _ v => s.onHome fun h => { h with agentSel := v.setWidth 11 })
  | 0x128 => some (rw 1 (fun s _ => s.agentCfg) fun s _ v => s.writeAgentCfg v)
  | 0x130 => some (ro fun s _ => num (s.home.line.filter fun (e : Nat × Line) => e.2.entry).length)
  | 0x138 => some (ro fun s _ => num (s.home.line.filter fun (e : Nat × Line) => e.2.dc ≠ 0 && !e.2.dcWait).length)
  | 0x140 => some (cohCounter (·.recalls) fun h v => { h with recalls := v })
  | 0x148 => some (cohCounter (·.retries) fun h v => { h with retries := v })
  | 0x150 => some (cohCounter (·.stale) fun h v => { h with stale := v })
  | 0x158 => some (cohCounter (·.snoops) fun h v => { h with snoops := v })
  | 0x160 => some (cohCounter (·.crosses) fun h v => { h with crosses := v })
  | _ => none

/-! ## PWN and PXP (12_peer_windows_and_transport.md R282, R283) -/

/-- A word of the window entry that a function has selected: an entry outside its run reads zero and sets WIN_FOREIGN (R282). -/
def winReg (inbound : Bool) (k : Nat) : Reg :=
  let sel (s : State) (fn : Nat) : Nat := if inbound then (s.pwnView fn).iwinSel.toNat else (s.pwnView fn).owinSel.toNat
  let mine (s : State) (fn : Nat) : Bool := (s.allot inbound fn).has (sel s fn)
  let get (s : State) (fn : Nat) : Word :=
    if mine s fn then (if inbound then s.iwin (sel s fn) else s.owin (sel s fn)).word k else 0
  { get := get
    put := fun s fn v m =>
      let w := (get s fn &&& ~~~m) ||| (v &&& m)
      if inbound then s.writeIwin fn k w else s.writeOwin fn k w
    take := fun s fn _ => if mine s fn then s else s.pwnFlag fn 5 }

/-- PWN_IWIN_STATUS. -/
def iwinStatus : Reg :=
  let sel (s : State) (fn : Nat) : Nat := (s.pwnView fn).iwinSel.toNat
  { get := fun s fn =>
      if (s.allot true fn).has (sel s fn) then
        place (s.iwin (sel s fn)).busy.toNat 63 ||| (s.iwin (sel s fn)).applied.setWidth 64
      else 0
    take := fun s fn _ => if (s.allot true fn).has (sel s fn) then s else s.pwnFlag fn 5 }

/-- A function's PWN view changes. -/
def State.onPwnView (s : State) (fn : Nat) (f : PwnView → PwnView) : State :=
  s.onPeer fun p => { p with view := tabMod (fun _ => {}) p.view fn f }

/-- PWN_PART_OWIN or PWN_PART_IWIN as it reads. -/
def State.allotWord (s : State) (inbound : Bool) : Word :=
  let a := s.allot inbound s.peer.psel.toNat
  place a.count 16 ||| num a.base

/-- PWN. -/
def regsPWN (off : Nat) : Option Reg :=
  match off with
  | 0x100 => some (rw 0x3F (fun s _ => s.peer.psel.setWidth 64) fun s _ v => s.onPeer fun p => { p with psel := v.setWidth 6 })
  | 0x108 => some (rw 0x7FFF3FFF (fun s _ => s.allotWord false) fun s _ v => s.writeAllot false v)
  | 0x110 => some (rw 0x1FFFFFFFF (fun s _ => s.allotWord true) fun s _ v => s.writeAllot true v)
  | 0x400 => some (rw 0x3FFF (fun s fn => (s.pwnView fn).owinSel.setWidth 64)
      fun s fn v => s.onPwnView fn fun w => { w with owinSel := v.setWidth 14 })
  | 0x408 => some (winReg false 0)
  | 0x410 => some (winReg false 1)
  | 0x418 => some (winReg false 2)
  | 0x420 => some (winReg false 3)
  | 0x428 => some (rw 0xFFFF (fun s fn => (s.pwnView fn).iwinSel.setWidth 64)
      fun s fn v => s.onPwnView fn fun w => { w with iwinSel := v.setWidth 16 })
  | 0x430 => some (winReg true 0)
  | 0x438 => some (winReg true 1)
  | 0x440 => some (winReg true 2)
  | 0x448 => some (winReg true 3)
  | 0x450 => some iwinStatus
  | _ => none

/-- PXP_FLOW_STATUS of the selected chip. -/
def State.flowStatus (s : State) : Word :=
  let f := s.flow s.peer.routeSel.toNat
  place f.failed.toNat 63 ||| place f.slot 56 ||| num f.out.length

/-- PXP. -/
def regsPXP (off : Nat) : Option Reg :=
  match off with
  | 0x100 => some (rw 0xFFF (fun s _ => s.peer.chipId.setWidth 64) fun s _ v => s.onPeer fun p => { p with chipId := v.setWidth 12 })
  | 0x108 => some (rw 0xFFFF (fun s _ => s.peer.resendTimeout.setWidth 64)
      fun s _ v => s.onPeer fun p => { p with resendTimeout := v.setWidth 16 })
  | 0x110 => some (rw 0xF (fun s _ => s.peer.resendMax.setWidth 64) fun s _ v => s.onPeer fun p => { p with resendMax := v.setWidth 4 })
  | 0x118 => some (rw 0xFFF (fun s _ => s.peer.routeSel.setWidth 64) fun s _ v => s.onPeer fun p => { p with routeSel := v.setWidth 12 })
  | 0x120 => some (rw 0x8FFF8FFF8FFF8FFF (fun s _ => s.route s.peer.routeSel.toNat) fun s _ v => s.writeRoute v)
  | 0x128 => some (ro fun s _ => s.flowStatus)
  | 0x130 => some (rw 0x8FFF8FFF8FFF8FFF (fun s _ => s.peer.child) fun s _ v => s.onPeer fun p => { p with child := v })
  | 0x138 => some (ro fun s _ => place s.peer.slipSent.toNat 8 ||| s.skk.thermal.setWidth 64)
  | 0x140 => some (rc (fun s _ => s.peer.resendCount.setWidth 64) fun s _ v => s.onPeer fun p => { p with resendCount := v.setWidth 32 })
  | 0x148 => some (rc (fun s _ => s.peer.crcFail.setWidth 64) fun s _ v => s.onPeer fun p => { p with crcFail := v.setWidth 32 })
  | 0x150 => some (rc (fun s _ => s.peer.refused.setWidth 64) fun s _ v => s.onPeer fun p => { p with refused := v.setWidth 32 })
  | 0x158 => some (rc (fun s _ => s.peer.dup.setWidth 64) fun s _ v => s.onPeer fun p => { p with dup := v.setWidth 32 })
  | _ => none

/-! ## SYN and CHT (09_sync_objects.md R208; 10_drone_and_chanter.md R238) -/

/-- SYN_OBJ_CMD (R208); while BUSY every write is discarded (R194). -/
def State.objCmd (s : State) (fn : Nat) (v : Word) : State :=
  if s.objBusy fn then s.flag pgSYN fn 6
  else match field v 2 0 with
  | 1 => s.objCreate fn (v.extractLsb' 8 2) (bit v 4)
  | 2 => s.objDestroy fn (v.extractLsb' 32 32)
  | 3 => s.objRead fn (v.extractLsb' 32 32)
  | _ => s

/-- A counter of the SYN page. -/
def synCounter (f : SynView → BitVec 32) (g : SynView → BitVec 32 → SynView) : Reg :=
  rc (fun s fn => (f (s.synView fn)).setWidth 64) fun s fn v => s.onSynView fn fun w => g w (v.setWidth 32)

/-- SYN. -/
def regsSYN (off : Nat) : Option Reg :=
  match off with
  | 0x100 => some (rw 0xFFFFFF (fun s _ => s.syn.slipMax.setWidth 64) fun s _ v => s.onSyn fun y => { y with slipMax := v.setWidth 24 })
  | 0x400 => some (rw 0xFFFFFFFFFFFFFFFF (fun s fn => (s.synView fn).cfg) fun s fn v => s.onSynView fn fun w => { w with cfg := v })
  | 0x408 => some (wo 7 fun s fn v => s.objCmd fn v)
  | 0x410 => some (ro fun s fn => place (s.objBusy fn).toNat 63 ||| place (s.synView fn).result.toNat 32 ||| (s.synView fn).handle.setWidth 64)
  | 0x418 => some (ro fun s fn => (s.synView fn).state)
  | 0x420 => some (ro fun s fn => (s.synView fn).info)
  | 0x428 => some (ro fun s fn => num (s.objCount fn))
  | 0x430 => some (synCounter (·.timeouts) fun w v => { w with timeouts := v })
  | 0x438 => some (synCounter (·.hits) fun w v => { w with hits := v })
  | 0x440 => some (synCounter (·.recStall) fun w v => { w with recStall := v })
  | _ => none

/-- CHT_LOAD_CMD (R235, R238). -/
def State.loadCmd (s : State) (fn : Nat) (v : Word) : State :=
  if (s.chtView fn).busy then s.chtFlag fn 8 0
  else match field v 1 0 with
    | 1 => s.planLoad fn
    | 2 => s.planFree fn (v.extractLsb' 32 32) (field v 24 8)
    | _ => s

/-- CHT_ENTRY_STATE of the selected entry, 0 when the handle fails R7. -/
def State.entryState (s : State) (fn : Nat) : Word :=
  let h := (s.chtView fn).entrySel
  if s.goodEntry h fn then
    let e := s.entry (hIdx h)
    place (s.armed e).toNat 63 ||| place e.open_.toNat 62 ||| place e.fired.toNat 61 ||| place e.done.toNat 60 ||| place e.gatePassed.toNat 59 |||
      place e.fallback.toNat 58 ||| place e.code.toNat 40 ||| num (e.step % 2 ^ 40)
  else 0

/-- The index of CHT_RSV_MAX that CHT_RSV_SEL selects. -/
def State.rsvKey (s : State) : Nat := field s.cht.rsvSel 5 0 * 23 + field s.cht.rsvSel 20 16

/-- CHT_DRONE_CFG as it reads. -/
def State.droneCfg (s : State) : Word :=
  place s.cht.masterChip.toNat 16 ||| place s.cht.master.toNat 4 ||| s.cht.src.setWidth 64

/-- CHT_DRONE_STATUS. -/
def State.droneStatus (s : State) : Word :=
  place ((s.cht.slipRx || s.cht.holding)).toNat 3 ||| place s.cht.lagAt.isSome.toNat 2 ||| place s.cht.lost.toNat 1 ||| num s.cht.held.toNat

/-- A counter of the CHT page. -/
def chtCounter (f : ChtView → BitVec 32) (g : ChtView → BitVec 32 → ChtView) : Reg :=
  rc (fun s fn => (f (s.chtView fn)).setWidth 64) fun s fn v => s.onChtView fn fun w => g w (v.setWidth 32)

/-- CHT, the registers of PF0's page. -/
def regsCHT0 (off : Nat) : Option Reg :=
  match off with
  | 0x100 => some (rw 0x0FFF0013 (fun s _ => s.droneCfg) fun s _ v => s.writeDroneCfg v)
  | 0x108 => some (wo 0xFFFFFFFFFFFFFFFF fun s _ v => s.droneSet v)
  | 0x110 => some (ro fun s _ => s.cht.drone)
  | 0x118 => some (rw 0xFFFFFFFF (fun s _ => s.cht.rate.setWidth 64) fun s _ v => s.onCht fun c => { c with rate := v.setWidth 32 })
  | 0x120 => some (rw 0xFFFFFF (fun s _ => s.cht.tickInc.setWidth 64) fun s _ v => s.onCht fun c => { c with tickInc := v.setWidth 24 })
  | 0x128 => some (rw 0xFFFFFF (fun s _ => s.cht.lossLimit.setWidth 64) fun s _ v => s.onCht fun c => { c with lossLimit := v.setWidth 24 })
  | 0x130 => some (rw 0xFFFFFF (fun s _ => s.cht.regressTol.setWidth 64) fun s _ v => s.onCht fun c => { c with regressTol := v.setWidth 24 })
  | 0x138 => some (rw 0xFFFFFF (fun s _ => s.cht.bcast.setWidth 64) fun s _ v => s.onCht fun c => { c with bcast := v.setWidth 24 })
  | 0x140 => some (rw 0x3FFFF (fun s _ => s.cht.frameOffset.setWidth 64) fun s _ v => s.onCht fun c => { c with frameOffset := v.setWidth 18 })
  | 0x148 => some (wo 1 fun s _ v => if bit v 0 then s.rebase else s)
  | 0x150 => some (ro fun s _ => s.droneStatus)
  | 0x158 => some (rw 0x1F003F (fun s _ => s.cht.rsvSel.setWidth 64) fun s _ v => s.onCht fun c => { c with rsvSel := v.setWidth 21 })
  | 0x160 => some (rw 0x3FFFF
      (fun s _ => if 22 < field s.cht.rsvSel 20 16 then 0 else num (tabGet (fun _ => 0) s.cht.rsvMax s.rsvKey)) fun s _ v => s.writeRsvMax v)
  | 0x168 => some (rc (fun s _ => s.cht.slipHeld.setWidth 64) fun s _ v => s.onCht fun c => { c with slipHeld := v.setWidth 32 })
  | _ => none

/-- CHT. -/
def regsCHT (off : Nat) : Option Reg :=
  match off with
  | 0x400 => some (rw 0xFFFFFFFFFFFFFFC0 (fun s fn => (s.chtView fn).image) fun s fn v => s.onChtView fn fun w => { w with image := v })
  | 0x408 => some (rw 0xFFFFFFFFFFFFFFFC (fun s fn => (s.chtView fn).bindTab) fun s fn v => s.onChtView fn fun w => { w with bindTab := v })
  | 0x410 => some (wo 3 fun s fn v => s.loadCmd fn v)
  | 0x418 => some (ro fun s fn => place (s.chtView fn).busy.toNat 63 ||| place (s.chtView fn).result.toNat 32 ||| (s.chtView fn).handle.setWidth 64)
  | 0x420 => some (rw 0xFFFFFFFF (fun s fn => (s.chtView fn).entrySel.setWidth 64)
      fun s fn v => s.onChtView fn fun w => { w with entrySel := v.setWidth 32 })
  | 0x428 => some (ro fun s fn => s.entryState fn)
  | 0x430 => some (ro fun s fn => num (s.entryCount fn))
  | 0x438 => some (chtCounter (·.deadline) fun w v => { w with deadline := v })
  | 0x440 => some (chtCounter (·.late) fun w v => { w with late := v })
  | 0x448 => some (chtCounter (·.fallback) fun w v => { w with fallback := v })
  | 0x450 => some (chtCounter (·.planOver) fun w v => { w with planOver := v })
  | 0x458 => some (chtCounter (·.pulseDiscard) fun w v => { w with pulseDiscard := v })
  | 0x460 => some (chtCounter (·.recStall) fun w v => { w with recStall := v })
  | _ => regsCHT0 off

/-! ## EVC (16_event_concentrator.md R356) -/

/-- EVC_SRC_CFG: an access with another partition's source selected sets SRC_FOREIGN. -/
def evcSrcCfg : Reg :=
  { get := fun s fn => s.srcCfg fn
    put := fun s fn v m =>
      if m &&& 0x1FF1F ≠ 0 then s.writeSrcCfg fn (((s.srcCfg fn &&& ~~~m) ||| (v &&& m)) &&& 0x1FF1F)
      else if ownSource fn (s.srcSelOf fn) then s else s.evcFlag fn 3
    take := fun s fn _ => if ownSource fn (s.srcSelOf fn) then s else s.evcFlag fn 3 }

/-- The four registers of a target: a target the function's partition does not hold sets TGT_FOREIGN. -/
def evcTarget (t off : Nat) : Option Reg :=
  let touch (s : State) (fn : Nat) (_ : Word) : State := s.onHeld fn t id
  match off with
  | 0x00 => some { get := fun s fn => if s.holdsTarget fn t then (s.tgt t).thresh.setWidth 64 else 0
                   put := fun s fn v m => if m &&& 0x1F = 0 then s.onHeld fn t id else s.writeThresh fn t (v.setWidth 5)
                   take := touch }
  | 0x08 => some { get := fun s fn => (s.claimRead fn t).1
                   put := fun s fn _ _ => s.onHeld fn t id
                   take := fun s fn m => if m &&& 0x1F1FFF = 0 then s.onHeld fn t id else (s.claimRead fn t).2 }
  | 0x10 => some { get := fun _ _ => 0
                   put := fun s fn v m => if m &&& 0x1FFF = 0 then s.onHeld fn t id else s.completeWrite fn t (field (v &&& m) 12 0)
                   take := touch }
  | 0x18 => some { get := fun s fn => if s.holdsTarget fn t then s.tgtStatus t else 0
                   put := fun s fn _ _ => s.onHeld fn t id, take := touch }
  | _ => none

/-- EVC. -/
def regsEVC (off : Nat) : Option Reg :=
  match off with
  | 0x100 => some (rw 0xFF (fun s _ => s.evc.tsel.setWidth 64) fun s _ v => s.onEvc fun e => { e with tsel := v.setWidth 8 })
  | 0x108 => some (rw 0x803F00000000001F (fun s _ => s.tgtAssign) fun s _ v => s.assignTarget v)
  | 0x400 => some (rw 0x1FFF (fun s fn => num (s.srcSelOf fn)) fun s fn v => s.writeSrcSel fn v.toNat)
  | 0x408 => some evcSrcCfg
  | 0x410 => some (wo 0x1FFF fun s fn v => s.raiseSource fn (field v 12 0))
  | 0x418 => some (wo 0x1FFF fun s fn v => s.clearSource fn (field v 12 0))
  | 0x420 => some (rc (fun s fn => (tabGet (fun _ => (0 : BitVec 32)) s.evc.merge fn).setWidth 64)
      fun s fn v => s.onEvc fun e => { e with merge := tabPut (fun _ => 0) e.merge fn (v.setWidth 32) })
  | _ => if 0x1000 ≤ off ∧ off < 0x3000 then evcTarget ((off - 0x1000) / 0x20) (off % 0x20) else none

/-! ## ARB (17_arbiters.md R366) -/

/-- The arbiter that ARB_ARB_SEL selects: above 0x22 is taken as 0x22. -/
def State.selArb (s : State) : Nat := min 0x22 s.arb.arbSel.toNat

/-- The selected requester's counters; arbiters 0x00 to 0x03 keep none (R364, R365). -/
def arbCounter (f : ArbReq → BitVec 32) (g : ArbReq → BitVec 32 → ArbReq) : Reg :=
  rc (fun s _ => if s.selArb < 4 then 0 else (f (s.areq s.selArb s.arb.reqSel.toNat)).setWidth 64)
    fun s _ v => if s.selArb < 4 then s else s.onAreq s.selArb s.arb.reqSel.toNat fun x => g x (v.setWidth 32)

/-- ARB_CHAN_PRIO: an access with a handle that fails R7 sets CHAN_SEL_BAD (R366). -/
def arbPrio : Reg :=
  let sel (s : State) (fn : Nat) : Option Nat := s.goodChan (tabGet (fun _ => 0) s.arb.chanSel fn) fn
  let get (s : State) (fn : Nat) : Word := match sel s fn with | some k => (s.chan k).prio.setWidth 64 | none => 0
  { get := get
    put := fun s fn v m => s.chanPrio fn ((get s fn &&& ~~~m) ||| (v &&& m))
    take := fun s fn _ => if (sel s fn).isNone then s.flag pgARB fn 2 else s }

/-- ARB. -/
def regsARB (off : Nat) : Option Reg :=
  match off with
  | 0x100 => some (rw 1 (fun s _ => num s.arb.compat.toNat) fun s _ v => s.onArb fun a => { a with compat := bit v 0 })
  | 0x108 => some (rw 0xFFFFFFFF (fun s _ => s.arb.starveLimit.setWidth 64) fun s _ v => s.onArb fun a => { a with starveLimit := v.setWidth 32 })
  | 0x110 => some (rw 0xFF (fun s _ => s.arb.waitMax.setWidth 64) fun s _ v => s.onArb fun a => { a with waitMax := v.setWidth 8 })
  | 0x118 => some (w1c (fun s _ => s.arb.starved.setWidth 64) fun s _ v => s.onArb fun a => { a with
      starved := v.setWidth 35 ||| (a.starved &&& if a.starvedAt = s.glb.time then a.starvedNow else 0) })
  | 0x120 => some (rc (fun s _ => s.arb.starveFirst) fun s _ v => s.onArb fun a => { a with starveFirst := v })
  | 0x128 => some (rw 0x3F (fun s _ => s.arb.arbSel.setWidth 64) fun s _ v => s.onArb fun a => { a with arbSel := v.setWidth 6 })
  | 0x130 => some (rw 0x3F (fun s _ => s.arb.reqSel.setWidth 64) fun s _ v => s.onArb fun a => { a with reqSel := v.setWidth 6 })
  | 0x138 => some (rw 7 (fun s _ => if s.selArb < 0x1B then 0 else num (s.areq s.selArb s.arb.reqSel.toNat).cls)
      fun s _ v => if s.selArb < 0x1B then s else s.onAreq s.selArb s.arb.reqSel.toNat fun x => { x with cls := v.toNat })
  | 0x140 => some (arbCounter (·.grants) fun x v => { x with grants := v })
  | 0x148 => some (arbCounter (·.waits) fun x v => { x with waits := v })
  | 0x150 => some (arbCounter (·.longest) fun x v => { x with longest := v })
  | 0x158 => some (rc (fun s _ => (s.arbiter s.selArb).dead.setWidth 64)
      fun s _ v => s.onArbiter s.selArb fun x => { x with dead := v.setWidth 32 })
  | 0x400 => some (rw 0xFFFFFFFF (fun s fn => (tabGet (fun _ => (0 : BitVec 32)) s.arb.chanSel fn).setWidth 64)
      fun s fn v => s.onArb fun a => { a with chanSel := tabPut (fun _ => 0) a.chanSel fn (v.setWidth 32) })
  | 0x408 => some arbPrio
  | _ => none

/-! ## RAS (18_stored_data_protection.md R388) -/

/-- RAS_STATUS. -/
def State.rasStatus (s : State) : Word :=
  place (2 - s.ras.lost.length) 16 ||| place s.lostMask 8 ||| place s.ras.rebuild.isSome.toNat 2 ||| place s.ras.scrub.isSome.toNat 1 |||
    num ((s.ras.bgEn && !s.bgHolds)).toNat

/-- RAS_REPAIR_STATUS. -/
def State.repairStatus (s : State) : Word :=
  place s.ras.repairBusy.isSome.toNat 63 ||| place s.ras.repairFail.toNat 62 ||| place s.ras.repairSkip 16 ||| num s.ras.repairDone

/-- RAS. -/
def regsRAS (off : Nat) : Option Reg :=
  match off with
  | 0x100 => some (ro fun s _ => s.rasStatus)
  | 0x108 => some (rw 0xFFFFE0000000 (fun s _ => s.ras.hsBase) fun s _ v => s.writeStore fun r => { r with hsBase := v })
  | 0x110 => some (rw 0x07070707 (fun s _ => s.ras.hsSlots) fun s _ v => s.writeStore fun r => { r with hsSlots := v })
  | 0x118 => some (rw 1 (fun s _ => num s.ras.autoRebuild.toNat) fun s _ v => s.onRas fun r => { r with autoRebuild := bit v 0 })
  | 0x120 => some (wo 3 fun s _ v => s.storeCommand v)
  | 0x128 => some (rw 0xFF (fun s _ => s.ras.lossRun.setWidth 64) fun s _ v => s.onRas fun r => { r with lossRun := v.setWidth 8 })
  | 0x130 => some (rw 0xFFFFFF (fun s _ => s.ras.ceWindow.setWidth 64) fun s _ v => s.onRas fun r => { r with ceWindow := v.setWidth 24 })
  | 0x138 => some (rw 0xFFFFFFFF (fun s _ => s.ras.scrubBase.setWidth 64) fun s _ v => s.onRas fun r => { r with scrubBase := v.setWidth 32 })
  | 0x140 => some (rw 0xFFFFFFFF (fun s _ => s.ras.scrubLimit.setWidth 64) fun s _ v => s.onRas fun r => { r with scrubLimit := v.setWidth 32 })
  | 0x148 => some (wo 0xFF01 fun s _ v => s.scrubStart v)
  | 0x150 => some (ro fun s _ => s.ras.scrubSum)
  | 0x158 => some (ro fun s _ => s.ras.scrubFirst)
  | 0x160 => some (rw 0xC00000000000FFFF
      (fun s _ => place s.ras.bgEn.toNat 63 ||| place s.ras.bgOnce.toNat 62 ||| s.ras.bgRate.setWidth 64)
      fun s _ v => s.onRas fun r => { r with bgEn := bit v 63, bgOnce := bit v 62, bgRate := v.setWidth 16 })
  | 0x168 => some (rw 0xFFFFFFFFFFFFFFF8 (fun s _ => s.ras.repairBase) fun s _ v => s.onRas fun r => { r with repairBase := v })
  | 0x170 => some (wo 0x8000000000000000 fun s _ v => if bit v 63 then s.repairLoad v else s)
  | 0x178 => some (ro fun s _ => s.repairStatus)
  | 0x180 => some (rc (fun s _ => s.ras.ce.setWidth 64) fun s _ v => s.onRas fun r => { r with ce := v.setWidth 32 })
  | 0x188 => some (rc (fun s _ => s.ras.ue.setWidth 64) fun s _ v => s.onRas fun r => { r with ue := v.setWidth 32 })
  | 0x190 => some (ro fun s _ => s.ras.repairs.setWidth 64)
  | _ => none

/-! ## TWN and PRT (13_partitions_and_twin_engines.md R303, R304) -/

/-- The number of a TWN_MODE. -/
def TwinMode.num : TwinMode → Nat
  | .shared => 0
  | .soloA => 1
  | .soloB => 2

/-- The number of an engine's status. -/
def EngineSt.num : EngineSt → Nat
  | .serving => 0
  | .failed => 1
  | .resetting => 2
  | .ready => 3

/-- A write of TWN_MODE (R300). -/
def State.writeMode (s : State) (v : Word) : State :=
  match field v 1 0 with
  | 0 => s.writeShared
  | 1 => s.writeSolo .A
  | 2 => s.writeSolo .B
  | _ => s

/-- A write of TWN_CTL (R301). -/
def State.twinCtl (s : State) (v : Word) : State :=
  let t := if bit v 0 then s.resetEngine .A else s
  if bit v 1 then t.resetEngine .B else t

/-- TWN. -/
def regsTWN (off : Nat) : Option Reg :=
  match off with
  | 0x100 => some { get := fun s _ => num s.twn.mode.num, put := fun s _ v m => if m &&& 3 = 0 then s else s.writeMode (v &&& m) }
  | 0x108 => some (wo 3 fun s _ v => s.twinCtl v)
  | 0x110 => some (ro fun s _ => place s.twn.stB.num 8 ||| num s.twn.stA.num)
  | 0x118 => some (rw 0x3FF (fun s _ => s.twn.hbLimit.setWidth 64) fun s _ v => s.onTwn fun t => { t with hbLimit := v.setWidth 10 })
  | 0x120 => some (rw 0xFFFF (fun s _ => s.twn.quiesceLimit.setWidth 64) fun s _ v => s.onTwn fun t => { t with quiesceLimit := v.setWidth 16 })
  | 0x128 => some (ro fun s _ => s.twn.lastFailover)
  | 0x130 => some (ro fun s _ => place s.twn.halted 16 ||| num s.twn.adopted)
  | _ => none

/-- The number of a partition's state. -/
def PartSt.num : PartSt → Nat
  | .disabled => 0
  | .enabled => 1
  | .disabling => 2
  | .enablePending => 3

/-- The DRAINING bit of a resource (R303). -/
def drainBit : Drained → Nat
  | .channels => 8
  | .movers => 9
  | .objects => 10
  | .plan => 11
  | .targets => 12

/-- PRT_STATE and PRT_STATUS of a partition. -/
def State.partState (s : State) (p : Nat) : Word :=
  (s.draining p).foldl (fun w (d : Drained × Word) => w ||| place 1 (drainBit d.1)) (num (s.part p).st.num)

/-- PRT_CTL (R285). -/
def State.partCtl (s : State) (v : Word) : State :=
  match field v 1 0 with
  | 1 => s.enablePart
  | 2 => s.disablePart
  | _ => s

/-- A quota register of a partition whose quotas are in force. -/
def Part.quotaNow (q : Part) : Quota → Word
  | .chan => num q.qChan
  | .engine => place q.qWalk 8 ||| num q.qMov
  | .l2t => place q.wayBase 8 ||| num q.qWays
  | .sync => num q.qSync
  | .plan => place q.qRows 32 ||| num q.qEntries
  | .evt => num q.qEvt

/-- A quota register as it reads: the value last written, in force or held until the next enable (00_scope.md R12; R286). -/
def Part.quota (q : Part) (r : Quota) : Word := q.withHeld.quotaNow r

/-- A quota register of the partition that PRT_PSEL selects. -/
def quotaReg (mask : Word) (q : Quota) : Reg := rw mask (fun s _ => (s.part s.prt.psel.toNat).quota q) fun s _ v => s.writeQuota q v

/-- PRT. -/
def regsPRT (off : Nat) : Option Reg :=
  match off with
  | 0x100 => some (rw 0x3F (fun s _ => s.prt.psel.setWidth 64) fun s _ v => s.onPrt fun p => { p with psel := v.setWidth 6 })
  | 0x108 => some (wo 3 fun s _ v => s.partCtl v)
  | 0x110 => some (ro fun s _ => s.partState s.prt.psel.toNat)
  | 0x118 => some (quotaReg 0x7FFF .chan)
  | 0x120 => some (quotaReg 0x3F1F .engine)
  | 0x128 => some (quotaReg 0xF1F .l2t)
  | 0x130 => some (quotaReg 0x1FFFF .sync)
  | 0x138 => some (quotaReg 0x3FF0001FFFF .plan)
  | 0x140 => some (quotaReg 0x1FF .evt)
  | 0x148 => some (rw 0xFFFFFF (fun s _ => s.prt.drainLimit.setWidth 64) fun s _ v => s.onPrt fun p => { p with drainLimit := v.setWidth 24 })
  | 0x400 => some (ro fun s fn => s.partState fn)
  | _ => none

/-! ## PWR (19_power_reset_and_bringup.md R409) -/

/-- PWR_STATE. -/
def State.pwrState (s : State) : Word :=
  place s.latency 32 ||| place s.pwr.forceRun.toNat 19 ||| place s.anyInbound.toNat 18 ||| place s.cht.master.toNat 17 |||
    place s.anyArmed.toNat 16 ||| place s.limit 8 ||| num s.pwr.st.num

/-- PWR. -/
def regsPWR (off : Nat) : Option Reg :=
  match off with
  | 0x100 => some (ro fun s _ => s.pwrState)
  | 0x108 => some (rw 1 (fun s _ => num s.pwr.forceRun.toNat) fun s _ v => s.onPwr fun p => { p with forceRun := bit v 0 })
  | 0x110 => some (rw 0xFFFFFF (fun s _ => s.pwr.idleNap.setWidth 64) fun s _ v => s.onPwr fun p => { p with idleNap := v.setWidth 24 })
  | 0x118 => some (rw 0xFFFFFF (fun s _ => s.pwr.idleHib.setWidth 64) fun s _ v => s.onPwr fun p => { p with idleHib := v.setWidth 24 })
  | 0x120 => some (rw 7 (fun s _ => s.pwr.wakeEn.setWidth 64) fun s _ v => s.onPwr fun p => { p with wakeEn := v.setWidth 3 })
  | 0x128 => some (rc (fun s _ => s.pwr.wakeCause.setWidth 64) fun s _ v => s.onPwr fun p => { p with wakeCause := v.setWidth 3 })
  | 0x130 => some (rc (fun s _ => s.pwr.wakeCount.setWidth 64) fun s _ v => s.onPwr fun p => { p with wakeCount := v.setWidth 32 })
  | 0x400 => some (rw 0xFFFFFFFF (fun s fn => (s.wlb fn).setWidth 64) fun s fn v => s.writeWlb fn (v.setWidth 32))
  | 0x408 => some (ro fun s _ => place s.latency 32 ||| num s.pwr.st.num)
  | _ => none

/-! ## The pages (R416, R417, R422) -/

/-- The registers of a page after its header. -/
def pageRegs (pg off : Nat) : Option Reg :=
  match pg with
  | 0x00 => regsGLB off
  | 0x01 => regsHLK off
  | 0x02 => regsEPF off
  | 0x03 => regsDBL off
  | 0x04 => regsCTX off
  | 0x05 => if 0x100 ≤ off then regsXLT off else none
  | 0x06 => regsSKK off
  | 0x07 => regsMOV off
  | 0x08 => regsCCU off
  | 0x09 => regsCOH off
  | 0x0A => regsPWN off
  | 0x0B => regsPXP off
  | 0x0C => regsSYN off
  | 0x0D => regsCHT off
  | 0x0E => regsEVC off
  | 0x0F => regsARB off
  | 0x10 => regsRAS off
  | 0x11 => regsTWN off
  | 0x12 => regsPWR off
  | 0x13 => regsPRT off
  | 0x14 => regsDBG off
  | _ => none

/-- The register at an offset of a page of a function's view (R417): those below 0x0400 are PF0's alone, but for the header and DBL. -/
def regAt (fn pg off : Nat) : Option Reg :=
  if off < 0x100 then (if pg < 21 then header pg off else none)
  else if fn ≠ 0 ∧ off < 0x400 ∧ pg ≠ pgDBL then none
  else pageRegs pg off

/-- A DISABLED partition's function reaches nothing of these view pages (13_partitions_and_twin_engines.md R284). -/
def State.shut (s : State) (fn pg : Nat) : Bool :=
  (s.part fn).st = .disabled && [pgDBL, pgXLT, pgSYN, pgCHT, pgPWN, pgSKK].contains pg

/-- A read of a register: the value, and the state after. -/
def State.readReg (s : State) (fn pg off : Nat) (m : Word) : Word × State :=
  if s.shut fn pg then (0, s)
  else match regAt fn pg off with
    | none => (0, s)
    | some r => (r.get s fn &&& m, r.take s fn m)

/-- A write of a register. -/
def State.writeReg (s : State) (fn pg off : Nat) (v m : Word) : State :=
  if s.shut fn pg then s
  else match regAt fn pg off with
    | none => s
    | some r => r.put s fn (v &&& m) m

end Sys2Proof.Machine
end

