-- ==== Sys2Proof/Machine/Bars.lean ====
section
/-! DEFINITION. Accesses to the BARs: the size and alignment rule, the Device Description Table, the MSI-X page, doorbell pages, the
ingress window, and a control core's register accesses (00_scope.md R10; 02_channels_and_doorbells.md R45 to R49, R426;
14_host_link_endpoint.md R315, R318, R319; 15_block_ports.md R338). -/

namespace Sys2Proof.Machine

/-! ## Size and alignment (R10) -/

/-- A naturally aligned access of 4 or 8 bytes. -/
def goodAccess (off size : Nat) : Bool := (size = 4 && off % 4 = 0) || (size = 8 && off % 8 = 0)

/-- The bits of the register that an access covers. -/
def accessMask (off size : Nat) : Word := BitVec.ofNat 64 ((2 ^ (8 * size) - 1) <<< (8 * (off % 8)))

/-- The offset of the register that an access reaches. -/
def regOff (off : Nat) : Nat := off / 8 * 8

/-- The register's value as the bytes read. -/
def readBytes (off : Nat) (w : Word) : Word := w >>> (8 * (off % 8))

/-- The bytes written, at their place in the register. -/
def writtenBits (off : Nat) (v : Word) : Word := v <<< (8 * (off % 8))

/-! ## Pages of BAR0 that are no block page (R315, R319) -/

/-- An 8-byte word of a function's MSI-X page (R319): the table, and the PBA at 0x0800. -/
def State.msixWord (s : State) (fn off : Nat) : Word :=
  if off < 0x200 then
    let e := s.msixEntry fn (off / 16)
    if off % 16 = 0 then e.addr else e.data.setWidth 64 ||| place e.mask.toNat 32
  else if off = 0x800 then (List.range 32).foldl (fun w v => w ||| place (s.msixEntry fn v).pending.toNat v) 0
  else 0

/-- A write of the MSI-X table: an unmasked vector that is pending is sent (R319, R350). -/
def State.msixWrite (s : State) (fn off : Nat) (v m : Word) : State :=
  if off < 0x200 then
    let w := (s.msixWord fn off &&& ~~~m) ||| (v &&& m)
    let t := s.onMsix fn (off / 16) fun e =>
      if off % 16 = 0 then { e with addr := w &&& 0xFFFFFFFFFFFFFFFC } else { e with data := w.setWidth 32, mask := bit w 32 }
    t.msixRetry fn
  else s

/-! ## BAR0 -/

/-- The block page of a BAR0 offset (R416). -/
def blockPage (off : Nat) : Option Nat := if 0x200000 ≤ off ∧ off < 0x350000 then some (off / 0x10000 - 0x20) else none

/-- The pages of BAR0 whose accesses follow R10: the DDT and the block pages (R315, R319). -/
def ruled (off : Nat) : Bool := decide (off < 0x10000) || (blockPage off).isSome

/-- The BAR0 offsets of a function: 32 MiB for PF0, 4 MiB for a VF (R318). -/
def inBar0 (fn off : Nat) : Bool := decide (off < if fn = 0 then 0x2000000 else 0x400000)

/-- A read of BAR0: the bytes read, and the state after. -/
def State.bar0Read (s : State) (fn off size : Nat) : Word × State :=
  let m := accessMask off size
  let r : Word × State :=
    match blockPage off with
    | some pg => s.readReg fn pg (regOff (off % 0x10000)) m
    | none =>
      if off < 0x10000 then (ddt (regOff off) &&& m, s)
      else if off < 0x20000 then (s.msixWord fn (regOff (off % 0x10000)) &&& m, s)
      else if off < 0x30000 then (if fn = 0 then Config.cxlWord (off % 0x10000 / 8) &&& m else 0, s)
      else (0, s)
  (readBytes off r.1, r.2)

/-- A write of BAR0. -/
def State.bar0Write (s : State) (fn off size : Nat) (v : Word) : State :=
  let m := accessMask off size
  let w := writtenBits off v
  match blockPage off with
  | some pg => s.writeReg fn pg (regOff (off % 0x10000)) w m
  | none => if 0x10000 ≤ off ∧ off < 0x20000 then s.msixWrite fn (regOff (off % 0x10000)) w m else s

/-! ## BAR2 (02_channels_and_doorbells.md R45) -/

/-- The number of a channel state in DB_STATUS (R426). -/
def ChState.num : ChState → Nat
  | .free => 0
  | .creating => 1
  | .active => 2
  | .parked => 3
  | .halted => 4
  | .error => 5
  | .killed => 6
  | .retiring => 7

/-- DB_STATUS (R48, R426). -/
def Chan.statusWord (c : Chan) : Word :=
  place (min 16383 c.inflight) 50 ||| place c.ta.toNat 33 ||| place (c.f.toNat % (2 * c.size)) 16 ||| place c.code.toNat 8 |||
    place c.stopped.toNat 4 ||| num c.st.num

/-- DB_FAULT (R426). -/
def Chan.faultWord (c : Chan) : Word := place c.faultInline.toNat 16 ||| c.faultSeq.setWidth 64

/-- The page of a slot that another partition holds (R45). -/
def State.foreignSlot (s : State) (fn slot : Nat) : Bool := (s.chan slot).st ≠ .free && (s.chan slot).part ≠ fn

/-- A read of a doorbell page (R45): a page of a FREE slot, and every offset but two, reads zero. -/
def State.bar2Read (s : State) (fn off size : Nat) : Word × State :=
  let slot := off / 0x1000
  let c := s.chan slot
  if s.shut fn pgDBL then (0, s)
  else if s.foreignSlot fn slot then (0, s.dblFlag fn 1 slot)
  else
    let w : Word := if c.st = .free then 0 else match regOff (off % 0x1000) with | 0x10 => c.statusWord | 0x18 => c.faultWord | _ => 0
    (readBytes off (w &&& accessMask off size), s)

/-- A write to a doorbell page (R45, R47, R49, R426); the bytes of an 8-byte register not written are 0 (log entry 38). -/
def State.bar2Write (s : State) (fn off size : Nat) (v : Word) : State :=
  let slot := off / 0x1000
  let r := off % 0x1000
  let w := writtenBits off v &&& accessMask off size
  let gen : Byte := w.extractLsb' 24 8
  let c := s.chan slot
  if s.shut fn pgDBL then s
  else if s.foreignSlot fn slot then s.dblFlag fn 1 slot
  else if 0x100 ≤ r ∧ r < 0x200 then s.inlineWrite fn slot r size false []
  else if c.st = .free ∧ r < 0x20 then s.dblFlag fn 4 slot
  else match r with
    | 0 => s.doorbell fn slot gen (s.tailWrite slot (field w 16 0)).2
    | 8 =>
      let act (t : State) : State :=
        if bit w 1 then t.stopChan slot else if bit w 0 then t.haltChan slot else if bit w 2 then t.resumeChan slot else t
      s.dbCtl fn slot gen (act s)
    | _ => s

/-! ## The accesses (R10, R423) -/

/-- An access broke R10. -/
def State.badAccess (s : State) (fn index : Nat) : State := s.flag pgGLB fn 1 0 index

/-- An access to BAR2 is a register access, but for a write of DB_INLINE. -/
def inlineOff (off : Nat) : Bool := decide (0x100 ≤ off % 0x1000) && decide (off % 0x1000 < 0x200)

/-- A host write to a BAR. -/
def State.hostBarWrite (s : State) (fn link bar off size : Nat) (v : Word) : State :=
  match bar with
  | 0 =>
    if !inBar0 fn off then s
    else if !goodAccess off size then (if ruled off then s.badAccess fn (8 + link) else s)
    else s.bar0Write fn off size v
  | 2 => if goodAccess off size || inlineOff off then s.bar2Write fn off size v else s.badAccess fn (8 + link)
  | 4 => s.bar4Write fn link off ((List.range (min 8 size)).map fun k => some (v.extractLsb' (8 * k) 8))
  | _ => s

/-- A bootstrap write that came on a link has no NoC response yet (19_power_reset_and_bringup.md R405). -/
def State.bootWaits (s : State) (link : Nat) : Bool := s.noc.reqs.any fun r => r.for_ = .boot link

/-- A write arrives: a register write waits for the bootstrap writes before it on its link (19_power_reset_and_bringup.md R405). -/
def State.barWrite (s : State) (x : HeldWrite) : State :=
  if x.bar ≠ 4 && s.bootWaits x.link then s.onPwr fun p => { p with regHeld := p.regHeld ++ [x] }
  else s.hostBarWrite x.fn x.link x.bar x.off x.size x.v

/-- The register writes that were held are judged again, oldest first (19_power_reset_and_bringup.md R405). -/
def State.replay (s : State) : State :=
  s.pwr.regHeld.foldl (fun (t : State) x => if t.inFlr x.fn then t else t.barWrite x) (s.onPwr fun p => { p with regHeld := [] })

/-- A host read of a BAR: the data of its completion, and the state after. -/
def State.hostBarRead (s : State) (fn link bar off size : Nat) : Word × State :=
  match bar with
  | 0 =>
    if !inBar0 fn off then (0, s)
    else if !goodAccess off size then (0, if ruled off then s.badAccess fn (8 + link) else s)
    else s.bar0Read fn off size
  | 2 => if goodAccess off size then s.bar2Read fn off size else (0, s.badAccess fn (8 + link))
  | 4 => (0, s.bar4Read fn)
  | _ => (0, s)

/-- A read of the GLB or PWR page is answered in any power state without a wake (19_power_reset_and_bringup.md R393). -/
def quietPage (bar off : Nat) : Bool := bar = 0 && (blockPage off = some pgGLB || blockPage off = some pgPWR)

/-- A memory write arrives at a BAR: during an FLR of the function it is discarded (14_host_link_endpoint.md R311), but for a write of
GLB_WARM_RESET, which outranks an FLR of PF0 (19_power_reset_and_bringup.md R403). -/
def State.memWrite (s : State) (fn link bar off size : Nat) (v : Word) : State :=
  if s.inFlr fn && !(fn = 0 && bar = 0 && off = 0x200200) then s
  else if !s.inFlr fn && !s.barOn fn link then s.unsupported fn link true
  else s.barWrite ⟨fn, link, bar, off, size, v⟩

/-- A memory read arrives at a BAR: during an FLR of the function it completes with zeros (R311). -/
def State.memRead (s : State) (fn link bar off size : Nat) : State :=
  if s.inFlr fn then s.emit (.cpl (some link) fn 0)
  else if !s.barOn fn link then s.unsupported fn link false
  else
    let r := s.hostBarRead fn link bar off size
    (r.2.emit (.cpl (some link) fn r.1)).runOn

/-- A TLP in error arrives (14_host_link_endpoint.md R325): it is discarded. An ECRC is checked where its check is enabled: `good` is what
the TLP does otherwise. -/
def State.tlpError (s : State) (fn link : Nat) (form : TlpForm) (good : State → State) : State :=
  match form with
  | .malformed => s.aerAt link fn .malformed
  | .poisoned => s.aerAt link fn .poisoned true
  | .ecrc => if (s.aerOf link fn).ecrcChk then s.aerAt link fn .ecrc else good s
  | _ => good s

/-- A write request of the host arrives. -/
def State.hostWrite (s : State) (fn link : Nat) (at_ : BarAt) (off size : Nat) (v : Word) : State :=
  let good (t : State) : State := t.memWrite fn link at_.bar.toNat off size v
  match at_.form with
  | .config => s.configured fn (some link) fun t => t.confWrite link fn off size v
  | .memory => s.act fun t => let u := good t.tlp; if u.glb.ready then u.runOn else u
  | .atomicOp => s.arrives fun t => t.tlp.unsupported fn link false
  | .locked => s.arrives fun t => t.tlp.unsupported fn link false
  | .io => s.arrives fun t => t.tlp.unsupported fn link false
  | f => s.arrives fun t => t.tlp.tlpError fn link f good

/-- A configuration read completes: with the bytes asked for, or as unsupported where the instance is not there (R312). -/
def State.confAnswer (s : State) (fn link off size : Nat) : State :=
  match s.confRead link fn (off / 4 * 4) with
  | some v => s.emit (.cpl (some link) fn ((v.setWidth 64 >>> (8 * (off % 4))) &&& BitVec.ofNat 64 (2 ^ (8 * size) - 1)))
  | none => s.emit (.unsupported link fn)

/-- A read request of the host arrives. -/
def State.hostRead (s : State) (fn link : Nat) (at_ : BarAt) (off size : Nat) : State :=
  let good (t : State) : State := t.memRead fn link at_.bar.toNat off size
  match at_.form with
  | .config => s.configured fn (some link) fun t => t.confAnswer fn link off size
  | .memory => if quietPage at_.bar.toNat off then s.inner fun t => good t.tlp else s.act fun t => good t.tlp
  | .atomicOp => s.arrives fun t => t.tlp.unsupported fn link false
  | .locked => s.arrives fun t => t.tlp.unsupported fn link false
  | .io => s.arrives fun t => t.tlp.unsupported fn link false
  | f => s.arrives fun t => t.tlp.tlpError fn link f good

/-- REG_RD of a control core, on PF0's view (R338). -/
def State.coreRead (s : State) (client tag off size : Nat) : State :=
  let answer (t : State) (code : Code) (v : Word) : State := t.send (.p4 (.regRsp client tag code v))
  let run (t : State) : State := t.nocIn 4 .req fun t =>
    if !goodAccess off size then answer (t.badAccess 0 4) 0x05 0
    else
      let r := t.bar0Read 0 off size
      (answer r.2 0 r.1).runOn
  if quietPage 0 off then s.inner run else s.act run

/-- REG_WR of a control core, on PF0's view (R338): a write that resets the hub is not answered. -/
def State.coreWrite (s : State) (client tag off size : Nat) (v : Word) : State :=
  s.act fun t => t.nocIn 4 .req fun t =>
    if !goodAccess off size then (t.badAccess 0 4).send (.p4 (.regRsp client tag 0x05 0))
    else
      let u := t.bar0Write 0 off size v
      if u.glb.ready then (u.send (.p4 (.regRsp client tag 0 0))).runOn else u

end Sys2Proof.Machine
end

