-- ==== Sys2Proof/Machine/Ports.lean ====
section
/-! DEFINITION. Responses and credits that reach the hub on its NoC ports (15_block_ports.md R333, R335, R336). -/

namespace Sys2Proof.Machine

/-- The request a response on a port answers, by AGENT and TAG (R335). -/
def State.findReq (s : State) (port agent tag : Nat) : Option NocReq :=
  s.noc.reqs.find? fun r => r.port = port && r.agent = agent && r.tag = tag

/-- The data read for a request is poisoned: in the message, or because its channel was removed early (R335, R343). -/
def State.readPoison (s : State) (port agent tag : Nat) (poison : Bool) : Bool :=
  poison || (match s.findReq port agent tag with | some r => s.readsRemoved r.addr | none => false)

/-- A response finds its request: `f` says what its holder does with it; a response no request of its kind awaits is discarded with
PORT_PROTOCOL (R335). -/
def State.nocResponse (s : State) (port agent tag : Nat) (f : State → NocFor → Option State) : State :=
  match s.findReq port agent tag with
  | none => s.portProtocol port
  | some r =>
    let s1 := s.onNoc fun n => { n with reqs := n.reqs.erase r }
    match f s1 r.for_ with
    | none => s.portProtocol port
    | some t => t

/-- MemRdData (R336): a read, or a read-back, or a granule of a recall's copy (05 R121). -/
def State.memRdData (s : State) (port agent tag : Nat) (poison : Bool) (data : Granule) : State :=
  let poison := s.readPoison port agent tag poison
  s.nocResponse port agent tag fun t r => match r with
    | .read m u kind idx => some (t.jobData m u kind idx 0 poison data)
    | .readback m u => some (t.jobBack m u 0 poison)
    | .blockBack src psn => some (t.blockBack src psn)
    | .skinkRead frame _ => some (t.recallRead frame (lineCode 0 poison) data)
    | _ => none

/-- MemWrAck (R73, R336): a write of a mover, of an inbound block, of a placement's copy (05 R119), or through the bootstrap window. The hub
reports no reserved code (00_scope.md R8). -/
def State.memWrAck (s : State) (port agent tag : Nat) (code : Code) : State :=
  s.nocResponse port agent tag fun t r => match r with
    | .write m u epoch => some (t.jobWrote m u false epoch (nocStatus code))
    | .block src psn k epoch => some (t.blockWrote src psn k epoch (nocStatus code))
    | .skinkWrite ticket _ => some (t.copyWrote ticket (nocStatus code))
    | .boot _ => some t.bootWrote
    | _ => none

/-- MemAtomicAck (R336): the old value. -/
def State.memAtomicAck (s : State) (port agent tag : Nat) (code : Code) (old : Word) : State :=
  s.nocResponse port agent tag fun t r => match r with
    | .atomic m u epoch => some (t.jobAtomic m u false epoch (nocStatus code) old)
    | _ => none

/-- The port has the class and slot: port 4 has one slot, and no SNP class (R334, R337). -/
def creditExists (port : Nat) (c : NocClass) (slot : Nat) : Bool := port < 4 || (c ≠ .snp && slot = 0)

/-- Credits the NoC allots the hub (R333). -/
def allotted (port cls slot : Nat) : Nat := 1 + Config.nocExtra (creditKey port cls slot)

/-- A credit comes back (R333): of the allotment, or one spent; one beyond that is ignored and sets PORT_PROTOCOL. -/
def State.creditReturn (s : State) (port : Nat) (c : NocClass) (slot : Nat) : State :=
  let k := s.credit port (classNum c) slot
  let put (x : Credit) : State :=
    (s.onNoc fun n => { n with credit := tabPut (fun _ => {}) n.credit (creditKey port (classNum c) slot) x }).nocDrain
  if !creditExists port c slot then s.portProtocol port
  else if k.got < allotted port (classNum c) slot then put { k with held := k.held + 1, got := k.got + 1 }
  else if 0 < k.spent then put { k with held := k.held + 1, spent := k.spent - 1 }
  else s.portProtocol port

end Sys2Proof.Machine
end

