-- ==== Sys2Proof/Machine/RunPorts.lean ====
section
/-! DEFINITION. The meanings of the responses and credits on the NoC ports (15_block_ports.md). -/

namespace Sys2Proof.Machine

/-- MEM_RD_DATA (R336). -/
def execMemRdData (port : Fin 4) (agent : BitVec 11) (tag : BitVec 12) (poison : Bool) (data : Granule) (s : State) :
    Host.Outcome State Fault Refusal :=
  .next (s.arrives fun s => s.nocIn port.val .rsp fun s => s.memRdData port.val agent.toNat tag.toNat poison data)
/-- MEM_WR_ACK (R336): register writes held for a bootstrap write's response go on (19_power_reset_and_bringup.md R405). -/
def execMemWrAck (port : Fin 4) (agent : BitVec 11) (tag : BitVec 12) (status : Code) (s : State) : Host.Outcome State Fault Refusal :=
  .next (s.arrives fun s => s.nocIn port.val .rsp fun s => (s.memWrAck port.val agent.toNat tag.toNat status).replay)
/-- MEM_ATOMIC_ACK (R336). -/
def execMemAtomicAck (port : Fin 4) (agent : BitVec 11) (tag : BitVec 12) (status : Code) (old : Word) (s : State) :
    Host.Outcome State Fault Refusal :=
  .next (s.arrives fun s => s.nocIn port.val .rsp fun s => s.memAtomicAck port.val agent.toNat tag.toNat status old)
/-- SIGNAL_ACK (R335, R336): the hub sends no CoreSignal, so no request of it awaits a SignalAck; a message of an undefined OPC, or in the wrong
class, has no row of its own and is discarded in the same way (R336, R338). -/
def execSignalAck (port : NocStray) (s : State) : Host.Outcome State Fault Refusal :=
  .next (s.arrives fun s => s.nocIn (strayPlace port).1 (strayPlace port).2 fun s => s.portProtocol (strayPlace port).1)
/-- NOC_CREDIT_RETURN (R333). -/
def execNocCreditReturn (port : Fin 5) (cls : NocClass) (slot : Bool) (s : State) : Host.Outcome State Fault Refusal :=
  .next (s.within fun s => s.creditReturn port.val cls (flag slot))

end Sys2Proof.Machine
end

