-- ==== Sys2Proof/Machine/RunPower.lean ====
section
/-! DEFINITION. The meanings of the commands on power, resets, the supply and the bootstrap window (19_power_reset_and_bringup.md;
01_hub_architecture.md R25, R26). -/

namespace Sys2Proof.Machine

/-- SUPPLY_LOW (01 R26). -/
def execSupplyLow (s : State) : Host.Outcome State Fault Refusal := .next (s.within fun s => s.flag pgGLB 0 3)
/-- CLK_OFF_NOMINAL (01 R25). -/
def execClkOffNominal (s : State) : Host.Outcome State Fault Refusal := .next (s.within fun s => s.flag pgGLB 0 2)
/-- DOZE_ENTRY (R391). -/
def execDozeEntry (s : State) : Host.Outcome State Fault Refusal := .next (s.within State.doze)
/-- NAP_ENTRY (R391). -/
def execNapEntry (s : State) : Host.Outcome State Fault Refusal := .next (s.within State.nap)
/-- HIBERNATE_ENTRY (R391). -/
def execHibernateEntry (s : State) : Host.Outcome State Fault Refusal := .next (s.within State.hibernate)
/-- WAKE (R393). -/
def execWake (s : State) : Host.Outcome State Fault Refusal := .next (s.within State.awake)
/-- PWR_WLB (R390). -/
def execPwrWlb (fn : Fn) (v : Word) (s : State) : Host.Outcome State Fault Refusal :=
  .next (s.onPage fn.toNat fun s => s.writeWlb fn.toNat (v.setWidth 32))
/-- WAKE_REQ (R400). -/
def execWakeReq (c : WakeCond) (s : State) : Host.Outcome State Fault Refusal := .next (s.raiseWake c)
/-- COLD_RESET (R401). -/
def execColdReset (s : State) : Host.Outcome State Fault Refusal := .next s.coldReset
/-- WARM_RESET (R401): it outranks an FLR in progress (R403). -/
def execWarmReset (v : Word) (s : State) : Host.Outcome State Fault Refusal := .next (s.act fun s => s.warmReset v)
/-- HUB_READY (R401). -/
def execHubReady (s : State) : Host.Outcome State Fault Refusal := .next s.hubReady
/-- PERST (R340, R400). -/
def execPerst (link : BitVec 2) (s : State) : Host.Outcome State Fault Refusal := .next (s.perst link.toNat)
/-- FLR_COMPLETE (R322, R401, R402). -/
def execFlrComplete (fn : Fn) (s : State) : Host.Outcome State Fault Refusal := .next (s.within fun s => s.flrDone fn.toNat)
/-- BOOT_CLOSE (R406). -/
def execBootClose (s : State) : Host.Outcome State Fault Refusal := .next (s.onPage 0 State.bootClose)
/-- BOOT_DOORBELL (R407). -/
def execBootDoorbell (_v : Word) (s : State) : Host.Outcome State Fault Refusal := .next (s.onPage 0 State.bootDoorbell)

end Sys2Proof.Machine
end

