-- ==== Sys2Proof/Machine/RunRas.lean ====
section
/-! DEFINITION. The meanings of the commands on stored-data protection and channel map-outs (18_stored_data_protection.md;
15_block_ports.md R343). -/

namespace Sys2Proof.Machine

/-- SCRUB_START (R383). -/
def execScrubStart (v : Word) (s : State) : Host.Outcome State Fault Refusal := .next (s.onPage 0 fun s => s.scrubStart v)
/-- SCRUB_DONE (R383). -/
def execScrubDone (s : State) : Host.Outcome State Fault Refusal := .next (s.within State.scrubDone)
/-- RANGE_SCRUB_BLOCK (R383). -/
def execRangeScrubBlock (r : ScrubIn) (s : State) : Host.Outcome State Fault Refusal := .next (s.within fun s => s.scrubBlock r)
/-- BACKGROUND_SCRUB (R384). -/
def execBackgroundScrub (r : ScrubIn) (s : State) : Host.Outcome State Fault Refusal := .next (s.within fun s => s.bgScrub r)
/-- DECLARE_LOST (R379). -/
def execDeclareLost (slot : BitVec 2) (s : State) : Host.Outcome State Fault Refusal :=
  .next (s.onPage 0 fun s => s.declareLost slot.toNat)
/-- REBUILD (R380). -/
def execRebuild (slot : BitVec 2) (s : State) : Host.Outcome State Fault Refusal :=
  .next (s.onPage 0 fun s => s.startRebuild slot.toNat)
/-- REBUILD_BLOCK (R380, R381). -/
def execRebuildBlock (s : State) : Host.Outcome State Fault Refusal := .next (s.within State.rebuildBlock)
/-- REBUILD_DONE (R380). -/
def execRebuildDone (s : State) : Host.Outcome State Fault Refusal := .next (s.within State.rebuildDone)
/-- BANK_COPY_DONE (R374). -/
def execBankCopyDone (code : Byte) (s : State) : Host.Outcome State Fault Refusal :=
  .next (s.within fun s => s.bankCopyDone code.toNat)
/-- REPAIR_LOAD (R386). -/
def execRepairLoad (v : Word) (s : State) : Host.Outcome State Fault Refusal := .next (s.onPage 0 fun s => s.repairLoad v)
/-- REPAIR_READ_DONE (R386). -/
def execRepairReadDone (s : State) : Host.Outcome State Fault Refusal := .next (s.arrives State.repairRead)
/-- MAPOUT_REQUEST (R343). -/
def execMapoutRequest (stack : BitVec 3) (chan : BitVec 5) (s : State) : Host.Outcome State Fault Refusal :=
  .next (s.arrives fun s => s.mapoutRequest stack.toNat chan.toNat)
/-- MAPOUT_ACK (R343). -/
def execMapoutAck (s : State) : Host.Outcome State Fault Refusal := .next (s.within State.mapoutAck)
/-- MAPOUT_REQ_FALL (R343). -/
def execMapoutReqFall (s : State) : Host.Outcome State Fault Refusal := .next (s.arrives State.mapoutFall)

end Sys2Proof.Machine
end

