-- ==== Sys2Proof/Machine/RunRegs.lean ====
section
/-! DEFINITION. The meanings of the accesses to registers with no row of their own, and of the clears of counters and of the trace
(00_scope.md R10 to R12; 15_block_ports.md R338; 21_register_pages.md R418, R425). -/

namespace Sys2Proof.Machine

/-- CLEAR_ALL (R425). -/
def execClearAll (s : State) : Host.Outcome State Fault Refusal := .next (s.onPage 0 State.clearAll)
/-- DBG_TRACE_CLEAR (R425). -/
def execDbgTraceClear (s : State) : Host.Outcome State Fault Refusal := .next (s.onPage 0 State.traceClear)
/-- CNT_CLEAR (R418). -/
def execCntClear (page : Fin 21) (s : State) : Host.Outcome State Fault Refusal := .next (s.onPage 0 fun s => s.clearPage page.val)
/-- REG_RD (15 R338). -/
def execRegRd (client : BitVec 10) (tag : BitVec 12) (off : BitVec 25) (size8 : Bool) (s : State) : Host.Outcome State Fault Refusal :=
  .next (s.coreRead client.toNat tag.toNat off.toNat (if size8 then 8 else 4))
/-- REG_WR (15 R338). -/
def execRegWr (client : BitVec 10) (tag : BitVec 12) (off : BitVec 25) (size8 : Bool) (v : Word) (s : State) :
    Host.Outcome State Fault Refusal :=
  .next (s.coreWrite client.toNat tag.toNat off.toNat (if size8 then 8 else 4) v)
/-- RC_READ (R10, R12): the value is answered to the host; a configuration read is one too (14_host_link_endpoint.md R312; log entry 137). -/
def execRcRead (fn : Fn) (link : BitVec 2) (bar : BarAt) (off : BitVec 26) (size : Nat) (s : State) : Host.Outcome State Fault Refusal :=
  .next (s.hostRead fn.toNat link.toNat bar off.toNat size)
/-- REGISTER_WRITE (R10 to R12); a configuration write is one too (14_host_link_endpoint.md R312; log entry 137). -/
def execRegisterWrite (fn : Fn) (link : BitVec 2) (bar : BarAt) (off : BitVec 26) (size : Nat) (v : Word) (s : State) :
    Host.Outcome State Fault Refusal :=
  .next (s.hostWrite fn.toNat link.toNat bar off.toNat size v)

end Sys2Proof.Machine
end

