-- ==== Sys2Proof/Machine/RunSync.lean ====
section
/-! DEFINITION. The meanings of the commands on sync objects and waits (09_sync_objects.md) and on the arbiters (17_arbiters.md). -/

namespace Sys2Proof.Machine

/-! ## Sync objects -/

/-- OBJ_CREATE (R194). -/
def execObjCreate (fn : Fn) (type : BitVec 2) (slip : Bool) (s : State) : Host.Outcome State Fault Refusal :=
  .next (s.viewed fn.toNat fun s => s.objCreate fn.toNat type slip)
/-- OBJ_DESTROY (R194, R196). -/
def execObjDestroy (fn : Fn) (handle : BitVec 32) (s : State) : Host.Outcome State Fault Refusal :=
  .next (s.viewed fn.toNat fun s => s.objDestroy fn.toNat handle)
/-- OBJ_READ (R194, R208). -/
def execObjRead (fn : Fn) (handle : BitVec 32) (s : State) : Host.Outcome State Fault Refusal :=
  .next (s.viewed fn.toNat fun s => s.objRead fn.toNat handle)
/-- SYNC_ACTION_APPLY (R199). -/
def execSyncActionApply (s : State) : Host.Outcome State Fault Refusal := .next (s.within State.applyFront)
/-- CORE_SIGNAL (R199; 15_block_ports.md R336). -/
def execCoreSignal (port : Fin 4) (agent : BitVec 11) (tag : BitVec 12) (_scope : BitVec 2) (handle : BitVec 32) (action : BitVec 2)
    (value : BitVec 16) (s : State) : Host.Outcome State Fault Refusal :=
  .next (s.arrives fun s => s.nocIn port.val .req fun s => s.coreSignal port.val agent.toNat tag.toNat handle action value)
/-- WAIT_REQ (R197; 15_block_ports.md R338). -/
def execWaitReq (client : BitVec 10) (tag : BitVec 12) (scope cond : BitVec 2) (handle timeout : BitVec 32) (s : State) :
    Host.Outcome State Fault Refusal := .next (s.arrives fun s => s.nocIn 4 .req fun s => s.waitReq client.toNat tag.toNat scope cond handle timeout)
/-- WAIT_EXPIRE (R201). -/
def execWaitExpire (rec : Nat) (s : State) : Host.Outcome State Fault Refusal := .next (s.arrives fun s => s.expire rec)
/-- WAIT_RECORD_LINK (R197, R226). -/
def execWaitRecordLink (e : Engine) (s : State) : Host.Outcome State Fault Refusal := .next (s.within fun s => s.recordLink e)

/-! ## Arbiters -/

/-- ARBITER_ROUND (R358 to R361). -/
def execArbiterRound (a : Fin 35) (s : State) : Host.Outcome State Fault Refusal := .next (s.within fun s => s.arbiterRound a.val)
/-- STARVE_LIMIT (R362). -/
def execStarveLimit (a : Fin 35) (idx : BitVec 14) (s : State) : Host.Outcome State Fault Refusal :=
  .next (s.within fun s => s.starve a.val idx.toNat)
/-- ARB_CHAN_PRIO (R365). -/
def execArbChanPrio (fn : Fn) (v : Word) (s : State) : Host.Outcome State Fault Refusal :=
  .next (s.onPage fn.toNat fun s => s.chanPrio fn.toNat v)

end Sys2Proof.Machine
end

