-- ==== Sys2Proof/Machine/RunXlt.lean ====
section
/-! DEFINITION. The meanings of the commands on translation, invalidation and placement (04_translation.md;
05_invalidation_and_placement.md). -/

namespace Sys2Proof.Machine

/-! ## Translation -/

/-- L2T_LOOKUP (R90). -/
def execL2tLookup (k : Nat) (s : State) : Host.Outcome State Fault Refusal := .next (s.within fun s => s.lookup k)
/-- WALKER_ALLOCATE (R94). -/
def execWalkerAllocate (e : Engine) (s : State) : Host.Outcome State Fault Refusal := .next (s.within fun s => s.walkerAllocate e)
/-- ENTRY_LINE_RETURN (R84). -/
def execEntryLineReturn (w : Fin 64) (s : State) : Host.Outcome State Fault Refusal :=
  .next (s.arrives fun s => s.lineReturn w.val)
/-- LOCK_RETRY (R96). -/
def execLockRetry (k : Nat) (s : State) : Host.Outcome State Fault Refusal := .next (s.arrives fun s => s.lockRetry k)
/-- LOCK_LIMIT (R96). -/
def execLockLimit (k : Nat) (s : State) : Host.Outcome State Fault Refusal := .next (s.arrives fun s => s.lockLimit k)
/-- XLT_REQ (R97). -/
def execXltReq (client : BitVec 10) (tag : BitVec 12) (asid : BitVec 20) (access : BitVec 2) (va : Word) (s : State) :
    Host.Outcome State Fault Refusal :=
  .next (s.arrives fun s => s.nocIn 4 .req fun s => s.xltRequest client.toNat tag.toNat asid.toNat access va)
/-- FAULT_RECORD_OBSERVED (R102). -/
def execFaultRecordObserved (p : Fn) (s : State) : Host.Outcome State Fault Refusal :=
  .next (s.arrives fun s => if s.recordAns? false p.toNat = some 0 then s.recordObserved false p.toNat else s)
/-- FAULT_RECORD_WRITE_FAIL (R103; 05 R118 for a notice). -/
def execFaultRecordWriteFail (p : Fn) (notice : Bool) (s : State) : Host.Outcome State Fault Refusal :=
  .next (s.arrives fun s => match s.recordAns? notice p.toNat with
    | some code => if code = 0 then s else s.recordFailed notice p.toNat
    | none => s)
/-- XLT_FQ_HEAD (R102). -/
def execXltFqHead (fn : Fn) (v : Word) (s : State) : Host.Outcome State Fault Refusal :=
  .next (s.viewed fn.toNat fun s => s.writeHead false fn.toNat v)
/-- XLT_FQ_BASE, and XLT_FQ_SIZE (R102). -/
def execXltFqBase (fn : Fn) (size : Bool) (v : Word) (s : State) : Host.Outcome State Fault Refusal :=
  .next (s.viewed fn.toNat fun s => s.writeBase false fn.toNat size v)
/-- BIND (R81). -/
def execBind (fn : Fn) (asid : BitVec 20) (s : State) : Host.Outcome State Fault Refusal :=
  .next (s.viewed fn.toNat fun s => s.bindAsid fn.toNat asid.toNat)
/-- UNBIND (R81). -/
def execUnbind (fn : Fn) (asid : BitVec 20) (s : State) : Host.Outcome State Fault Refusal :=
  .next (s.viewed fn.toNat fun s => s.unbindAsid fn.toNat asid.toNat)
/-- UNBIND_COMPLETE (R81). -/
def execUnbindComplete (fn : Fn) (s : State) : Host.Outcome State Fault Refusal :=
  .next (s.within fun s => s.unbindDone fn.toNat)
/-- XLT_PRANGE (R88). -/
def execXltPrange (limit : Bool) (v : Word) (s : State) : Host.Outcome State Fault Refusal :=
  .next (s.onPage 0 fun s => s.writePrange limit v)

/-! ## Invalidation -/

/-- XLT_INV_SUBMIT (R105). -/
def execXltInvSubmit (fn : Fn) (v : Word) (s : State) : Host.Outcome State Fault Refusal :=
  .next (s.viewed fn.toNat fun s => s.invSubmit fn.toNat v)
/-- INV_BEGIN (R105). -/
def execInvBegin (s : State) : Host.Outcome State Fault Refusal := .next (s.within State.invBegin)
/-- INV_RANGE (R106). -/
def execInvRange (id : Nat) (s : State) : Host.Outcome State Fault Refusal := .next (s.arrives fun s => s.invDesc id 0)
/-- INV_ASID (R106). -/
def execInvAsid (id : Nat) (s : State) : Host.Outcome State Fault Refusal := .next (s.arrives fun s => s.invDesc id 1)
/-- INV_PARTITION (R106). -/
def execInvPartition (id : Nat) (s : State) : Host.Outcome State Fault Refusal :=
  .next (s.arrives fun s => s.invDesc id 2)
/-- BAD_SCOPE (R106). -/
def execBadScope (id : Nat) (s : State) : Host.Outcome State Fault Refusal := .next (s.arrives fun s => s.invDesc id 3)
/-- XLT_INV_ACK (R111). -/
def execXltInvAck (client : BitVec 10) (invId : BitVec 16) (s : State) : Host.Outcome State Fault Refusal :=
  .next (s.arrives fun s => s.nocIn 4 .rsp fun s => s.invAck client.toNat invId.toNat)
/-- INV_DRAIN_EXPIRED (R112). -/
def execInvDrainExpired (id : Nat) (s : State) : Host.Outcome State Fault Refusal := .next (s.arrives fun s => s.drainExpired id)
/-- INVALIDATION_COMPLETE (R108). -/
def execInvalidationComplete (id : Nat) (s : State) : Host.Outcome State Fault Refusal := .next (s.within fun s => s.invComplete id)

/-! ## Skink -/

/-- HALVING_PASS (R114). -/
def execHalvingPass (s : State) : Host.Outcome State Fault Refusal := .next (s.within State.halve)
/-- SKINK_ENTRIES_READ (R115). -/
def execSkinkEntriesRead (ticket : Nat) (s : State) : Host.Outcome State Fault Refusal :=
  .next (s.arrives fun s => s.entriesRead ticket)
/-- SKINK_NOTICE_OBSERVED (R118). -/
def execSkinkNoticeObserved (p : Fn) (s : State) : Host.Outcome State Fault Refusal :=
  .next (s.arrives fun s => if s.recordAns? true p.toNat = some 0 then s.recordObserved true p.toNat else s)
/-- SKK_NQ_HEAD (R118). -/
def execSkkNqHead (fn : Fn) (v : Word) (s : State) : Host.Outcome State Fault Refusal :=
  .next (s.viewed fn.toNat fun s => s.writeHead true fn.toNat v)
/-- SKK_NQ_BASE, and SKK_NQ_SIZE (R118). -/
def execSkkNqBase (fn : Fn) (size : Bool) (v : Word) (s : State) : Host.Outcome State Fault Refusal :=
  .next (s.viewed fn.toNat fun s => s.writeBase true fn.toNat size v)
/-- ACCEPT (R119). -/
def execAccept (fn : Fn) (ticket : BitVec 16) (s : State) : Host.Outcome State Fault Refusal :=
  .next (s.viewed fn.toNat fun s => s.accept fn.toNat ticket.toNat)
/-- DECLINE (R119). -/
def execDecline (fn : Fn) (ticket : BitVec 16) (s : State) : Host.Outcome State Fault Refusal :=
  .next (s.viewed fn.toNat fun s => s.decline fn.toNat ticket.toNat)
/-- RECALL (R121). -/
def execRecall (fn : Fn) (frame : BitVec 32) (s : State) : Host.Outcome State Fault Refusal :=
  .next (s.viewed fn.toNat fun s => s.recall fn.toNat frame.toNat)
/-- RELEASE (R122). -/
def execRelease (fn : Fn) (frame : BitVec 32) (s : State) : Host.Outcome State Fault Refusal :=
  .next (s.viewed fn.toNat fun s => s.release fn.toNat frame.toNat)
/-- ACK_LIMIT_EXPIRED (R123). -/
def execAckLimitExpired (ticket : BitVec 16) (s : State) : Host.Outcome State Fault Refusal :=
  .next (s.arrives fun s => s.ackExpired ticket.toNat)
/-- MIGRATION_DRAIN_DONE (R119). -/
def execMigrationDrainDone (ticket : BitVec 16) (s : State) : Host.Outcome State Fault Refusal :=
  .next (s.within fun s => s.migrationDrained ticket.toNat)
/-- MIGRATION_REREAD_DONE (R119). -/
def execMigrationRereadDone (ticket : BitVec 16) (s : State) : Host.Outcome State Fault Refusal :=
  .next (s.arrives fun s => s.reread ticket.toNat)
/-- MIGRATION_COPY_DONE (R119). -/
def execMigrationCopyDone (ticket : BitVec 16) (s : State) : Host.Outcome State Fault Refusal :=
  .next (s.within fun s => s.copyDone ticket.toNat)
/-- MIGRATION_CAS_DONE (R119). -/
def execMigrationCasDone (ticket : BitVec 16) (s : State) : Host.Outcome State Fault Refusal :=
  .next (s.within fun s => s.swapDone ticket.toNat)
/-- RECALL_LOCK_DONE (R121). -/
def execRecallLockDone (frame : BitVec 32) (s : State) : Host.Outcome State Fault Refusal :=
  .next (s.within fun s => s.recallLocked frame.toNat)
/-- RECALL_DRAIN_DONE (R121). -/
def execRecallDrainDone (frame : BitVec 32) (s : State) : Host.Outcome State Fault Refusal :=
  .next (s.within fun s => s.recallDrained frame.toNat)
/-- RECALL_COPY_DONE (R121). -/
def execRecallCopyDone (frame : BitVec 32) (s : State) : Host.Outcome State Fault Refusal :=
  .next (s.within fun s => s.recallCopied frame.toNat)
/-- RECALL_CAS_DONE (R121). -/
def execRecallCasDone (frame : BitVec 32) (s : State) : Host.Outcome State Fault Refusal :=
  .next (s.within fun s => s.recallRestored frame.toNat)
/-- HINT_PROCESS (R124). -/
def execHintProcess (s : State) : Host.Outcome State Fault Refusal := .next (s.within State.hintNext)
/-- THERMAL_NOTICE (12 R278). -/
def execThermalNotice (stack : BitVec 3) (s : State) : Host.Outcome State Fault Refusal :=
  .next (s.arrives fun s => s.thermalOn stack.toNat)
/-- THERMAL_CLEAR (12 R278). -/
def execThermalClear (stack : BitVec 3) (s : State) : Host.Outcome State Fault Refusal :=
  .next (s.arrives fun s => s.thermalOff stack.toNat)

end Sys2Proof.Machine
end

