-- ==== Sys2Proof/Machine/Dispatch.lean ====
section
/-! DEFINITION. One arm per command: a direct call of its meaning. -/

namespace Sys2Proof.Machine

/-- The effect of a command on everything but the queue. -/
def exec (i : Instr) (s : State) : Host.Outcome State Fault Refusal :=
  match i with
  | .mgmtSubmit fn v => Sys2Proof.Machine.execMgmtSubmit fn v s
  | .create fn => Sys2Proof.Machine.execCreate fn s
  | .destroy fn => Sys2Proof.Machine.execDestroy fn s
  | .reset fn => Sys2Proof.Machine.execReset fn s
  | .kill fn => Sys2Proof.Machine.execKill fn s
  | .modify fn => Sys2Proof.Machine.execModify fn s
  | .badOp fn => Sys2Proof.Machine.execBadOp fn s
  | .mgmtResultObserved fn => Sys2Proof.Machine.execMgmtResultObserved fn s
  | .contextWritten slot ok => Sys2Proof.Machine.execContextWritten slot ok s
  | .retireDrained slot => Sys2Proof.Machine.execRetireDrained slot s
  | .retireLimitExpired slot => Sys2Proof.Machine.execRetireLimitExpired slot s
  | .contextLoad slot ok => Sys2Proof.Machine.execContextLoad slot ok s
  | .dbTail fn slot v => Sys2Proof.Machine.execDbTail fn slot v s
  | .halt fn slot gen => Sys2Proof.Machine.execHalt fn slot gen s
  | .stop fn slot gen => Sys2Proof.Machine.execStop fn slot gen s
  | .resume fn slot gen => Sys2Proof.Machine.execResume fn slot gen s
  | .dbInline fn slot off len allBytes data => Sys2Proof.Machine.execDbInline fn slot off len allBytes data s
  | .ringSlotReturn slot pos => Sys2Proof.Machine.execRingSlotReturn slot pos s
  | .ringReread slot => Sys2Proof.Machine.execRingReread slot s
  | .ringReadFail slot pos => Sys2Proof.Machine.execRingReadFail slot pos s
  | .copy slot => Sys2Proof.Machine.execCopy slot s
  | .copyConvert slot => Sys2Proof.Machine.execCopyConvert slot s
  | .fill slot => Sys2Proof.Machine.execFill slot s
  | .inlineWrite slot => Sys2Proof.Machine.execInlineWrite slot s
  | .reducePut slot => Sys2Proof.Machine.execReducePut slot s
  | .fence slot => Sys2Proof.Machine.execFence slot s
  | .signal slot => Sys2Proof.Machine.execSignal slot s
  | .wait slot => Sys2Proof.Machine.execWait slot s
  | .atomic slot => Sys2Proof.Machine.execAtomic slot s
  | .nop slot => Sys2Proof.Machine.execNop slot s
  | .migrateHint slot => Sys2Proof.Machine.execMigrateHint slot s
  | .timestamp slot => Sys2Proof.Machine.execTimestamp slot s
  | .planArm slot => Sys2Proof.Machine.execPlanArm slot s
  | .segmentDispatch e urgent => Sys2Proof.Machine.execSegmentDispatch e urgent s
  | .burstStart m urgent => Sys2Proof.Machine.execBurstStart m urgent s
  | .segmentComplete m urgent => Sys2Proof.Machine.execSegmentComplete m urgent s
  | .segmentFail m urgent why => Sys2Proof.Machine.execSegmentFail m urgent why s
  | .fenceHeld slot => Sys2Proof.Machine.execFenceHeld slot s
  | .stoppedContextIdle m urgent => Sys2Proof.Machine.execStoppedContextIdle m urgent s
  | .reedSlotBoundary => Sys2Proof.Machine.execReedSlotBoundary s
  | .l2tLookup k => Sys2Proof.Machine.execL2tLookup k s
  | .walkerAllocate e => Sys2Proof.Machine.execWalkerAllocate e s
  | .entryLineReturn w => Sys2Proof.Machine.execEntryLineReturn w s
  | .lockRetry k => Sys2Proof.Machine.execLockRetry k s
  | .lockLimit k => Sys2Proof.Machine.execLockLimit k s
  | .xltReq client tag asid access va => Sys2Proof.Machine.execXltReq client tag asid access va s
  | .faultRecordObserved p => Sys2Proof.Machine.execFaultRecordObserved p s
  | .faultRecordWriteFail p notice => Sys2Proof.Machine.execFaultRecordWriteFail p notice s
  | .xltFqHead fn v => Sys2Proof.Machine.execXltFqHead fn v s
  | .xltFqBase fn size v => Sys2Proof.Machine.execXltFqBase fn size v s
  | .bind fn asid => Sys2Proof.Machine.execBind fn asid s
  | .unbind fn asid => Sys2Proof.Machine.execUnbind fn asid s
  | .unbindComplete fn => Sys2Proof.Machine.execUnbindComplete fn s
  | .xltPrange limit v => Sys2Proof.Machine.execXltPrange limit v s
  | .xltInvSubmit fn v => Sys2Proof.Machine.execXltInvSubmit fn v s
  | .invBegin => Sys2Proof.Machine.execInvBegin s
  | .invRange id => Sys2Proof.Machine.execInvRange id s
  | .invAsid id => Sys2Proof.Machine.execInvAsid id s
  | .invPartition id => Sys2Proof.Machine.execInvPartition id s
  | .badScope id => Sys2Proof.Machine.execBadScope id s
  | .xltInvAck client invId => Sys2Proof.Machine.execXltInvAck client invId s
  | .invDrainExpired id => Sys2Proof.Machine.execInvDrainExpired id s
  | .invalidationComplete id => Sys2Proof.Machine.execInvalidationComplete id s
  | .halvingPass => Sys2Proof.Machine.execHalvingPass s
  | .skinkEntriesRead ticket => Sys2Proof.Machine.execSkinkEntriesRead ticket s
  | .skinkNoticeObserved p => Sys2Proof.Machine.execSkinkNoticeObserved p s
  | .skkNqHead fn v => Sys2Proof.Machine.execSkkNqHead fn v s
  | .skkNqBase fn size v => Sys2Proof.Machine.execSkkNqBase fn size v s
  | .accept fn ticket => Sys2Proof.Machine.execAccept fn ticket s
  | .decline fn ticket => Sys2Proof.Machine.execDecline fn ticket s
  | .recall fn frame => Sys2Proof.Machine.execRecall fn frame s
  | .release fn frame => Sys2Proof.Machine.execRelease fn frame s
  | .ackLimitExpired ticket => Sys2Proof.Machine.execAckLimitExpired ticket s
  | .migrationDrainDone ticket => Sys2Proof.Machine.execMigrationDrainDone ticket s
  | .migrationRereadDone ticket => Sys2Proof.Machine.execMigrationRereadDone ticket s
  | .migrationCopyDone ticket => Sys2Proof.Machine.execMigrationCopyDone ticket s
  | .migrationCasDone ticket => Sys2Proof.Machine.execMigrationCasDone ticket s
  | .recallLockDone frame => Sys2Proof.Machine.execRecallLockDone frame s
  | .recallDrainDone frame => Sys2Proof.Machine.execRecallDrainDone frame s
  | .recallCopyDone frame => Sys2Proof.Machine.execRecallCopyDone frame s
  | .recallCasDone frame => Sys2Proof.Machine.execRecallCasDone frame s
  | .hintProcess => Sys2Proof.Machine.execHintProcess s
  | .thermalNotice stack => Sys2Proof.Machine.execThermalNotice stack s
  | .thermalClear stack => Sys2Proof.Machine.execThermalClear stack s
  | .mapoutRequest stack chan => Sys2Proof.Machine.execMapoutRequest stack chan s
  | .mapoutAck => Sys2Proof.Machine.execMapoutAck s
  | .mapoutReqFall => Sys2Proof.Machine.execMapoutReqFall s
  | .bar4Write fn off bytes link cut => Sys2Proof.Machine.execBar4Write fn off bytes link cut s
  | .bar4Read fn => Sys2Proof.Machine.execBar4Read fn s
  | .movStgArea v => Sys2Proof.Machine.execMovStgArea v s
  | .stagingClearDone p => Sys2Proof.Machine.execStagingClearDone p s
  | .ccuSrSeed v => Sys2Proof.Machine.execCcuSrSeed v s
  | .laneResidueError lane => Sys2Proof.Machine.execLaneResidueError lane s
  | .unitSelfCheckFail u => Sys2Proof.Machine.execUnitSelfCheckFail u s
  | .objCreate fn type slip => Sys2Proof.Machine.execObjCreate fn type slip s
  | .objDestroy fn handle => Sys2Proof.Machine.execObjDestroy fn handle s
  | .objRead fn handle => Sys2Proof.Machine.execObjRead fn handle s
  | .syncActionApply => Sys2Proof.Machine.execSyncActionApply s
  | .coreSignal port agent tag scope handle action value => Sys2Proof.Machine.execCoreSignal port agent tag scope handle action value s
  | .waitReq client tag scope cond handle timeout => Sys2Proof.Machine.execWaitReq client tag scope cond handle timeout s
  | .waitExpire rec => Sys2Proof.Machine.execWaitExpire rec s
  | .waitRecordLink e => Sys2Proof.Machine.execWaitRecordLink e s
  | .chtDroneSet fn v => Sys2Proof.Machine.execChtDroneSet fn v s
  | .droneStep glitch => Sys2Proof.Machine.execDroneStep glitch s
  | .droneTick glitch => Sys2Proof.Machine.execDroneTick glitch s
  | .drone h => Sys2Proof.Machine.execDrone h s
  | .droneBroadcast => Sys2Proof.Machine.execDroneBroadcast s
  | .droneInterpolate cycles => Sys2Proof.Machine.execDroneInterpolate cycles s
  | .droneLost => Sys2Proof.Machine.execDroneLost s
  | .rebase fn => Sys2Proof.Machine.execRebase fn s
  | .chtDroneCfg fn v => Sys2Proof.Machine.execChtDroneCfg fn v s
  | .planPulse handle => Sys2Proof.Machine.execPlanPulse handle s
  | .slip h => Sys2Proof.Machine.execSlip h s
  | .slipEnd h => Sys2Proof.Machine.execSlipEnd h s
  | .slipLimitExpired => Sys2Proof.Machine.execSlipLimitExpired s
  | .planLoad fn => Sys2Proof.Machine.execPlanLoad fn s
  | .imageReadDone fn => Sys2Proof.Machine.execImageReadDone fn s
  | .planFree fn handle count => Sys2Proof.Machine.execPlanFree fn handle count s
  | .readShared r => Sys2Proof.Machine.execReadShared r s
  | .readUnique r => Sys2Proof.Machine.execReadUnique r s
  | .readNoAlloc r => Sys2Proof.Machine.execReadNoAlloc r s
  | .writeNoAlloc r data => Sys2Proof.Machine.execWriteNoAlloc r data s
  | .writeBack r data => Sys2Proof.Machine.execWriteBack r data s
  | .atomicReq r scope op type operand compare => Sys2Proof.Machine.execAtomicReq r scope op type operand compare s
  | .ackS agent addr => Sys2Proof.Machine.execAckS agent addr s
  | .ackI agent addr => Sys2Proof.Machine.execAckI agent addr s
  | .dataS agent addr data => Sys2Proof.Machine.execDataS agent addr data s
  | .dataI agent addr data => Sys2Proof.Machine.execDataI agent addr data s
  | .dataCur agent addr data => Sys2Proof.Machine.execDataCur agent addr data s
  | .miss agent addr => Sys2Proof.Machine.execMiss agent addr s
  | .wbPending agent addr => Sys2Proof.Machine.execWbPending agent addr s
  | .goS addr data => Sys2Proof.Machine.execGoS addr data s
  | .goE addr data => Sys2Proof.Machine.execGoE addr data s
  | .goM addr data => Sys2Proof.Machine.execGoM addr data s
  | .goWritepull addr => Sys2Proof.Machine.execGoWritepull addr s
  | .goI addr => Sys2Proof.Machine.execGoI addr s
  | .goErr addr data => Sys2Proof.Machine.execGoErr addr data s
  | .hostData addr poison data => Sys2Proof.Machine.execHostData addr poison data s
  | .homeAtomicDone addr => Sys2Proof.Machine.execHomeAtomicDone addr s
  | .snpInv link addr => Sys2Proof.Machine.execSnpInv link addr s
  | .snpData link addr => Sys2Proof.Machine.execSnpData link addr s
  | .snpCur link addr => Sys2Proof.Machine.execSnpCur link addr s
  | .creditLimitExpired addr => Sys2Proof.Machine.execCreditLimitExpired addr s
  | .snoopLimitExpired agent addr => Sys2Proof.Machine.execSnoopLimitExpired agent addr s
  | .hostLimitExpired addr => Sys2Proof.Machine.execHostLimitExpired addr s
  | .packetData h blocks => Sys2Proof.Machine.execPacketData h blocks s
  | .packetReduce h blocks => Sys2Proof.Machine.execPacketReduce h blocks s
  | .packetSignal h => Sys2Proof.Machine.execPacketSignal h s
  | .packetAck h => Sys2Proof.Machine.execPacketAck h s
  | .packetNack h => Sys2Proof.Machine.execPacketNack h s
  | .blockApplied src psn k => Sys2Proof.Machine.execBlockApplied src psn k s
  | .resendTimeout dst psn => Sys2Proof.Machine.execResendTimeout dst psn s
  | .fabricPortDown f => Sys2Proof.Machine.execFabricPortDown f s
  | .pxpRoute v => Sys2Proof.Machine.execPxpRoute v s
  | .pwnOwin fn word v => Sys2Proof.Machine.execPwnOwin fn word v s
  | .pwnIwin fn word v => Sys2Proof.Machine.execPwnIwin fn word v s
  | .iwinDrained w => Sys2Proof.Machine.execIwinDrained w s
  | .windowAllotment inbound v => Sys2Proof.Machine.execWindowAllotment inbound v s
  | .enable => Sys2Proof.Machine.execEnable s
  | .disable => Sys2Proof.Machine.execDisable s
  | .disableComplete p => Sys2Proof.Machine.execDisableComplete p s
  | .quotaWrite q v => Sys2Proof.Machine.execQuotaWrite q v s
  | .prtDrainExpired p d => Sys2Proof.Machine.execPrtDrainExpired p d s
  | .failureDeclared e => Sys2Proof.Machine.execFailureDeclared e s
  | .quiesceDone => Sys2Proof.Machine.execQuiesceDone s
  | .quiesceLimitExpired => Sys2Proof.Machine.execQuiesceLimitExpired s
  | .channelAdopt => Sys2Proof.Machine.execChannelAdopt s
  | .soloA => Sys2Proof.Machine.execSoloA s
  | .soloB => Sys2Proof.Machine.execSoloB s
  | .shared => Sys2Proof.Machine.execShared s
  | .engineWithdrawn => Sys2Proof.Machine.execEngineWithdrawn s
  | .resetA => Sys2Proof.Machine.execResetA s
  | .resetB => Sys2Proof.Machine.execResetB s
  | .engineReady e ok => Sys2Proof.Machine.execEngineReady e ok s
  | .busMasterDisable fn link => Sys2Proof.Machine.execBusMasterDisable fn link s
  | .vfFlr fn link => Sys2Proof.Machine.execVfFlr fn link s
  | .pfFlr link => Sys2Proof.Machine.execPfFlr link s
  | .flrComplete fn => Sys2Proof.Machine.execFlrComplete fn s
  | .vfEnable fn link => Sys2Proof.Machine.execVfEnable fn link s
  | .vfDisable fn link => Sys2Proof.Machine.execVfDisable fn link s
  | .cacheWritebackInvalidate link => Sys2Proof.Machine.execCacheWritebackInvalidate link s
  | .cacheEnableClear link => Sys2Proof.Machine.execCacheEnableClear link s
  | .linkUp link flit256 speed width => Sys2Proof.Machine.execLinkUp link flit256 speed width s
  | .linkDown link => Sys2Proof.Machine.execLinkDown link s
  | .perst link => Sys2Proof.Machine.execPerst link s
  | .cxlioCompletion link tag success poison => Sys2Proof.Machine.execCxlioCompletion link tag success poison s
  | .completionTimeout link tag => Sys2Proof.Machine.execCompletionTimeout link tag s
  | .hlkRemap r v => Sys2Proof.Machine.execHlkRemap r v s
  | .remapDone => Sys2Proof.Machine.execRemapDone s
  | .d3hot fn pmeEn clearPme => Sys2Proof.Machine.execD3hot fn pmeEn clearPme s
  | .d0Return fn pmeEn clearPme => Sys2Proof.Machine.execD0Return fn pmeEn clearPme s
  | .evcSrcRaise fn v => Sys2Proof.Machine.execEvcSrcRaise fn v s
  | .evcSrcClear fn v => Sys2Proof.Machine.execEvcSrcClear fn v s
  | .evcSrcCfg fn v => Sys2Proof.Machine.execEvcSrcCfg fn v s
  | .evcTgtAssign v => Sys2Proof.Machine.execEvcTgtAssign v s
  | .evcClaim fn t => Sys2Proof.Machine.execEvcClaim fn t s
  | .evcComplete fn t v => Sys2Proof.Machine.execEvcComplete fn t v s
  | .sourceEdge src => Sys2Proof.Machine.execSourceEdge src s
  | .arbiterRound a => Sys2Proof.Machine.execArbiterRound a s
  | .starveLimit a idx => Sys2Proof.Machine.execStarveLimit a idx s
  | .arbChanPrio fn v => Sys2Proof.Machine.execArbChanPrio fn v s
  | .scrubStart v => Sys2Proof.Machine.execScrubStart v s
  | .scrubDone => Sys2Proof.Machine.execScrubDone s
  | .backgroundScrub r => Sys2Proof.Machine.execBackgroundScrub r s
  | .declareLost slot => Sys2Proof.Machine.execDeclareLost slot s
  | .rebuild slot => Sys2Proof.Machine.execRebuild slot s
  | .rebuildDone => Sys2Proof.Machine.execRebuildDone s
  | .repairLoad v => Sys2Proof.Machine.execRepairLoad v s
  | .repairReadDone => Sys2Proof.Machine.execRepairReadDone s
  | .supplyLow => Sys2Proof.Machine.execSupplyLow s
  | .clkOffNominal => Sys2Proof.Machine.execClkOffNominal s
  | .dozeEntry => Sys2Proof.Machine.execDozeEntry s
  | .napEntry => Sys2Proof.Machine.execNapEntry s
  | .hibernateEntry => Sys2Proof.Machine.execHibernateEntry s
  | .wake => Sys2Proof.Machine.execWake s
  | .pwrWlb fn v => Sys2Proof.Machine.execPwrWlb fn v s
  | .wakeReq c => Sys2Proof.Machine.execWakeReq c s
  | .coldReset => Sys2Proof.Machine.execColdReset s
  | .warmReset v => Sys2Proof.Machine.execWarmReset v s
  | .hubReady => Sys2Proof.Machine.execHubReady s
  | .bootClose => Sys2Proof.Machine.execBootClose s
  | .bootDoorbell v => Sys2Proof.Machine.execBootDoorbell v s
  | .clearAll => Sys2Proof.Machine.execClearAll s
  | .dbgTraceClear => Sys2Proof.Machine.execDbgTraceClear s
  | .cntClear page => Sys2Proof.Machine.execCntClear page s
  | .memRdData port agent tag poison data => Sys2Proof.Machine.execMemRdData port agent tag poison data s
  | .memWrAck port agent tag status => Sys2Proof.Machine.execMemWrAck port agent tag status s
  | .memAtomicAck port agent tag status old => Sys2Proof.Machine.execMemAtomicAck port agent tag status old s
  | .signalAck port => Sys2Proof.Machine.execSignalAck port s
  | .nocCreditReturn port cls slot => Sys2Proof.Machine.execNocCreditReturn port cls slot s
  | .regRd client tag off size8 => Sys2Proof.Machine.execRegRd client tag off size8 s
  | .regWr client tag off size8 v => Sys2Proof.Machine.execRegWr client tag off size8 v s
  | .rcRead fn link bar off size => Sys2Proof.Machine.execRcRead fn link bar off size s
  | .registerWrite fn link bar off size v => Sys2Proof.Machine.execRegisterWrite fn link bar off size v s
  | .busMasterEnable fn link ctl => Sys2Proof.Machine.execBusMasterEnable fn link ctl s
  | .cacheEnableSet link => Sys2Proof.Machine.execCacheEnableSet link s
  | .rebuildBlock => Sys2Proof.Machine.execRebuildBlock s
  | .rangeScrubBlock r => Sys2Proof.Machine.execRangeScrubBlock r s
  | .bankCopyDone code => Sys2Proof.Machine.execBankCopyDone code s
  | .slipExpired => Sys2Proof.Machine.execSlipExpired s
  | .twinPortError e => Sys2Proof.Machine.execTwinPortError e s

end Sys2Proof.Machine
end

