-- ==== Sys2Proof/Safety.lean ====
section
/-! DEFINITION. What counts as a safe run of the block: the canonical form of its tables, a hub at rest, and which parts of the state a
command leaves alone. -/

namespace Sys2Proof.Machine

/-! ## The canonical form of the tables -/

/-- The canonical form of a byte memory whose unlisted addresses read 0: addresses rise, and no entry reads 0 (log entry 15). -/
def Memory.wf (m : List Host.Cell) : Bool := tabWf (fun _ => 0) m

/-- The tables of GLB and of every page are in canonical form. -/
def Glb.wf (g : Glb) : Bool := tabWf stickyDflt g.sticky && tabWf (fun _ => {}) g.blocks && tabWf (fun _ => {}) g.trace
/-- The tables of the event concentrator are in canonical form. -/
def Evc.wf (e : Evc) : Bool :=
  tabWf srcDflt e.src && tabWf tgtDflt e.tgt && tabWf (fun _ => 0) e.srcSel && tabWf (fun _ => 0) e.merge
/-- The tables of the host links are in canonical form. -/
def Hlk.wf (h : Hlk) : Bool :=
  tabWf (fun _ => {}) h.ranges && tabWf (fun _ => {}) h.links && tabWf (fun _ => {}) h.inst && tabWf (fun _ => 0) h.nextTag &&
    tabWf (fun _ => {}) h.msix && tabWf (fun _ => {}) h.aer
/-- The tables of the NoC ports are in canonical form. -/
def Noc.wf (n : Noc) : Bool := tabWf (fun _ => {}) n.credit && tabWf (fun _ => 0) n.inUse
/-- The tables of the channels are in canonical form. -/
def Dbl.wf (d : Dbl) : Bool := tabWf (fun _ => {}) d.chan && tabWf (fun _ => {}) d.mgmt
/-- The tables of translation are in canonical form. -/
def Xlt.wf (x : Xlt) : Bool :=
  tabWf profDflt x.prof && tabWf prangeDflt x.range && tabWf asidMaxDflt x.asidMax && tabWf (fun _ => {}) x.client &&
    tabWf (fun _ => {}) x.bind && tabWf (fun _ => {}) x.fq && tabWf (fun _ => 0) x.suppressed && tabWf (fun _ => {}) x.eft &&
    tabWf (fun _ => none) x.l2t && tabWf (fun _ => 0) x.plru && tabWf (fun _ => none) x.walk
/-- The tables of Skink are in canonical form. -/
def Skk.wf (k : Skk) : Bool := tabWf (fun _ => {}) k.part && tabWf (fun _ => 0) k.count && tabWf (fun _ => {}) k.nq
/-- The tables of the movers, and the staging memory, are in canonical form. -/
def Mov.wf (m : Mov) : Bool :=
  tabWf (fun _ => {}) m.job && tabWf shareDflt m.partShare && tabWf shareDflt m.partNow && tabWf (fun _ => none) m.chanCredit &&
    tabWf (fun _ => none) m.partCredit && tabWf (fun _ => 0) m.slotBytes && tabWf (fun _ => 0) m.planBytes &&
    tabWf areaDflt m.area && tabWf (fun _ => 0) m.unitOwner && Memory.wf m.staging && tabWf (fun _ => {}) m.view
/-- The tables of the CCU are in canonical form. -/
def Ccu.wf (c : Ccu) : Bool := tabWf (fun _ => none) c.lane && tabWf (fun _ => none) c.oldLane && tabWf (fun _ => {}) c.count
/-- The tables of the sync unit are in canonical form. -/
def Syn.wf (y : Syn) : Bool := tabWf (fun _ => {}) y.obj && tabWf (fun _ => none) y.rec_ && tabWf (fun _ => {}) y.view
/-- The tables of Chanter are in canonical form. -/
def Cht.wf (c : Cht) : Bool :=
  tabWf (fun _ => 0) c.rsvMax && tabWf (fun _ => {}) c.entry && tabWf (fun _ => {}) c.row && tabWf (fun _ => {}) c.view
/-- The tables of the home are in canonical form. -/
def Home.wf (h : Home) : Bool := tabWf (fun _ => {}) h.line
/-- The tables of the windows and the transport are in canonical form. -/
def Peer.wf (p : Peer) : Bool :=
  tabWf (fun _ => {}) p.owin && tabWf (fun _ => {}) p.iwin && tabWf oAllotDflt p.oAllot && tabWf iAllotDflt p.iAllot &&
    tabWf (fun _ => {}) p.view && tabWf (fun _ => 0) p.route && tabWf (fun _ => {}) p.flow && tabWf (fun _ => {}) p.rx
/-- The table of partitions is in canonical form. -/
def Prt.wf (p : Prt) : Bool := tabWf partDflt p.part
/-- The tables of the arbiters are in canonical form. -/
def Arb.wf (a : Arb) : Bool := tabWf (fun _ => {}) a.arb && tabWf (fun _ => {}) a.req && tabWf (fun _ => 0) a.chanSel
/-- The table of the hub store's runs is in canonical form. -/
def Ras.wf (r : Ras) : Bool := tabWf (fun _ => 0) r.run
/-- The table of latency budgets is in canonical form. -/
def Pwr.wf (p : Pwr) : Bool := tabWf (fun _ => 0xC8) p.wlb

/-- Every sparse table of the state is in its canonical form: its indices rise, and it lists no entry equal to the reset entry. -/
def State.wf (s : State) : Bool :=
  s.glb.wf && s.evc.wf && s.hlk.wf && s.noc.wf && s.dbl.wf && s.xlt.wf && s.skk.wf && s.mov.wf && s.ccu.wf && s.syn.wf &&
    s.cht.wf && s.home.wf && s.peer.wf && s.prt.wf && s.arb.wf && s.ras.wf && s.pwr.wf

/-! ## A hub at rest -/

/-- hub_ready is high, and the hub is not in D3cold: it takes commands. -/
def State.on (s : State) : Bool := s.glb.ready && !s.pwr.d3cold

/-- Nothing is on its way between the hub's units: no answer of the home, no translation of an inbound block, no loopback packet, no
FENCE about to issue its reads, no partition closing of its own accord, no cache drain, no entry into Hibernate, no fetch with a command to
reject or a fault to take, no packet that can no more be sent, no plan image being placed, no posted write to be asked after. -/
def State.settled (s : State) : Bool :=
  s.home.answers = [] && s.home.woken = [] && s.xlt.inbound = [] && s.peer.loop = [] &&
    s.dbl.chan.all (fun (e : Nat × Chan) => !e.2.fencing) &&
    s.prt.part.all (fun (e : Nat × Part) => e.2.closing = .none || e.2.closing = .last) && !s.hlk.cacheDrain && !s.pwr.entering &&
    s.dbl.chan.all (fun (e : Nat × Chan) => !e.2.settling) && s.peer.flow.all (fun (e : Nat × Flow) => (e.2.wait.filter e.2.dead).isEmpty) &&
    s.cht.view.all (fun (e : Nat × ChtView) => e.2.loaded.isNone) && s.strays.isEmpty

/-- The arbiters whose requesters wait are those whose requesters request: none that has dropped keeps its wait. -/
def State.arbsSettled (s : State) : Bool :=
  s.arb.req.all fun (e : Nat × ArbReq) => (e.2.age = 0 && e.2.lost = 0 && e.2.since.isNone && !e.2.flagged) ||
    (s.requests (e.1 / 16384)).any fun r => r.1 = e.1 % 16384

/-- The hub runs with nothing on its way between its units, its tables in canonical form. -/
def State.atRest (s : State) : Bool := s.on && s.settled && s.wf && s.pwr.st = .run && s.arbsSettled

/-- The home's answer to a unit's request stands, with a status and data, for the command that takes it (log entry 98). -/
def State.withAnswer (s : State) (u : UnitFor) (code : Code) (data : Granule) : State :=
  s.onHome fun h => { h with answers := [(u, code, data, false)] }

/-- A hub at rest in which no FLR holds a function's registers. -/
def State.hostOpen (s : State) (fn : Nat) : Bool := s.atRest && !s.inFlr fn

/-- A hub at rest in which a function may use its view pages. -/
def State.viewOpen (s : State) (fn : Nat) : Bool := s.hostOpen fn && (s.part fn).st ≠ .disabled

/-! ## What a command leaves alone -/

/-- The parts of the state. -/
inductive Region where
  | glb | evc | hlk | noc | dbl | xlt | skk | mov | ccu | syn | cht | home | peer | prt | twn | arb | ras | pwr | free
deriving DecidableEq, Repr

/-- A part of the state is as before. Six parts take part in what another part does, so that of them only this may differ: counters,
captures and trace entries of the pages (the sticky bits themselves are said by `State.sticks`); PENDING of event sources and the time of their last edge, REQUEST of targets
and merge counts; pending MSI-X vectors, PME_Status and the status, first error and header of the AER registers, which lose no status bit; NoC
credits, theirs and the hub's, and messages that wait for one; the wait of a requester that drops its request, which ends; and which functions
have sent their PME. -/
def State.kept (s t : State) : Region → Prop
  | .glb => t.glb = { s.glb with
      sticky := t.glb.sticky, blocks := t.glb.blocks, tracePtr := t.glb.tracePtr, traceWrapped := t.glb.traceWrapped
      trace := t.glb.trace, traceLost := t.glb.traceLost, traceAt := t.glb.traceAt, traceNow := t.glb.traceNow }
  | .evc => t.evc = { s.evc with src := t.evc.src, tgt := t.evc.tgt, merge := t.evc.merge } ∧
      (∀ n, { t.src n with pending := (s.src n).pending, edgeAt := (s.src n).edgeAt } = s.src n ∧ ((s.src n).pending = true → (t.src n).pending = true)) ∧
      ∀ n, { t.tgt n with req := (s.tgt n).req } = s.tgt n
  | .hlk => t.hlk = { s.hlk with msix := t.hlk.msix, inst := t.hlk.inst, aer := t.hlk.aer, headers := t.hlk.headers } ∧
      (∀ l f, s.aerOf l f = { t.aerOf l f with
        unc := (s.aerOf l f).unc, cor := (s.aerOf l f).cor, first := (s.aerOf l f).first, header := (s.aerOf l f).header } ∧
        (s.aerOf l f).unc &&& ~~~(t.aerOf l f).unc = 0 ∧ (s.aerOf l f).cor &&& ~~~(t.aerOf l f).cor = 0) ∧
      (∀ f v, { t.msixEntry f v with pending := (s.msixEntry f v).pending } = s.msixEntry f v) ∧
      ∀ l f, { t.inst l f with pmeStatus := (s.inst l f).pmeStatus } = s.inst l f
  | .noc => t.noc = { s.noc with credit := t.noc.credit, wait := t.noc.wait, inAt := t.noc.inAt, inUse := t.noc.inUse }
  | .dbl => t.dbl = s.dbl
  | .xlt => t.xlt = s.xlt
  | .skk => t.skk = s.skk
  | .mov => t.mov = s.mov
  | .ccu => t.ccu = s.ccu
  | .syn => t.syn = s.syn
  | .cht => t.cht = s.cht
  | .home => t.home = s.home
  | .peer => t.peer = s.peer
  | .prt => t.prt = s.prt
  | .twn => t.twn = s.twn
  | .arb => t.arb = { s.arb with req := t.arb.req } ∧
      ∀ a i, i < 16384 → t.areq a i = s.areq a i ∨ ∃ now, t.areq a i = (s.areq a i).ended (decide (4 ≤ a)) now
  | .ras => t.ras = s.ras
  | .pwr => t.pwr = { s.pwr with pmeSent := t.pwr.pmeSent }
  | .free => t.free = s.free

/-- The sticky bits of every view are as before, but that those listed as (page, view, bit) are set. DBG's TRACE_LOST, which any
setting may set, is left out. -/
def State.sticks (s t : State) (l : List (Nat × Nat × Nat)) : Prop :=
  ∀ pg v b, pg < 32 → (pg, v, b) ≠ (pgDBG, 0, 1) → bit (t.sticky pg v).bits b = (bit (s.sticky pg v).bits b || l.contains (pg, v, b))

/-- The second state differs from the first at most in the parts listed, in the sticky bits listed, which it sets, and in what goes out
on the ports; the queue is as before. -/
def State.onlyChanges (s t : State) (rs : List Region) (l : List (Nat × Nat × Nat) := []) : Prop :=
  t.pending = s.pending ∧ s.out <+: t.out ∧ s.sticks t l ∧ ∀ r, r ∈ rs ∨ s.kept t r

/-! ## Settings

What software sets and the hub's own work leaves alone: the registers that only a register write, a configuration request or a reset
changes. -/

/-- Freeze and trace settings of GLB and DBG. -/
def Glb.same (g h : Glb) : Prop :=
  h.freezeAll = g.freezeAll ∧ h.traceEn = g.traceEn ∧ h.traceMask = g.traceMask ∧ h.traceIdx = g.traceIdx
/-- Selections of the event concentrator. -/
def Evc.same (e f : Evc) : Prop := f.tsel = e.tsel ∧ f.srcSel = e.srcSel
/-- Masks, severities and ECRC enables of an AER capability. -/
def Aer.settings (a : Aer) : Aer := { a with unc := 0, cor := 0, first := 0, header := 0 }
/-- Groups, ranges, selections, FLRs and held enables of the host links; links but for Cache Invalid, instances but for PME_Status, AER registers
but for what they report. -/
def Hlk.same (h k : Hlk) : Prop :=
  k.groupMap = h.groupMap ∧ k.rsel = h.rsel ∧ k.ranges = h.ranges ∧ k.linkSel = h.linkSel ∧ k.funcSel = h.funcSel ∧ k.flr = h.flr ∧
    k.heldEnable = h.heldEnable ∧ k.remap = h.remap ∧
    (∀ l, { tabGet (fun _ => ({} : Link)) k.links l with cacheInvalid := (tabGet (fun _ => ({} : Link)) h.links l).cacheInvalid } =
      tabGet (fun _ => ({} : Link)) h.links l) ∧
    (∀ i, { tabGet (fun _ => ({} : Inst)) k.inst i with pmeStatus := (tabGet (fun _ => ({} : Inst)) h.inst i).pmeStatus } =
      tabGet (fun _ => ({} : Inst)) h.inst i) ∧
    ∀ i, (tabGet (fun _ => ({} : Aer)) k.aer i).settings = (tabGet (fun _ => ({} : Aer)) h.aer i).settings
/-- Ranges, ASID limits, selections, the walk control and the drain limit of translation. -/
def Xlt.same (x y : Xlt) : Prop :=
  y.range = x.range ∧ y.asidMax = x.asidMax ∧ y.psel = x.psel ∧ y.walkCtl = x.walkCtl ∧ y.drainLimit = x.drainLimit ∧
    y.clientSel = x.clientSel
/-- Skink's selection, decay and acknowledgment limit. -/
def Skk.same (a b : Skk) : Prop := b.psel = a.psel ∧ b.decay = a.decay ∧ b.ackLimit = a.ackLimit
/-- Selections, shares and the urgent debt of the movers. -/
def Mov.same (a b : Mov) : Prop :=
  b.psel = a.psel ∧ b.partShare = a.partShare ∧ b.urgentDebt = a.urgentDebt ∧ b.ctxSel = a.ctxSel
/-- Source, rates, tolerances and reserves of the Drone and Chanter. -/
def Cht.same (a b : Cht) : Prop :=
  b.masterChip = a.masterChip ∧ b.master = a.master ∧ b.src = a.src ∧ b.rate = a.rate ∧ b.tickInc = a.tickInc ∧
    b.lossLimit = a.lossLimit ∧ b.regressTol = a.regressTol ∧ b.bcast = a.bcast ∧ b.frameOffset = a.frameOffset ∧
    b.rsvSel = a.rsvSel ∧ b.rsvMax = a.rsvMax
/-- Hold, limits and selection of the home. -/
def Home.same (a b : Home) : Prop :=
  b.hold = a.hold ∧ b.snoopLimit = a.snoopLimit ∧ b.hostLimit = a.hostLimit ∧ b.creditLimit = a.creditLimit ∧ b.agentSel = a.agentSel
/-- Allotments, chip ID, resend settings and selections of the windows and the transport. -/
def Peer.same (a b : Peer) : Prop :=
  b.psel = a.psel ∧ b.oAllot = a.oAllot ∧ b.iAllot = a.iAllot ∧ b.chipId = a.chipId ∧ b.resendTimeout = a.resendTimeout ∧
    b.resendMax = a.resendMax ∧ b.routeSel = a.routeSel ∧ b.child = a.child
/-- Selection, drain limit, states and quotas of the partitions. -/
def Prt.same (a b : Prt) : Prop :=
  b.psel = a.psel ∧ b.drainLimit = a.drainLimit ∧
    ∀ p, { tabGet partDflt b.part p with closing := (tabGet partDflt a.part p).closing } =
      tabGet partDflt a.part p
/-- Limits, the compatibility bit and selections of the arbiters. -/
def Arb.same (a b : Arb) : Prop :=
  b.compat = a.compat ∧ b.starveLimit = a.starveLimit ∧ b.waitMax = a.waitMax ∧ b.arbSel = a.arbSel ∧ b.reqSel = a.reqSel ∧
    b.chanSel = a.chanSel
/-- The hub store's place, rebuild, scrub and repair settings. -/
def Ras.same (a b : Ras) : Prop :=
  b.hsBase = a.hsBase ∧ b.autoRebuild = a.autoRebuild ∧ b.lossRun = a.lossRun ∧ b.ceWindow = a.ceWindow ∧ b.scrubBase = a.scrubBase ∧
    b.scrubLimit = a.scrubLimit ∧ b.bgOnce = a.bgOnce ∧ b.bgRate = a.bgRate ∧ b.repairBase = a.repairBase
/-- Idle times, wake enables, budgets and the bootstrap aperture. -/
def Pwr.same (a b : Pwr) : Prop :=
  b.forceRun = a.forceRun ∧ b.idleNap = a.idleNap ∧ b.idleHib = a.idleHib ∧ b.wakeEn = a.wakeEn ∧ b.wlb = a.wlb ∧ b.aperture = a.aperture

/-- Every setting is as before. -/
def State.sameSettings (s t : State) : Prop :=
  s.glb.same t.glb ∧ s.evc.same t.evc ∧ s.hlk.same t.hlk ∧ s.xlt.same t.xlt ∧ s.skk.same t.skk ∧ s.mov.same t.mov ∧
    t.ccu.seed = s.ccu.seed ∧ t.syn.slipMax = s.syn.slipMax ∧ s.cht.same t.cht ∧ s.home.same t.home ∧ s.peer.same t.peer ∧
    s.prt.same t.prt ∧ t.twn.hbLimit = s.twn.hbLimit ∧ t.twn.quiesceLimit = s.twn.quiesceLimit ∧ s.arb.same t.arb ∧ s.ras.same t.ras ∧
    s.pwr.same t.pwr

/-- The commands that write a register or configure a function or a link, the resets, and what ends a reset or a held remap: the
only ones that change a setting. -/
def setsSettings : Instr → Bool
  | .coldReset | .warmReset _ | .hubReady | .perst _ | .flrComplete _ | .pfFlr _ | .vfFlr .. | .linkUp .. | .linkDown _ |
    .busMasterEnable .. | .busMasterDisable .. | .vfEnable .. | .vfDisable .. | .cacheEnableSet _ | .cacheEnableClear _ |
    .hlkRemap .. | .remapDone | .d3hot .. | .d0Return .. | .xltPrange .. | .ccuSrSeed _ | .chtDroneCfg .. | .windowAllotment .. |
    .enable | .disable | .disableComplete _ | .quotaWrite .. | .prtDrainExpired .. | .pwrWlb .. | .regRd .. | .regWr .. | .rcRead .. | .registerWrite .. => true
  | _ => false

/-- A step is safe: it answers a next state. -/
def safeStep (s : State) : Prop := ∃ t, step s = .next t

end Sys2Proof.Machine
end

