-- ==== Sys2Proof/Certificates/Slice0/Obligations.lean ====
section
/-! DEFINITION. The statements about Gytas HX4 put to the provers. Each says what commands do from the states its premises name; the
premises speak of the state and the operands alone. -/

open Sys2Proof Sys2Proof.Machine

/-! ## The block as a whole -/

/-- A step with a command at the front of the queue is that command's meaning on the state with the queue's rest. -/
def Obligations.StepRunsFront : Prop :=
  ∀ (c : Instr) (rest : List Instr) (s : State), s.pending = c :: rest → step s = exec c { s with pending := rest }

/-- With an empty queue a step passes one hub cycle (the model's choice, log entry 18): GLB_TIME rises by 1, and while the hub is on,
ACTIVE_CYCLES and STALL_CYCLES of each page whose counters run rise, saturating, when the page is active or stalled (log entry 34), and the
page notes what it counted in that hub cycle (R421); the other counters of every page, every part of the state but GLB's counters and
CHT_REC_STALL, and the ports stay. -/
def Obligations.IdleStepIsOneCycle : Prop :=
  ∀ s : State, s.pending = [] → ∃ t, step s = .next t ∧ t.glb.time = s.glb.time + 1 ∧ t.pending = [] ∧ t.out = s.out ∧
    (∀ pg, t.page pg =
      if s.on && decide (pg < 21) && s.counting pg then
        { s.page pg with
          active := if s.activePage pg then satInc (s.page pg).active else (s.page pg).active
          stall := if s.stalledPage pg then satInc (s.page pg).stall else (s.page pg).stall
          nowAt := if s.activePage pg || s.stalledPage pg then s.glb.time else (s.page pg).nowAt
          now := (t.page pg).now }
      else s.page pg) ∧
    (∀ pg v, t.sticky pg v = s.sticky pg v) ∧ t.glb.fatal = s.glb.fatal ∧ t.glb.ready = s.glb.ready ∧
    t.cht = { s.cht with view := t.cht.view } ∧ ∀ r, r ∈ [Region.glb, .cht] ∨ s.kept t r

/-- Every command answers a next state from every state, and leaves the commands behind it in the queue as they are. -/
def Obligations.EveryCommandCompletes : Prop :=
  ∀ (c : Instr) (s : State), ∃ t, exec c s = .next t ∧ t.pending = s.pending

/-- While hub_ready is low, and in D3cold, every command but COLD_RESET, HUB_READY, PERST of link 0 and WAKE_REQ leaves the state as it
is (R331, R400, R401). -/
def Obligations.NothingActsWhileNotReady : Prop :=
  ∀ (c : Instr) (s : State), s.on = false → c ≠ .coldReset → c ≠ .hubReady → c ≠ .perst 0 → (∀ w, c ≠ .wakeReq w) →
    exec c s = .next s

/-- Whatever command runs, GLB_TIME stays, or the command is COLD_RESET, PERST of link 0 or the HUB_READY that ends D3cold and GLB_TIME
is 0 (R401, R423: a warm reset and a PF FLR keep it). -/
def Obligations.TimeIsKept : Prop :=
  ∀ (c : Instr) (s t : State), exec c s = .next t →
    t.glb.time = s.glb.time ∨ (t.glb.time = 0 ∧ (c = .coldReset ∨ c = .perst 0 ∨ (c = .hubReady ∧ s.pwr.d3cold = true)))

/-- A step from a state whose tables are in canonical form answers such a state: equal contents stay equal data. -/
def Obligations.StepKeepsForm : Prop :=
  ∀ s t : State, s.wf = true → step s = .next t → t.wf = true

/-- Whatever other command runs, every setting of every page stays and every sticky bit that is set stays set: the hub's own work changes no
register that software sets, no partition's state or quota, and no link's or function's configuration but Cache Invalid, PME_Status and what
the AER registers report. -/
def Obligations.SettingsAreKept : Prop :=
  ∀ (c : Instr) (s t : State), s.wf = true → setsSettings c = false → exec c s = .next t →
    s.sameSettings t ∧ ∀ pg v b, bit (s.sticky pg v).bits b = true → bit (t.sticky pg v).bits b = true

/-- The state after reset is at rest, with its tables in canonical form, and no function's registers are held by an FLR. -/
def Obligations.ResetIsAtRest : Prop := State.reset.atRest = true ∧ ∀ fn : Fn, State.reset.hostOpen fn.toNat = true

/-- A hub held in reset holds nothing: every part is at its reset value, but GLB_TIME, the configuration (AER registers among it) and links
of the host links, the repairs, and the reset's cause and the wake's; D3cold implies that hub_ready is low. Every step keeps this (R401). -/
def Obligations.ResetHoldsNothing : Prop :=
  let held (s : State) : Prop :=
    (s.pwr.d3cold = true → s.glb.ready = false) ∧
    (s.glb.ready = false →
      s.glb = { time := s.glb.time, ready := false } ∧ s.evc = {} ∧
      s.hlk = { links := s.hlk.links, inst := s.hlk.inst, aer := s.hlk.aer, headers := s.hlk.headers } ∧ s.noc = {} ∧ s.dbl = {} ∧ s.xlt = {} ∧ s.skk = {} ∧ s.mov = {} ∧ s.ccu = {} ∧ s.syn = {} ∧ s.cht = {} ∧ s.home = {} ∧
      s.peer = {} ∧ s.prt = {} ∧ s.twn = {} ∧ s.arb = {} ∧ s.ras = { remapped := s.ras.remapped, repairs := s.ras.repairs } ∧
      s.pwr = { wakeCause := s.pwr.wakeCause, resetCause := s.pwr.resetCause, d3cold := s.pwr.d3cold, wakeEn := s.pwr.wakeEn
                wakeReq := s.pwr.wakeReq })
  ∀ s t : State, held s → step s = .next t → held t

/-! ## Resets, power and the bootstrap window -/

/-- COLD_RESET lowers hub_ready, and HUB_READY then leaves every register, array and queue at its reset value with the cause 0 and
PWR_WAKE_CAUSE kept; one that is in progress absorbs another (R401, R403). WARM_RESET with the key keeps the configuration space, the
links, the field remaps and GLB_TIME, with the cause 2; with another key nothing changes. A map-out acknowledgment that was up falls. -/
def Obligations.WholeHubResets : Prop :=
  (∀ s : State, (s.glb.ready || s.pwr.d3cold || s.pwr.resetCause = 2) = true →
    ∃ t, exec .coldReset s = .next t ∧ t.glb.ready = false ∧ t.pwr.d3cold = false ∧
      exec .hubReady t = .next { State.reset with
        hlk := { headers := s.hlk.headers }, pwr := { wakeCause := s.pwr.wakeCause, resetCause := 0 }
        out := if s.skk.mapAck then s.out ++ [.mapoutAck false] else s.out, free := s.free, pending := s.pending }) ∧
  (∀ s : State, s.glb.ready = false → s.pwr.d3cold = false → s.pwr.resetCause ≠ 2 → exec .coldReset s = .next s) ∧
  (∀ (s : State) (v : Word), s.on = true → field v 15 0 = 0x5752 →
    ∃ t, exec (.warmReset v) s = .next t ∧ t.glb.ready = false ∧
      exec .hubReady t = .next { State.reset with
        glb := { time := s.glb.time }
        hlk := { links := s.hlk.links, inst := s.hlk.inst, aer := s.hlk.aer, headers := s.hlk.headers }
        ras := { remapped := s.ras.remapped, repairs := s.ras.repairs }
        pwr := { wakeCause := s.pwr.wakeCause, resetCause := 2 }
        out := t.out, free := s.free, pending := s.pending }) ∧
  (∀ (s : State) (v : Word), s.on = true → s.pwr.st = .run → field v 15 0 ≠ 0x5752 → exec (.warmReset v) s = .next s)

/-- PERST of link 0 resets the hub with the cause 1, or enters D3cold when PF0 is in D3hot with PME_En set (R340, R400): every part is
lost but PWR_WAKE_CAUSE and PWR_WAKE_EN. In D3cold the first enabled wake condition raises wake_req and is recorded; a disabled one, or
a second, does nothing. HUB_READY then ends D3cold with the cause 4. PERST of another link that is down, with nothing outstanding on
it and no function enabled on it, resets that link's instances and their AER registers only. -/
def Obligations.PerstAndDeepSleep : Prop :=
  (∀ s : State, s.glb.ready = true → s.pwr.d3cold = false → ((s.inst 0 0).dstate = 3 ∧ (s.inst 0 0).pmeEn = true) →
    ∃ t, exec (.perst 0) s = .next t ∧ t.pwr = { wakeCause := s.pwr.wakeCause, resetCause := 0, d3cold := true, wakeEn := s.pwr.wakeEn } ∧
      t.glb = { ready := false } ∧ t.dbl = {} ∧ t.xlt = {} ∧ t.hlk = { headers := s.hlk.headers } ∧ t.cht = {} ∧ t.syn = {} ∧ t.skk = {} ∧ t.mov = {} ∧ t.ras = {}) ∧
  (∀ s : State, s.glb.ready = true → s.pwr.d3cold = false → ¬((s.inst 0 0).dstate = 3 ∧ (s.inst 0 0).pmeEn = true) →
    ∃ t, exec (.perst 0) s = .next t ∧ t.pwr = { wakeCause := s.pwr.wakeCause, resetCause := 1 } ∧ t.glb = { ready := false } ∧
      t.dbl = {} ∧ t.xlt = {} ∧ t.hlk = { headers := s.hlk.headers } ∧ t.cht = {} ∧ t.syn = {} ∧ t.skk = {} ∧ t.mov = {} ∧ t.ras = {}) ∧
  (∀ (s : State) (w : WakeCond), s.pwr.d3cold = true → s.pwr.wakeReq = false → s.pwr.wakeEn.getLsbD (wakeBit w) = true →
    exec (.wakeReq w) s = .next (s.onPwr fun p => { p with wakeReq := true, wakeCause := BitVec.ofNat 3 (2 ^ wakeBit w) })) ∧
  (∀ (s : State) (w : WakeCond), (s.pwr.d3cold = false ∨ s.pwr.wakeReq = true ∨ s.pwr.wakeEn.getLsbD (wakeBit w) = false) →
    exec (.wakeReq w) s = .next s) ∧
  (∀ s : State, s.pwr.d3cold = true → ∃ t, exec .hubReady s = .next t ∧ t.on = true ∧ t.pwr.resetCause = 4 ∧
      t.pwr.wakeCause = s.pwr.wakeCause ∧ (bit (t.sticky pgPWR 0).bits 2 = s.pwr.wakeReq) ∧ t.dbl = {} ∧ t.xlt = {}) ∧
  (∀ (s : State) (l : BitVec 2), l ≠ 0 → s.atRest = true → s.home = {} → s.hlk.np = [] → s.xlt.walk = [] → (s.link l.toNat).up = false →
    ∃ t, exec (.perst l) s = .next t ∧ (∀ f : Fn, t.inst l.toNat f.toNat = {} ∧ t.aerOf l.toNat f.toNat = {}) ∧ t.link l.toNat = {} ∧
      (∀ (k : BitVec 2) (f : Fn), k ≠ l → t.aerOf k.toNat f.toNat = s.aerOf k.toNat f.toNat) ∧
      (∀ (k : BitVec 2) (f : Fn), k ≠ l →
        { t.inst k.toNat f.toNat with pmeStatus := (s.inst k.toNat f.toNat).pmeStatus } = s.inst k.toNat f.toNat) ∧
      (∀ k : BitVec 2, k ≠ l → t.link k.toNat = s.link k.toNat) ∧
      t.hlk = { s.hlk with inst := t.hlk.inst, links := t.hlk.links, msix := t.hlk.msix, aer := t.hlk.aer } ∧
      s.onlyChanges t [.hlk] [(pgHLK, 0, 5)])

/-- An idle hub whose limit permits it goes from Run to Doze, from Doze to Nap and from Nap to Hibernate (R389 to R391), and stays where
it is when it is not idle or may not. Nap flushes every Eft; Hibernate, once no host line is held, writes every cached context to the
hub store and powers the cache off. WAKE returns it to Run, counting a wake from Nap or Hibernate (R393). Nothing else changes but what
reporting does, and what the flushed tallies do at Skink (R114). -/
def Obligations.PowerStatesChange : Prop :=
  (∀ s : State, s.atRest = true → s.idle = true → 1 ≤ s.limit →
    ∃ t, exec .dozeEntry s = .next t ∧ t.pwr = { s.pwr with st := .doze } ∧ s.onlyChanges t [.pwr]) ∧
  (∀ s : State, s.atRest = true → (s.idle = false ∨ s.limit = 0) → exec .dozeEntry s = .next s) ∧
  (∀ s : State, s.on = true → s.settled = true → s.wf = true → s.pwr.st = .doze → s.idle = true → 2 ≤ s.limit →
    ∃ t, exec .napEntry s = .next t ∧ t.pwr = { s.pwr with st := .nap, pmeSent := t.pwr.pmeSent } ∧
      (∀ m e, (t.eftEntry m e).page = none) ∧ t.xlt = { s.xlt with eft := t.xlt.eft } ∧ s.sameSettings t ∧ t.skk.placed = s.skk.placed ∧
      t.pending = s.pending ∧ ∀ r, r ∈ [Region.pwr, .xlt, .skk] ∨ s.kept t r) ∧
  (∀ s : State, s.on = true → s.settled = true → s.wf = true → s.pwr.st = .nap → s.idle = true → 3 ≤ s.limit → s.homeEmpty = true →
    ∃ t, exec .hibernateEntry s = .next t ∧ t.pwr = { s.pwr with st := .hibernate } ∧ (∀ k, (t.chan k).cached = false) ∧
      (∀ k, { t.chan k with cached := (s.chan k).cached } = s.chan k) ∧ s.onlyChanges t [.pwr, .dbl, .ras, .glb] ∧
      t.glb.time = s.glb.time ∧ t.glb.fatal = s.glb.fatal ∧ t.ras = { s.ras with valid := t.ras.valid }) ∧
  (∀ s : State, s.on = true → s.settled = true → s.wf = true → s.pwr.st ≠ .run →
    ∃ t, exec .wake s = .next t ∧
      t.pwr = { s.pwr with
        st := .run, wakeCount := if s.pwr.st = .doze then s.pwr.wakeCount else satInc s.pwr.wakeCount } ∧ s.onlyChanges t [.pwr])

/-- PWR_WLB of a function takes the low 32 bits written (R390, R409), and a change of L sends the LTR messages (R396), SUPPLY_LOW and
CLK_OFF_NOMINAL set their sticky bits (01 R25, R26), and BOOT_CLOSE closes the window and BOOT_DOORBELL pulses boot_go once the bootstrap writes have their responses, else both wait
for them (R405 to R407). -/
def Obligations.BudgetsStickiesAndBoot : Prop :=
  (∀ (s : State) (fn : Fn) (v : Word), s.hostOpen fn.toNat = true →
    ∃ t, exec (.pwrWlb fn v) s = .next t ∧ t.wlb fn.toNat = v.setWidth 32 ∧ (∀ p, p ≠ fn.toNat → t.wlb p = s.wlb p) ∧
      t.pwr = { s.pwr with wlb := t.pwr.wlb } ∧ t.out = s.out ++ s.ltrs t ∧ s.onlyChanges t [.pwr]) ∧
  (∀ s : State, s.atRest = true → ∃ t, exec .supplyLow s = .next t ∧ s.onlyChanges t [] [(pgGLB, 0, 3)]) ∧
  (∀ s : State, s.atRest = true → ∃ t, exec .clkOffNominal s = .next t ∧ s.onlyChanges t [] [(pgGLB, 0, 2)]) ∧
  (∀ s : State, s.hostOpen 0 = true → s.pwr.bootOut = 0 →
    ∃ t, exec .bootClose s = .next t ∧ t.pwr = { s.pwr with bootOpen := false, closing := false, bootHeld := 0 } ∧
      t.out = s.out ++ List.replicate s.pwr.bootHeld .bootGo ∧ s.onlyChanges t [.pwr]) ∧
  (∀ (s : State) (v : Word), s.hostOpen 0 = true → s.pwr.bootOut = 0 →
    ∃ t, exec (.bootDoorbell v) s = .next t ∧ t.out = s.out ++ List.replicate (s.pwr.bootHeld + 1) .bootGo ∧
      t.pwr = { s.pwr with bootHeld := 0, bootOpen := s.pwr.bootOpen && !s.pwr.closing, closing := false } ∧ s.onlyChanges t [.pwr]) ∧
  (∀ (s : State) (v : Word), s.hostOpen 0 = true → s.pwr.bootOut ≠ 0 →
    (∃ t, exec .bootClose s = .next t ∧ t.pwr = { s.pwr with closing := true } ∧ t.out = s.out ∧ s.onlyChanges t [.pwr]) ∧
    ∃ t, exec (.bootDoorbell v) s = .next t ∧ t.pwr = { s.pwr with bootHeld := s.pwr.bootHeld + 1 } ∧ t.out = s.out ∧
      s.onlyChanges t [.pwr])

/-! ## Host links and functions -/

/-- VF_ENABLE enables a VF's instance on a link that is up, or is held while the VF's FLR runs (R311); VF_DISABLE resets the instance,
and with it the VF when no link enables it any more; Bus Master Enable of an instance is set, with the control fields the write carries, and
cleared (R321, R327). A configuration read of an instance that is there gives the header, the capability list and the Umavon DVSEC (R312 to
R314), the types of PF0's BARs, the CXL capabilities and the component registers' place (R309, R313, R318). No other instance
changes, but for PME_Status, and no link. -/
def Obligations.FunctionsEnabled : Prop :=
  let others (s t : State) (l : BitVec 2) (fn : Fn) : Prop :=
    (∀ (k : BitVec 2) (f : Fn), (k ≠ l ∨ f ≠ fn) →
      { t.inst k.toNat f.toNat with pmeStatus := (s.inst k.toNat f.toNat).pmeStatus } = s.inst k.toNat f.toNat) ∧
    (∀ k : BitVec 2, { t.link k.toNat with cacheInvalid := (s.link k.toNat).cacheInvalid } = s.link k.toNat) ∧
    t.glb.time = s.glb.time ∧ t.pending = s.pending
  (∀ (s : State) (fn : Fn) (l : BitVec 2), s.hostOpen 0 = true → fn ≠ 0 → (s.link l.toNat).up = true → s.inFlr fn.toNat = false →
    s.busMaster fn.toNat = false → (s.inst l.toNat fn.toNat).bme = false →
    ∃ t, exec (.vfEnable fn l) s = .next t ∧ t.inst l.toNat fn.toNat = { s.inst l.toNat fn.toNat with en := true } ∧
      others s t l fn ∧ t.fnOn fn.toNat l.toNat = true ∧ s.onlyChanges t [.hlk]) ∧
  (∀ (s : State) (fn : Fn) (l : BitVec 2), s.hostOpen 0 = true → fn ≠ 0 → (s.link l.toNat).up = true → s.inFlr fn.toNat = true →
    ∃ t, exec (.vfEnable fn l) s = .next t ∧ t.hlk = { s.hlk with heldEnable := s.hlk.heldEnable ++ [(l.toNat, fn.toNat)] } ∧
      s.onlyChanges t [.hlk]) ∧
  (∀ (s : State) (fn : Fn) (l : BitVec 2), s.on = true → s.wf = true → s.inFlr 0 = false → fn ≠ 0 → s.inFlr fn.toNat = false →
    (s.link l.toNat).up = true → (s.inst l.toNat fn.toNat).en = true →
    ∃ t, exec (.vfDisable fn l) s = .next t ∧
      { t.inst l.toNat fn.toNat with pmeStatus := false } = {} ∧ others s t l fn ∧ t.fnOn fn.toNat l.toNat = false ∧
      (t.hlk.flr = if links4.any (fun k => k ≠ l.toNat && s.fnOn fn.toNat k) then s.hlk.flr else s.hlk.flr ++ [fn.toNat])) ∧
  (∀ (s : State) (fn : Fn) (l : BitVec 2) (on : Option FnCtl), s.on = true → s.wf = true → s.inFlr fn.toNat = false →
    ∃ t, exec (match on with | some c => .busMasterEnable fn l c | none => .busMasterDisable fn l) s = .next t ∧
      { t.inst l.toNat fn.toNat with pmeStatus := (s.inst l.toNat fn.toNat).pmeStatus } =
        (match on with | some c => (s.inst l.toNat fn.toNat).enable c | none => { s.inst l.toNat fn.toNat with bme := false }) ∧
      others s t l fn ∧ t.hlk.flr = s.hlk.flr) ∧
  (∀ (s : State) (l : BitVec 2) (fn : Fn) (off : Nat),
    ((s.link l.toNat).up = false ∨ (fn ≠ 0 ∧ (s.inst l.toNat fn.toNat).en = false) ∨ s.inFlr fn.toNat = true) →
    s.confRead l.toNat fn.toNat off = none) ∧
  (∀ (s : State) (l : BitVec 2) (fn : Fn), (s.link l.toNat).up = true → (fn = 0 ∨ (s.inst l.toNat fn.toNat).en = true) →
    s.inFlr fn.toNat = false →
    let rd (off : Nat) : Option (BitVec 32) := s.confRead l.toNat fn.toNat off
    let vendor : BitVec 16 := if fn = 0 then Config.tieVendorId else 0xFFFF
    let cap (off : Nat) : Option (Nat × Nat) := (rd off).map fun v => ((v.setWidth 8).toNat, (v.extractLsb' 8 8).toNat)
    let ext (off : Nat) : Option (Nat × Nat) := (rd off).map fun v => ((v.setWidth 16).toNat, (v.extractLsb' 20 12).toNat)
    rd 0 = some ((if fn = 0 then (0x0C94 : BitVec 16) else 0xFFFF) ++ vendor) ∧
    (fn = 0 → (rd 0x10).map (·.setWidth 4) = some (4 : BitVec 4) ∧ (rd 0x18).map (·.setWidth 4) = some (4 : BitVec 4) ∧
      (rd 0x20).map (·.setWidth 4) = some (0xC : BitVec 4) ∧ rd 0x308 = some 0x00430000 ∧ rd 0x37C = some 0x00020100) ∧
    (rd 0x30 = some 0 ∧ (rd 0x50).map (·.extractLsb' 16 16) = some (0x0002 : BitVec 16) ∧ rd 0x94 = some 0x00010000 ∧ rd 0x98 = some 0x00010800 ∧
      (rd 0x90).map (·.extractLsb' 30 2) =
        some (BitVec.ofBool (s.inst l.toNat fn.toNat).msixEn ++ BitVec.ofBool (s.inst l.toNat fn.toNat).msixMask)) ∧
    (fn = 0 → rd 0x34 = some 0x40 ∧ cap 0x40 = some (0x01, 0x50) ∧ cap 0x50 = some (0x10, 0x90) ∧ cap 0x90 = some (0x11, 0) ∧
      ext 0x100 = some (0x0001, 0x150) ∧ ext 0x1D0 = some (0x0025, 0x200) ∧ ext 0x300 = some (0x0023, 0x340) ∧
      ext 0x390 = some (0x0023, 0)) ∧
    (fn ≠ 0 → rd 0x34 = some 0x50 ∧ cap 0x50 = some (0x10, 0x90) ∧ cap 0x90 = some (0x11, 0) ∧ ext 0x100 = some (0x0001, 0x160) ∧
      ext 0x160 = some (0x000E, 0x390) ∧ ext 0x390 = some (0x0023, 0)) ∧
    rd 0x394 = some ((0x0201 : BitVec 16) ++ vendor) ∧ rd 0x398 = some 0x00004758 ∧ rd 0x39C = some 0x00400000 ∧
    rd 0x3A0 = some (Config.tieSerial.extractLsb' 0 32) ∧ rd 0x3A4 = some (Config.tieSerial.extractLsb' 32 32) ∧
    rd 0x3A8 = some (BitVec.ofNat 32 (l.toNat + 16 * (links4.foldl (fun n k => n + (s.link k).up.toNat * 2 ^ k) 0) + 256 * fn.toNat)))

/-- VF_FLR puts the VF's FLR in progress and resets the instance's configuration but for VF Enable; PF_FLR does so for the hub, with
VF Enable of the link, and leaves the links up; neither moves GLB_TIME. One in progress absorbs another, whose configuration write is
completed with Request Retry Status (R311, R402, R403). While an FLR of a function runs, a write to its registers does nothing but count as a TLP
(R311). FLR_COMPLETE ends a VF's FLR whose shutdown
is done and that has no request at the home, with the enables held for it; of PF0's it leaves every partition but 0 DISABLED and every queue empty, with GLB_TIME, the links, the
configuration and the repairs kept and the cause 3 (R401, R402). -/
def Obligations.FunctionResets : Prop :=
  (∀ (s : State) (fn : Fn) (l : BitVec 2), s.atRest = true → s.inFlr fn.toNat = true →
    ∃ t, exec (if fn = 0 then .pfFlr l else .vfFlr fn l) s = .next t ∧ t.out = s.out ++ [.retry (some l.toNat) fn.toNat] ∧ s.onlyChanges t []) ∧
  (∀ (s : State) (fn : Fn) (l : BitVec 2), s.on = true → s.wf = true → fn ≠ 0 → s.inFlr fn.toNat = false →
    ∃ t, exec (.vfFlr fn l) s = .next t ∧ t.inFlr fn.toNat = true ∧
      { t.inst l.toNat fn.toNat with pmeStatus := false } = { en := (s.inst l.toNat fn.toNat).en } ∧
      t.glb.time = s.glb.time ∧ t.pending = s.pending ∧ t.hlk.flr = s.hlk.flr ++ [fn.toNat] ∧
      ∀ k : BitVec 2, { t.link k.toNat with cacheInvalid := (s.link k.toNat).cacheInvalid } = s.link k.toNat) ∧
  (∀ (s : State) (l : BitVec 2), s.on = true → s.wf = true → s.inFlr 0 = false →
    ∃ t, exec (.pfFlr l) s = .next t ∧ t.inFlr 0 = true ∧ (∀ f : Fn, { t.inst l.toNat f.toNat with pmeStatus := false } = {}) ∧
      (∀ k : BitVec 2, (t.link k.toNat).up = (s.link k.toNat).up) ∧ t.glb.time = s.glb.time ∧ t.pending = s.pending ∧ t.on = true) ∧
  (∀ (s : State) (fn : Fn) (v : Word), s.atRest = true → s.inFlr fn.toNat = true →
    (∃ t, exec (.pwrWlb fn v) s = .next t ∧ s.onlyChanges t []) ∧ ∃ t, exec (.dbTail fn 0 v) s = .next t ∧ s.onlyChanges t []) ∧
  (∀ (s : State) (fn : Fn), s.atRest = true → fn ≠ 0 → s.hlk.flr = [fn.toNat] → (s.part fn.toNat).closing = .last →
    (s.part fn.toNat).disables = false → s.homeWorks fn.toNat = false → s.hlk.heldEnable = [] → (∀ l, s.fnOn fn.toNat l = false) →
    ∃ t, exec (.flrComplete fn) s = .next t ∧ t.inFlr fn.toNat = false ∧ (t.part fn.toNat).closing = .none ∧
      (t.part fn.toNat).st = (s.part fn.toNat).st ∧ s.onlyChanges t [.hlk, .prt] ∧
      t.hlk.np = s.hlk.np.filter (·.fn ≠ fn.toNat) ∧ t.hlk.links = s.hlk.links ∧ t.hlk.inst = s.hlk.inst) ∧
  (∀ s : State, s.on = true → s.settled = true → s.pwr.st = .run → s.hlk.flr.contains 0 = true →
    functions.all (fun p => (s.part p).closing = .last && !s.homeWorks p) = true → s.hlk.heldEnable = [] →
    ∃ t, exec (.flrComplete 0) s = .next t ∧
      t.hlk = { links := s.hlk.links, inst := s.hlk.inst, aer := s.hlk.aer, headers := s.hlk.headers } ∧ t.glb.time = s.glb.time ∧
      t.glb.fatal = s.glb.fatal ∧ t.prt = {} ∧ t.evc = {} ∧ t.xlt = { walkNo := s.xlt.walkNo, nextInv := s.xlt.nextInv } ∧ t.arb = {} ∧ t.twn = {} ∧ t.pwr.resetCause = 3 ∧
      t.pwr.st = .run ∧ t.pwr.wakeCause = s.pwr.wakeCause ∧ t.ras.remapped = s.ras.remapped ∧ t.ras.repairs = s.ras.repairs ∧
      t.out = s.out ++ s.ltrs t ∧ t.pending = s.pending)


/-! ## The event concentrator -/

/-- After a cold reset, and after a warm one, target 0 is assigned to partition 0 with VECTOR 0 and THRESHOLD 0 and every other target
is unassigned; sources 0x0001 and 0x0040 to 0x057F have EN 1, LEVEL 31 and TARGET 0, and every other source EN 0, LEVEL 0 and TARGET 0. Every
sticky source of every partition is therefore eligible at target 0 as soon as it is pending. -/
def Obligations.EventDefaults : Prop :=
  let defaults (u : State) : Prop :=
    (u.tgt 0).valid = true ∧ (u.tgt 0).part = 0 ∧ (u.tgt 0).vector = 0 ∧ (u.tgt 0).thresh = 0 ∧
    (∀ k, k ≠ 0 → (u.tgt k).valid = false) ∧
    (∀ n, (n = 1 ∨ (0x40 ≤ n ∧ n ≤ 0x57F)) → (u.src n).en = true ∧ (u.src n).level = 31 ∧ (u.src n).target = 0) ∧
    (∀ n, ¬(n = 1 ∨ (0x40 ≤ n ∧ n ≤ 0x57F)) → (u.src n).en = false ∧ (u.src n).level = 0 ∧ (u.src n).target = 0) ∧
    (∀ n, 0x40 ≤ n → n ≤ 0x57F → eligible (u.tgt 0) 0 { u.src n with pending := true } = true)
  ∀ s : State, s.on = true →
    (∃ t u, exec .coldReset s = .next t ∧ exec .hubReady t = .next u ∧ defaults u) ∧
    (∃ t u, exec (.warmReset 0x5752) s = .next t ∧ exec .hubReady t = .next u ∧ defaults u)

/-- A rising edge of a source sets PENDING with EN 1, is merged into a PENDING already set and counted, its hub cycle noted (R353), and is
ignored with EN 0 or at a number that is never raised, a VF view of a block of PF0's page only among them (R345, R346). EVC_SRC_RAISE raises a software source of the function's partition, or any through PF0, else
sets SRC_FOREIGN; EVC_SRC_CLEAR clears PENDING of a source of the partition (R351, R356). REQUEST of the target then says whether a source
is eligible there (R349). -/
def Obligations.SourcesRaiseAndClear : Prop :=
  let raised (s t : State) (n : Nat) : Prop :=
    if (s.src n).en && !neverRaised n then
      if (s.src n).pending then
        t.evc = { s.evc with merge := t.evc.merge, src := t.evc.src } ∧ (∀ m, m ≠ n → t.src m = s.src m) ∧
        t.src n = { s.src n with edgeAt := some s.glb.time } ∧
        (∀ p, tabGet (fun _ => (0 : BitVec 32)) t.evc.merge p =
          if p = srcPart n then satInc (tabGet (fun _ => (0 : BitVec 32)) s.evc.merge p) else tabGet (fun _ => (0 : BitVec 32)) s.evc.merge p) ∧
        t.out = s.out
      else
        t.src n = { s.src n with pending := true, edgeAt := none } ∧ (∀ m, m ≠ n → t.src m = s.src m) ∧
        (t.tgt (s.src n).target.toNat).req = (t.best (s.src n).target.toNat).isSome
    else t.evc = s.evc ∧ t.out = s.out
  (∀ (s : State) (n : BitVec 13), s.atRest = true → realSource n.toNat = true →
    ∃ t, exec (.sourceEdge n) s = .next t ∧ raised s t n.toNat ∧ s.onlyChanges t []) ∧
  (∀ (s : State) (n : BitVec 13), s.atRest = true → realSource n.toNat = false → exec (.sourceEdge n) s = .next s) ∧
  (∀ (s : State) (fn : Fn) (v : Word), s.hostOpen fn.toNat = true → softSource (field v 12 0) = true →
    (fn = 0 ∨ srcPart (field v 12 0) = fn.toNat) →
    ∃ t, exec (.evcSrcRaise fn v) s = .next t ∧ raised s t (field v 12 0) ∧ s.onlyChanges t []) ∧
  (∀ (s : State) (fn : Fn) (v : Word), s.hostOpen fn.toNat = true →
    ¬(softSource (field v 12 0) = true ∧ (fn = 0 ∨ srcPart (field v 12 0) = fn.toNat)) →
    ∃ t, exec (.evcSrcRaise fn v) s = .next t ∧ s.onlyChanges t [] [(pgEVC, fn.toNat, 3)]) ∧
  (∀ (s : State) (fn : Fn) (v : Word), s.hostOpen fn.toNat = true → ownSource fn.toNat (field v 12 0) = true →
    ∃ t, exec (.evcSrcClear fn v) s = .next t ∧ t.src (field v 12 0) = { s.src (field v 12 0) with pending := false, edgeAt := none } ∧
      (∀ m, m ≠ field v 12 0 → t.src m = s.src m) ∧ (∀ i, { t.tgt i with req := (s.tgt i).req } = s.tgt i) ∧
      (t.tgt (s.src (field v 12 0)).target.toNat).req = (t.best (s.src (field v 12 0)).target.toNat).isSome ∧
      t.evc = { s.evc with src := t.evc.src, tgt := t.evc.tgt } ∧ s.onlyChanges t [.evc]) ∧
  (∀ (s : State) (fn : Fn) (v : Word), s.hostOpen fn.toNat = true → ownSource fn.toNat (field v 12 0) = false →
    ∃ t, exec (.evcSrcClear fn v) s = .next t ∧ s.onlyChanges t [] [(pgEVC, fn.toNat, 3)])

/-- EVC_SRC_CFG routes the selected source of the partition to a target the partition holds, EN 0 clearing PENDING; another target sets
ROUTE_FOREIGN and a source of another partition SRC_FOREIGN (R347, R356). EVC_TGT_ASSIGN disables every source routed to the target, empties its
stack, and assigns it, or past the partition's quota does nothing but set TGT_QUOTA (R348). No other source or target changes. -/
def Obligations.SourcesRoutedTargetsAssigned : Prop :=
  (∀ (s : State) (fn : Fn) (v : Word), s.hostOpen fn.toNat = true → s.ras.lostCap = [] → ownSource fn.toNat (s.srcSelOf fn.toNat) = true →
    s.holdsTarget fn.toNat (field v 15 8) = true →
    ∃ t, exec (.evcSrcCfg fn v) s = .next t ∧
      t.src (s.srcSelOf fn.toNat) =
        { en := bit v 16, level := v.setWidth 5, target := v.extractLsb' 8 8, pending := (s.src (s.srcSelOf fn.toNat)).pending && bit v 16 } ∧
      (∀ m, m ≠ s.srcSelOf fn.toNat → t.src m = s.src m) ∧ (∀ i, { t.tgt i with req := (s.tgt i).req } = s.tgt i) ∧
      t.evc = { s.evc with src := t.evc.src, tgt := t.evc.tgt } ∧ s.onlyChanges t [.evc]) ∧
  (∀ (s : State) (fn : Fn) (v : Word), s.hostOpen fn.toNat = true → ownSource fn.toNat (s.srcSelOf fn.toNat) = false →
    ∃ t, exec (.evcSrcCfg fn v) s = .next t ∧ s.onlyChanges t [] [(pgEVC, fn.toNat, 3)]) ∧
  (∀ (s : State) (fn : Fn) (v : Word), s.hostOpen fn.toNat = true → ownSource fn.toNat (s.srcSelOf fn.toNat) = true →
    s.holdsTarget fn.toNat (field v 15 8) = false →
    ∃ t, exec (.evcSrcCfg fn v) s = .next t ∧ s.onlyChanges t [] [(pgEVC, fn.toNat, 1)]) ∧
  (∀ (s : State) (v : Word), s.hostOpen 0 = true →
    (bit v 63 = false ∨ ((s.targetsOf (field v 53 48)).filter (· ≠ s.evc.tsel.toNat)).length + 1 ≤ (s.part (field v 53 48)).qEvt) →
    ∃ t, exec (.evcTgtAssign v) s = .next t ∧
      (let g := t.tgt s.evc.tsel.toNat
       g.valid = bit v 63 ∧ g.part = v.extractLsb' 48 6 ∧ g.vector = v.setWidth 5 ∧ g.stack = [] ∧
         g.thresh = (s.tgt s.evc.tsel.toNat).thresh ∧ g.stamp = s.evc.stamp + 1) ∧
      (∀ n, (s.src n).target = s.evc.tsel → (t.src n).en = false) ∧
      (∀ n, (s.src n).target ≠ s.evc.tsel → t.src n = s.src n) ∧ (∀ i, i ≠ s.evc.tsel.toNat → t.tgt i = s.tgt i) ∧
      t.evc = { s.evc with src := t.evc.src, tgt := t.evc.tgt, stamp := s.evc.stamp + 1 } ∧ s.onlyChanges t [.evc]) ∧
  (∀ (s : State) (v : Word), s.hostOpen 0 = true → bit v 63 = true →
    (s.part (field v 53 48)).qEvt < ((s.targetsOf (field v 53 48)).filter (· ≠ s.evc.tsel.toNat)).length + 1 →
    ∃ t, exec (.evcTgtAssign v) s = .next t ∧ s.onlyChanges t [] [(pgEVC, 0, 5)])

/-- A read of EVC_CLAIM for a held target answers the eligible source of the highest LEVEL, the lowest number among equals, with its
level; it clears that source's PENDING, unless an edge was merged into it in this hub cycle (R353), and pushes the source and its level on
the claim stack, so that RUNNING is that level; an on-die target's bit of evt_out falls with its REQUEST (R350). With no eligible source
it answers 0 and changes nothing. A target the partition does not hold answers 0 and sets TGT_FOREIGN (R356). -/
def Obligations.ClaimTakesTheHighest : Prop :=
  (∀ (s : State) (fn : Fn) (k : Byte) (n : Nat), s.hostOpen fn.toNat = true → s.holdsTarget fn.toNat k.toNat = true →
    eligible (s.tgt k.toNat) k.toNat (s.src n) = true →
    (∀ m, eligible (s.tgt k.toNat) k.toNat (s.src m) = true → (s.src m).level < (s.src n).level ∨ ((s.src m).level = (s.src n).level ∧ n ≤ m)) →
    ∃ t, exec (.evcClaim fn k) s = .next t ∧
      t.out = s.out ++ (if 192 ≤ k.toNat ∧ (s.tgt k.toNat).req = true then [.evtOut (k.toNat - 192) false] else []) ++
        [.cpl none fn.toNat (place (s.src n).level.toNat 16 ||| BitVec.ofNat 64 n)] ∧
      t.src n = { s.src n with pending := decide ((s.src n).edgeAt = some s.glb.time), edgeAt := none } ∧ (∀ m, m ≠ n → t.src m = s.src m) ∧
      (t.tgt k.toNat).stack = (n, (s.src n).level) :: (s.tgt k.toNat).stack ∧ running (t.tgt k.toNat) = (s.src n).level ∧
      { t.tgt k.toNat with stack := (s.tgt k.toNat).stack, req := (s.tgt k.toNat).req } = s.tgt k.toNat ∧
      (∀ i, i ≠ k.toNat → t.tgt i = s.tgt i) ∧ t.evc = { s.evc with src := t.evc.src, tgt := t.evc.tgt } ∧ s.onlyChanges t [.evc]) ∧
  (∀ (s : State) (fn : Fn) (k : Byte), s.hostOpen fn.toNat = true → s.holdsTarget fn.toNat k.toNat = true →
    (∀ m, eligible (s.tgt k.toNat) k.toNat (s.src m) = false) →
    ∃ t, exec (.evcClaim fn k) s = .next t ∧ t.out = s.out ++ [.cpl none fn.toNat 0] ∧ t.evc = s.evc ∧ s.onlyChanges t []) ∧
  (∀ (s : State) (fn : Fn) (k : Byte), s.hostOpen fn.toNat = true → s.holdsTarget fn.toNat k.toNat = false →
    ∃ t, exec (.evcClaim fn k) s = .next t ∧ (∃ os, t.out = s.out ++ os ++ [.cpl none fn.toNat 0]) ∧
      s.onlyChanges t [] [(pgEVC, fn.toNat, 4)])

/-- EVC_COMPLETE with an ID on a held target's stack removes that source's entry, so that RUNNING is the new top and REQUEST says whether a
source is eligible above it; with another ID it sets COMPLETE_BAD and nothing else. A target not held sets TGT_FOREIGN (R356). -/
def Obligations.CompletePopsItsEntry : Prop :=
  (∀ (s : State) (fn : Fn) (k : Byte) (v : Word), s.hostOpen fn.toNat = true → s.holdsTarget fn.toNat k.toNat = true →
    (s.tgt k.toNat).stack.any (·.1 = field v 12 0) = true →
    ∃ t, exec (.evcComplete fn k v) s = .next t ∧ (t.tgt k.toNat).stack = (s.tgt k.toNat).stack.eraseP (·.1 = field v 12 0) ∧
      running (t.tgt k.toNat) = (match (s.tgt k.toNat).stack.eraseP (·.1 = field v 12 0) with | [] => 0 | x :: _ => x.2) ∧
      (t.tgt k.toNat).req = (t.best k.toNat).isSome ∧ t.evc.src = s.evc.src ∧
      { t.tgt k.toNat with stack := (s.tgt k.toNat).stack, req := (s.tgt k.toNat).req } = s.tgt k.toNat ∧
      (∀ i, i ≠ k.toNat → t.tgt i = s.tgt i) ∧ t.evc = { s.evc with tgt := t.evc.tgt } ∧ s.onlyChanges t [.evc]) ∧
  (∀ (s : State) (fn : Fn) (k : Byte) (v : Word), s.hostOpen fn.toNat = true → s.holdsTarget fn.toNat k.toNat = true →
    (s.tgt k.toNat).stack.any (·.1 = field v 12 0) = false →
    ∃ t, exec (.evcComplete fn k v) s = .next t ∧ (∀ i, (t.tgt i).stack = (s.tgt i).stack) ∧ s.onlyChanges t [] [(pgEVC, fn.toNat, 2)]) ∧
  (∀ (s : State) (fn : Fn) (k : Byte) (v : Word), s.hostOpen fn.toNat = true → s.holdsTarget fn.toNat k.toNat = false →
    ∃ t, exec (.evcComplete fn k v) s = .next t ∧ (∀ i, (t.tgt i).stack = (s.tgt i).stack) ∧ s.onlyChanges t [] [(pgEVC, fn.toNat, 4)])


/-! ## Register accesses, counters and the trace -/

/-- For a plain register of each kind of page, PF0's 8-byte write takes the register's fields and changes no other of them, a 4-byte write
of its low half keeps the high half (R10, R11), an 8-byte read answers the value in one completion, and a control core's REG_WR and REG_RD do the
same, answered with OK on NoC port 4, or waiting there for a credit (R338). Nothing else changes. The function's BARs respond, port 4's
message has a credit, and no bootstrap write of the link is outstanding (`BadAndEmptyAccesses` and `CreditsAndStrayResponses` say what
happens otherwise). -/
def Obligations.PlainRegistersHoldWhatIsWritten : Prop :=
  let plain : List (BitVec 26 × Word × Region × (State → Word)) :=
    [(0x200210, 0xFFFFFFFFFFFFFFFF, .pwr, fun s => s.pwr.bootArg), (0x220100, 0x33F, .hlk, fun s => s.hlk.funcSel.setWidth 64),
     (0x260100, 0x3F, .skk, fun s => s.skk.psel.setWidth 64), (0x270118, 0xFFFFF, .mov, fun s => s.mov.urgentDebt.setWidth 64),
     (0x290110, 0xFFFFFF, .home, fun s => s.home.hostLimit.setWidth 64), (0x2B0100, 0xFFF, .peer, fun s => s.peer.chipId.setWidth 64),
     (0x2C0100, 0xFFFFFF, .syn, fun s => s.syn.slipMax.setWidth 64), (0x2D0140, 0x3FFFF, .cht, fun s => s.cht.frameOffset.setWidth 64),
     (0x2E0100, 0xFF, .evc, fun s => s.evc.tsel.setWidth 64), (0x2F0110, 0xFF, .arb, fun s => s.arb.waitMax.setWidth 64),
     (0x300168, 0xFFFFFFFFFFFFFFF8, .ras, fun s => s.ras.repairBase), (0x310118, 0x3FF, .twn, fun s => s.twn.hbLimit.setWidth 64),
     (0x320110, 0xFFFFFF, .pwr, fun s => s.pwr.idleNap.setWidth 64), (0x330100, 0x3F, .prt, fun s => s.prt.psel.setWidth 64),
     (0x330148, 0xFFFFFF, .prt, fun s => s.prt.drainLimit.setWidth 64)]
  ∀ e ∈ plain, ∀ (s : State) (l : BitVec 2) (v : Word) (client : BitVec 10) (tag : BitVec 12), s.viewOpen 0 = true →
    s.barOn 0 l.toNat = true → s.creditsSpent 4 .req < 64 → s.bootWaits l.toNat = false →
    let written (t : State) (w : Word) : Prop :=
      e.2.2.2 t = w ∧ (∀ o ∈ plain, o.1 ≠ e.1 → o.2.2.2 t = o.2.2.2 s) ∧ s.onlyChanges t [e.2.2.1]
    let sent (t : State) (o : Out) : Prop := t.out = s.out ++ [o] ∨ t.noc.wait = s.noc.wait ++ [o]
    (∃ t, exec (.registerWrite 0 l ⟨0, .memory⟩ e.1 8 v) s = .next t ∧ written t (v &&& e.2.1) ∧ t.out = s.out) ∧
    (∃ t, exec (.registerWrite 0 l ⟨0, .memory⟩ e.1 4 v) s = .next t ∧
      written t ((v &&& 0xFFFFFFFF ||| e.2.2.2 s &&& 0xFFFFFFFF00000000) &&& e.2.1) ∧ t.out = s.out) ∧
    (∃ t, exec (.rcRead 0 l ⟨0, .memory⟩ e.1 8) s = .next t ∧ t.out = s.out ++ [.cpl (some l.toNat) 0 (e.2.2.2 s)] ∧ s.onlyChanges t []) ∧
    (∃ t, exec (.regWr client tag (e.1.setWidth 25) true v) s = .next t ∧ written t (v &&& e.2.1) ∧
      sent t (.p4 (.regRsp client.toNat tag.toNat 0 0))) ∧
    ∃ t, exec (.regRd client tag (e.1.setWidth 25) true) s = .next t ∧ sent t (.p4 (.regRsp client.toNat tag.toNat 0 (e.2.2.2 s))) ∧
      s.onlyChanges t []

/-- An access to a block page that is not a naturally aligned access of 4 or 8 bytes reads zero, writes nothing and sets BAD_ACCESS in the
function's view, or in PF0's for a control core, which is answered 0x05 (R10, R423). An access where no register stands reads zero and
writes nothing. While the function's FLR runs, a read completes with zeros and a write is discarded (R311). A register write that arrives on a
link with a bootstrap write outstanding is held, unjudged (R405). An access to BARs that do not respond, and an AtomicOp, a locked or an I/O
request, is an Unsupported Request, and a poisoned or malformed one is discarded; each is logged in the function's AER (R318, R325). A
configuration read of an instance that is there completes with the register's bytes, of one that is not as unsupported, and during the
function's FLR with Request Retry Status (R311, R312). -/
def Obligations.BadAndEmptyAccesses : Prop :=
  (∀ (s : State) (fn : Fn) (l : BitVec 2) (off : BitVec 26) (size : Nat) (v : Word), s.hostOpen fn.toNat = true → s.barOn fn.toNat l.toNat = true →
    s.bootWaits l.toNat = false → inBar0 fn.toNat off.toNat = true → blockPage off.toNat ≠ none → goodAccess off.toNat size = false →
    (∃ t, exec (.registerWrite fn l ⟨0, .memory⟩ off size v) s = .next t ∧ s.onlyChanges t [] [(pgGLB, fn.toNat, 1)]) ∧
    ∃ t, exec (.rcRead fn l ⟨0, .memory⟩ off size) s = .next t ∧ (∃ os, t.out = s.out ++ os ++ [.cpl (some l.toNat) fn.toNat 0]) ∧
      s.onlyChanges t [] [(pgGLB, fn.toNat, 1)]) ∧
  (∀ (s : State) (client : BitVec 10) (tag : BitVec 12) (off : BitVec 25) (size8 : Bool) (v : Word), s.atRest = true →
    s.creditsSpent 4 .req < 64 → goodAccess off.toNat (if size8 then 8 else 4) = false →
    (∃ t, exec (.regWr client tag off size8 v) s = .next t ∧ (.p4 (.regRsp client.toNat tag.toNat 5 0) ∈ t.out ++ t.noc.wait) ∧
      s.onlyChanges t [] [(pgGLB, 0, 1)]) ∧
    ∃ t, exec (.regRd client tag off size8) s = .next t ∧ (.p4 (.regRsp client.toNat tag.toNat 5 0) ∈ t.out ++ t.noc.wait) ∧
      s.onlyChanges t [] [(pgGLB, 0, 1)]) ∧
  (∀ (s : State) (fn : Fn) (l : BitVec 2) (off : BitVec 26) (pg : Nat) (v : Word), s.hostOpen fn.toNat = true → s.barOn fn.toNat l.toNat = true →
    s.bootWaits l.toNat = false → inBar0 fn.toNat off.toNat = true → blockPage off.toNat = some pg → off.toNat % 8 = 0 → regAt fn.toNat pg (off.toNat % 0x10000) = none →
    (∃ t, exec (.registerWrite fn l ⟨0, .memory⟩ off 8 v) s = .next t ∧ t.out = s.out ∧ s.onlyChanges t []) ∧
    ∃ t, exec (.rcRead fn l ⟨0, .memory⟩ off 8) s = .next t ∧ t.out = s.out ++ [.cpl (some l.toNat) fn.toNat 0] ∧ s.onlyChanges t []) ∧
  (∀ (s : State) (fn : Fn) (l : BitVec 2) (bar : BitVec 3) (off : BitVec 26) (size : Nat) (v : Word), s.atRest = true →
    s.inFlr fn.toNat = true → ¬(fn = 0 ∧ bar = 0 ∧ off = 0x200200) →
    (∃ t, exec (.registerWrite fn l ⟨bar, .memory⟩ off size v) s = .next t ∧ t.out = s.out ∧ s.onlyChanges t []) ∧
    ∃ t, exec (.rcRead fn l ⟨bar, .memory⟩ off size) s = .next t ∧ t.out = s.out ++ [.cpl (some l.toNat) fn.toNat 0] ∧ s.onlyChanges t []) ∧
  (∀ (s : State) (fn : Fn) (l : BitVec 2) (bar : BitVec 3) (off : BitVec 26) (size : Nat) (v : Word), s.hostOpen fn.toNat = true →
    s.barOn fn.toNat l.toNat = true → bar ≠ 4 → s.bootWaits l.toNat = true →
    ∃ t, exec (.registerWrite fn l ⟨bar, .memory⟩ off size v) s = .next t ∧ t.out = s.out ∧ s.onlyChanges t [.pwr] ∧
      t.pwr = { s.pwr with regHeld := s.pwr.regHeld ++ [⟨fn.toNat, l.toNat, bar.toNat, off.toNat, size, v⟩] }) ∧
  (∀ (s : State) (fn : Fn) (l : BitVec 2) (bar : BitVec 3) (off : BitVec 26) (size : Nat) (v : Word), s.hostOpen fn.toNat = true →
    s.barOn fn.toNat l.toNat = false →
    (∃ t, exec (.registerWrite fn l ⟨bar, .memory⟩ off size v) s = .next t ∧ bit32 (t.aerOf l.toNat fn.toNat).unc 20 = true ∧
      s.onlyChanges t []) ∧
    ∃ t, exec (.rcRead fn l ⟨bar, .memory⟩ off size) s = .next t ∧ bit32 (t.aerOf l.toNat fn.toNat).unc 20 = true ∧
      (.unsupported l.toNat fn.toNat) ∈ t.out ∧ s.onlyChanges t []) ∧
  (∀ (s : State) (fn : Fn) (l : BitVec 2) (bar : BitVec 3) (f : TlpForm) (off : BitVec 26) (size : Nat) (v : Word), s.atRest = true →
    (f = .atomicOp ∨ f = .locked ∨ f = .io) →
    (∃ t, exec (.registerWrite fn l ⟨bar, f⟩ off size v) s = .next t ∧ bit32 (t.aerOf l.toNat fn.toNat).unc 20 = true ∧
      (.unsupported l.toNat fn.toNat) ∈ t.out ∧ s.onlyChanges t []) ∧
    ∃ t, exec (.rcRead fn l ⟨bar, f⟩ off size) s = .next t ∧ bit32 (t.aerOf l.toNat fn.toNat).unc 20 = true ∧
      (.unsupported l.toNat fn.toNat) ∈ t.out ∧ s.onlyChanges t []) ∧
  (∀ (s : State) (fn : Fn) (l : BitVec 2) (bar : BitVec 3) (off : BitVec 26) (size : Nat) (v : Word) (p : Bool), s.atRest = true →
    let f : TlpForm := if p then .poisoned else .malformed
    let logged (t : State) : Prop := bit32 (t.aerOf l.toNat fn.toNat).unc (if p then 12 else 18) = true ∧ s.onlyChanges t []
    (∃ t, exec (.registerWrite fn l ⟨bar, f⟩ off size v) s = .next t ∧ logged t) ∧
    ∃ t, exec (.rcRead fn l ⟨bar, f⟩ off size) s = .next t ∧ logged t) ∧
  (∀ (s : State) (fn : Fn) (l : BitVec 2) (bar : BitVec 3) (off : BitVec 26) (size : Nat), s.atRest = true →
    ∃ t, exec (.rcRead fn l ⟨bar, .config⟩ off size) s = .next t ∧ s.onlyChanges t [] ∧
      t.out = s.out ++ [if s.inFlr fn.toNat then .retry (some l.toNat) fn.toNat
        else match s.confRead l.toNat fn.toNat (off.toNat / 4 * 4) with
          | some w => .cpl (some l.toNat) fn.toNat ((w.setWidth 64 >>> (8 * (off.toNat % 4))) &&& BitVec.ofNat 64 (2 ^ (8 * size) - 1))
          | none => .unsupported l.toNat fn.toNat])

/-- CLEAR_ALL clears every counter of every page, CNT_CLEAR those of its page, but for what was counted in this hub cycle, the access itself,
a TLP received (log entry 35), among it; both keep CNT_FREEZE and DEGRADED (R418, R421, R425); DBG_TRACE_CLEAR empties the ring and clears
WRAPPED, and the next entry is the ring's first. -/
def Obligations.CountersAndTraceCleared : Prop :=
  let hlkCleared (s : State) : PageCounters :=
    let c := s.page pgHLK
    let now : Counts :=
      if s.counting pgHLK then { c.nowOf s.glb.time with ops := (c.nowOf s.glb.time).ops + (if c.ops.toNat + 1 < 2 ^ 64 then 1 else 0) }
      else c.nowOf s.glb.time
    { c with toCounts := now, nowAt := if s.counting pgHLK then s.glb.time else c.nowAt, now := if s.counting pgHLK then now else c.now }
  (∀ s : State, s.hostOpen 0 = true →
    ∃ t, exec .clearAll s = .next t ∧
      (∀ pg, pg < 21 → pg ≠ pgHLK → t.page pg = { s.page pg with toCounts := (s.page pg).nowOf s.glb.time }) ∧ t.page pgHLK = hlkCleared s ∧
      (∀ pg, 21 ≤ pg → t.page pg = s.page pg) ∧ t.glb = { s.glb with blocks := t.glb.blocks } ∧ t.out = s.out ∧ s.onlyChanges t []) ∧
  (∀ (s : State) (p : Fin 21), s.hostOpen 0 = true →
    ∃ t, exec (.cntClear p) s = .next t ∧ 
      t.page p.val = (if p.val = pgHLK then hlkCleared s else { s.page p.val with toCounts := (s.page p.val).nowOf s.glb.time }) ∧
      (∀ pg, pg ≠ p.val → pg ≠ pgHLK → t.page pg = s.page pg) ∧
      (p.val ≠ pgHLK → s.counting pgHLK = true → (t.page pgHLK).toCounts = { (s.page pgHLK).toCounts with ops := satAdd (s.page pgHLK).ops 1 }) ∧
      t.glb = { s.glb with blocks := t.glb.blocks } ∧ t.out = s.out ∧ s.onlyChanges t []) ∧
  (∀ s : State, s.hostOpen 0 = true →
    ∃ t, exec .dbgTraceClear s = .next t ∧
      t.glb = { s.glb with trace := [], tracePtr := 0, traceWrapped := false, blocks := t.glb.blocks } ∧ t.out = s.out ∧ s.onlyChanges t [])

/-- A credit that comes back, of the NoC's allotment (log entry 29) or spent, is held again; one beyond, or of a class or slot the port has not,
sets PORT_PROTOCOL (R333, R334, R337). A response on a data port that no request awaits, and any SignalAck, since the hub sends no CoreSignal, is
discarded with PORT_PROTOCOL (R335), and so is a message of an undefined OPC or in the wrong class, and one that comes without a credit of the
hub's (R333, R336, R338). -/
def Obligations.CreditsAndStrayResponses : Prop :=
  (∀ (s : State) (p : Fin 5) (c : NocClass) (sl : Bool), s.atRest = true → s.noc.wait = [] → creditExists p.val c (flag sl) = true →
    (s.credit p.val (classNum c) (flag sl)).got < allotted p.val (classNum c) (flag sl) →
    ∃ t, exec (.nocCreditReturn p c sl) s = .next t ∧
      t.credit p.val (classNum c) (flag sl) =
        { s.credit p.val (classNum c) (flag sl) with
          held := (s.credit p.val (classNum c) (flag sl)).held + 1, got := (s.credit p.val (classNum c) (flag sl)).got + 1 } ∧
      (∀ k, k ≠ creditKey p.val (classNum c) (flag sl) →
        tabGet (fun _ => ({} : Credit)) t.noc.credit k = tabGet (fun _ => ({} : Credit)) s.noc.credit k) ∧
      t.noc = { s.noc with credit := t.noc.credit } ∧ t.out = s.out ∧ s.onlyChanges t []) ∧
  (∀ (s : State) (p : Fin 5) (c : NocClass) (sl : Bool), s.atRest = true → s.noc.wait = [] → creditExists p.val c (flag sl) = true →
    allotted p.val (classNum c) (flag sl) ≤ (s.credit p.val (classNum c) (flag sl)).got → 0 < (s.credit p.val (classNum c) (flag sl)).spent →
    ∃ t, exec (.nocCreditReturn p c sl) s = .next t ∧
      t.credit p.val (classNum c) (flag sl) =
        { s.credit p.val (classNum c) (flag sl) with
          held := (s.credit p.val (classNum c) (flag sl)).held + 1, spent := (s.credit p.val (classNum c) (flag sl)).spent - 1 } ∧
      t.out = s.out ∧ s.onlyChanges t []) ∧
  (∀ (s : State) (p : Fin 5) (c : NocClass) (sl : Bool), s.atRest = true →
    (creditExists p.val c (flag sl) = false ∨ (allotted p.val (classNum c) (flag sl) ≤ (s.credit p.val (classNum c) (flag sl)).got ∧
      (s.credit p.val (classNum c) (flag sl)).spent = 0)) →
    ∃ t, exec (.nocCreditReturn p c sl) s = .next t ∧ s.onlyChanges t [] [(pgGLB, 0, 5)]) ∧
  (∀ (s : State) (x : NocStray), s.atRest = true → ∃ t, exec (.signalAck x) s = .next t ∧ s.onlyChanges t [] [(pgGLB, 0, 5)]) ∧
  (∀ (s : State) (p : Fin 4) (a : BitVec 11) (tag : BitVec 12) (b : Bool) (d : Granule) (code : Code) (old : Word), s.atRest = true →
    hubCredits p.val .rsp ≤ s.creditsSpent p.val .rsp →
    (∃ t, exec (.memRdData p a tag b d) s = .next t ∧ s.onlyChanges t [] [(pgGLB, 0, 5)]) ∧
    (∃ t, exec (.memWrAck p a tag code) s = .next t ∧ s.onlyChanges t [] [(pgGLB, 0, 5)]) ∧
    ∃ t, exec (.memAtomicAck p a tag code old) s = .next t ∧ s.onlyChanges t [] [(pgGLB, 0, 5)]) ∧
  (∀ (s : State) (client : BitVec 10) (tag : BitVec 12) (off : BitVec 25) (size8 : Bool) (v : Word), s.atRest = true →
    64 ≤ s.creditsSpent 4 .req →
    (∃ t, exec (.regWr client tag off size8 v) s = .next t ∧ s.onlyChanges t [] [(pgGLB, 0, 5)]) ∧
    ∃ t, exec (.regRd client tag off size8) s = .next t ∧ s.onlyChanges t [] [(pgGLB, 0, 5)]) ∧
  (∀ (s : State) (p : Fin 4) (a : BitVec 11) (tag : BitVec 12) (b : Bool) (d : Granule) (code : Code) (old : Word), s.atRest = true →
    s.findReq p.val a.toNat tag.toNat = none →
    (∃ t, exec (.memRdData p a tag b d) s = .next t ∧ s.onlyChanges t [] [(pgGLB, 0, 5)]) ∧
    (s.pwr.regHeld = [] → ∃ t, exec (.memWrAck p a tag code) s = .next t ∧ s.onlyChanges t [] [(pgGLB, 0, 5)]) ∧
    ∃ t, exec (.memAtomicAck p a tag code old) s = .next t ∧ s.onlyChanges t [] [(pgGLB, 0, 5)])


/-- LINK_UP makes the link up with the mode, speed and width it names (R306, R340); LINK_DOWN of a link that is up takes it down, resets its
instances and sets LINK_DOWN, and with the last link down PF0's FLR starts (R323); of a link that is down it does nothing. Cache_Enable of a
link is set and cleared (R306, R310). Cache Writeback and Invalidate with no host line held sets Cache Invalid on every link (R310). No
other link or instance changes, but for Cache Invalid and PME_Status. -/
def Obligations.LinksChange : Prop :=
  let others (s t : State) (l : BitVec 2) : Prop :=
    (∀ k : BitVec 2, k ≠ l → { t.link k.toNat with cacheInvalid := (s.link k.toNat).cacheInvalid } = s.link k.toNat) ∧
    (∀ (k : BitVec 2) (f : Fn), k ≠ l →
      { t.inst k.toNat f.toNat with pmeStatus := (s.inst k.toNat f.toNat).pmeStatus } = s.inst k.toNat f.toNat) ∧
    t.hlk.groupMap = s.hlk.groupMap ∧ t.hlk.ranges = s.hlk.ranges ∧ t.glb.time = s.glb.time ∧ t.pending = s.pending
  let insts (s t : State) (l : BitVec 2) : Prop :=
    ∀ f : Fn, { t.inst l.toNat f.toNat with pmeStatus := (s.inst l.toNat f.toNat).pmeStatus } = s.inst l.toNat f.toNat
  (∀ (s : State) (l : BitVec 2) (flit : Bool) (sp : BitVec 4) (w : BitVec 5), s.on = true → s.wf = true →
    ∃ t, exec (.linkUp l flit sp w) s = .next t ∧
      { t.link l.toNat with cacheInvalid := (s.link l.toNat).cacheInvalid } =
        { s.link l.toNat with up := true, flit256 := flit, speed := sp, width := w } ∧
      others s t l ∧ insts s t l ∧ t.hlk.flr = s.hlk.flr) ∧
  (∀ (s : State) (l : BitVec 2), s.on = true → s.wf = true → (s.link l.toNat).up = true →
    ∃ t, exec (.linkDown l) s = .next t ∧ { t.link l.toNat with cacheInvalid := false } = {} ∧
      (∀ f : Fn, { t.inst l.toNat f.toNat with pmeStatus := false } = {}) ∧ others s t l ∧ bit (t.sticky pgHLK 0).bits 5 = true ∧
      (links4.any (fun k => k ≠ l.toNat && (s.link k).up) = false → t.inFlr 0 = true)) ∧
  (∀ (s : State) (l : BitVec 2), s.atRest = true → (s.link l.toNat).up = false → exec (.linkDown l) s = .next s) ∧
  (∀ (s : State) (l : BitVec 2), s.hostOpen 0 = true →
    ∃ t, exec (.cacheEnableSet l) s = .next t ∧ t.link l.toNat = { s.link l.toNat with cacheEn := true } ∧
      (∀ k : BitVec 2, k ≠ l → t.link k.toNat = s.link k.toNat) ∧ t.hlk = { s.hlk with links := t.hlk.links } ∧ t.out = s.out ∧
      s.onlyChanges t [.hlk]) ∧
  (∀ (s : State) (l : BitVec 2), s.on = true → s.wf = true → s.inFlr 0 = false →
    ∃ t, exec (.cacheEnableClear l) s = .next t ∧
      { t.link l.toNat with cacheInvalid := (s.link l.toNat).cacheInvalid } = { s.link l.toNat with cacheEn := false } ∧
      others s t l ∧ insts s t l ∧ t.hlk.flr = s.hlk.flr ∧ (s.home = {} → s.atRest = true → s.onlyChanges t [.hlk])) ∧
  (∀ (s : State) (l : BitVec 2), s.hostOpen 0 = true → s.home = {} →
    ∃ t, exec (.cacheWritebackInvalidate l) s = .next t ∧ (∀ k : BitVec 2, t.link k.toNat = { s.link k.toNat with cacheInvalid := true }) ∧
      t.hlk = { s.hlk with links := t.hlk.links } ∧ t.out = s.out ∧ s.onlyChanges t [.hlk])

/-- A completion that matches no request counts in HLK_UNEXP_CPL_COUNT, sets its sticky bit and is reported in PF0's AER (R322, R325); one for a silenced request counts in
HLK_LATE_CPL_COUNT (R321, R322); a good one for a FENCE takes one read off those it waits for; an unsuccessful one sets CPL_TIMEOUT (R326). A timeout of a request counts, sets its
sticky bit and is reported; of one silenced, or of none, it only ends the request, or does nothing (R320). The request is outstanding no
more, and the others are as before. -/
def Obligations.ZeroLengthReadsEnd : Prop :=
  let rest (s : State) (l : BitVec 2) (tag : BitVec 14) : List NpReq := s.hlk.np.filter fun n => !(n.link = l.toNat && n.tag = tag.toNat)
  (∀ (s : State) (l : BitVec 2) (tag : BitVec 14) (ok p : Bool), s.atRest = true → s.npReq l.toNat tag.toNat = none →
    (∃ t, exec (.cxlioCompletion l tag ok p) s = .next t ∧ s.onlyChanges t [.hlk] [(pgHLK, 0, 2)] ∧
      t.hlk = { s.hlk with
        unexpCpl := satInc s.hlk.unexpCpl, msix := t.hlk.msix, inst := t.hlk.inst, aer := t.hlk.aer, headers := t.hlk.headers } ∧
      ((s.link l.toNat).up = true → bit32 (t.aerOf l.toNat 0).unc 16 = true)) ∧
    exec (.completionTimeout l tag) s = .next s) ∧
  (∀ (s : State) (l : BitVec 2) (tag : BitVec 14) (ok p : Bool) (n : NpReq), s.atRest = true → s.npReq l.toNat tag.toNat = some n →
    n.late = true →
    (∃ t, exec (.cxlioCompletion l tag ok p) s = .next t ∧ s.onlyChanges t [.hlk] ∧
      t.hlk = { s.hlk with np := rest s l tag, lateCpl := satInc s.hlk.lateCpl } ∧ t.out = s.out) ∧
    ∃ t, exec (.completionTimeout l tag) s = .next t ∧ s.onlyChanges t [.hlk] ∧ t.hlk = { s.hlk with np := rest s l tag } ∧ t.out = s.out) ∧
  (∀ (s : State) (l : BitVec 2) (tag : BitVec 14) (n : NpReq) (slot num : Nat), s.atRest = true → s.npReq l.toNat tag.toNat = some n →
    n.late = false → n.holder = .fence slot num →
    ∃ t, exec (.cxlioCompletion l tag true false) s = .next t ∧ t.hlk = { s.hlk with np := rest s l tag } ∧ t.out = s.out ∧
      t.chan slot = { s.chan slot with
        cmds := (s.chan slot).cmds.map fun x => if x.num = num then { x with fenceOut := x.fenceOut - 1 } else x } ∧
      (∀ k, k ≠ slot → t.chan k = s.chan k) ∧ t.dbl.mgmt = s.dbl.mgmt ∧ s.onlyChanges t [.hlk, .dbl]) ∧
  (∀ (s : State) (l : BitVec 2) (tag : BitVec 14) (n : NpReq), s.atRest = true → s.npReq l.toNat tag.toNat = some n →
    n.late = false → n.holder = .gone →
    ∃ t, exec (.completionTimeout l tag) s = .next t ∧ s.onlyChanges t [.hlk] [(pgHLK, 0, 1)] ∧
      bit32 (t.aerOf l.toNat n.fn).unc 14 = true ∧
      (bit32 (s.aerOf l.toNat n.fn).uncMask 14 = false →
        .aer l.toNat n.fn .cplTimeout (if bit32 (s.aerOf l.toNat n.fn).uncSev 14 then .fatal else .nonFatal) ∈ t.out) ∧
      t.hlk = { s.hlk with
        np := rest s l tag, cplTimeout := satInc s.hlk.cplTimeout, msix := t.hlk.msix, inst := t.hlk.inst, aer := t.hlk.aer
        headers := t.hlk.headers }) ∧
  (∀ (s : State) (l : BitVec 2) (tag : BitVec 14) (n : NpReq) (p : Bool), s.atRest = true → s.npReq l.toNat tag.toNat = some n →
    n.late = false → n.holder = .gone →
    ∃ t, exec (.cxlioCompletion l tag false p) s = .next t ∧ s.onlyChanges t [.hlk] [(pgHLK, 0, 1)] ∧
      t.hlk = { s.hlk with np := rest s l tag, msix := t.hlk.msix, inst := t.hlk.inst })

/-- A write of the group map or of a range that moves no host line takes effect at once; one that does is held, with REMAP_BUSY, until the
home is empty, and REMAP_DONE then applies it (R306, R307); a second write meanwhile, and a range that meets another, are discarded with their
sticky bits. D3HOT and D0_RETURN set the function's D-state and PME_En on every link and no other function's (R397, R398). -/
def Obligations.RemapsAndDStates : Prop :=
  (∀ (s : State) (r : RemapReg) (v : Word), s.hostOpen 0 = true → s.hlk.remap.isSome = true →
    ∃ t, exec (.hlkRemap r v) s = .next t ∧ s.onlyChanges t [] [(pgHLK, 0, 7)]) ∧
  (∀ (s : State) (r : RemapReg) (v : Word), s.hostOpen 0 = true → s.hlk.remap = none → r ≠ .groupMap →
    (s.setMap r s.hlk.rsel.toNat v).rangeMeets s.hlk.rsel.toNat = true →
    ∃ t, exec (.hlkRemap r v) s = .next t ∧ s.onlyChanges t [] [(pgHLK, 0, 6)]) ∧
  (∀ (s : State) (r : RemapReg) (v : Word), s.hostOpen 0 = true → s.home = {} → s.hlk.remap = none →
    (r = .groupMap ∨ (s.setMap r s.hlk.rsel.toNat v).rangeMeets s.hlk.rsel.toNat = false) →
    ∃ t, exec (.hlkRemap r v) s = .next t ∧ s.onlyChanges t [.hlk] ∧ t.out = s.out ∧
      (if s.remaps (s.setMap r s.hlk.rsel.toNat v) then t.hlk = { s.hlk with remap := some { reg := r, sel := s.hlk.rsel.toNat, v := v } }
       else match r with
        | .groupMap => t.hlk = { s.hlk with groupMap := v &&& 0x83838383 }
        | .rangeBase => t.hlk = { s.hlk with ranges := t.hlk.ranges } ∧
            t.hlkRange s.hlk.rsel.toNat = { s.hlkRange s.hlk.rsel.toNat with base := v &&& 0xFFFFFFFFFFFFF031 } ∧
            ∀ i, i ≠ s.hlk.rsel.toNat → t.hlkRange i = s.hlkRange i
        | .rangeLimit => t.hlk = { s.hlk with ranges := t.hlk.ranges } ∧
            t.hlkRange s.hlk.rsel.toNat = { s.hlkRange s.hlk.rsel.toNat with limit := v &&& 0xFFFFFFFFFFFFF000 } ∧
            ∀ i, i ≠ s.hlk.rsel.toNat → t.hlkRange i = s.hlkRange i)) ∧
  (∀ (s : State) (x : Remap), s.atRest = true → s.home = {} → s.hlk.remap = some x →
    exec .remapDone s = .next (((s.onHlk fun h => { h with remap := none }).setMap x.reg x.sel x.v).settleArbs)) ∧
  (∀ s : State, s.atRest = true → (s.hlk.remap = none ∨ s.homeEmpty = false) → exec .remapDone s = .next s) ∧
  (∀ (s : State) (fn : Fn) (d0 en clear : Bool), s.on = true → s.wf = true → s.inFlr fn.toNat = false →
    ∃ t, exec (if d0 then .d0Return fn en clear else .d3hot fn en clear) s = .next t ∧
      (∀ l : BitVec 2, { t.inst l.toNat fn.toNat with pmeStatus := (s.inst l.toNat fn.toNat).pmeStatus } =
        { s.inst l.toNat fn.toNat with dstate := if d0 then 0 else 3, pmeEn := en }) ∧
      (d0 = true → ∀ l : BitVec 2, (t.inst l.toNat fn.toNat).pmeStatus = ((s.inst l.toNat fn.toNat).pmeStatus && !clear)) ∧
      (∀ (l : BitVec 2) (f : Fn), f ≠ fn →
        { t.inst l.toNat f.toNat with pmeStatus := (s.inst l.toNat f.toNat).pmeStatus } = s.inst l.toNat f.toNat) ∧
      (d0 = false → s.inD0 fn.toNat = true → s.workOut fn.toNat = true → bit (t.sticky pgPWR fn.toNat).bits 1 = true) ∧
      t.hlk.flr = s.hlk.flr ∧ t.glb.time = s.glb.time ∧ t.pending = s.pending)


/-! ## Partitions and the twin engines -/

/-- ENABLE and DISABLE act on the partition PRT_PSEL selects, by its state: DISABLED to ENABLED, ENABLED to DISABLING, DISABLING to
ENABLE_PENDING and back, the rest without effect. An ENABLE of a partition whose function is not enabled sets NO_FUNCTION, either OP on
partition 0 sets PART0_REFUSED, and both then do nothing else. A partition comes to ENABLED from DISABLED with its Reed credits at their depth
(06_movers.md R137), but for a credit whose macro is lost (R370). A DISABLE from ENABLED is taken whatever quota drains, and ends the drains. No other
partition's state or quota changes. -/
def Obligations.PartitionControl : Prop :=
  let p (s : State) : Nat := s.prt.psel.toNat
  let became (s t : State) (st : PartSt) : Prop :=
    t.part (p s) = { s.part (p s) with st := st } ∧ (∀ k, k ≠ p s → t.part k = s.part k) ∧ t.prt = { s.prt with part := t.prt.part } ∧
      t.out = s.out ++ s.ltrs t ∧ s.onlyChanges t (if (s.part (p s)).st = .disabled then [.prt, .mov] else [.prt])
  (∀ s : State, s.hostOpen 0 = true → s.prt.psel = 0 →
    (∃ t, exec .enable s = .next t ∧ s.onlyChanges t [] [(pgPRT, 0, 2)]) ∧ ∃ t, exec .disable s = .next t ∧ s.onlyChanges t [] [(pgPRT, 0, 2)]) ∧
  (∀ s : State, s.hostOpen 0 = true → s.prt.psel ≠ 0 → links4.any (s.fnOn (p s)) = false →
    ∃ t, exec .enable s = .next t ∧ s.onlyChanges t [] [(pgPRT, 0, 1)]) ∧
  (∀ s : State, s.hostOpen 0 = true → s.prt.psel ≠ 0 → links4.any (s.fnOn (p s)) = true →
    ∃ t, exec .enable s = .next t ∧
      became s t (match (s.part (p s)).st with
        | .disabled => .enabled | .enabled => .enabled | .disabling => .enablePending | .enablePending => .enablePending) ∧
      ((s.part (p s)).st = .disabled → t.mov = { s.mov with partCredit := t.mov.partCredit } ∧
        ∀ b, b < 23 → t.partCredit (p s) b =
          if s.macroLost 0x10 (partCreditKey (p s * 23 + b)) then s.partCredit (p s) b else reedDepth (s.partShare (p s) b) b)) ∧
  (∀ s : State, s.hostOpen 0 = true → s.prt.psel ≠ 0 → (s.part (p s)).st ≠ .enabled →
    ∃ t, exec .disable s = .next t ∧
      became s t (match (s.part (p s)).st with | .disabled => .disabled | _ => .disabling)) ∧
  (∀ s : State, s.on = true → s.wf = true → s.inFlr 0 = false → s.prt.psel ≠ 0 → (s.part (p s)).st = .enabled →
    ∃ t, exec .disable s = .next t ∧
      { t.part (p s) with closing := .none } = { s.part (p s) with st := .disabling, drainAt := [], closing := .none } ∧
      (∀ k, k ≠ p s → { t.part k with closing := (s.part k).closing } = s.part k) ∧ t.prt.psel = s.prt.psel ∧
      t.glb.time = s.glb.time ∧ t.pending = s.pending)

/-- DISABLE_COMPLETE leaves a partition whose sequence is done DISABLED, or ENABLED with its Reed credits at their depth if an enable waits, with
the quotas written during the sequence in force (R286, R288, 06_movers.md R137). QUOTA_WRITE sets the selected partition's quota, which takes
effect at once; a drain then goes on exactly for a resource that exceeds its quota and either drained before, on its own timer, or is lowered by
the write, from now (R291 to R293); only L2T ways touch the L2T. For a partition being disabled the quota is held until the next enable (R286).
A drain's expiry reclaims, ends that drain and sets DRAIN_EXPIRED. No other partition's quota changes. -/
def Obligations.QuotasAndDrains : Prop :=
  (∀ (s : State) (p : Fn), s.atRest = true → (s.part p.toNat).disables = true → (s.part p.toNat).closing = .last →
    ∃ t, exec (.disableComplete p) s = .next t ∧
      t.part p.toNat = { (s.part p.toNat).withHeld with
        st := if (s.part p.toNat).st = .enablePending then .enabled else .disabled, closing := if s.inFlr p.toNat then .last else .none } ∧
      (∀ k, k ≠ p.toNat → t.part k = s.part k) ∧ t.out = s.out ++ s.ltrs t ∧
      ((s.part p.toNat).st = .enablePending → t.mov = { s.mov with partCredit := t.mov.partCredit } ∧
        ∀ b, b < 23 → t.partCredit p.toNat b =
          if s.macroLost 0x10 (partCreditKey (p.toNat * 23 + b)) then s.partCredit p.toNat b else reedDepth (s.partShare p.toNat b) b) ∧
      s.onlyChanges t (if (s.part p.toNat).st = .enablePending then [.prt, .mov] else [.prt])) ∧
  (∀ (s : State) (p : Fn), s.atRest = true → ((s.part p.toNat).disables = false ∨ (s.part p.toNat).closing ≠ .last) →
    exec (.disableComplete p) s = .next s) ∧
  (∀ (s : State) (q : Quota) (v : Word), s.hostOpen 0 = true → (s.part s.prt.psel.toNat).disables = true →
    ∃ t, exec (.quotaWrite q v) s = .next t ∧
      t.part s.prt.psel.toNat = { s.part s.prt.psel.toNat with held := (s.part s.prt.psel.toNat).held ++ [(q, v)] } ∧
      (∀ k, k ≠ s.prt.psel.toNat → t.part k = s.part k) ∧ t.out = s.out ∧ s.onlyChanges t [.prt]) ∧
  (∀ (s : State) (q : Quota) (v : Word), s.hostOpen 0 = true → (s.part s.prt.psel.toNat).disables = false →
    ∃ t, exec (.quotaWrite q v) s = .next t ∧
      { t.part s.prt.psel.toNat with drainAt := (s.part s.prt.psel.toNat).drainAt } =
        (let g := s.part s.prt.psel.toNat
         match q with
         | .chan => { g with qChan := field v 14 0 }
         | .engine => { g with qWalk := field v 13 8, qMov := field v 4 0 }
         | .l2t => { g with wayBase := field v 11 8, qWays := field v 4 0 }
         | .sync => { g with qSync := field v 16 0 }
         | .plan => { g with qRows := field v 41 32, qEntries := field v 16 0 }
         | .evt => { g with qEvt := field v 8 0 }) ∧
      (∀ k, k ≠ s.prt.psel.toNat → t.part k = s.part k) ∧
      (∀ d w, (d, w) ∈ t.draining s.prt.psel.toNat ↔ t.exceeds s.prt.psel.toNat d = true ∧
        ((d, w) ∈ s.draining s.prt.psel.toNat ∨
          (d ∈ quotaDrains q ∧ w = s.glb.time ∧ (s.part s.prt.psel.toNat).lowered (t.part s.prt.psel.toNat) d = true ∧
            ∀ w', (d, w') ∉ s.draining s.prt.psel.toNat))) ∧
      t.xlt = { s.xlt with l2t := t.xlt.l2t } ∧ (q ≠ .l2t → t.xlt = s.xlt) ∧ t.out = s.out ∧ s.onlyChanges t [.prt, .xlt]) ∧
  (∀ (s : State) (p : Fn) (d : Drained), s.atRest = true → (s.draining p.toNat).any (·.1 = d) = false →
    exec (.prtDrainExpired p d) s = .next s) ∧
  (∀ (s : State) (p : Fn) (d : Drained), s.on = true → s.wf = true → (s.draining p.toNat).any (·.1 = d) = true →
    ∃ t, exec (.prtDrainExpired p d) s = .next t ∧ (t.draining p.toNat).any (·.1 = d) = false ∧ bit (t.sticky pgPRT 0).bits 3 = true ∧
      (∀ k, (t.part k).st = (s.part k).st ∧ (t.part k).qChan = (s.part k).qChan ∧ (t.part k).qEvt = (s.part k).qEvt) ∧
      t.glb.time = s.glb.time ∧ t.pending = s.pending) ∧
  (∀ (s : State) (p : Fn), s.atRest = true → (s.draining p.toNat).any (·.1 = .targets) = true →
    ∃ t, exec (.prtDrainExpired p .targets) s = .next t ∧ (t.targetsOf p.toNat).length ≤ (s.part p.toNat).qEvt ∧
      (∀ k, k ∈ s.targetsOf p.toNat → k ∉ t.targetsOf p.toNat → (t.tgt k).stack = []) ∧ ∀ k, k ∉ s.targetsOf p.toNat → (t.tgt k).valid = (s.tgt k).valid)

/-- SOLO of an engine starts the other's withdrawal in SHARED mode and does nothing otherwise; SHARED takes a READY engine back, and sets its sticky
bit when the other is not READY (R300). TWN_CTL resets an engine that does not serve, refuses the last that does, and does nothing to one
already resetting; the reset's end leaves it READY, or FAILED (R301). An error on the twin port sets its sticky bit (R304). -/
def Obligations.TwinModesAndResets : Prop :=
  (∀ (s : State) (e : Engine), s.hostOpen 0 = true →
    ∃ t, exec (match e with | .A => .soloA | .B => .soloB) s = .next t ∧ t.out = s.out ∧ s.onlyChanges t [.twn] ∧
      t.twn = if s.twn.mode = .shared ∧ s.twn.withdrawing = none then { s.twn with withdrawing := some e.other } else s.twn) ∧
  (∀ s : State, s.hostOpen 0 = true → s.twn.mode = .soloA → s.twn.stB = .ready →
    ∃ t, exec .shared s = .next t ∧ t.twn = { s.twn with mode := .shared, stB := .serving } ∧ t.out = s.out ∧ s.onlyChanges t [.twn]) ∧
  (∀ s : State, s.hostOpen 0 = true → s.twn.mode = .soloB → s.twn.stA = .ready →
    ∃ t, exec .shared s = .next t ∧ t.twn = { s.twn with mode := .shared, stA := .serving } ∧ t.out = s.out ∧ s.onlyChanges t [.twn]) ∧
  (∀ s : State, s.hostOpen 0 = true → (s.twn.mode = .soloA ∧ s.twn.stB ≠ .ready ∨ s.twn.mode = .soloB ∧ s.twn.stA ≠ .ready) →
    ∃ t, exec .shared s = .next t ∧ s.onlyChanges t [] [(pgTWN, 0, 4)]) ∧
  (∀ s : State, s.hostOpen 0 = true → s.twn.mode = .shared → ∃ t, exec .shared s = .next t ∧ t.out = s.out ∧ s.onlyChanges t []) ∧
  (∀ (s : State) (e : Engine), s.hostOpen 0 = true → (s.engineSt e = .failed ∨ s.engineSt e = .ready) → s.twn.failover = .none →
    ∃ t, exec (match e with | .A => .resetA | .B => .resetB) s = .next t ∧ t.engineSt e = .resetting ∧
      t.engineSt e.other = s.engineSt e.other ∧ t.twn = { s.twn with stA := t.twn.stA, stB := t.twn.stB } ∧
      t.mov = { s.mov with job := s.mov.job.filter fun (x : Nat × Job) => !(moverEngine (x.1 / 2) = e && x.2.quiet) } ∧ t.out = s.out ∧
      s.onlyChanges t [.twn, .mov]) ∧
  (∀ (s : State) (e : Engine), s.hostOpen 0 = true → s.engineSt e = .serving → s.engineSt e.other ≠ .serving →
    ∃ t, exec (match e with | .A => .resetA | .B => .resetB) s = .next t ∧ s.onlyChanges t [] [(pgTWN, 0, 5)]) ∧
  (∀ (s : State) (e : Engine), s.hostOpen 0 = true → s.engineSt e = .resetting →
    ∃ t, exec (match e with | .A => .resetA | .B => .resetB) s = .next t ∧ t.out = s.out ∧ s.onlyChanges t []) ∧
  (∀ (s : State) (e : Engine) (ok : Bool), s.atRest = true → s.engineSt e = .resetting →
    ∃ t, exec (.engineReady e ok) s = .next t ∧ t.engineSt e = (if ok then .ready else .failed) ∧
      t.engineSt e.other = s.engineSt e.other ∧ t.twn = { s.twn with stA := t.twn.stA, stB := t.twn.stB } ∧ t.out = s.out ∧
      s.onlyChanges t [.twn]) ∧
  (∀ (s : State) (e : Engine) (ok : Bool), s.atRest = true → s.engineSt e ≠ .resetting → exec (.engineReady e ok) s = .next s) ∧
  (∀ (s : State) (e : Engine), s.atRest = true → ∃ t, exec (.twinPortError e) s = .next t ∧ s.onlyChanges t [] [(pgTWN, 0, 3)])

/-- A serving engine declared failed, or withdrawn, while the other serves and its walkers are idle, is FAILED, its partner serves alone and a
failover begins; with no partner serving HUB_FATAL is set, and no function is master-enabled any more (R296 to R298, R300). In the quiesce
the limit's expiry records the late channels; its end orphans the failed engine's channels, queued for adoption, or ends the failover when it has
none. CHANNEL_ADOPT gives the next channel to the survivor; the last one ends the failover (R298, R299). -/
def Obligations.FailureAndAdoption : Prop :=
  let still (s : State) : Prop := s.xlt.walk = [] ∧ s.xlt.missA = [] ∧ s.xlt.missB = []
  let begun (s t : State) (e : Engine) : Prop :=
    t.engineSt e = .failed ∧ t.engineSt e.other = s.engineSt e.other ∧ t.twn.mode = (match e with | .A => .soloB | .B => .soloA) ∧
      t.twn.withdrawing = none ∧ t.twn.failedEngine = e ∧ t.twn.failover = .quiesce ∧
      t.twn.lastFailover = (place e.num 63 ||| BitVec.ofNat 64 (field s.glb.time 62 0)) ∧ t.twn.halted = 0 ∧ t.twn.adopted = 0 ∧
      s.onlyChanges t [.twn] [(pgTWN, 0, 1 + e.num)]
  (∀ (s : State) (e : Engine), s.atRest = true → still s → s.engineSt e = .serving → s.engineSt e.other = .serving →
    ∃ t, exec (.failureDeclared e) s = .next t ∧ begun s t e) ∧
  (∀ (s : State) (e : Engine), s.atRest = true → still s → s.engineSt e = .serving → s.engineSt e.other = .serving →
    s.twn.withdrawing = some e → ∃ t, exec .engineWithdrawn s = .next t ∧ begun s t e) ∧
  (∀ s : State, s.atRest = true → s.twn.withdrawing = none → exec .engineWithdrawn s = .next s) ∧
  (∀ (s : State) (e : Engine), s.atRest = true → still s → s.mov.job = [] → s.engineSt e = .serving → s.engineSt e.other ≠ .serving →
    s.twn.failover = .none → s.glb.fatal = false →
    ∃ t, exec (.failureDeclared e) s = .next t ∧ t.glb.fatal = true ∧ t.engineSt e = .failed ∧ (∀ f, t.masterEnabled f = false) ∧
      s.onlyChanges t [.twn, .glb] [(pgTWN, 0, 1 + e.num), (pgGLB, 0, 4)]) ∧
  (∀ s : State, s.atRest = true → s.twn.failover = .quiesce →
    ∃ t, exec .quiesceLimitExpired s = .next t ∧ t.twn = { s.twn with late := s.writing s.twn.failedEngine } ∧ t.out = s.out ∧
      s.onlyChanges t [.twn]) ∧
  (∀ s : State, s.atRest = true → s.twn.failover ≠ .quiesce → exec .quiesceLimitExpired s = .next s ∧ exec .quiesceDone s = .next s) ∧
  (∀ s : State, s.atRest = true → s.twn.failover = .quiesce → s.twn.resetAfter = false → s.twn.touched = [] → s.mov.job = [] →
    s.cht.entry = [] → s.cht.due = [] → s.syn.rec_ = [] → s.syn.stalled = [] → s.xlt.invs = [] →
    ∃ t, exec .quiesceDone s = .next t ∧
      (∀ k, t.chan k = if (s.chan k).st ≠ .free ∧ (s.chan k).owner = s.twn.failedEngine then { s.chan k with orphan := true } else s.chan k) ∧
      (∀ k, k ∈ t.twn.queue ↔ (k ∈ s.twn.queue ∧ t.twn.failover = .none) ∨
        (t.twn.failover = .adopt ∧ (s.chan k).st ≠ .free ∧ (s.chan k).owner = s.twn.failedEngine)) ∧
      (t.twn.failover = .none ↔ ∀ k, (s.chan k).st = .free ∨ (s.chan k).owner ≠ s.twn.failedEngine) ∧
      (t.twn.failover = .none ∨ t.twn.failover = .adopt) ∧ s.onlyChanges t [.twn, .dbl]) ∧
  (∀ (s : State) (k : Nat) (rest : List Nat), s.atRest = true → s.twn.failover = .adopt → s.twn.queue = k :: rest → s.twn.late = [] →
    s.twn.touched = [] → s.twn.resetAfter = false → rest ≠ [] → (s.chan k).st = .parked → (s.chan k).cmds = [] → s.hlk.np = [] →
    s.xlt.lookups = [] → s.xlt.locks = [] → still s →
    ∃ t, exec .channelAdopt s = .next t ∧ (t.chan k).owner = s.twn.failedEngine.other ∧ (t.chan k).orphan = false ∧
      (t.chan k).st = .parked ∧ (t.chan k).f = (s.chan k).f ∧ (t.chan k).ta = (s.chan k).ta ∧ (∀ j, j ≠ k → t.chan j = s.chan j) ∧
      t.twn = { s.twn with queue := rest, adopted := s.twn.adopted + 1, touched := [((s.chan k).part, 1)] } ∧
      s.onlyChanges t [.twn, .dbl])

/-! ## Channels -/

/-- A submission of a descriptor joins the function's queue, or is lost with its sticky bit when 64 wait (R29); with none before it in hand, its
translation is asked for in the management ASID, or while the function is not master-enabled it is dropped with MGMT_FAULT. A descriptor whose
read failed is dropped so. Once read, an undefined OP, a handle that names no slot and an operation that the slot's state forbids are answered
with their REASON and STATUS (R30, R36 to R38), and change no channel: the translation of the RESULT word is asked for. The RESULT write, once
observed, ends the descriptor, raising MGMT_DONE when EVENT asks for it, and the next descriptor is taken in hand; the CLASS and PRIORITY of a
MODIFY hold from then on (R36). -/
def Obligations.ManagementQueue : Prop :=
  let req (_ : State) (fn : Fn) (a : Word) (asid : Nat) (step : Nat) : XReq :=
    { who := .mgmt fn.toNat step, part := fn.toNat, asid := asid, access := if step = 0 then 0 else 1, va := a }
  let inHand (s : State) (fn : Fn) : Prop := s.atRest = true ∧ (s.mgmt fn.toNat).await = some 2 ∧ s.masterEnabled fn.toNat = true
  let became (s t : State) (fn : Fn) (m : Mgmt) : Prop :=
    t.mgmt fn.toNat = m ∧ (∀ g, g ≠ fn.toNat → t.mgmt g = s.mgmt g) ∧ t.dbl = { s.dbl with mgmt := t.dbl.mgmt }
  let asks (s t : State) (r : XReq) : Prop := t.xlt = { s.xlt with lookups := s.xlt.lookups ++ [r] } ∧ t.out = s.out ∧ s.onlyChanges t [.dbl, .xlt]
  let answered (s t : State) (fn : Fn) (ev : Bool) (w : Word) : Prop :=
    became s t fn { s.mgmt fn.toNat with busy := some ev, owes := false, word := w, await := some 3 } ∧
      asks s t (req s fn ((s.mgmt fn.toNat).addr + 0x38) (s.mgmt fn.toNat).handAsid 2)
  (∀ (s : State) (fn : Fn) (v : Word), s.viewOpen fn.toNat = true →
    let m := s.mgmt fn.toNat
    let a := v &&& 0xFFFFFFFFFFFFFFC0
    (64 ≤ m.queue.length → ∃ t, exec (.mgmtSubmit fn v) s = .next t ∧ s.onlyChanges t [] [(pgDBL, fn.toNat, 7)]) ∧
    (m.queue.length < 64 → (m.busy.isSome || m.owes || m.await.isSome) = true →
      ∃ t, exec (.mgmtSubmit fn v) s = .next t ∧ became s t fn { m with queue := m.queue ++ [a] } ∧ t.out = s.out ∧ s.onlyChanges t [.dbl]) ∧
    (m.queue = [] → (m.busy.isSome || m.owes || m.await.isSome) = false → s.masterEnabled fn.toNat = true →
      ∃ t, exec (.mgmtSubmit fn v) s = .next t ∧ became s t fn { m with addr := a, handAsid := m.asid, await := some 0 } ∧
        asks s t (req s fn a m.asid 0)) ∧
    (m.queue = [] → (m.busy.isSome || m.owes || m.await.isSome) = false → s.masterEnabled fn.toNat = false →
      ∃ t, exec (.mgmtSubmit fn v) s = .next t ∧ became s t fn { m with addr := a, handAsid := m.asid } ∧
        s.onlyChanges t [.dbl] [(pgDBL, fn.toNat, 8)])) ∧
  (∀ (s : State) (fn : Fn) (code : Code) (g : Granule), inHand s fn → code ≠ 0 → (s.mgmt fn.toNat).queue = [] →
    (s.mgmt fn.toNat).modify = none → ∀ i : Instr, i ∈ ([.create fn, .destroy fn, .reset fn, .kill fn, .modify fn, .badOp fn] : List Instr) →
      ∃ t, exec i (s.withAnswer (.mgmtRead fn.toNat) code g) = .next t ∧
        became s t fn { s.mgmt fn.toNat with busy := none, owes := false, await := none } ∧ s.onlyChanges t [.dbl] [(pgDBL, fn.toNat, 8)]) ∧
  (∀ (s : State) (fn : Fn) (g : Granule), inHand s fn → let d := descOf g
    (field d.w00 7 0 < 1 ∨ 5 < field d.w00 7 0) →
    ∃ t, exec (.badOp fn) (s.withAnswer (.mgmtRead fn.toNat) 0 g) = .next t ∧
      answered s t fn (bit d.w00 11) (resultWord false 5 0 (d.w08.setWidth 32))) ∧
  (∀ (s : State) (fn : Fn) (g : Granule) (i : Instr), inHand s fn → let d := descOf g
    ((i = .destroy fn ∧ field d.w00 7 0 = 2) ∨ (i = .reset fn ∧ field d.w00 7 0 = 3) ∨ (i = .kill fn ∧ field d.w00 7 0 = 4) ∨
      (i = .modify fn ∧ field d.w00 7 0 = 5 ∧ (s.part fn.toNat).st = .enabled)) →
    (s.mgmtChan fn.toNat (d.w08.setWidth 32) = none →
      ∃ t, exec i (s.withAnswer (.mgmtRead fn.toNat) 0 g) = .next t ∧
        answered s t fn (bit d.w00 11) (resultWord false 1 0x0A (d.w08.setWidth 32))) ∧
    ∀ k, s.mgmtChan fn.toNat (d.w08.setWidth 32) = some k →
      ((s.chan k).st = .retiring ∨ (s.chan k).st = .free ∨ ((s.chan k).st = .creating ∧ i ≠ .modify fn) ∨
        ((s.chan k).st = .killed ∧ i ≠ .destroy fn)) →
      ∃ t, exec i (s.withAnswer (.mgmtRead fn.toNat) 0 g) = .next t ∧
        answered s t fn (bit d.w00 11) (resultWord false 4 0 (d.w08.setWidth 32))) ∧
  (∀ (s : State) (fn : Fn) (g : Granule) (k : Nat) (gen : Byte) (urgent : Bool) (prio : BitVec 3), s.atRest = true → (s.mgmt fn.toNat).await = some 4 →
    s.masterEnabled fn.toNat = true → (s.mgmt fn.toNat).queue = [] → (s.mgmt fn.toNat).modify = some (k, gen, urgent, prio) →
    ∃ t, exec (.mgmtResultObserved fn) (s.withAnswer (.mgmtResult fn.toNat) 0 g) = .next t ∧
      t.mgmt fn.toNat = { s.mgmt fn.toNat with busy := none, await := none, modify := none } ∧ (∀ f, f ≠ fn.toNat → t.mgmt f = s.mgmt f) ∧
      t.chan k = (if (s.chan k).gen = gen ∧ (s.chan k).st ≠ .free then { s.chan k with urgent := urgent, prio := prio } else s.chan k) ∧
      (∀ j, j ≠ k → t.chan j = s.chan j) ∧ s.onlyChanges t [.dbl]) ∧
  (∀ (s : State) (fn : Fn) (g : Granule), s.atRest = true → (s.mgmt fn.toNat).await = some 4 → s.masterEnabled fn.toNat = true →
    (s.mgmt fn.toNat).modify = none →
    let m := { s.mgmt fn.toNat with busy := none, await := none }
    ((s.mgmt fn.toNat).queue = [] →
      ∃ t, exec (.mgmtResultObserved fn) (s.withAnswer (.mgmtResult fn.toNat) 0 g) = .next t ∧ became s t fn m ∧ s.onlyChanges t [.dbl] ∧
        ((s.mgmt fn.toNat).busy = some true → (s.src (0x600 + fn.toNat)).en = true → (t.src (0x600 + fn.toNat)).pending = true)) ∧
    (∀ a rest, (s.mgmt fn.toNat).queue = a :: rest → (s.mgmt fn.toNat).owes = false → (s.mgmt fn.toNat).busy ≠ some true →
      ∃ t, exec (.mgmtResultObserved fn) (s.withAnswer (.mgmtResult fn.toNat) 0 g) = .next t ∧
        became s t fn { m with queue := rest, addr := a, handAsid := m.asid, await := some 0 } ∧ asks s t (req s fn a m.asid 0)) ∧
    ∀ code : Code, code ≠ 0 → (s.mgmt fn.toNat).queue = [] →
      ∃ t, exec (.mgmtResultObserved fn) (s.withAnswer (.mgmtResult fn.toNat) code g) = .next t ∧ became s t fn { m with owes := false } ∧
        s.onlyChanges t [.dbl] [(pgDBL, fn.toNat, 8)]) ∧
  (∀ (s : State) (fn : Fn), s.atRest = true → exec (.mgmtResultObserved fn) s = .next s)

/-- CREATE judges the partition, the ring and the quota in that order, and otherwise makes the chosen FREE slot a channel in CREATING with the
descriptor's ring, ASID, class and priority and the next generation, its counts zero (R31 to R34); its context goes to the cache and the hub
store. Once written, the channel is PARKED and its RESULT holds its handle; if the write failed the slot is FREE again with its new
generation. A context that a channel waits for is loaded from its blocks, as the slots give them, and its fetch goes on while its engine serves; when
both copies of its first 256 bytes fail, or failed before, the channel halts with 0xC1 (R28, 18_stored_data_protection.md R377, R378, R382). The load
waits for a block that a rebuild is at and for a bank that is being copied (18_stored_data_protection.md R374, R381). A context that leaves the
cache for another's sake may leave its channel waiting for it. Which blocks hold the second copy is the model's opaque constant (log entry 139). -/
def Obligations.ChannelsAreMade : Prop :=
  let made (fn : Fn) (d : Desc) : Nat := if fn = 0 then field d.w00 21 16 else fn.toNat
  let hand (s : State) (fn : Fn) (d : Desc) : Prop :=
    s.atRest = true ∧ (s.mgmt fn.toNat).await = some 2 ∧ s.masterEnabled fn.toNat = true ∧ field d.w00 7 0 = 1
  let owes (m : Mgmt) (ev : Bool) (w : Word) : Mgmt := { m with busy := some ev, owes := false, word := w, await := some 3 }
  let req (s : State) (fn : Nat) : XReq :=
    { who := .mgmt fn 2, part := fn, asid := (s.mgmt fn).handAsid, access := 1, va := (s.mgmt fn).addr + 0x38 }
  let fails (s : State) (fn : Fn) (g : Granule) (reason : Nat) (status : Code) : Prop :=
    ∃ t, exec (.create fn) (s.withAnswer (.mgmtRead fn.toNat) 0 g) = .next t ∧
      t.mgmt fn.toNat = owes (s.mgmt fn.toNat) (bit (descOf g).w00 11) (resultWord false reason status 0) ∧
      (∀ f, f ≠ fn.toNat → t.mgmt f = s.mgmt f) ∧ t.dbl = { s.dbl with mgmt := t.dbl.mgmt } ∧
      t.xlt = { s.xlt with lookups := s.xlt.lookups ++ [req s fn.toNat] } ∧ t.out = s.out ∧ s.onlyChanges t [.dbl, .xlt]
  let ringOk (d : Desc) : Prop :=
    6 ≤ field d.w18 4 0 ∧ field d.w18 4 0 ≤ 16 ∧ d.ringBase.toNat % (64 * 2 ^ field d.w18 4 0) = 0
  let others (s t : State) (k : Nat) : Prop :=
    ∀ j, j ≠ k → { t.chan j with cached := (s.chan j).cached, loadWait := (s.chan j).loadWait } = s.chan j
  let waits (s : State) (k : Slot) : Prop :=
    s.bankCopies 0x0A (Config.ctxBank k.toNat) = true ∨ ∃ i, i < 16 ∧ s.atRebuild (Config.contextBlock k.toNat + i) = true
  let good (s : State) (k : Slot) (ps : List Pieces) : Prop :=
    (s.copyGood (Config.contextBlock k.toNat) ps 0 || s.copyGood (Config.contextBlock k.toNat) ps (4 * (1 + Config.ctxCopy % 3))) = true
  let clean (s : State) (k : Slot) (ps : List Pieces) : Prop :=
    ∀ i, i < 16 → s.ras.valid.contains (Config.contextBlock k.toNat + i) = true →
      s.storeOutcome (Config.contextBlock k.toNat + i) (ps.getD i {}) = .clean
  (∀ (s : State) (fn : Fn) (g : Granule), let d := descOf g
    hand s fn d →
    ((s.part (made fn d)).st ≠ .enabled → fails s fn g 6 0) ∧
    ((s.part (made fn d)).st = .enabled →
      ((field d.w18 4 0 < 6 ∨ 16 < field d.w18 4 0) → fails s fn g 1 0x05) ∧
      (6 ≤ field d.w18 4 0 → field d.w18 4 0 ≤ 16 → d.ringBase.toNat % (64 * 2 ^ field d.w18 4 0) ≠ 0 → fails s fn g 1 0x03) ∧
      (ringOk d → (s.part (made fn d)).qChan ≤ s.chanCount (made fn d) → fails s fn g 2 0))) ∧
  (∀ (s : State) (fn : Fn) (g : Granule) (k : Nat), let d := descOf g
    hand s fn d → (s.part (made fn d)).st = .enabled → ringOk d → s.chanCount (made fn d) < (s.part (made fn d)).qChan →
    s.chooseSlot (made fn d) d = some k →
    ∃ t, exec (.create fn) (s.withAnswer (.mgmtRead fn.toNat) 0 g) = .next t ∧
      { t.chan k with cached := false, used := 0 } =
        { gen := nextGen (s.chan k).gen, st := .creating, part := made fn d, ringBase := d.ringBase, ringLog2 := field d.w18 4 0
          owner := (match s.twn.mode with | .shared => if k % 2 = 0 then .A else .B | .soloA => .A | .soloB => .B)
          asid := field d.w18 27 8, urgent := bit d.w18 32, prio := d.w18.extractLsb' 36 3, nextNum := (s.chan k).nextNum
          fetchNo := (s.chan k).fetchNo
          owed := some { fn := fn.toNat, event := bit d.w00 11
                         handle := chanHandle (nextGen (s.chan k).gen) (made fn d) k }
          born := s.dbl.born + 1 } ∧
      (s.canPlace = true → (t.chan k).cached = true) ∧ others s t k ∧
      t.mgmt fn.toNat = { s.mgmt fn.toNat with await := none, owes := true } ∧
      (∀ f, f ≠ fn.toNat → t.mgmt f = s.mgmt f) ∧
      (∀ b, Config.contextBlock k ≤ b → b < Config.contextBlock k + 16 →
        (.hubStore true b) ∈ t.out ∨ (s.ras.rebuild.isSome = true ∧ ∃ e ∈ t.ras.held, e.1 = b)) ∧
      t.ras = { s.ras with valid := t.ras.valid, held := t.ras.held } ∧ s.onlyChanges t [.dbl, .ras, .glb]) ∧
  (∀ (s : State) (k : Slot) (ok : Bool) (o : Owed), s.atRest = true → (s.chan k.toNat).st = .creating → (s.chan k.toNat).owed = some o →
    s.masterEnabled o.fn = true →
    ∃ t, exec (.contextWritten k ok) s = .next t ∧
      t.chan k.toNat = (if ok then { s.chan k.toNat with st := .parked, code := 0, owed := none }
        else { gen := (s.chan k.toNat).gen, nextNum := (s.chan k.toNat).nextNum, fetchNo := (s.chan k.toNat).fetchNo }) ∧
      (∀ j, j ≠ k.toNat → t.chan j = s.chan j) ∧
      t.mgmt o.fn = owes (s.mgmt o.fn) o.event (if ok then resultWord true 0 0 o.handle else resultWord false 1 0xC1 0) ∧
      (∀ f, f ≠ o.fn → t.mgmt f = s.mgmt f) ∧ t.xlt = { s.xlt with lookups := s.xlt.lookups ++ [req s o.fn] } ∧ t.out = s.out ∧
      s.onlyChanges t [.dbl, .xlt]) ∧
  (∀ (s : State) (k : Slot) (ok : Bool), s.atRest = true → (s.chan k.toNat).st ≠ .creating → exec (.contextWritten k ok) s = .next s) ∧
  (∀ (s : State) (k : Slot) (ps : List Pieces), s.atRest = true → ((s.chan k.toNat).loadWait = false ∨ s.canPlace = false ∨ waits s k) →
    exec (.contextLoad k ps) s = .next s) ∧
  (∀ (s : State) (k : Slot) (ps : List Pieces), s.atRest = true → (s.chan k.toNat).loadWait = true → s.canPlace = true → ¬ waits s k →
    (s.chan k.toNat).ctxLost = false → good s k ps →
    (s.chan k.toNat).st = .active → (s.chan k.toNat).avail ≠ 0 → (s.chan k.toNat).want = [] → (s.chan k.toNat).reads = [] →
    (s.chan k.toNat).hand = [] → (s.chan k.toNat).stale = none → (s.chan k.toNat).cached = false →
    s.masterEnabled (s.chan k.toNat).part = true →
    ∃ t, exec (.contextLoad k ps) s = .next t ∧
      t.chan k.toNat = { s.chan k.toNat with
        cached := true, loadWait := false, used := s.dbl.clock + 1
        want := if s.served k.toNat then (List.range (min 16 (s.chan k.toNat).avail)).map fun i => (s.chan k.toNat).f + BitVec.ofNat 32 i else [] } ∧
      (∀ p ∈ (t.chan k.toNat).want, (s.chan k.toNat).ringReq k.toNat p ∈ t.xlt.lookups) ∧
      (∀ i, i < 16 → s.ras.valid.contains (Config.contextBlock k.toNat + i) = true → (.hubStore false (Config.contextBlock k.toNat + i)) ∈ t.out) ∧
      others s t k.toNat ∧ t.dbl.mgmt = s.dbl.mgmt ∧
      (clean s k ps →
        t.xlt = { s.xlt with lookups := s.xlt.lookups ++ (t.chan k.toNat).want.map ((s.chan k.toNat).ringReq k.toNat) } ∧
        t.ras = { s.ras with valid := t.ras.valid, held := t.ras.held, run := t.ras.run } ∧ s.onlyChanges t [.dbl, .xlt, .ras, .glb])) ∧
  (∀ (s : State) (k : Slot) (ps : List Pieces), s.atRest = true → (s.chan k.toNat).loadWait = true → s.canPlace = true → ¬ waits s k →
    (s.chan k.toNat).st = .active → (¬ good s k ps ∨ (s.chan k.toNat).ctxLost = true) →
    ∃ t, exec (.contextLoad k ps) s = .next t ∧ (t.chan k.toNat).st = .error ∧ (t.chan k.toNat).code = 0xC1 ∧
      (t.chan k.toNat).ctxLost = true ∧ (t.chan k.toNat).loadWait = false ∧ (∀ j, j ≠ k.toNat → t.chan j = s.chan j) ∧
      t.dbl.mgmt = s.dbl.mgmt ∧ bit (t.sticky pgCTX (s.chan k.toNat).part).bits 1 = true ∧
      (clean s k ps → s.onlyChanges t [.dbl, .xlt, .ras] ((pgCTX, (s.chan k.toNat).part, 1) ::
        if (s.chan k.toNat).cmds.any ((s.chan k.toNat).isLate s.glb.time) then [(pgDBL, (s.chan k.toNat).part, 6)] else [])))

/-- Of a channel that owns no object and no plan entry, of whose posted writes no invalidation waits for any, and to which no trigger came in this
hub cycle: KILL ends its work and leaves it KILLED
with code 0; RESET ends its work and leaves it PARKED with its tail at F and DB_FAULT clear; DESTROY discards what is not dispatched and leaves it
RETIRING, owing its RESULT; MODIFY is answered as done and keeps its class and priority for when its RESULT is written (R36 to R41;
ManagementQueue says what happens then). In the hub cycle of a move to HALTED or ERROR, RESET changes nothing (R42).
A RETIRING channel with nothing in flight, or whose limit expires, becomes FREE with its generation, and what it owes is answered. No other
channel changes. That RESET clears DB_FAULT is the model's choice (log entry 110), and that it is answered as done where it loses (log entry
103). -/
def Obligations.ChannelsEnd : Prop :=
  let acts (s : State) (fn : Fn) (d : Desc) (k : Nat) : Prop :=
    s.atRest = true ∧ (s.mgmt fn.toNat).await = some 2 ∧ s.masterEnabled fn.toNat = true ∧ s.mgmtChan fn.toNat (d.w08.setWidth 32) = some k
  let owns (s : State) (k : Nat) : Prop :=
    (∃ i, (s.obj i).st = .live ∧ (s.obj i).owner = s.handleOf k) ∨ ∃ i, (s.entry i).owner = s.handleOf k
  let calm (s : State) (c : Chan) : Prop := c.moved ≠ some s.glb.time ∧ ∀ x, c.rang = some x → x.1 ≠ s.glb.time
  let free (s : State) (k : Nat) : Prop := s.xlt.invs = [] ∨ ∀ e ∈ s.mov.job, ∀ n, e.2.work = some (.chan k n) → e.2.posts = []
  let others (s t : State) (fn k : Nat) : Prop :=
    (∀ j, j ≠ k → t.chan j = s.chan j) ∧ (∀ f, f ≠ fn → t.mgmt f = s.mgmt f) ∧ t.out = s.out ∧ s.onlyChanges t [.dbl, .syn, .xlt, .mov]
  let req (s : State) (fn : Nat) : XReq :=
    { who := .mgmt fn 2, part := fn, asid := (s.mgmt fn).handAsid, access := 1, va := (s.mgmt fn).addr + 0x38 }
  let ok (s t : State) (fn : Fn) (d : Desc) : Prop :=
    t.mgmt fn.toNat = { s.mgmt fn.toNat with
      busy := some (bit d.w00 11), owes := false, word := resultWord true 0 0 (d.w08.setWidth 32), await := some 3 } ∧
      req s fn.toNat ∈ t.xlt.lookups
  let idle (c : Chan) : Prop :=
    (∀ x ∈ c.cmds, x.st = .ended) ∧ c.hand = [] ∧ c.want = [] ∧ c.reads = [] ∧ c.stale = none ∧ c.resumeHeld = false
  (∀ (s : State) (fn : Fn) (g : Granule) (k : Nat), let d := descOf g
    acts s fn d k → field d.w00 7 0 = 4 → (s.chan k).live = true → ¬ owns s k → free s k → calm s (s.chan k) →
    ∃ t, exec (.kill fn) (s.withAnswer (.mgmtRead fn.toNat) 0 g) = .next t ∧ (t.chan k).st = .killed ∧ (t.chan k).code = 0 ∧
      idle (t.chan k) ∧ (t.chan k).f = (s.chan k).f ∧ (t.chan k).ta = (s.chan k).ta ∧ (t.chan k).gen = (s.chan k).gen ∧
      (t.chan k).faultSeq = (s.chan k).faultSeq ∧ ok s t fn d ∧ others s t fn.toNat k) ∧
  (∀ (s : State) (fn : Fn) (g : Granule) (k : Nat), let d := descOf g
    acts s fn d k → field d.w00 7 0 = 3 → (s.chan k).live = true → ¬ owns s k → free s k →
    (calm s (s.chan k) →
      ∃ t, exec (.reset fn) (s.withAnswer (.mgmtRead fn.toNat) 0 g) = .next t ∧ (t.chan k).st = .parked ∧ (t.chan k).code = 0 ∧
        (t.chan k).faultSeq = 0 ∧ (t.chan k).faultInline = false ∧ idle (t.chan k) ∧ (t.chan k).f = (s.chan k).f ∧
        (t.chan k).ta = BitVec.ofNat 17 ((s.chan k).f.toNat % (2 * (s.chan k).size)) ∧ (t.chan k).gen = (s.chan k).gen ∧
        ok s t fn d ∧ others s t fn.toNat k) ∧
    ((s.chan k).moved = some s.glb.time → ((s.chan k).st = .halted ∨ (s.chan k).st = .error) →
      ∃ t, exec (.reset fn) (s.withAnswer (.mgmtRead fn.toNat) 0 g) = .next t ∧ t.chan k = s.chan k ∧ ok s t fn d ∧ others s t fn.toNat k)) ∧
  (∀ (s : State) (fn : Fn) (g : Granule) (k : Nat), let d := descOf g
    acts s fn d k → field d.w00 7 0 = 2 → ((s.chan k).live = true ∨ (s.chan k).st = .killed) → ¬ owns s k → calm s (s.chan k) →
    ∃ t, exec (.destroy fn) (s.withAnswer (.mgmtRead fn.toNat) 0 g) = .next t ∧ (t.chan k).st = .retiring ∧
      (t.chan k).owed = some { fn := fn.toNat, event := bit d.w00 11, handle := d.w08.setWidth 32 } ∧
      (t.chan k).cmds = (s.chan k).cmds.filter (fun x => !(x.st = .waiting || (x.st = .dispatched && x.op = 0x0A))) ∧
      (t.chan k).gen = (s.chan k).gen ∧ (t.chan k).code = (s.chan k).code ∧
      t.mgmt fn.toNat = { s.mgmt fn.toNat with await := none, owes := true } ∧ others s t fn.toNat k) ∧
  (∀ (s : State) (fn : Fn) (g : Granule) (k : Nat), let d := descOf g
    acts s fn d k → field d.w00 7 0 = 5 → (s.part fn.toNat).st = .enabled → ((s.chan k).live = true ∨ (s.chan k).st = .creating) →
    ∃ t, exec (.modify fn) (s.withAnswer (.mgmtRead fn.toNat) 0 g) = .next t ∧
      t.mgmt fn.toNat = { s.mgmt fn.toNat with
        busy := some (bit d.w00 11), owes := false, word := resultWord true 0 0 (d.w08.setWidth 32), await := some 3
        modify := some (k, (s.chan k).gen, bit d.w18 32, d.w18.extractLsb' 36 3) } ∧
      t.chan k = s.chan k ∧ others s t fn.toNat k ∧ t.xlt = { s.xlt with lookups := s.xlt.lookups ++ [req s fn.toNat] } ∧ s.onlyChanges t [.dbl, .xlt]) ∧
  (∀ (s : State) (k : Slot) (i : Instr), s.atRest = true → (s.chan k.toNat).st = .retiring →
    (i = .retireLimitExpired k ∨ (i = .retireDrained k ∧ (s.chan k.toNat).inflight = 0)) → free s k.toNat →
    (∀ o, (s.chan k.toNat).owed = some o → (s.mgmt o.fn).modify = none) →
    ∃ t, exec i s = .next t ∧
      t.chan k.toNat = { gen := (s.chan k.toNat).gen, nextNum := (s.chan k.toNat).nextNum, fetchNo := (s.chan k.toNat).fetchNo + 2 } ∧
      (∀ j, j ≠ k.toNat → t.chan j = s.chan j) ∧ s.onlyChanges t [.dbl, .syn, .xlt, .mov]
        (match (s.chan k.toNat).owed with
          | some o => if s.masterEnabled o.fn then [] else [(pgDBL, o.fn, 8)]
          | none => []) ∧
      match (s.chan k.toNat).owed with
      | none => t.dbl.mgmt = s.dbl.mgmt ∧ t.out = s.out
      | some o => s.masterEnabled o.fn = true →
          t.mgmt o.fn = { s.mgmt o.fn with busy := some o.event, owes := false, word := resultWord true 0 0 o.handle, await := some 3 } ∧
          (∀ f, f ≠ o.fn → t.mgmt f = s.mgmt f) ∧ req s o.fn ∈ t.xlt.lookups ∧ t.out = s.out) ∧
  (∀ (s : State) (k : Slot), s.atRest = true → (s.chan k.toNat).st = .retiring → (s.chan k.toNat).inflight ≠ 0 →
    exec (.retireDrained k) s = .next s) ∧
  (∀ (s : State) (k : Slot), s.atRest = true → (s.chan k.toNat).st ≠ .retiring →
    exec (.retireDrained k) s = .next s ∧ exec (.retireLimitExpired k) s = .next s)

/-- A doorbell write to a FREE or dead slot, another function's or with a stale generation sets the function's sticky bit and does nothing else (R45 to R47), as does a
tail out of range. A tail ahead of the announced one is taken; a PARKED channel becomes ACTIVE, and the fetch asks for up to 16 slots ahead (R44), or
waits for a context that is not in the cache (R28), for a bank of the cache that is being copied (18_stored_data_protection.md R374), or for an
engine that serves (13_partitions_and_twin_engines.md R296). HALT
halts and drops the fetch; STOP also discards the commands not dispatched and ends the rest, and withdraws waits (R40); RESUME is held until nothing
is in flight, then parks, or goes on if slots are announced (R39); in the hub cycle in which the channel halted it loses, and an inline command
accepted in the cycle of a HALT or STOP is refused, with 0x05 (R42, R49). No other channel
changes. -/
def Obligations.DoorbellsRing : Prop :=
  let page (s : State) (fn : Fn) (k : Slot) (gen : Byte) : Prop :=
    s.viewOpen fn.toNat = true ∧ s.glb.fatal = false ∧ (s.chan k.toNat).st ≠ .free ∧ (s.chan k.toNat).part = fn.toNat ∧
      gen = (s.chan k.toNat).gen
  let rings (fn : Fn) (k : Slot) (v : Word) : List Instr :=
    [.dbTail fn k v, .halt fn k (v.extractLsb' 24 8), .stop fn k (v.extractLsb' 24 8), .resume fn k (v.extractLsb' 24 8)]
  let others (s t : State) (k : Slot) : Prop := (∀ j, j ≠ k.toNat → t.chan j = s.chan j) ∧ t.dbl.mgmt = s.dbl.mgmt ∧ t.out = s.out
  let runs (s : State) (k : Slot) : Bool := !s.bankCopies 0x0A (Config.ctxBank k.toNat) && s.served k.toNat
  let ahead (s : State) (k : Slot) (n : Nat) : List (BitVec 32) :=
    if runs s k then (List.range (min 16 n)).map fun i => (s.chan k.toNat).f + BitVec.ofNat 32 i else []
  let late (s : State) (k : Slot) : Bool := (s.chan k.toNat).cmds.any ((s.chan k.toNat).isLate s.glb.time)
  let free (s : State) (k : Slot) : Prop := s.xlt.invs = [] ∨ ∀ e ∈ s.mov.job, ∀ n, e.2.work = some (.chan k.toNat n) → e.2.posts = []
  (∀ (s : State) (fn : Fn) (k : Slot) (v : Word) (i : Instr), s.viewOpen fn.toNat = true → i ∈ rings fn k v →
    let c := s.chan k.toNat
    ((c.st = .free ∨ s.glb.fatal = true) → ∃ t, exec i s = .next t ∧ s.onlyChanges t [] [(pgDBL, fn.toNat, 4)]) ∧
    (c.st ≠ .free → s.glb.fatal = false →
      (c.part ≠ fn.toNat → ∃ t, exec i s = .next t ∧ s.onlyChanges t [] [(pgDBL, fn.toNat, 1)]) ∧
      (c.part = fn.toNat →
        (v.extractLsb' 24 8 ≠ c.gen → ∃ t, exec i s = .next t ∧ s.onlyChanges t [] [(pgDBL, fn.toNat, 2)]) ∧
        (v.extractLsb' 24 8 = c.gen → c.live = false → ∃ t, exec i s = .next t ∧ s.onlyChanges t [] [(pgDBL, fn.toNat, 4)])))) ∧
  (∀ (s : State) (fn : Fn) (k : Slot) (v : Word), page s fn k (v.extractLsb' 24 8) → (s.chan k.toNat).live = true →
    let c := s.chan k.toNat
    let x := field v 16 0
    ((2 * c.size ≤ x ∨ c.size < c.dist x) → ∃ t, exec (.dbTail fn k v) s = .next t ∧ s.onlyChanges t [] [(pgDBL, fn.toNat, 3)]) ∧
    (x < 2 * c.size → c.dist x ≤ c.size →
      (c.dist x ≤ c.avail → (c.st ≠ .parked ∨ c.code ≠ 0x08) → ∃ t, exec (.dbTail fn k v) s = .next t ∧ t.out = s.out ∧ s.onlyChanges t []) ∧
      (c.avail < c.dist x → (c.st = .halted ∨ c.st = .error) →
        ∃ t, exec (.dbTail fn k v) s = .next t ∧ t.chan k.toNat = { (c.rung s.glb.time) with ta := BitVec.ofNat 17 x } ∧ others s t k ∧
          s.onlyChanges t [.dbl]) ∧
      (c.avail < c.dist x ∨ (c.st = .parked ∧ c.code = 0x08 ∧ c.dist x = c.avail ∧ c.avail ≠ 0) → (c.st = .active ∨ c.st = .parked) →
        c.cached = true → c.hand = [] → c.stale = none → s.masterEnabled fn.toNat = true →
        ∃ t, exec (.dbTail fn k v) s = .next t ∧
          (let more := (ahead s k (c.dist x)).filter fun p => !c.want.contains p && !c.reads.contains p
           let c0 := if c.avail < c.dist x then { (c.rung s.glb.time) with ta := BitVec.ofNat 17 x } else c
           let c1 := if c.st = .parked then { c0 with st := .active, code := 0, stopped := false } else c0
           t.chan k.toNat = { c1 with used := s.dbl.clock + 1, want := c.want ++ more } ∧
           t.xlt = { s.xlt with lookups := s.xlt.lookups ++ more.map (c.ringReq k.toNat) }) ∧
          others s t k ∧ s.onlyChanges t [.dbl, .xlt]) ∧
      (c.avail < c.dist x → (c.st = .active ∨ c.st = .parked) → c.cached = false → s.canPlace = true →
        ∃ t, exec (.dbTail fn k v) s = .next t ∧
          (let c1 := if c.st = .parked then { c with st := .active, code := 0, stopped := false } else c
           t.chan k.toNat = { (c1.rung s.glb.time) with ta := BitVec.ofNat 17 x, used := s.dbl.clock + 1, loadWait := true }) ∧
          others s t k ∧ s.onlyChanges t [.dbl]))) ∧
  (∀ (s : State) (fn : Fn) (k : Slot) (gen : Byte), page s fn k gen → ((s.chan k.toNat).st = .active ∨ (s.chan k.toNat).st = .parked) →
    (late s k = false → ∃ t, exec (.halt fn k gen) s = .next t ∧
      t.chan k.toNat = { ((s.chan k.toNat).dropFetch.movedAt s.glb.time) with
        st := .halted, stopped := false, code := (s.chan k.toNat).codeAt s.glb.time } ∧
      t.xlt.lookups = s.xlt.lookups.filter (fun r => !Who.isRing k.toNat r.who) ∧ others s t k ∧ s.onlyChanges t [.dbl, .xlt]) ∧
    (late s k = false → free s k → ∃ t, exec (.stop fn k gen) s = .next t ∧ (t.chan k.toNat).st = .halted ∧ (t.chan k.toNat).stopped = true ∧
      (∀ x ∈ (t.chan k.toNat).cmds, x.st = .ended) ∧ (t.chan k.toNat).hand = [] ∧ (t.chan k.toNat).want = [] ∧
      (t.chan k.toNat).reads = [] ∧ (t.chan k.toNat).ta = (s.chan k.toNat).ta ∧ (t.chan k.toNat).code = (s.chan k.toNat).codeAt s.glb.time ∧
      (∀ r w, t.wrec r = some w → Waiter.isChan k.toNat w.who = false) ∧
      (∀ r ∈ t.xlt.lookups, Who.isRing k.toNat r.who = false) ∧ others s t k ∧ s.onlyChanges t [.dbl, .syn, .xlt, .mov]) ∧
    (late s k = true → free s k → ∀ i ∈ ([.halt fn k gen, .stop fn k gen] : List Instr), ∃ t, exec i s = .next t ∧ (t.chan k.toNat).st = .error ∧
      (t.chan k.toNat).code = 0x05 ∧ (t.chan k.toNat).faultSeq = 0 ∧ (t.chan k.toNat).faultInline = true ∧
      (∀ x ∈ (t.chan k.toNat).cmds, (s.chan k.toNat).isLate s.glb.time x = false) ∧ others s t k ∧
      s.onlyChanges t [.dbl, .syn, .xlt, .mov] [(pgDBL, fn.toNat, 6)]) ∧
    ∃ t, exec (.resume fn k gen) s = .next t ∧ t.out = s.out ∧ s.onlyChanges t []) ∧
  (∀ (s : State) (fn : Fn) (k : Slot) (gen : Byte), page s fn k gen → ((s.chan k.toNat).st = .halted ∨ (s.chan k.toNat).st = .error) →
    let c := s.chan k.toNat
    (∀ i ∈ ([.halt fn k gen, .stop fn k gen] : List Instr), ∃ t, exec i s = .next t ∧ t.out = s.out ∧ s.onlyChanges t []) ∧
    (c.inflight ≠ 0 → ∃ t, exec (.resume fn k gen) s = .next t ∧ t.chan k.toNat = { c with resumeHeld := true } ∧ others s t k ∧
      s.onlyChanges t [.dbl]) ∧
    (c.inflight = 0 → c.moved = some s.glb.time → c.resumeHeld = false →
      ∃ t, exec (.resume fn k gen) s = .next t ∧ t.out = s.out ∧ s.onlyChanges t []) ∧
    (c.inflight = 0 → c.moved ≠ some s.glb.time → c.avail = 0 →
      ∃ t, exec (.resume fn k gen) s = .next t ∧
        t.chan k.toNat = { c with st := .parked, code := 0, stopped := false, resumeHeld := false } ∧ others s t k ∧ s.onlyChanges t [.dbl]) ∧
    (c.inflight = 0 → c.moved ≠ some s.glb.time → c.avail ≠ 0 → c.cached = true → c.hand = [] → c.stale = none → c.want = [] → c.reads = [] →
      s.masterEnabled fn.toNat = true →
      ∃ t, exec (.resume fn k gen) s = .next t ∧
        t.chan k.toNat = { c with
          st := .active, code := 0, stopped := false, resumeHeld := false, used := s.dbl.clock + 1, want := ahead s k c.avail } ∧
        t.xlt = { s.xlt with lookups := s.xlt.lookups ++ (ahead s k c.avail).map (c.ringReq k.toNat) } ∧ others s t k ∧
        s.onlyChanges t [.dbl, .xlt]))

/-- A whole inline write of one command that R55 accepts, to an ACTIVE channel or one PARKED with nothing announced, puts the command at the end of the
channel's order (R49, R50); a rejected one halts the channel with its code, once the commands before it that R74 lets be dispatched are
dispatched, and a write of a wrong shape with 0x05 and its sticky bit, naming an inline command. A ring slot that returns ahead of F is kept; a fresh one-slot command at F, the last announced, is accepted, F moves past it
and the channel parks (R44). A stale slot is read again. A failed read of the slot at F halts the channel with the failure's code (R427), once every
command before it has been dispatched. What the home answers to the fetch stands in the state for these rows (log entry 98); with no answer there,
and for a slot that nobody awaits, they do nothing. While the channel's engine does not serve, what its reads bring is discarded and its re-read does
not begin (13_partitions_and_twin_engines.md R298). -/
def Obligations.SlotsAreTaken : Prop :=
  let page (s : State) (fn : Fn) (k : Slot) (g : Granule) : Prop :=
    s.viewOpen fn.toNat = true ∧ s.glb.fatal = false ∧ (s.chan k.toNat).part = fn.toNat ∧ (hdrSeq g).extractLsb' 8 8 = (s.chan k.toNat).gen
  let others (s t : State) (k : Slot) : Prop := (∀ j, j ≠ k.toNat → t.chan j = s.chan j) ∧ t.dbl.mgmt = s.dbl.mgmt ∧ t.out = s.out
  let halted (s t : State) (k : Slot) (code : Code) (seq : BitVec 16) (inl : Bool) : Prop :=
    (t.chan k.toNat).st = .error ∧ (t.chan k.toNat).code = code ∧ (t.chan k.toNat).faultSeq = seq ∧ (t.chan k.toNat).faultInline = inl ∧
      (t.chan k.toNat).hand = [] ∧ (t.chan k.toNat).want = [] ∧ (t.chan k.toNat).reads = [] ∧
      (t.chan k.toNat).cmds = (s.chan k.toNat).cmds.filter (fun x => !x.undone false) ∧ (∀ j, j ≠ k.toNat → t.chan j = s.chan j) ∧
      t.dbl.mgmt = s.dbl.mgmt
  (∀ (s : State) (fn : Fn) (k : Slot) (off : BitVec 12) (g : Granule), page s fn k g → 0x100 ≤ off.toNat → off.toNat + 64 ≤ 0x200 →
    off.toNat % 64 = 0 → hdrOp g ≠ 0xFF → hdrSpan g = 0 → (s.chan k.toNat).inlineHeld < 8 →
    ((s.chan k.toNat).st = .active ∨ ((s.chan k.toNat).st = .parked ∧ (s.chan k.toNat).avail = 0 ∧ (s.chan k.toNat).cached = true ∧
      s.bankCopies 0x0A (Config.ctxBank k.toNat) = false ∧ s.served k.toNat = true)) →
    let c := s.chan k.toNat
    let code := s.acceptCode c.part [g]
    (code = 0 → ∃ t, exec (.dbInline fn k off 64 true [g]) s = .next t ∧
      { t.chan k.toNat with used := c.used } =
        { (if c.st = .parked then { ((c.rung s.glb.time).inlined s.glb.time) with code := 0, stopped := false, stale := none, rereads := 0 }
            else (c.rung s.glb.time).inlined s.glb.time) with
          nextNum := c.nextNum + 1
          cmds := c.cmds ++ [{ num := c.nextNum, op := hdrOp g, seq := hdrSeq g, inl := true, pos := c.f + BitVec.ofNat 32 c.avail, slots := [g] }] } ∧
      others s t k ∧ s.onlyChanges t [.dbl]) ∧
    (code ≠ 0 → s.readyCmd k.toNat = none →
      ∃ t, exec (.dbInline fn k off 64 true [g]) s = .next t ∧ halted s t k code 0 true ∧ t.out = s.out ∧ s.onlyChanges t [.dbl, .xlt]) ∧
    ∀ x, code ≠ 0 → s.readyCmd k.toNat = some x → x.op = 0x0F → c.cmds.filter (fun y => y.st = .waiting) = [x] → field x.cpl 2 0 = 0 →
      c.cmds.all (fun y => y.num ≠ x.num || y = x) = true →
      ∃ t, exec (.dbInline fn k off 64 true [g]) s = .next t ∧ (t.chan k.toNat).st = .error ∧ (t.chan k.toNat).code = code ∧
        (t.chan k.toNat).faultSeq = 0 ∧ (t.chan k.toNat).faultInline = true ∧ (∀ y ∈ (t.chan k.toNat).cmds, y.num ≠ x.num) ∧
        (∀ j, j ≠ k.toNat → t.chan j = s.chan j) ∧ t.dbl.mgmt = s.dbl.mgmt) ∧
  (∀ (s : State) (fn : Fn) (k : Slot) (off : BitVec 12) (len : Nat) (all : Bool) (g : Granule), page s fn k g →
    ((s.chan k.toNat).st = .active ∨ (s.chan k.toNat).st = .parked) →
    (all = false ∨ off.toNat < 0x100 ∨ 0x200 < off.toNat + len ∨ off.toNat % 64 ≠ 0 ∨ len ≠ 64 ∨ hdrOp g = 0xFF ∨ hdrSpan g ≠ 0) →
    ∃ t, exec (.dbInline fn k off len all [g]) s = .next t ∧ halted s t k 0x05 0 true ∧
      s.onlyChanges t [.dbl, .xlt] [(pgDBL, fn.toNat, 6)]) ∧
  (∀ (s : State) (fn : Fn) (k : Slot) (off : BitVec 12) (len : Nat) (all : Bool) (g : Granule), page s fn k g →
    (s.chan k.toNat).st = .error →
    ∃ t, exec (.dbInline fn k off len all [g]) s = .next t ∧ s.onlyChanges t [] [(pgDBL, fn.toNat, 6)]) ∧
  (∀ (s : State) (k : Slot) (p : BitVec 32), s.atRest = true →
    exec (.ringSlotReturn k p) s = .next s ∧ exec (.ringReadFail k p) s = .next s) ∧
  (∀ (s : State) (k : Slot) (e : Engine) (p : BitVec 32) (code : Code) (g : Granule), s.atRest = true →
    s.masterEnabled (s.chan k.toNat).part = true → p ∈ (s.chan k.toNat).reads → s.served k.toNat = false →
    let a := s.withAnswer (.ringRead e k.toNat p (s.chan k.toNat).fetchNo) code g
    ∃ t, exec (if code = 0 then .ringSlotReturn k p else .ringReadFail k p) a = .next t ∧
      t.chan k.toNat = { s.chan k.toNat with reads := (s.chan k.toNat).reads.erase p } ∧ others s t k ∧ s.onlyChanges t [.dbl]) ∧
  (∀ (s : State) (k : Slot) (e : Engine) (p : BitVec 32) (code : Code) (g : Granule), s.atRest = true →
    s.masterEnabled (s.chan k.toNat).part = true → p ∈ (s.chan k.toNat).reads → (s.chan k.toNat).st = .active →
    (s.chan k.toNat).cached = true → s.served k.toNat = true → s.bankCopies 0x0A (Config.ctxBank k.toNat) = false →
    (s.chan k.toNat).handAt p = none → (p - (s.chan k.toNat).f).toNat < 2 ^ 31 → kills code = false →
    (∀ i, i < min 16 (s.chan k.toNat).avail →
      (s.chan k.toNat).f + BitVec.ofNat 32 i ∈ (s.chan k.toNat).reads ++ (s.chan k.toNat).want ++ (s.chan k.toNat).hand.map (·.pos)) →
    let a := s.withAnswer (.ringRead e k.toNat p (s.chan k.toNat).fetchNo) code g
    (code = 0 → p ≠ (s.chan k.toNat).f → (s.chan k.toNat).handAt (s.chan k.toNat).f = none → (s.chan k.toNat).avail ≠ 0 →
      ∃ t, exec (.ringSlotReturn k p) a = .next t ∧
        t.chan k.toNat = { s.chan k.toNat with
          reads := (s.chan k.toNat).reads.erase p, hand := (s.chan k.toNat).hand ++ [{ pos := p, data := g }] } ∧
        others s t k ∧ s.onlyChanges t [.dbl]) ∧
    (code = 0 → p = (s.chan k.toNat).f → (s.chan k.toNat).hand = [] → (s.chan k.toNat).avail = 1 → (s.chan k.toNat).fresh p g true = true →
      hdrOp g ≠ 0xFF → hdrSpan g = 0 →
      s.acceptCode (s.chan k.toNat).part [g] = 0 →
      ∃ t, exec (.ringSlotReturn k p) a = .next t ∧
        t.chan k.toNat = { s.chan k.toNat with
          st := .parked, code := 0, stopped := false, f := p + 1, stale := none, rereads := 0
          reads := (s.chan k.toNat).reads.erase p, hand := []
          cmds := insertCmd { num := (s.chan k.toNat).nextNum, op := hdrOp g, seq := hdrSeq g, pos := p, slots := [g] }
            (s.chan k.toNat).cmds
          nextNum := (s.chan k.toNat).nextNum + 1 } ∧
        others s t k ∧ s.onlyChanges t [.dbl]) ∧
    (code ≠ 0 → p = (s.chan k.toNat).f → (s.chan k.toNat).avail ≠ 0 → (s.chan k.toNat).before = false →
      ∃ t, exec (.ringReadFail k p) a = .next t ∧ halted s t k code (p.setWidth 16) false ∧
        s.onlyChanges t [.dbl, .xlt]
          (if (s.chan k.toNat).cmds.any ((s.chan k.toNat).isLate s.glb.time) then [(pgDBL, (s.chan k.toNat).part, 6)] else [])) ∧
    (code ≠ 0 → p = (s.chan k.toNat).f → (s.chan k.toNat).avail ≠ 0 → (s.chan k.toNat).before = true →
      ∃ t, exec (.ringReadFail k p) a = .next t ∧
        t.chan k.toNat = { s.chan k.toNat with
          reads := (s.chan k.toNat).reads.erase p, hand := (s.chan k.toNat).hand ++ [{ pos := p, data := g, fail := code }] } ∧
        others s t k ∧ s.onlyChanges t [.dbl])) ∧
  (∀ (s : State) (k : Slot) (p : BitVec 32), s.atRest = true → (s.chan k.toNat).stale = some p → (s.chan k.toNat).st = .active →
    (s.chan k.toNat).cached = true → s.served k.toNat = true → (s.chan k.toNat).rereads < 8 → s.masterEnabled (s.chan k.toNat).part = true →
    (s.chan k.toNat).hand = [] → (s.chan k.toNat).avail ≠ 0 →
    (∀ i, i < min 16 (s.chan k.toNat).avail → let q := (s.chan k.toNat).f + BitVec.ofNat 32 i
      q = p ∨ q ∈ (s.chan k.toNat).reads ++ (s.chan k.toNat).want) →
    ∃ t, exec (.ringReread k) s = .next t ∧
      t.chan k.toNat = { s.chan k.toNat with rereads := (s.chan k.toNat).rereads + 1, want := (s.chan k.toNat).want ++ [p] } ∧
      t.xlt = { s.xlt with lookups := s.xlt.lookups ++ [(s.chan k.toNat).ringReq k.toNat p] } ∧ others s t k ∧
      s.onlyChanges t [.dbl, .xlt]) ∧
  (∀ (s : State) (k : Slot), s.atRest = true → ((s.chan k.toNat).stale = none ∨ s.served k.toNat = false) → exec (.ringReread k) s = .next s)

/-! ## Commands and movers -/

/-- The next command of a channel is dispatched only by the command of its opcode (R74). A data-moving one takes the destination its range settles,
its segments and a time stamp, or fails with its code (R59 to R65, R262); ATOMIC takes one segment; FENCE waits for the commands before it (R77);
SIGNAL goes to its object's bank, or fails without its window (R66); WAIT makes a record in its engine's half, linked before those of later sources
of its hub cycle (R199), or takes one from a counter (R67). NOP,
MIGRATE_HINT and PLAN_ARM complete at dispatch: they leave the channel with their pulse, hints queued and entries armed (R70 to R72). The class and
the priority are those the channel has then (R36). A ring slot at F whose read has failed halts the channel once the last command before it has been
dispatched, and kills it where a translation fault failed it (R427). A command that fails in the hub cycle in which an inline one was accepted
refuses that one too (R42, R49). -/
def Obligations.CommandsAreDispatched : Prop :=
  let next (s : State) (k : Slot) (op : Nat) (x : Cmd) : Prop :=
    s.atRest = true ∧ s.nextCmd k.toNat op = some x ∧ (∀ y ∈ (s.chan k.toNat).cmds, y.num = x.num → y = x) ∧
      (s.chan k.toNat).resumeHeld = false ∧ x.fenceSent = false ∧ x.fenceOut = 0 ∧ (s.chan k.toNat).failedAt = 0
  let marked (s : State) (k : Slot) (x : Cmd) (f : Cmd → Cmd) : Chan :=
    { s.chan k.toNat with cmds := (s.chan k.toNat).cmds.map fun y =>
        if y.num = x.num then f { y with
          st := .dispatched, urgent := alwaysUrgent y.op || (s.chan k.toNat).urgent, prio := (s.chan k.toNat).prio } else y }
  let sent (s : State) (k : Slot) (a : SAct) : List SAct := (s.addAct (engineRank (s.chan k.toNat).owner) a).syn.acts
  let others (s t : State) (k : Slot) : Prop := (∀ j, j ≠ k.toNat → t.chan j = s.chan j) ∧ t.dbl.mgmt = s.dbl.mgmt
  let late (s : State) (k : Slot) (x : Cmd) : List (Nat × Nat × Nat) :=
    if (s.chan k.toNat).cmds.any fun y => y.num ≠ x.num && (s.chan k.toNat).isLate s.glb.time y then [(pgDBL, (s.chan k.toNat).part, 6)] else []
  let completed (s t : State) (k : Slot) (x : Cmd) : Prop :=
    t.chan k.toNat = { s.chan k.toNat with cmds := (s.chan k.toNat).cmds.filter (·.num ≠ x.num) } ∧ others s t k ∧
      t.syn.acts = (if field x.cpl 2 0 = 2 then
        sent s k { from_ := .pulse (s.chan k.toNat).owner, handle := x.cpl.extractLsb' 32 32
                   action := if hType (x.cpl.extractLsb' 32 32) = 1 then 1 else 0, value := 1 } else s.syn.acts) ∧
      t.cht.pulses = s.cht.pulses ++ (if field x.cpl 2 0 = 3 then [x.cpl.extractLsb' 32 32] else [])
  let moves (k : Slot) : List (Nat × Instr) :=
    [(0x01, .copy k), (0x02, .copyConvert k), (0x03, .fill k), (0x04, .inlineWrite k), (0x05, .reducePut k), (0x11, .timestamp k)]
  let all (k : Slot) : List (Nat × Instr) :=
    moves k ++ [(0x08, .fence k), (0x09, .signal k), (0x0A, .wait k), (0x0B, .atomic k), (0x0F, .nop k), (0x10, .migrateHint k),
      (0x12, .planArm k)]
  (∀ (s : State) (k : Slot) (op : Nat) (i : Instr), s.atRest = true → (op, i) ∈ all k → s.nextCmd k.toNat op = none → exec i s = .next s) ∧
  (∀ (s : State) (k : Slot) (op : Nat) (i : Instr) (x : Cmd), (op, i) ∈ moves k → next s k op x →
    let r := s.judgeDest (s.chan k.toNat).part (s.chan k.toNat).asid x.data
    (r.1 = 0 → ∃ t, exec i s = .next t ∧
      t.chan k.toNat = marked s k x (fun y => { y with
          dest := r.2, win := s.winOf r.2, flowNo := s.flowNo r.2, segs := x.data.segments, stamp := (s.glb.time, s.cht.drone) }) ∧
      others s t k ∧ t.out = s.out ∧ s.onlyChanges t [.dbl]) ∧
    (r.1 ≠ 0 → ∃ t, exec i s = .next t ∧ (t.chan k.toNat).st = .error ∧ (t.chan k.toNat).code = r.1 ∧
      (t.chan k.toNat).faultSeq = (if x.inl then 0 else x.seq) ∧ (t.chan k.toNat).faultInline = x.inl ∧
      (t.chan k.toNat).cmds = (s.chan k.toNat).cmds.filter (fun y => y.num ≠ x.num && !y.undone false) ∧ others s t k ∧
      s.onlyChanges t [.dbl, .xlt] (late s k x))) ∧
  (∀ (s : State) (k : Slot) (x : Cmd), next s k 0x0B x →
    ∃ t, exec (.atomic k) s = .next t ∧ t.chan k.toNat = marked s k x (fun y => { y with segs := 1 }) ∧ others s t k ∧ t.out = s.out ∧
      s.onlyChanges t [.dbl]) ∧
  (∀ (s : State) (k : Slot) (x : Cmd), next s k 0x08 x →
    let clear := (s.chan k.toNat).fenceClear x
    (clear = false ∨ x.fenceAll = true ∨ (s.chan k.toNat).posted = []) →
    ∃ t, exec (.fence k) s = .next t ∧ t.chan k.toNat = marked s k x (fun y => { y with fenceSent := clear }) ∧ others s t k ∧
      t.out = s.out ∧ s.onlyChanges t [.dbl]) ∧
  (∀ (s : State) (k : Slot) (x : Cmd), next s k 0x09 x → bit (slotCtl x.first) 4 = false →
    ∃ t, exec (.signal k) s = .next t ∧ t.chan k.toNat = marked s k x id ∧ others s t k ∧
      t.syn = { s.syn with acts := sent s k { from_ := .chan k.toNat x.num, handle := granHalf x.first 0x10
                                              action := (slotCtl x.first).setWidth 2, value := x.first.extractLsb' 192 16 } } ∧
      t.out = s.out ∧ s.onlyChanges t [.dbl, .syn]) ∧
  (∀ (s : State) (k : Slot) (x : Cmd), next s k 0x09 x → bit (slotCtl x.first) 4 = true →
    let w := field (granHalf x.first 0x14) 13 0
    let own := (s.owin w).en && (s.allot false (s.chan k.toNat).part).has w
    (own = false ∨ s.noRoute (s.owin w).chip = true) →
    ∃ t, exec (.signal k) s = .next t ∧ (t.chan k.toNat).st = .error ∧ (t.chan k.toNat).code = (if own then 0x82 else 0x81) ∧ others s t k ∧
      s.onlyChanges t [.dbl, .xlt] (late s k x)) ∧
  (∀ (s : State) (k : Slot) (x : Cmd), next s k 0x09 x → bit (slotCtl x.first) 4 = true →
    let e := s.owin (field (granHalf x.first 0x14) 13 0)
    let w := s.route e.chip
    e.en = true → (s.allot false (s.chan k.toNat).part).has (field (granHalf x.first 0x14) 13 0) = true → s.isSelf e.chip = false →
    upSlots w ≠ [] → (s.flow e.chip).wait = [] → (s.flow e.chip).out.length < 64 → s.bufHeld ≤ s.bufSize →
    (s.flow e.chip).failed = false → (∀ o ∈ (s.flow e.chip).out.head?, psnDist (s.flow e.chip).psn o.p.h.psn < 64) →
    ∃ t p, exec (.signal k) s = .next t ∧ t.chan k.toNat = marked s k x id ∧ others s t k ∧
      t.out = s.out ++ [.fabric (slotPort w ((upSlots w).headD 0)) (slotTag w ((upSlots w).headD 0)) p] ∧ p.h.kind = 3 ∧
      p.h.psn = (s.flow e.chip).psn ∧ p.h.body = (granHalf x.first 0x10).setWidth 64 ∧ p.h.window = e.w3.extractLsb' 16 16 ∧
      p.h.dstChip.toNat = e.chip ∧ p.blocks = [] ∧ p.crcs = [] ∧ p.h.hcrcOk = true ∧ s.onlyChanges t [.dbl, .peer]) ∧
  (∀ (s : State) (k : Slot) (x : Cmd), next s k 0x0A x →
    let h := granHalf x.first 0x10
    let o := s.obj (hIdx h)
    s.goodObj h (hPart h) = true → o.st = .live → (∀ a ∈ s.syn.acts, hIdx a.handle ≠ hIdx h) →
    (∀ r, o.meets = false → s.freeRec (s.chan k.toNat).owner = some r →
      ∃ t, exec (.wait k) s = .next t ∧ t.chan k.toNat = marked s k x id ∧ others s t k ∧ t.out = s.out ∧
        (let later := s.linkedAfter (s.waiterRank (.chan k.toNat x.num))
         t.obj (hIdx h) = { o with
          waiters := (o.waiters.takeWhile fun q => !later q) ++ [r] ++ o.waiters.dropWhile fun q => !later q }) ∧
        t.wrec r = some { who := .chan k.toNat x.num, handle := h, cond := (slotCtl x.first).setWidth 2, timeout := granHalf x.first 0x14
                          linked := s.glb.time, deadline := s.glb.time + BitVec.ofNat 64 (64 * (granHalf x.first 0x14).toNat)
                          slipped := o.slip && s.syn.slip && !s.syn.slipOver && s.syn.slipMax ≠ 0 } ∧
        (∀ q, q ≠ r → t.wrec q = s.wrec q) ∧ (∀ j, j ≠ hIdx h → t.obj j = s.obj j) ∧ s.onlyChanges t [.dbl, .syn]) ∧
    (o.meets = true → ∃ t, exec (.wait k) s = .next t ∧ completed s t k x ∧
      t.obj (hIdx h) = (if o.type = 0 then { o with value := o.value - 1 } else o) ∧ s.onlyChanges t [.dbl, .syn, .cht])) ∧
  (∀ (s : State) (k : Slot) (x : Cmd), next s k 0x0F x →
    ∃ t, exec (.nop k) s = .next t ∧ completed s t k x ∧ t.syn = { s.syn with acts := t.syn.acts } ∧
      t.cht = { s.cht with pulses := t.cht.pulses } ∧ s.onlyChanges t [.dbl, .syn, .cht]) ∧
  (∀ (s : State) (k : Slot) (x : Cmd), next s k 0x10 x →
    let n := field x.first 207 192
    let take := min n (Config.hintQueue - s.skk.hints.length)
    ∃ t, exec (.migrateHint k) s = .next t ∧ completed s t k x ∧
      t.skk.hints = s.skk.hints ++ (List.range take).map (fun i =>
        { kind := ((slotCtl x.first).setWidth 2 : BitVec 2), part := (s.chan k.toNat).part, asid := (s.chan k.toNat).asid
          va := granWord x.first 0x10 + BitVec.ofNat 64 (65536 * i) }) ∧
      (t.skkPart (s.chan k.toNat).part).hintDropped = satAdd (s.skkPart (s.chan k.toNat).part).hintDropped (n - take) ∧
      s.onlyChanges t [.dbl, .syn, .cht, .skk]) ∧
  (∀ (s : State) (k : Slot) (x : Cmd), next s k 0x12 x → bit (slotCtl x.first) 0 = false → s.droneStep < field x.first 231 192 →
    (∀ i ∈ planRange x.slots, (s.entry i).held = true ∧ (s.entry i).kind = 1 ∧ (s.entry i).live = false ∧ s.armed (s.entry i) = false) →
    ∃ t, exec (.planArm k) s = .next t ∧ completed s t k x ∧
      (∀ i ∈ planRange x.slots, t.entry i = { s.entry i with
        open_ := false, live := false, step := 0, fired := false, done := false, gatePassed := false, fallback := false
        runOld := (s.entry i).run.isSome, occ := (s.entry i).occ + 1, last := none
        arms := ((s.entry i).armAt s.droneStep (field x.first 231 192) true).arms }) ∧
      (∀ i, i ∉ planRange x.slots → t.entry i = s.entry i) ∧ s.onlyChanges t [.dbl, .syn, .cht]) ∧
  (∀ (s : State) (k : Slot) (x : Cmd), s.atRest = true → s.nextCmd k.toNat 0x0F = some x → (s.chan k.toNat).st = .active →
    (s.chan k.toNat).resumeHeld = false → (s.chan k.toNat).failedAt ≠ 0 →
    (∀ y ∈ (s.chan k.toNat).cmds, y.st = .waiting ∨ y.num = x.num → y = x) → kills (s.chan k.toNat).failedAt = true →
    (s.chan k.toNat).faulted = false →
    ∃ t, exec (.nop k) s = .next t ∧ (t.chan k.toNat).st = .killed ∧ (t.chan k.toNat).faulted = true ∧
      ∀ h, (s.chan k.toNat).failedSlot = some h → (t.chan k.toNat).code = (h.flt.getD { code := h.fail }).code) ∧
  (∀ (s : State) (k : Slot) (x : Cmd), s.atRest = true → s.nextCmd k.toNat 0x0F = some x → (s.chan k.toNat).st = .active →
    (s.chan k.toNat).resumeHeld = false → (s.chan k.toNat).failedAt ≠ 0 → kills (s.chan k.toNat).failedAt = false →
    (∀ y ∈ (s.chan k.toNat).cmds, y.st = .waiting ∨ y.num = x.num → y = x) →
    ∃ t, exec (.nop k) s = .next t ∧ (t.chan k.toNat).st = .error ∧ (t.chan k.toNat).code = (s.chan k.toNat).failedAt ∧
      (t.chan k.toNat).faultSeq = (s.chan k.toNat).f.setWidth 16 ∧ (t.chan k.toNat).faultInline = false ∧ others s t k ∧
      s.onlyChanges t [.dbl, .syn, .cht, .xlt])

/-- SEGMENT_DISPATCH gives a free mover context the first planned segment, or the first waiting segment of the channel the queue's arbiter
holds; an Urgent context pre-empts a Bulk one that issues (R129, R134, R230); with a command's last segment the arbiter goes on to another channel (17_arbiters.md
R360). With no free mover, or an engine that does not serve, nothing happens;
nor does a Bulk segment take a mover while an Urgent one waits that could. BURST_START of a COPY between device granules whose places are known and
whose credits allow it charges both paths, and its read waits for its turn on the read path (R133, R138). Data, write responses, atomic responses
and read-backs return to the context that asked, each with a credit of the hub (R140, R333, R336); the last of a read-back's reads ends it, and a read
of a channel removed early is poisoned (15_block_ports.md R343). -/
def Obligations.SegmentsRun : Prop :=
  let begun (s t : State) (m : Nat) (u : Bool) (w : Work) (c : Cmd) (seg : Nat) (planned : Bool) : Prop :=
    t.job m u = { st := .running, work := some w, seg := seg, total := if c.done.contains seg then 1 else c.data.granules seg
                  planned := planned, crcPhase := c.done.contains seg, asid := s.workAsid w
                  prio := match w with | .chan .. => c.prio | .plan i => (s.ownerOf (s.entry i)).prio } ∧
      (u = true → t.job m false = if (s.job m false).st = .running ∨ (s.job m false).st = .held
        then { s.job m false with st := .preempted } else s.job m false) ∧
      (∀ m' u', m' ≠ m → t.job m' u' = s.job m' u') ∧ (u = false → t.job m true = s.job m true) ∧ t.out = s.out
  let took (c : Cmd) (seg : Nat) : Cmd := if c.redo.contains seg then { c with redo := c.redo.erase seg } else { c with next := seg + 1 }
  (∀ (s : State) (e : Engine) (m i : Nat) (c : Cmd) (seg : Nat), s.atRest = true → s.engineSt e = .serving → s.urgentMover e = some m →
    s.plannedSeg e = some (i, c, seg) →
    ∃ t, exec (.segmentDispatch e true) s = .next t ∧ begun s t m true (.plan i) c seg true ∧
      t.entry i = { s.entry i with run := some (took c seg) } ∧ (∀ j, j ≠ i → t.entry j = s.entry j) ∧ t.dbl = s.dbl ∧
      t.cht = { s.cht with entry := t.cht.entry } ∧ s.onlyChanges t [.mov, .cht]) ∧
  (∀ (s : State) (e : Engine) (u : Bool) (m k : Nat) (c : Cmd) (seg : Nat), s.atRest = true → s.engineSt e = .serving →
    (if u then s.urgentMover e else s.bulkMover e) = some m → (if u then s.plannedSeg e = none else ((s.urgentWaits e && (s.urgentMover e).isSome) = false)) →
    ((s.arbCycle (queueArb e u) (s.segRequests e u) (s.segAble e u)).arbiter (queueArb e u)).holder = some k → s.waitingSeg k u = some (c, seg) →
    ∃ t, exec (.segmentDispatch e u) s = .next t ∧ begun s t m u (.chan k c.num) c seg false ∧
      t.chan k = { s.chan k with cmds := (s.chan k).cmds.map fun x => if x.num = c.num then took x seg else x } ∧
      (∀ j, j ≠ k → t.chan j = s.chan j) ∧ t.dbl.mgmt = s.dbl.mgmt ∧
      ((t.arbiter (queueArb e u)).holder = some k ↔ (took c seg).nextSeg.isSome = true) ∧ s.onlyChanges t [.mov, .dbl, .arb]) ∧
  (∀ (s : State) (e : Engine) (u : Bool), s.atRest = true →
    ((if u then s.urgentMover e else s.bulkMover e) = none ∨ s.engineSt e ≠ .serving ∨
      (u = false ∧ s.urgentWaits e = true ∧ (s.urgentMover e).isSome = true)) → exec (.segmentDispatch e u) s = .next s) ∧
  (∀ (s : State) (m : Fin 48) (u : Bool) (k n : Nat) (c : Cmd) (l1 l2 : Loc), s.atRest = true →
    let j := s.job m.val u
    let d := c.data
    s.engineSt (moverEngine m.val) = .serving → j.work = some (.chan k n) → s.cmdOf k n = some c → c.op = 0x01 → c.dest = .local_ →
    d.staging = false → d.srcFixed = false → d.dst.toNat % 64 = 0 → (j.st = .running ∨ j.st = .held) → j.planned = false →
    j.crcPhase = false → j.reads = [] → j.acc = [] → j.acc2 = [] → j.wq = [] → j.peerSrc = 0 → j.outScale = [] → j.used < j.total →
    (if u then j.nextG < j.total else j.nextG + 1 = j.total) →
    s.locate m.val (.chan k n) c { access := 0, va := d.src + BitVec.ofNat 64 (srcOff j.seg j.nextG), own := true } = some l1 → l1.device = true →
    s.locate m.val (.chan k n) c
      { access := 1, va := d.dst + BitVec.ofNat 64 (if d.dstFixed then 0 else srcOff j.seg j.nextG), own := true } = some l2 →
    l2.device = true → j.tagsOk [l1.epoch, l2.epoch] = true → s.mayStart k (s.chan k).part u [(8, 64), (9, 64)] = true →
    (∀ p, (s.skkPart p).en = false) → s.skk.placed = [] → (u = false → s.sideTaken m.val 8 = false ∧ s.sideTaken m.val 9 = false) →
    ∃ t, exec (.burstStart m u) s = .next t ∧
      t.job m.val u = { j with
        nextG := j.nextG + 1, issued := j.issued + 1, zeroHeld := false, st := .running
        reads := [{ kind := .src, idx := j.nextG, epoch := some l1.epoch, host := false, sent := false, path := 8
                    addr := l1.addr &&& 0xFFFFFFFFFFFFFFC0 }] } ∧
      (∀ m' u', (m', u') ≠ (m.val, u) → t.job m' u' = s.job m' u') ∧
      (∀ p, p = 8 ∨ p = 9 → t.chanCredit k p = s.chanCredit k p - 64 ∧ t.partCredit (s.chan k).part p = s.partCredit (s.chan k).part p - 64) ∧
      t.out = s.out ∧ s.onlyChanges t [.mov, .xlt]) ∧
  (∀ (s : State) (p : Fin 4) (a : BitVec 11) (tag : BitVec 12) (m : Nat) (u poison : Bool) (data : Granule) (r : NocReq), s.atRest = true →
    s.findReq p.val a.toNat tag.toNat = some r → s.creditsSpent p.val .rsp < 96 → s.engineSt (moverEngine m) = .serving →
    (s.job m u).st ≠ .draining → (s.job m u).planned = false → s.readsRemoved r.addr = false →
    (r.for_ = .readback m u → (s.job m u).rb = .out → poison = false →
      ∃ t, exec (.memRdData p a tag poison data) s = .next t ∧ t.job m u = (if (s.job m u).rbs ≤ 1 then { s.job m u with rb := .back, rbs := 0, posts := [] }
          else { s.job m u with rbs := (s.job m u).rbs - 1 }) ∧
        (∀ m' u', (m', u') ≠ (m, u) → t.job m' u' = s.job m' u') ∧ t.noc = { s.noc with reqs := s.noc.reqs.erase r, inAt := t.noc.inAt, inUse := t.noc.inUse } ∧ t.out = s.out ∧
        s.onlyChanges t [.mov, .noc]) ∧
    (∀ (idx : Nat) (r0 : Rd) (rest : List Rd), r.for_ = .read m u .src idx → poison = false → (s.job m u).reads = r0 :: rest →
      r0.data = none → (r0.kind ≠ .src ∨ r0.idx ≠ idx) → (∃ x ∈ rest, x.kind = .src ∧ x.idx = idx ∧ x.data = none) →
      (∀ x ∈ rest, x.drop = false) → (s.job m u).acc = [] → (s.job m u).outScale = [] → (s.job m u).used < (s.job m u).total →
      ∃ t, exec (.memRdData p a tag poison data) s = .next t ∧
        (let got := modFirst (fun x => x.kind = .src && x.idx = idx && x.data.isNone) (fun x => { x with data := some data }) rest
         t.job m u = { s.job m u with reads := r0 :: got }) ∧
        (∀ m' u', (m', u') ≠ (m, u) → t.job m' u' = s.job m' u') ∧ t.noc = { s.noc with reqs := s.noc.reqs.erase r, inAt := t.noc.inAt, inUse := t.noc.inUse } ∧ t.out = s.out ∧
        s.onlyChanges t [.mov, .noc])) ∧
  (∀ (s : State) (p : Fin 4) (a : BitVec 11) (tag : BitVec 12) (m : Nat) (u : Bool) (ep : BitVec 32) (r : NocReq), s.atRest = true →
    s.findReq p.val a.toNat tag.toNat = some r → s.creditsSpent p.val .rsp < 96 → r.for_ = .write m u ep → (s.job m u).st = .draining →
    (false, ep) ∈ (s.job m u).writes → s.engineSt (moverEngine m) = .serving → s.pwr.regHeld = [] →
    ∀ code : Code, ∃ t, exec (.memWrAck p a tag code) s = .next t ∧
      t.job m u = { s.job m u with writes := (s.job m u).writes.erase (false, ep) } ∧
      (∀ m' u', (m', u') ≠ (m, u) → t.job m' u' = s.job m' u') ∧ t.noc = { s.noc with reqs := s.noc.reqs.erase r, inAt := t.noc.inAt, inUse := t.noc.inUse } ∧ t.out = s.out ∧
      s.onlyChanges t [.mov, .noc]) ∧
  (∀ (s : State) (p : Fin 4) (a : BitVec 11) (tag : BitVec 12) (m : Nat) (u : Bool) (ep : BitVec 32) (r : NocReq) (r0 : Rd)
      (rest : List Rd), s.atRest = true →
    s.findReq p.val a.toNat tag.toNat = some r → s.creditsSpent p.val .rsp < 96 → r.for_ = .write m u ep → (s.job m u).st ≠ .draining →
    (false, ep) ∈ (s.job m u).writes → s.engineSt (moverEngine m) = .serving → (s.job m u).reads = r0 :: rest → r0.data = none →
    s.pwr.regHeld = [] → (s.job m u).planned = false → (s.job m u).acc = [] → (s.job m u).outScale = [] → (s.job m u).used < (s.job m u).total →
    ∃ t, exec (.memWrAck p a tag 0) s = .next t ∧
      t.job m u = { s.job m u with writes := (s.job m u).writes.erase (false, ep) } ∧
      (∀ m' u', (m', u') ≠ (m, u) → t.job m' u' = s.job m' u') ∧ t.noc = { s.noc with reqs := s.noc.reqs.erase r, inAt := t.noc.inAt, inUse := t.noc.inUse } ∧ t.out = s.out ∧
      s.onlyChanges t [.mov, .noc]) ∧
  (∀ (s : State) (p : Fin 4) (a : BitVec 11) (tag : BitVec 12) (m k n : Nat) (u : Bool) (ep : BitVec 32) (r : NocReq) (c : Cmd) (old : Word),
    s.atRest = true → s.findReq p.val a.toNat tag.toNat = some r → s.creditsSpent p.val .rsp < 96 →
    r.for_ = .atomic m u ep → s.engineSt (moverEngine m) = .serving →
    (s.job m u).work = some (.chan k n) → s.cmdOf k n = some c → c.op = 0x0B → c.wantsOld = false →
    (s.job m u) = { st := .running, work := some (.chan k n), total := 1, nextG := 1, issued := 1, writes := [(false, ep)]
                    asid := (s.job m u).asid, prio := (s.job m u).prio } → u = false →
    ∃ t, exec (.memAtomicAck p a tag 0 old) s = .next t ∧
      t.job m u = { s.job m u with writes := [], performed := true, used := 1, st := .completing, rb := .back } ∧
      (∀ m' u', (m', u') ≠ (m, u) → t.job m' u' = s.job m' u') ∧ t.noc = { s.noc with reqs := s.noc.reqs.erase r, inAt := t.noc.inAt, inUse := t.noc.inUse } ∧ t.out = s.out ∧
      t.chan k = { s.chan k with cmds := (s.chan k).cmds.map fun x =>
        if x.num = n then { x with seen := if x.seen.contains 0 then x.seen else x.seen ++ [0] } else x } ∧
      (∀ i, i ≠ k → t.chan i = s.chan i) ∧ t.dbl.mgmt = s.dbl.mgmt ∧ s.onlyChanges t [.mov, .noc, .dbl])

/-- SEGMENT_COMPLETE, once the read-back has returned, records the checkpoint, in the hub store too when the engines mirror each other (R22), and frees the context; the last segment's ends the command with its
pulse, or goes on to write its CRC word (R140, R73). SEGMENT_FAIL stops the command's contexts, of whose posted writes no invalidation waits for any,
and halts its channel with the failure's code (R142). A
stopped context whose access times out awaits it no more; with nothing outstanding it is idle, and its ended command leaves the channel (R144). FENCE_HELD completes a FENCE whose reads have
returned (R77). None does anything before that. -/
def Obligations.SegmentsEnd : Prop :=
  let runs (s : State) (m : Nat) (u : Bool) (k n : Nat) (c : Cmd) : Prop :=
    s.atRest = true ∧ s.engineSt (moverEngine m) = .serving ∧ (s.job m u).work = some (.chan k n) ∧ s.cmdOf k n = some c ∧
      (∀ y ∈ (s.chan k).cmds, y.num = n → y = c) ∧ (s.job m u).st ≠ .draining ∧ (s.chan k).resumeHeld = false
  let free (s : State) (k : Nat) : Prop := s.xlt.invs = [] ∨ ∀ e ∈ s.mov.job, ∀ n, e.2.work = some (.chan k n) → e.2.posts = []
  let others (s t : State) (k : Nat) : Prop := (∀ j, j ≠ k → t.chan j = s.chan j) ∧ t.dbl.mgmt = s.dbl.mgmt
  let pulsed (s t : State) (k : Nat) (cpl : Word) : Prop :=
    t.syn = { s.syn with acts := if field cpl 2 0 = 2 then
        (s.addAct (engineRank (s.chan k).owner) { from_ := .pulse (s.chan k).owner, handle := cpl.extractLsb' 32 32
                                                  action := if hType (cpl.extractLsb' 32 32) = 1 then 1 else 0, value := 1 }).syn.acts
        else s.syn.acts } ∧
      t.cht = { s.cht with pulses := s.cht.pulses ++ (if field cpl 2 0 = 3 then [cpl.extractLsb' 32 32] else []) }
  let onlyJob (s t : State) (m : Nat) (u : Bool) : Prop := ∀ m' u', (m', u') ≠ (m, u) → t.job m' u' = s.job m' u'
  let checked (c : Cmd) (j : Job) : Cmd := { c with
    done := c.done ++ [j.seg], seen := if c.seen.contains j.seg then c.seen else c.seen ++ [j.seg]
    crcs := c.crcs ++ j.partials c.data c.segs }
  (∀ (s : State) (m : Fin 48) (u : Bool) (k n : Nat) (c : Cmd), runs s m.val u k n c → (s.job m.val u).rb = .back →
    let j := s.job m.val u
    let last := decide (c.segs ≤ c.done.length + 1)
    let crc := decide (c.op = 0x02) && decide (c.data.crc ≠ 0)
    (j.crcPhase = false → last = false → ∃ t, exec (.segmentComplete m u) s = .next t ∧ t.job m.val u = {} ∧ onlyJob s t m.val u ∧
      t.chan k = { s.chan k with cmds := (s.chan k).cmds.map fun x => if x.num = n then checked x j else x } ∧ others s t k ∧
      t.out = (s.checkpoint m.val).out ∧ t.ras = (s.checkpoint m.val).ras ∧ s.onlyChanges t [.mov, .dbl, .ras]) ∧
    (j.crcPhase = false → last = true → crc = true → ∃ t, exec (.segmentComplete m u) s = .next t ∧
      t.job m.val u = { st := .running, work := j.work, seg := j.seg, total := 1, crcPhase := true, prio := j.prio
                        planned := j.planned, asid := j.asid } ∧ onlyJob s t m.val u ∧
      t.chan k = { s.chan k with cmds := (s.chan k).cmds.map fun x => if x.num = n then checked x j else x } ∧ others s t k ∧
      t.out = (s.checkpoint m.val).out ∧ t.ras = (s.checkpoint m.val).ras ∧ s.onlyChanges t [.mov, .dbl, .ras]) ∧
    ((j.crcPhase = true ∨ (last = true ∧ crc = false)) → ∃ t, exec (.segmentComplete m u) s = .next t ∧ t.job m.val u = {} ∧
      onlyJob s t m.val u ∧ t.chan k = { s.chan k with cmds := (s.chan k).cmds.filter (·.num ≠ n) } ∧ others s t k ∧
      pulsed s t k c.cpl ∧ t.ras = (if j.crcPhase then s else s.checkpoint m.val).ras ∧ s.onlyChanges t [.mov, .dbl, .syn, .cht, .ras])) ∧
  (∀ (s : State) (m : Fin 48) (u : Bool), s.atRest = true →
    ((s.job m.val u).rb ≠ .back ∨ (s.job m.val u).st = .draining ∨ (s.job m.val u).work = none) →
    exec (.segmentComplete m u) s = .next s) ∧
  (∀ (s : State) (m : Fin 48) (u : Bool) (k n : Nat) (c : Cmd) (why : SegFail), runs s m.val u k n c →
    ((s.chan k).st = .active ∨ (s.chan k).st = .parked ∨ (s.chan k).st = .halted) → free s k →
    ∃ t, exec (.segmentFail m u why) s = .next t ∧ (t.chan k).st = .error ∧
      (t.chan k).code = (match why with | .timeout => 0x41 | .poison => 0xC1 | .forbidden => 0x07 | .masterDisabled => 0x42) ∧
      (t.chan k).faultSeq = (if c.inl then 0 else c.seq) ∧ (t.chan k).faultInline = c.inl ∧ others s t k ∧
      (∀ m' u', (s.job m' u').work = some (.chan k n) → (t.job m' u').st = .draining ∧ (t.job m' u').stopped = true) ∧
      (∀ y ∈ (t.chan k).cmds, y.num = n → y.st = .ended) ∧
      s.onlyChanges t [.mov, .dbl, .xlt, .noc]
        (if (s.chan k).cmds.any ((s.chan k).isLate s.glb.time) then [(pgDBL, (s.chan k).part, 6)] else [])) ∧
  (∀ (s : State) (m : Fin 48) (u : Bool) (why : SegFail), s.atRest = true → (s.job m.val u).st = .draining →
    (why ≠ .timeout ∨ ∀ r ∈ s.noc.reqs, r.for_.isJob m.val u = false) → exec (.segmentFail m u why) s = .next s) ∧
  (∀ (s : State) (m : Fin 48) (u : Bool) (r : NocReq) (ep : BitVec 32), s.atRest = true → (s.job m.val u).st = .draining →
    s.noc.reqs.find? (fun r => r.for_.isJob m.val u) = some r → r.for_ = .write m.val u ep →
    ∃ t, exec (.segmentFail m u .timeout) s = .next t ∧
      t.job m.val u = { s.job m.val u with writes := (s.job m.val u).writes.erase (false, ep) } ∧ onlyJob s t m.val u ∧
      t.noc = { s.noc with reqs := s.noc.reqs.erase r } ∧ t.out = s.out ∧ s.onlyChanges t [.mov, .noc]) ∧
  (∀ (s : State) (m : Fin 48) (u : Bool) (k n : Nat), s.atRest = true → (s.job m.val u).st = .draining → (s.job m.val u).quiet = true →
    (s.job m.val u).work = some (.chan k n) → (∀ m' u', (m', u') ≠ (m.val, u) → (s.job m' u').work ≠ some (.chan k n)) →
    (s.chan k).resumeHeld = false →
    ∃ t, exec (.stoppedContextIdle m u) s = .next t ∧ t.job m.val u = { stopped := true } ∧ onlyJob s t m.val u ∧
      t.chan k = { s.chan k with cmds := (s.chan k).cmds.filter fun x => !(x.num = n && x.st = .ended) } ∧ others s t k ∧ t.out = s.out ∧
      s.onlyChanges t [.mov, .dbl]) ∧
  (∀ (s : State) (m : Fin 48) (u : Bool), s.atRest = true → ((s.job m.val u).st ≠ .draining ∨ (s.job m.val u).quiet = false) →
    exec (.stoppedContextIdle m u) s = .next s) ∧
  (∀ (s : State) (k : Slot) (x : Cmd), s.atRest = true → (s.chan k.toNat).cmds.find? (fun y => y.st = .dispatched && y.op = 0x08) = some x →
    (∀ y ∈ (s.chan k.toNat).cmds, y.num = x.num → y = x) → (s.chan k.toNat).resumeHeld = false →
    if x.fenceSent = true ∧ x.fenceOut = 0 ∧ (s.chan k.toNat).fenceClear x = true then
      ∃ t, exec (.fenceHeld k) s = .next t ∧
        t.chan k.toNat = { s.chan k.toNat with
          cmds := (s.chan k.toNat).cmds.filter (·.num ≠ x.num) } ∧
        others s t k.toNat ∧ pulsed s t k.toNat x.cpl ∧ s.onlyChanges t [.dbl, .syn, .cht]
    else exec (.fenceHeld k) s = .next s)

/-- At a Reed slot's boundary each binding of a channel or a partition to a path gains its share's growth, up to its depth; the shares written become
those in force; the bytes counted in the slot are zero again (R136, R137). A credit whose macro is lost stays 0 (18_stored_data_protection.md R370).
Nothing else changes. -/
def Obligations.ReedGrows : Prop :=
  ∀ s : State, s.atRest = true →
    ∃ t, exec .reedSlotBoundary s = .next t ∧
      (∀ k p, p < 23 → s.macroLost 0x10 (chanCreditKey (k * 23 + p)) = false → t.chanCredit k p = min (s.chanCredit k p + reedGrowth (s.chan k).share p) (reedDepth (s.chan k).share p)) ∧
      (∀ k p, p < 23 → s.macroLost 0x10 (chanCreditKey (k * 23 + p)) = true → s.chanCredit k p = 0 → t.chanCredit k p = 0) ∧
      (∀ q p, p < 23 → s.macroLost 0x10 (partCreditKey (q * 23 + p)) = true → s.partCredit q p = 0 → t.partCredit q p = 0) ∧
      (∀ q p, p < 23 → s.macroLost 0x10 (partCreditKey (q * 23 + p)) = false → t.partCredit q p =
        min (s.partCredit q p + reedGrowth (tabGet shareDflt s.mov.partShare (q * 23 + p)) p)
          (reedDepth (tabGet shareDflt s.mov.partShare (q * 23 + p)) p)) ∧
      (∀ k, t.chan k = { s.chan k with shareNow := (s.chan k).share }) ∧ t.dbl.mgmt = s.dbl.mgmt ∧
      t.mov = { s.mov with
        slotBytes := [], planBytes := [], overSlot := [], partNow := s.mov.partShare
        slotNo := (s.glb.time.toNat + s.cht.frameOffset.toNat) / 256 % 1024
        chanCredit := t.mov.chanCredit, partCredit := t.mov.partCredit } ∧
      t.out = s.out ∧ s.onlyChanges t [.mov, .dbl]

/-! ## Translation -/

/-- A client's request joins the lookups, is refused with 0x25 when the client is disabled, and breaks the protocol with ACCESS 3 (R97). A lookup of a client,
mover or Skink waits for the grant of its L2T bank (17_arbiters.md R357). One that hits is answered, or its ring slot is asked of the home; one of an unbound
ASID fails; a miss waits for a walker (R90 to R94). The oldest miss that can go on gets a free walker, which asks the home for the root entry's line (R91, R93); a table entry leads to the next line; a leaf with the rights ends the walk with its page; a line that failed, or came poisoned,
fails with 0x26, and one that could not be asked for with its own code; a locked entry parks the request (R84 to R99), which LOCK_RETRY looks up again and
LOCK_LIMIT fails with 0x29, a later one that joined it waiting on; a walker that keeps such an entry in place reads it again, or fails with 0x29 (R96). The home's answer stands in the state for
ENTRY_LINE_RETURN (log entry 98). -/
def Obligations.TranslationsAreServed : Prop :=
  let sends (t : State) (o : P4Msg) : Prop := (.p4 o) ∈ t.out ∨ (.p4 o) ∈ t.noc.wait
  let fails (c tag : Nat) (code : Code) : P4Msg := .xltAns c tag code false 0 0 0
  let gives (c tag : Nat) (g : Page) (a : Word) : P4Msg :=
    .xltAns c tag 0 g.device (if g.size = 12 then 0 else if g.size = 16 then 1 else 2)
      (BitVec.ofNat 3 (g.r.toNat + 2 * g.w.toNat + 4 * g.at_.toNat)) a
  let still (s : State) : Prop := ∀ p, (s.skkPart p).en = false
  let open_ (s : State) (x : XReq) (b : Binding) : Prop :=
    s.binding? x.asid = some b ∧ b.part = x.part ∧ b.closing = false ∧ canonical (s.profile b.prof).vaBits x.va = true
  let entry (w : Walk) : Word := w.table + BitVec.ofNat 64 (8 * field w.req.va (levelSize w.level + 8) (levelSize w.level))
  let line (a : Word) : Word := a &&& 0xFFFFFFFFFFFFFFC0
  let asked (s t : State) (u : UnitFor) (op : String) (a : Word) : Prop :=
    t.out = s.out ++ [.d2hReq ((s.cacheLink (line a)).getD 0) op (line a)] ∧ (t.line (lineOf a)).asks u = true
  let fresh (s : State) : Prop := s.home = {} ∧ s.hlk.remap = none
  let reachable (s : State) (a : Word) : Prop := fresh s ∧ (s.cacheLink (line a)).isSome = true ∧ 0 < s.dirWays (lineOf a)
  let readable (s : State) (x : Walk) (a : Word) : Prop := x.inRange 0 a 8 = true ∧ s.masterEnabled x.req.part = true ∧ reachable s a
  let reading (s : State) (x : Walk) : Walk := { x with at_ := .line, no := s.xlt.walkNo + 1 }
  let walkers (s t : State) (w : Nat) (x : Option Walk) : Prop := t.walker w = x ∧ ∀ v, v ≠ w → t.walker v = s.walker v
  let recorded (s t : State) (p : Nat) (more : List Region) : Prop :=
    ∃ l, s.onlyChanges t ([.xlt, .home] ++ more) l ∧ ∀ e ∈ l, e = (pgXLT, p, 1) ∨ e = (pgHLK, 0, 4)
  let granted (s : State) (x : XReq) : Prop := ∀ i, x.l2tIndex = some i →
    let b := l2tBankOf x.asid x.va
    (s.arbiter (0x1B + b)).holder = some i ∨
      ((s.arbCycle (0x1B + b) (s.l2tRequests b) (s.l2tRequests b)).arbiter (0x1B + b)).holder = some i
  let stuck (s : State) (e : Engine) (x : XReq) : Prop :=
    s.freeWalker e x.part x.avoid = none ∧ (x.searches = true ∨ ∀ w k, s.walkFor x = some (w, k) → s.mergeMax ≤ k.joiners.length)
  let records (s : State) (p : Nat) : Prop := s.canWrite false p = true → fresh s
  (∀ (s : State) (c : BitVec 10) (tag : BitVec 12) (asid : BitVec 20) (acc : BitVec 2) (va : Word), s.atRest = true → s.creditsSpent 4 .req < 64 →
    (acc = 3 → ∃ t, exec (.xltReq c tag asid acc va) s = .next t ∧ s.onlyChanges t [] [(pgGLB, 0, 5)]) ∧
    (acc ≠ 3 → (s.client c.toNat).en = true → ∃ t, exec (.xltReq c tag asid acc va) s = .next t ∧
      t.xlt = { s.xlt with lookups := s.xlt.lookups ++ [{ who := .client c.toNat tag.toNat, part := (s.client c.toNat).part
                                                          asid := asid.toNat, access := acc, va := va }] } ∧
      t.out = s.out ∧ s.onlyChanges t [.xlt]) ∧
    (acc ≠ 3 → (s.client c.toNat).en = false → records s (s.client c.toNat).part →
      ∃ t, exec (.xltReq c tag asid acc va) s = .next t ∧ sends t (fails c.toNat tag.toNat 0x25) ∧ t.xlt = { s.xlt with fq := t.xlt.fq } ∧
        recorded s t (s.client c.toNat).part [])) ∧
  (∀ (s : State) (k : Nat), s.atRest = true → s.xlt.lookups[k]? = none → exec (.l2tLookup k) s = .next s) ∧
  (∀ (s : State) (k : Nat) (x : XReq), s.atRest = true → s.xlt.lookups[k]? = some x → ¬ granted s x →
    ∃ t, exec (.l2tLookup k) s = .next t ∧ t.out = s.out ∧ s.onlyChanges t [.arb]) ∧
  (∀ (s : State) (k c tag set w : Nat) (x : XReq) (b : Binding) (g : Page), s.atRest = true → still s → s.xlt.lookups[k]? = some x →
    x.who = .client c tag → granted s x → open_ s x b → s.l2tFind x.asid x.va = some (set, w, g) → g.serves x.access = true → g.device = false →
    g.size ≤ 21 →
    ∃ t, exec (.l2tLookup k) s = .next t ∧ sends t (gives c tag g g.addr) ∧
      t.xlt = { s.xlt with lookups := s.xlt.lookups.eraseIdx k, plru := t.xlt.plru } ∧
      (∀ i, tabGet (fun _ => 0) t.xlt.plru i =
        if i = set then plruTouch (tabGet (fun _ => 0) s.xlt.plru i) w else tabGet (fun _ => 0) s.xlt.plru i) ∧ s.onlyChanges t [.xlt, .arb]) ∧
  (∀ (s : State) (k slot set w : Nat) (pos : BitVec 32) (x : XReq) (b : Binding) (g : Page), s.atRest = true →
    s.xlt.lookups[k]? = some x → x.who = .ring slot pos → x.access = 0 → pos ∈ (s.chan slot).want → s.served slot = true → open_ s x b →
    s.l2tFind x.asid x.va = some (set, w, g) → g.serves 0 = true → g.device = false → s.masterEnabled (s.chan slot).part = true →
    reachable s (g.at x.va) →
    ∃ t, exec (.l2tLookup k) s = .next t ∧
      t.chan slot = { s.chan slot with want := (s.chan slot).want.erase pos, reads := (s.chan slot).reads ++ [pos] } ∧
      (∀ j, j ≠ slot → t.chan j = s.chan j) ∧ t.dbl.mgmt = s.dbl.mgmt ∧
      asked s t (.ringRead (s.chan slot).owner slot pos (s.chan slot).fetchNo) "RdCurr" (g.at x.va) ∧
      s.onlyChanges t [.xlt, .dbl, .home]) ∧
  (∀ (s : State) (k c tag : Nat) (x : XReq), s.atRest = true → s.xlt.lookups[k]? = some x → x.who = .client c tag →
    granted s x → s.binding? x.asid = none → records s x.part →
    ∃ t, exec (.l2tLookup k) s = .next t ∧ sends t (fails c tag 0x25) ∧
      t.xlt = { s.xlt with lookups := s.xlt.lookups.eraseIdx k, fq := t.xlt.fq } ∧ recorded s t x.part [.arb]) ∧
  (∀ (s : State) (k : Nat) (x : XReq) (b : Binding), s.atRest = true → s.xlt.lookups[k]? = some x → granted s x → s.wanted x = true →
    open_ s x b → s.l2tFind x.asid x.va = none → s.walkFor x = none → (s.missQ (s.missEngine x)).length < Config.missQueue →
    ∃ t, exec (.l2tLookup k) s = .next t ∧ t.missQ (s.missEngine x) = s.missQ (s.missEngine x) ++ [x] ∧
      t.missQ (s.missEngine x).other = s.missQ (s.missEngine x).other ∧ t.out = s.out ∧
      t.xlt = { s.xlt with lookups := s.xlt.lookups.eraseIdx k, missA := t.xlt.missA, missB := t.xlt.missB } ∧ s.onlyChanges t [.xlt, .arb]) ∧
  (∀ (s : State) (e : Engine), s.atRest = true → (s.engineSt e ≠ .serving ∨ ∀ x ∈ s.missQ e, stuck s e x) →
    exec (.walkerAllocate e) s = .next s) ∧
  (∀ (s : State) (e : Engine) (older : List XReq) (x : XReq) (rest : List XReq) (b : Binding) (w : Nat), s.atRest = true →
    s.engineSt e = .serving → s.missQ e = older ++ x :: rest → (∀ y ∈ older, stuck s e y) → s.wanted x = true → s.walkFor x = none →
    s.freeWalker e x.part x.avoid = some w → open_ s x b →
    (x.root = true ∨
      s.walkFind x.asid x.va (fun y => match y.leaf with | some g => !x.searches && g.serves x.access | none => true) = none) →
    let k : Walk := { req := x, part := x.part, level := (s.profile b.prof).levels - 1, table := b.root, epoch := b.epoch
                      ranges := s.rangesOf x.part 0 ++ s.rangesOf x.part 1 }
    readable s k (entry k) →
    ∃ t, exec (.walkerAllocate e) s = .next t ∧ walkers s t w (some (reading s k)) ∧ t.missQ e = older ++ rest ∧ t.missQ e.other = s.missQ e.other ∧
      asked s t (.walkLine w (s.xlt.walkNo + 1)) "RdShared" (entry k) ∧ s.onlyChanges t [.xlt, .home]) ∧
  (∀ (s : State) (w : Fin 64), s.atRest = true → exec (.entryLineReturn w) s = .next s) ∧
  (∀ (s : State) (w : Fin 64) (code : Code) (g : Granule) (x : Walk) (c tag : Nat), s.atRest = true → s.walker w.val = some x →
    x.at_ = .line → x.discard = false → x.req.who = .client c tag → x.joiners = [] → code ≠ 0 → s.masterEnabled x.req.part = true →
    records s x.req.part →
    ∃ t, exec (.entryLineReturn w) (s.withAnswer (.walkLine w.val x.no) code g) = .next t ∧ walkers s t w.val none ∧
      sends t (fails c tag (if code = 0x41 ∨ code = 0xC1 then 0x26 else code)) ∧ recorded s t x.req.part []) ∧
  (∀ (s : State) (w : Fin 64) (g : Granule) (x : Walk) (b : Binding), s.atRest = true → s.walker w.val = some x →
    x.at_ = .line → x.discard = false → s.binding? x.req.asid = some b → s.masterEnabled x.req.part = true →
    (∀ n, x.req.who ≠ .skink n) →
    let a := s.withAnswer (.walkLine w.val x.no) 0 g
    let v := granWord g (8 * field (entry x) 5 3)
    let j := (s.profile b.prof).judge b x.req.va v x.level
    (∀ p, j = .table p → let y : Walk := { x with level := x.level - 1, table := p, last := some (x.level, v, entry x) }
      readable s y (entry y) →
      ∃ t, exec (.entryLineReturn w) a = .next t ∧ walkers s t w.val (some (reading s y)) ∧
        asked s t (.walkLine w.val (s.xlt.walkNo + 1)) "RdShared" (entry y) ∧ s.onlyChanges t [.xlt, .home]) ∧
    (∀ q c tag, j = .leaf q → x.level = 0 → x.joiners = [] → x.req.who = .client c tag → q.device = false →
      x.leafInRange q = true → q.lacks x.req.access = 0 → (s.profile b.prof).updated v x.req.access = v → still s →
      ∃ t, exec (.entryLineReturn w) a = .next t ∧ walkers s t w.val none ∧ sends t (gives c tag q q.addr) ∧
        t.xlt.locks = s.xlt.locks ∧ t.xlt.lookups = s.xlt.lookups ∧ s.onlyChanges t [.xlt]) ∧
    (j = .stall → s.xlt.locks.length < Config.lockWaits → x.joiners = [] →
      ∃ t, exec (.entryLineReturn w) a = .next t ∧ walkers s t w.val none ∧
        t.xlt.locks = s.xlt.locks ++ [{ req := { x.req with since := some (x.req.since.getD s.glb.time) }, line := line (entry x)
                                        entry := v, entryAddr := entry x, level := x.level, engine := walkerEngine w.val }] ∧
        s.onlyChanges t [.xlt])) ∧
  (∀ (s : State) (k : Nat), s.atRest = true → s.xlt.locks.length + s.inPlace.length ≤ k →
    exec (.lockRetry k) s = .next s ∧ exec (.lockLimit k) s = .next s) ∧
  (∀ (s : State) (k : Nat) (l : LockWait), s.atRest = true → s.xlt.locks[k]? = some l →
    ∃ t, exec (.lockRetry k) s = .next t ∧ t.out = s.out ∧ s.onlyChanges t [.xlt] ∧
      t.xlt = { s.xlt with lookups := s.xlt.lookups ++ l.req :: l.joiners, locks := t.xlt.locks } ∧
      t.xlt.locks.length + 1 = s.xlt.locks.length) ∧
  (∀ (s : State) (k c tag : Nat) (l : LockWait), s.atRest = true → s.xlt.locks[k]? = some l → l.req.who = .client c tag →
    l.joiners = [] → records s l.req.part →
    ∃ t, exec (.lockLimit k) s = .next t ∧ sends t (fails c tag 0x29) ∧
      t.xlt = { s.xlt with locks := s.xlt.locks.eraseIdx k, fq := t.xlt.fq } ∧ recorded s t l.req.part []) ∧
  (∀ (s : State) (k c tag : Nat) (l : LockWait) (y : XReq) (from_ later : Word), s.atRest = true → s.xlt.locks[k]? = some l →
    l.req.who = .client c tag → l.joiners = [y] → l.req.since = some from_ → y.since = some later →
    (s.glb.time - later).toNat < (s.glb.time - from_).toNat → records s l.req.part →
    ∃ t, exec (.lockLimit k) s = .next t ∧ sends t (fails c tag 0x29) ∧
      t.xlt = { s.xlt with locks := s.xlt.locks.set k { l with req := y, joiners := [] }, fq := t.xlt.fq } ∧ recorded s t l.req.part []) ∧
  (∀ (s : State) (k w : Nat) (x : Walk), s.atRest = true → s.inPlace[k]? = some (w, x) → s.walker w = some x → x.discard = false →
    (readable s x (entry x) →
      ∃ t, exec (.lockRetry (s.xlt.locks.length + k)) s = .next t ∧ walkers s t w (some (reading s x)) ∧
        asked s t (.walkLine w (s.xlt.walkNo + 1)) "RdShared" (entry x) ∧ s.onlyChanges t [.xlt, .home]) ∧
    (∀ c tag, x.req.who = .client c tag → x.joiners = [] → records s x.req.part →
      ∃ t, exec (.lockLimit (s.xlt.locks.length + k)) s = .next t ∧ walkers s t w none ∧ sends t (fails c tag 0x29) ∧
        recorded s t x.req.part []))

/-- BIND binds an ASID with its root and profile at epoch 1, or gives the result of the first check that fails (R81). UNBIND closes the binding,
moves its epoch and withdraws its pages; its completion removes the binding. A range is written for the partition and index selected (R88). HEAD of
a record queue moves within what is written, else sets its sticky bit; BASE and SIZE empty the queue, and they and a host range's write clear ENABLE where
the queue lies outside the partition's host ranges (R102); a device range's write marks a pool outside them bad (05_invalidation_and_placement.md R116). A record observed moves TAIL and raises the queue's event; one whose write failed is dropped
and counted (R103). The home's answer to the record's write stands in the state for these rows (log entry 98). -/
def Obligations.BindingsAndQueues : Prop :=
  let headOf (notice : Bool) (fn : Fn) (v : Word) : Instr := if notice then .skkNqHead fn v else .xltFqHead fn v
  let baseOf (notice : Bool) (fn : Fn) (size : Bool) (v : Word) : Instr := if notice then .skkNqBase fn size v else .xltFqBase fn size v
  let seenOf (notice : Bool) (p : Fn) : Instr := if notice then .skinkNoticeObserved p else .faultRecordObserved p
  let others (s t : State) (notice : Bool) (p : Nat) : Prop :=
    (∀ n k, (n, k) ≠ (notice, p) → t.queue n k = s.queue n k) ∧ t.xlt = { s.xlt with fq := t.xlt.fq } ∧ t.skk = { s.skk with nq := t.skk.nq }
  let lies (s : State) (notice : Bool) (p : Nat) : Bool :=
    s.inRanges p 0 ((s.queue notice p).base &&& 0xFFFFFFFFFFFFF000) (64 * (s.queue notice p).n)
  let asked (s t : State) (fn asid : Nat) (r : BitVec 3) (binds : List Binding) : Prop :=
    t.bindRegs fn = { s.bindRegs fn with asid := asid, result := r } ∧ (∀ f, f ≠ fn → t.bindRegs f = s.bindRegs f) ∧
      t.xlt = { s.xlt with binds := binds, bind := t.xlt.bind } ∧ t.out = s.out ∧ s.onlyChanges t [.xlt]
  (∀ (s : State) (fn : Fn) (asid : BitVec 20), s.viewOpen fn.toNat = true →
    let r := (s.bindRegs fn.toNat).root
    let root := r &&& 0xFFFFFFFFFFFFF000
    if (s.bindRegs fn.toNat).busy then
      (∃ t, exec (.bind fn asid) s = .next t ∧ s.onlyChanges t [] [(pgXLT, fn.toNat, 5)]) ∧
      ∃ t, exec (.unbind fn asid) s = .next t ∧ s.onlyChanges t [] [(pgXLT, fn.toNat, 5)]
    else ∃ t, exec (.bind fn asid) s = .next t ∧
      (if (s.part fn.toNat).st ≠ .enabled then asked s t fn.toNat asid.toNat 7 s.xlt.binds
       else if (s.binding? asid.toNat).isSome then asked s t fn.toNat asid.toNat 1 s.xlt.binds
       else if (s.profile (field r 10 8)).valid = false then asked s t fn.toNat asid.toNat 4 s.xlt.binds
       else if s.inRange fn.toNat 0 root 4096 = false then asked s t fn.toNat asid.toNat 5 s.xlt.binds
       else if s.asidMax fn.toNat ≤ s.asidCount fn.toNat then asked s t fn.toNat asid.toNat 6 s.xlt.binds
       else if Config.bindings ≤ s.xlt.binds.length ∨ s.macroLost 0x10 (bindKey asid.toNat) = true then asked s t fn.toNat asid.toNat 3 s.xlt.binds
       else asked s t fn.toNat asid.toNat 0
        (s.xlt.binds ++ [{ asid := asid.toNat, part := fn.toNat, root := root, prof := field r 10 8, sup := bit r 4, epoch := 1 }]))) ∧
  (∀ (s : State) (fn : Fn) (asid : BitVec 20), s.viewOpen fn.toNat = true → (s.bindRegs fn.toNat).busy = false →
    (s.binding? asid.toNat = none → ∃ t, exec (.unbind fn asid) s = .next t ∧ asked s t fn.toNat asid.toNat 2 s.xlt.binds) ∧
    (∀ b, s.binding? asid.toNat = some b → b.part = fn.toNat → b.closing = false →
      (s.dbl.chan.any (fun e => e.2.st ≠ .free && e.2.asid = asid.toNat) = true →
        ∃ t, exec (.unbind fn asid) s = .next t ∧ asked s t fn.toNat asid.toNat 1 s.xlt.binds) ∧
      (s.dbl.chan.any (fun e => e.2.st ≠ .free && e.2.asid = asid.toNat) = false → (∀ p, (s.skkPart p).en = false) →
        (∀ x ∈ s.mov.stray, x.asked = true) →
        ∃ t, exec (.unbind fn asid) s = .next t ∧
          t.bindRegs fn.toNat = { s.bindRegs fn.toNat with asid := asid.toNat, result := 0, busy := true } ∧
          t.xlt.binds = s.xlt.binds.map (fun x => if x.asid = asid.toNat then { x with closing := true, epoch := x.epoch + 1 } else x) ∧
          (∃ v, t.xlt.invs = s.xlt.invs.filter (·.id ≠ s.xlt.nextInv) ++ [v] ∧ v.from_ = .unbind fn.toNat ∧ v.begun = true ∧
            v.asids = [(asid.toNat, b.epoch)] ∧ v.clients = s.clientsOf fn.toNat) ∧
          (∀ i g, tabGet (fun _ => none) t.xlt.l2t i = some g → g.asid ≠ asid.toNat ∧ tabGet (fun _ => none) s.xlt.l2t i = some g) ∧
          s.onlyChanges t [.xlt]))) ∧
  (∀ (s : State) (fn : Fn) (v : Inv), s.atRest = true → s.drainedFrom (.unbind fn.toNat) = some v →
    ∃ t, exec (.unbindComplete fn) s = .next t ∧
      t.bindRegs fn.toNat = { s.bindRegs fn.toNat with busy := false } ∧
      t.xlt = { s.xlt with
        invs := s.xlt.invs.filter (·.id ≠ v.id), binds := s.xlt.binds.filter (fun b => !v.asids.any (·.1 = b.asid)), bind := t.xlt.bind } ∧
      t.out = s.out ∧ s.onlyChanges t [.xlt]) ∧
  (∀ (s : State) (fn : Fn), s.atRest = true → s.drainedFrom (.unbind fn.toNat) = none → exec (.unbindComplete fn) s = .next s) ∧
  (∀ (s : State) (limit : Bool) (v : Word), s.hostOpen 0 = true →
    let p := field s.xlt.psel 5 0
    let k := p * 16 + field s.xlt.psel 8 8 * 8 + field s.xlt.psel 18 16
    let host := !bit s.xlt.psel 8
    let lo := field (s.skkPart p).poolBase 63 16 * 65536
    let bad (t : State) : Bool := !host && bit (s.skkPart p).poolBase 0 &&
      !t.inRanges p 1 (BitVec.ofNat 64 lo) ((field (s.skkPart p).poolLimit 63 16 + 1) * 65536 - lo)
    ∃ t, exec (.xltPrange limit v) s = .next t ∧
      (∀ i, tabGet prangeDflt t.xlt.range i = if i = k then
        (if limit then { tabGet prangeDflt s.xlt.range i with limit := v &&& 0xFFFFFFFFFFFFF000 }
         else { tabGet prangeDflt s.xlt.range i with base := v &&& 0xFFFFFFFFFFFFF001 }) else tabGet prangeDflt s.xlt.range i) ∧
      (∀ n j, t.queue n j = if host = true ∧ j = p ∧ lies t n p = false then { s.queue n j with base := (s.queue n j).base &&& 0xFFFFFFFFFFFFFFFE }
        else s.queue n j) ∧
      (∀ j, t.skkPart j = if j = p ∧ bad t = true then { s.skkPart j with poolBad := true } else s.skkPart j) ∧
      t.xlt = { s.xlt with range := t.xlt.range, fq := t.xlt.fq } ∧ t.skk = { s.skk with nq := t.skk.nq, part := t.skk.part } ∧
      s.onlyChanges t [.xlt, .skk] ((if bad t then [(pgSKK, 0, 6)] else []) ++
        (if host && !lies t false p then [(pgXLT, p, 4)] else []) ++ if host && !lies t true p then [(pgSKK, p, 2)] else [])) ∧
  (∀ (s : State) (notice : Bool) (fn : Fn) (v : Word), s.viewOpen fn.toNat = true →
    let q := s.queue notice fn.toNat
    let h := field v 16 0
    if h < 2 * q.n ∧ (h + 2 * q.n - q.head) % (2 * q.n) ≤ (q.tail + 2 * q.n - q.head) % (2 * q.n) then
      (q.flight.isSome = true ∨ (q.overflow = 0 ∧ q.waiting = [])) → ∃ t, exec (headOf notice fn v) s = .next t ∧
        t.queue notice fn.toNat = { q with head := h, sumHeld := false } ∧ others s t notice fn.toNat ∧ t.out = s.out ∧
        s.onlyChanges t [if notice then .skk else .xlt]
    else ∃ t, exec (headOf notice fn v) s = .next t ∧ s.onlyChanges t [] [(queuePage notice, fn.toNat, 3)]) ∧
  (∀ (s : State) (notice size : Bool) (fn : Fn) (v : Word), s.viewOpen fn.toNat = true →
    let q := s.queue notice fn.toNat
    let q1 := { q with head := 0, tail := 0, sumHeld := false, base := if size then q.base else v &&& 0xFFFFFFFFFFFFF001
                       size := if size then v.setWidth 5 else q.size }
    let out := !s.inRanges fn.toNat 0 (q1.base &&& 0xFFFFFFFFFFFFF000) (64 * q1.n)
    q.flight = none → q.overflow = 0 → q.waiting = [] →
    ∃ t, exec (baseOf notice fn size v) s = .next t ∧
      t.queue notice fn.toNat = (if out then { q1 with base := q1.base &&& 0xFFFFFFFFFFFFFFFE } else q1) ∧
      others s t notice fn.toNat ∧
      s.onlyChanges t [if notice then .skk else .xlt] (if out then [(queuePage notice, fn.toNat, if notice then 2 else 4)] else [])) ∧
  (∀ (s : State) (notice : Bool) (p : Fn), s.atRest = true →
    exec (seenOf notice p) s = .next s ∧ exec (.faultRecordWriteFail p notice) s = .next s) ∧
  (∀ (s : State) (notice : Bool) (p : Fn) (r : Record) (g : Granule), s.atRest = true → (s.queue notice p.toNat).flight = some r →
    (s.queue notice p.toNat).stale = false → (s.queue notice p.toNat).overflow = 0 → (s.queue notice p.toNat).waiting = [] →
    ∃ t, exec (seenOf notice p) (s.withAnswer (.record notice p.toNat) 0 g) = .next t ∧
      t.queue notice p.toNat = { s.queue notice p.toNat with
        flight := none, tail := ((s.queue notice p.toNat).tail + 1) % (2 * (s.queue notice p.toNat).n) } ∧
      ((s.src (queueSource notice p.toNat)).en = true → (t.src (queueSource notice p.toNat)).pending = true) ∧
      others s t notice p.toNat ∧ s.onlyChanges t [if notice then .skk else .xlt]) ∧
  (∀ (s : State) (notice : Bool) (p : Fn) (r : Record) (g : Granule), s.atRest = true → (s.queue notice p.toNat).flight = some r →
    r.summary = false → r.ticket = 0 → (s.queue notice p.toNat).waiting = [] → bit (s.queue notice p.toNat).base 0 = false →
    ∀ code : Code, code ≠ 0 → ∃ t, exec (.faultRecordWriteFail p notice) (s.withAnswer (.record notice p.toNat) code g) = .next t ∧
      (let q := s.queue notice p.toNat
       t.queue notice p.toNat = { q with
        flight := none, stale := false, lastCode := r.code, lastTime := r.time, overflow := satInc q.overflow
        firstCode := if q.overflow = 0 then r.code else q.firstCode, firstTime := if q.overflow = 0 then r.time else q.firstTime }) ∧
      others s t notice p.toNat ∧
      s.onlyChanges t [if notice then .skk else .xlt]
        (if notice then [(pgSKK, p.toNat, 1)] else [(pgXLT, p.toNat, 1), (pgXLT, p.toNat, 2)]))

/-- A submission queues a descriptor of the function, at most 16 (R105). INV_BEGIN takes the oldest, asking the home for it where it may be read, else dropping
it with the sticky bit; it takes none while 64 submitted ones are in progress. The descriptor's scope then names ASIDs and range: each is moved to its next
epoch, its pages withdrawn, its clients told (R106, R110); a bad scope, an ASID not bound or a length of 0 is answered with its reason, and a descriptor
whose read failed is dropped with the sticky bit. An acknowledgment takes one client off (R111); when the limit passes, clients still awaited are
disabled (R112); a drained invalidation writes its RESULT (R108). The home's answer to the descriptor's read stands in the state for its rows (log
entry 98). -/
def Obligations.InvalidationsRun : Prop :=
  let still (s : State) : Prop := ∀ p, (s.skkPart p).en = false
  let result (ok : Bool) (reason disabled killed : Nat) : Word :=
    place 1 63 ||| place ok.toNat 62 ||| place reason 40 ||| place (min 255 disabled) 16 ||| place (min 65535 killed) 0
  let line (a : Word) : Word := a &&& 0xFFFFFFFFFFFFFFC0
  let fresh (s : State) : Prop := s.home = {} ∧ s.hlk.remap = none
  let reachable (s : State) (a : Word) : Prop := fresh s ∧ (s.cacheLink (line a)).isSome = true
  let asked (s t : State) (op : String) (a : Word) (r : HomeReq) : Prop :=
    t.out = s.out ++ [.d2hReq ((s.cacheLink (line a)).getD 0) op (line a)] ∧ ∃ x, (t.line (lineOf a)).txn = some x ∧ x.cause = .req r
  let writes (s t : State) (fn : Nat) (event : Bool) (a w : Word) : Prop :=
    asked s t "ItoMWr" a { who := .unit (.invResult fn event), kind := .writeNoAlloc, addr := line a, be := enables (a.toNat % 64) 8
                           data := granOfWords [w] <<< (8 * (a.toNat % 64)), part := fn }
  let waits (s : State) (id fn : Nat) (a : Word) (v : Inv) : Prop :=
    s.atRest = true ∧ s.xlt.invs.find? (fun x => x.id = id && !x.begun) = some v ∧ (∃ e, v.from_ = .desc fn a e) ∧ s.masterEnabled fn = true
  let refused (s t : State) (v : Inv) (fn : Nat) (a : Word) (event : Bool) (reason : Nat) : Prop :=
    t.xlt = { s.xlt with invs := s.xlt.invs.filter (·.id ≠ v.id) } ∧ writes s t fn event (a + 0x38) (result false reason 0 0) ∧
      s.onlyChanges t [.xlt, .home]
  let bound (s : State) (fn : Nat) : List Nat := (s.xlt.binds.filter fun b => b.part = fn && !b.closing).map (·.asid)
  let begun (s t : State) (v : Inv) (fn part : Nat) (a : Word) (event : Bool) (va : Word) (pages : Nat) (asids : List Nat) : Prop :=
    (∃ x, t.xlt.invs = s.xlt.invs.filter (·.id ≠ v.id) ++ [x] ∧ x.id = v.id ∧ x.from_ = .desc fn a event ∧ x.begun = true ∧
      x.va = va ∧ x.pages = pages ∧ x.part = part ∧ x.asids = asids.map (fun k => (k, s.epochOf k)) ∧
      x.clients = (asids.map fun _ => s.clientsOf part).flatten) ∧
    t.xlt.binds = s.xlt.binds.map (fun b => if asids.contains b.asid then { b with epoch := b.epoch + 1 } else b) ∧
    (∀ i g, tabGet (fun _ => none) t.xlt.l2t i = some g → tabGet (fun _ => none) s.xlt.l2t i = some g ∧ (pages = 0 → g.asid ∉ asids)) ∧
    s.onlyChanges t [.xlt]
  let busy (s : State) : Nat := (s.xlt.invs.filter fun v => match v.from_ with | .desc .. => true | _ => false).length
  (∀ (s : State) (fn : Fn) (v : Word), s.viewOpen fn.toNat = true →
    ∃ t, exec (.xltInvSubmit fn v) s = .next t ∧
      if 16 ≤ s.invQueued fn.toNat then s.onlyChanges t [] [(pgXLT, fn.toNat, 7)]
      else t.xlt = { s.xlt with invQueue := s.xlt.invQueue ++ [(fn.toNat, v &&& 0xFFFFFFFFFFFFFFC0)] } ∧ t.out = s.out ∧
        s.onlyChanges t [.xlt]) ∧
  (∀ s : State, s.atRest = true → (s.xlt.invQueue = [] ∨ Config.invMax ≤ busy s) → exec .invBegin s = .next s) ∧
  (∀ (s : State) (fn : Nat) (a : Word) (rest : List (Nat × Word)), s.atRest = true → s.xlt.invQueue = (fn, a) :: rest →
    busy s < Config.invMax →
    (s.masterEnabled fn = true → s.inRanges fn 0 a 64 = true → reachable s a → ∃ t, exec .invBegin s = .next t ∧
      t.xlt = { s.xlt with
        invQueue := rest, nextInv := s.xlt.nextInv + 1
        invs := s.xlt.invs ++ [{ id := s.xlt.nextInv, from_ := .desc fn a false, part := fn }] } ∧
      asked s t "RdCurr" a { who := .unit (.invRead s.xlt.nextInv), kind := .readNoAlloc, addr := line a, part := fn } ∧ s.onlyChanges t [.xlt, .home]) ∧
    ((s.masterEnabled fn = false ∨ s.inRanges fn 0 a 64 = false) → ∃ t, exec .invBegin s = .next t ∧
      t.xlt = { s.xlt with invQueue := rest } ∧ s.onlyChanges t [.xlt] [(pgXLT, fn, 8)])) ∧
  (∀ (s : State) (id : Nat) (i : Instr), s.atRest = true → i ∈ ([.invRange id, .invAsid id, .invPartition id, .badScope id] : List Instr) →
    exec i s = .next s ∧ ∀ (fn : Nat) (a : Word) (v : Inv) (code : Code) (d : Granule), waits s id fn a v → code ≠ 0 →
      ∃ t, exec i (s.withAnswer (.invRead id) code d) = .next t ∧ t.xlt = { s.xlt with invs := s.xlt.invs.filter (·.id ≠ id) } ∧
        s.onlyChanges t [.xlt] [(pgXLT, fn, 8)]) ∧
  (∀ (s : State) (id fn : Nat) (a : Word) (v : Inv) (d : Granule), waits s id fn a v →
    let u := s.withAnswer (.invRead id) 0 d
    let scope := field d 1 0
    let asid := field (granWord d 0x08) 19 0
    let pages := field (granWord d 0x18) 31 0
    let part := if fn = 0 then asid % 64 else fn
    (reachable s (a + 0x38) →
      (scope = 3 → ∃ t, exec (.badScope id) u = .next t ∧ refused s t v fn a (bit d 5) 2) ∧
      (scope = 0 → pages = 0 → ∃ t, exec (.invRange id) u = .next t ∧ refused s t v fn a (bit d 5) 3) ∧
      (scope = 0 → pages ≠ 0 → asid ∉ bound s fn → ∃ t, exec (.invRange id) u = .next t ∧ refused s t v fn a (bit d 5) 1) ∧
      (scope = 1 → asid ∉ bound s fn → ∃ t, exec (.invAsid id) u = .next t ∧ refused s t v fn a (bit d 5) 1)) ∧
    (still s → (∀ x ∈ s.mov.stray, x.asked = true) →
      (scope = 0 → pages ≠ 0 → v.part = fn → asid ∈ bound s fn → ∃ t, exec (.invRange id) u = .next t ∧
        begun s t v fn fn a (bit d 5) (granWord d 0x10 &&& 0xFFFFFFFFFFFFF000) pages [asid]) ∧
      (scope = 1 → v.part = fn → v.va = 0 → v.pages = 0 → asid ∈ bound s fn →
        ∃ t, exec (.invAsid id) u = .next t ∧ begun s t v fn fn a (bit d 5) 0 0 [asid]) ∧
      (scope = 2 → v.va = 0 → v.pages = 0 →
        ∃ t, exec (.invPartition id) u = .next t ∧ begun s t v fn part a (bit d 5) 0 0 (bound s part)))) ∧
  (∀ (s : State) (c : BitVec 10) (id : BitVec 16), s.atRest = true → s.creditsSpent 4 .rsp < 64 →
    (s.xlt.invs.find? (fun v => v.id % 65536 = id.toNat && v.clients.contains c.toNat) = none →
      ∃ t, exec (.xltInvAck c id) s = .next t ∧ s.onlyChanges t [] [(pgGLB, 0, 5)]) ∧
    ∀ v, s.xlt.invs.find? (fun v => v.id % 65536 = id.toNat && v.clients.contains c.toNat) = some v →
      ∃ t, exec (.xltInvAck c id) s = .next t ∧
        t.xlt = { s.xlt with invs := s.xlt.invs.map fun x => if x.id = v.id then { x with clients := x.clients.erase c.toNat } else x } ∧
        t.out = s.out ∧ s.onlyChanges t [.xlt]) ∧
  (∀ (s : State) (id : Nat), s.atRest = true → s.xlt.invs.find? (fun v => v.id = id && v.begun && !v.expired) = none →
    exec (.invDrainExpired id) s = .next s) ∧
  (∀ (s : State) (id : Nat) (v : Inv), s.atRest = true → s.xlt.invs.find? (fun v => v.id = id && v.begun && !v.expired) = some v →
    (∀ h ∈ v.holders, s.holds v h = false) → (∀ p, s.canWrite false p = true → fresh s) →
    ∃ t, exec (.invDrainExpired id) s = .next t ∧ (∀ c ∈ v.clients, (t.client c).en = false) ∧
      (∀ c, c ∉ v.clients → t.client c = s.client c) ∧
      t.xlt.invs = s.xlt.invs.map (fun x => if x.id = id then { x with
        expired := true, ended := decide (dedup v.clients ≠ []), killed := 0, disabled := (dedup v.clients).length, clients := [] } else x) ∧
      t.xlt = { s.xlt with invs := t.xlt.invs, client := t.xlt.client, fq := t.xlt.fq } ∧
      ∃ l, s.onlyChanges t [.xlt, .home] l ∧ ∀ e ∈ l, (e.1 = pgXLT ∧ e.2.2 = 1) ∨ e = (pgHLK, 0, 4)) ∧
  (∀ (s : State) (id fn : Nat) (a : Word) (ev : Bool) (v : Inv), s.atRest = true →
    s.xlt.invs.find? (fun v => v.id = id && s.drained v) = some v → v.from_ = .desc fn a ev → s.masterEnabled fn = true →
    reachable s (a + 0x38) →
    ∃ t, exec (.invalidationComplete id) s = .next t ∧ t.xlt = { s.xlt with invs := s.xlt.invs.filter (·.id ≠ id) } ∧
      writes s t fn ev (a + 0x38) (result (!v.ended) (if v.ended then 4 else 0) v.disabled v.killed) ∧ s.onlyChanges t [.xlt, .home]) ∧
  (∀ (s : State) (id : Nat), s.atRest = true → s.xlt.invs.find? (fun v => v.id = id && s.drained v) = none →
    exec (.invalidationComplete id) s = .next s)

/-! ## Skink -/

/-- HALVING_PASS halves every counter, unless SKK_DECAY is 0 (R114, R125). A hint is taken: a RECALL hint begins the recall of its region, a COOL one has
its region's entries looked for, a PLACE one evaluates its region (R124, R115). An evaluated region that may be placed is asked for with a PLACE_REQUEST,
else skipped. ACCEPT starts the drain, DECLINE and the acknowledgment limit drop the placement with a notice, each only of a placement asked of that
partition (R119, R123). The steps then go one by one: re-read, copy, swap, placed, each with its accesses at the home; a changed entry, a failed copy or
a failed swap writes the entries back and drops the placement with its reason (R119, R123). -/
def Obligations.PlacementsProceed : Prop :=
  let still (s : State) : Prop := ∀ p, (s.skkPart p).en = false
  let fresh (s : State) : Prop := s.home = {} ∧ s.hlk.remap = none
  let line (a : Word) : Word := a &&& 0xFFFFFFFFFFFFFFC0
  let reach (s : State) (a : Word) : Prop := fresh s ∧ (s.cacheLink (line a)).isSome = true ∧ 0 < s.dirWays (lineOf a)
  let asks (s t : State) (op : String) (a : Word) : Prop := (.d2hReq ((s.cacheLink (line a)).getD 0) op (line a)) ∈ t.out
  let slot (s : State) (p : Nat) : Word :=
    ((s.queue true p).base &&& 0xFFFFFFFFFFFFF000) + BitVec.ofNat 64 (64 * ((s.queue true p).tail % (s.queue true p).n))
  let open_ (s : State) (p : Nat) : Prop :=
    s.canWrite true p = true ∧ (s.queue true p).flight = none ∧ (s.queue true p).overflow = 0 ∧ (s.queue true p).waiting = [] ∧
      (s.cacheLink (line (slot s p))).isSome = true
  let ready (s : State) (p : Nat) : Prop := open_ s p ∧ fresh s
  let noted (s t : State) (p kind reason : Nat) : Prop :=
    asks s t "ItoMWr" (slot s p) ∧
      ∃ r, (t.queue true p).flight = some r ∧ field (r.words.headD 0) 7 4 = kind ∧ field (r.words.headD 0) 11 8 = reason
  let may (s : State) (p : Nat) (a : Word) : Prop := s.masterEnabled p = true ∧ reach s a
  let pends (s : State) (k : BitVec 16) (e : Pending) (st : PlaceSt) : Prop := s.atRest = true ∧ s.pend? k.toNat = some e ∧ e.st = st
  let stepped (s t : State) (k : BitVec 16) (f : Pending → Pending) : Prop :=
    t.skk.pending = s.skk.pending.map (fun x => if x.ticket = k.toNat then f x else x) ∧ t.skk.placed = s.skk.placed
  let dropped (s t : State) (k : BitVec 16) : Prop :=
    t.skk.pending = s.skk.pending.filter (·.ticket ≠ k.toNat) ∧ t.skk.placed = s.skk.placed
  let unlocks (s : State) (e : Pending) : List (Nat × Word × Word) :=
    (List.range 16).map fun i => (i, (s.profile e.prof).lockedOf (e.saved.getD i 0), e.saved.getD i 0)
  let undone (s t : State) (k : BitVec 16) (cas : List (Nat × Word × Word)) (why : Nat × Code × BitVec 16) : Prop :=
    stepped s t k fun x => { x with st := .undoing, pages := [], cas := cas, fail := some why }
  (∀ s : State, s.atRest = true → (s.skk.decay = 0 → exec .halvingPass s = .next s) ∧
    (s.skk.decay ≠ 0 → ∃ t, exec .halvingPass s = .next t ∧
      (∀ i, tabGet (fun _ => 0) t.skk.count i = tabGet (fun _ => 0) s.skk.count i >>> 1) ∧ t.skk = { s.skk with count := t.skk.count } ∧
      t.out = s.out ∧ s.onlyChanges t [.skk])) ∧
  (∀ s : State, s.atRest = true → s.skk.hints = [] → exec .hintProcess s = .next s) ∧
  (∀ (s : State) (h : Hint) (rest : List Hint), s.atRest = true → s.skk.hints = h :: rest →
    let r := h.va &&& 0xFFFFFFFFFFFF0000
    (h.kind = 1 → (s.skk.placed.find? fun e => e.part = h.part && e.asid = h.asid && e.va = h.va) = none →
      ∃ t, exec .hintProcess s = .next t ∧ t.skk.hints = rest ∧ t.skk.pending = s.skk.pending ∧ t.skk.placed = s.skk.placed ∧
        (t.skkPart h.part).hintDropped = satInc (s.skkPart h.part).hintDropped ∧ t.out = s.out ∧ s.onlyChanges t [.skk]) ∧
    (∀ e, h.kind = 1 → (s.skk.placed.find? fun e => e.part = h.part && e.asid = h.asid && e.va = h.va) = some e →
      s.placed? e.frame = some e → (e.rcl = .none ∨ e.rcl = .failed) → may s e.part e.entryAddr →
      ∃ t, exec .hintProcess s = .next t ∧ t.skk.hints = rest ∧ t.skk.pending = s.skk.pending ∧
        (t.placed? e.frame).map (·.rcl) = some .locking ∧ (∀ f, f ≠ e.frame → t.placed? f = s.placed? f) ∧
        asks s t "RdOwn" e.entryAddr ∧ s.onlyChanges t [.skk, .home]) ∧
    (h.kind = 2 → ∃ t, exec .hintProcess s = .next t ∧
      t.skk = { s.skk with
        hints := rest, lookNo := s.skk.lookNo + 1
        looks := s.skk.looks ++ [{ id := 65536 + s.skk.lookNo, part := h.part, asid := h.asid, va := r }] } ∧
      t.xlt = { s.xlt with lookups := s.xlt.lookups ++ [{ who := .skink (65536 + s.skk.lookNo), part := h.part, asid := h.asid
                                                          access := 0, va := r }] } ∧
      t.out = s.out ∧ s.onlyChanges t [.skk, .xlt]) ∧
    (h.kind = 0 → (s.skk.pending.any (fun e => e.asid = h.asid && e.va = r) || s.skk.placed.any (fun e => e.asid = h.asid && e.va = r)) = true →
      ∃ t, exec .hintProcess s = .next t ∧ t.skk.hints = rest ∧ t.skk.pending = s.skk.pending ∧ t.skk.placed = s.skk.placed ∧
        (t.skkPart h.part).skipped = satInc (s.skkPart h.part).skipped ∧ t.out = s.out ∧ s.onlyChanges t [.skk]) ∧
    (∀ f, h.kind = 0 → (s.skk.pending.any (fun e => e.asid = h.asid && e.va = r) || s.skk.placed.any (fun e => e.asid = h.asid && e.va = r)) = false →
      s.skk.pending.length < Config.pendingMax → (s.skk.pending.filter (·.part = h.part)).length < (s.skkPart h.part).pendMax.toNat →
      s.freeFrame h.part = (some f, false) → bit (s.queue true h.part).base 0 = true → s.skk.placed.length < Config.placedMax →
      let k : BitVec 16 := if s.skk.ticket = 0xFFFF then 1 else s.skk.ticket + 1
      ∃ t, exec .hintProcess s = .next t ∧
        t.skk = { s.skk with
          hints := rest, ticket := k
          pending := s.skk.pending ++ [{ ticket := k.toNat, part := h.part, asid := h.asid, va := r, frame := f, hinted := true }] } ∧
        t.xlt = { s.xlt with lookups := s.xlt.lookups ++ [{ who := .skink k.toNat, part := h.part, asid := h.asid, access := 0, va := r }] } ∧
        t.out = s.out ∧ s.onlyChanges t [.skk, .xlt])) ∧
  (∀ (s : State) (k : BitVec 16), s.atRest = true → (∀ e, s.pend? k.toNat = some e → e.st ≠ .reading ∨ entriesOf e.lines = none) →
    exec (.skinkEntriesRead k.toNat) s = .next s) ∧
  (∀ (s : State) (k : BitVec 16) (e : Pending) (code : Code) (es : List Word), pends s k e .reading → entriesOf e.lines = some (code, es) →
    let may_ := code = 0 && s.entriesAll e.part e.asid e.va es Profile.placeable
    (may_ = false → ∃ t, exec (.skinkEntriesRead k.toNat) s = .next t ∧ dropped s t k ∧
      (t.skkPart e.part).skipped = satInc (s.skkPart e.part).skipped ∧
      (t.skkPart e.part).hintDropped = (if e.hinted then satInc (s.skkPart e.part).hintDropped else (s.skkPart e.part).hintDropped) ∧
      t.out = s.out ∧ s.onlyChanges t [.skk]) ∧
    (∀ b, may_ = true → s.binding? e.asid = some b → ready s e.part → ∃ t, exec (.skinkEntriesRead k.toNat) s = .next t ∧
      stepped s t k (fun x => { x with st := .asked, saved := es, prof := b.prof }) ∧ noted s t e.part 1 0 ∧ s.onlyChanges t [.skk, .home])) ∧
  (∀ (s : State) (fn : Fn) (k : BitVec 16) (i : Instr), s.viewOpen fn.toNat = true → (i = .accept fn k ∨ i = .decline fn k) →
    (∀ e, s.pend? k.toNat = some e → e.part ≠ fn.toNat ∨ e.st ≠ .asked) →
    ∃ t, exec i s = .next t ∧ s.onlyChanges t [] [(pgSKK, fn.toNat, 4)]) ∧
  (∀ (s : State) (fn : Fn) (k : BitVec 16) (e : Pending), s.viewOpen fn.toNat = true → pends s k e .asked → e.part = fn.toNat →
    (still s → (∀ x ∈ s.mov.stray, x.asked = true) → ∃ t, exec (.accept fn k) s = .next t ∧ stepped s t k (fun x => { x with st := .draining }) ∧
      (∃ v ∈ t.xlt.invs, v.from_ = .migrate k.toNat ∧ v.begun = true ∧ v.va = e.va ∧ v.pages = 16 ∧
        v.asids = (if (s.binding? e.asid).isSome then [(e.asid, s.epochOf e.asid)] else [])) ∧ s.onlyChanges t [.skk, .xlt]) ∧
    (ready s fn.toNat → ∃ t, exec (.decline fn k) s = .next t ∧ dropped s t k ∧ noted s t fn.toNat 3 1 ∧ s.onlyChanges t [.skk, .home])) ∧
  (∀ (s : State) (k : BitVec 16), s.atRest = true → (∀ e, s.pend? k.toNat = some e → e.st ≠ .asked) →
    exec (.ackLimitExpired k) s = .next s) ∧
  (∀ (s : State) (k : BitVec 16) (e : Pending), pends s k e .asked → ready s e.part →
    ∃ t, exec (.ackLimitExpired k) s = .next t ∧ dropped s t k ∧ noted s t e.part 4 0 ∧ s.onlyChanges t [.skk, .home]) ∧
  (∀ (s : State) (k : BitVec 16) (e : Pending) (v : Inv), s.atRest = true → s.pend? k.toNat = some e →
    s.drainedFrom (.migrate k.toNat) = some v → may s e.part e.entryAddr → (s.cacheLink (line (e.entryAddr + 64))).isSome = true →
    ∃ t, exec (.migrationDrainDone k) s = .next t ∧ stepped s t k (fun x => { x with st := .rereading, lines := [] }) ∧
      t.xlt = { s.xlt with invs := s.xlt.invs.filter (·.id ≠ v.id) } ∧ asks s t "RdCurr" e.entryAddr ∧ asks s t "RdCurr" (e.entryAddr + 64) ∧
      s.onlyChanges t [.skk, .xlt, .home]) ∧
  (∀ (s : State) (k : BitVec 16), s.atRest = true → s.drainedFrom (.migrate k.toNat) = none → exec (.migrationDrainDone k) s = .next s) ∧
  (∀ (s : State) (k : BitVec 16) (e : Pending) (code : Code) (es : List Word), pends s k e .rereading → entriesOf e.lines = some (code, es) →
    let p := s.profile e.prof
    let same (i : Nat) : Prop := es.getD i 0 = p.lockedOf (e.saved.getD i 0)
    (code = 0 → (∀ i, i < 16 → same i) → bit s.skk.thermal (frameStack e.frame) = false → e.fail = none → may s e.part (p.hostGranule e.saved 0) →
      ∃ t, exec (.migrationRereadDone k) s = .next t ∧
        stepped s t k (fun x => { x with
          st := .copying, pages := (List.range 16).map fun i => p.hostPage (e.saved.getD i 0) i, at_ := 0, out := some (s.epochOf e.asid) }) ∧
        asks s t "RdCurr" (p.hostGranule e.saved 0) ∧ s.onlyChanges t [.skk, .home]) ∧
    (code = 0 → (∃ i, i < 16 ∧ ¬ same i) → ready s e.part → s.inPlace = [] →
      ∃ t, exec (.migrationRereadDone k) s = .next t ∧ dropped s t k ∧ noted s t e.part 3 2 ∧
        s.onlyChanges t [.skk, .xlt, .home] [(pgSKK, e.part, 7)]) ∧
    (code ≠ 0 → may s e.part e.entryAddr → ∃ t, exec (.migrationRereadDone k) s = .next t ∧ undone s t k (unlocks s e) (3, code, 0) ∧
      asks s t "RdOwn" e.entryAddr ∧ s.onlyChanges t [.skk, .home])) ∧
  (∀ (s : State) (k : BitVec 16), s.atRest = true → (∀ e, s.pend? k.toNat = some e → e.st ≠ .rereading ∨ entriesOf e.lines = none) →
    exec (.migrationRereadDone k) s = .next s) ∧
  (∀ (s : State) (k : BitVec 16) (e : Pending), pends s k e .copying → e.out = none → may s e.part e.entryAddr →
    let p := s.profile e.prof
    (e.fail = none → e.at_ = 1024 → ∃ t, exec (.migrationCopyDone k) s = .next t ∧
      stepped s t k (fun x => { x with st := .swapping, pages := [], cas := (List.range 16).map fun i =>
        (i, p.lockedOf (e.saved.getD i 0), p.placedOf e.frame i (e.saved.getD i 0)) }) ∧
      asks s t "RdOwn" e.entryAddr ∧ s.onlyChanges t [.skk, .home]) ∧
    ∀ why, e.fail = some why → ∃ t, exec (.migrationCopyDone k) s = .next t ∧ undone s t k (unlocks s e) why ∧
      asks s t "RdOwn" e.entryAddr ∧ s.onlyChanges t [.skk, .home]) ∧
  (∀ (s : State) (k : BitVec 16), s.atRest = true → (∀ e, s.pend? k.toNat = some e → e.st ≠ .copying ∨ e.out.isSome = true ∨ (e.fail = none ∧ e.at_ ≠ 1024)) →
    exec (.migrationCopyDone k) s = .next s) ∧
  (∀ (s : State) (k : BitVec 16) (e : Pending), pends s k e .swapping → e.cas = [] →
    let p := s.profile e.prof
    (e.fail = none → ready s e.part → s.inPlace = [] → s.frameLeaves e.frame = false → ∃ t, exec (.migrationCasDone k) s = .next t ∧
      t.skk.pending = s.skk.pending.filter (·.ticket ≠ k.toNat) ∧
      t.skk.placed = s.skk.placed ++ [{ frame := e.frame, part := e.part, asid := e.asid, va := e.va, entryAddr := e.entryAddr
                                        saved := e.saved, prof := e.prof }] ∧ noted s t e.part 2 0 ∧
      t.ras = (s.storeBlock (Config.skinkBlock e.frame)).ras ∧ s.onlyChanges t [.skk, .xlt, .home, .ras]) ∧
    (∀ reason code changed, e.fail = some (reason, code, changed) →
      (e.at_ ≠ 0 → may s e.part e.entryAddr → ∃ t, exec (.migrationCasDone k) s = .next t ∧
        undone s t k ((List.range e.at_).map fun i => (i, p.placedOf e.frame i (e.saved.getD i 0), p.lockedOf (e.saved.getD i 0)))
          (reason, code, changed) ∧ asks s t "RdOwn" e.entryAddr ∧ s.onlyChanges t [.skk, .home]) ∧
      (e.at_ = 0 → e.out = none → code = 0 → reason < 16 → ready s e.part → s.inPlace = [] → ∃ t, exec (.migrationCasDone k) s = .next t ∧
        dropped s t k ∧ noted s t e.part 3 reason ∧ s.onlyChanges t [.skk, .xlt, .home] [(pgSKK, e.part, 7)]))) ∧
  (∀ (s : State) (k : BitVec 16), s.atRest = true → (∀ e, s.pend? k.toNat = some e → e.st ≠ .swapping ∨ e.cas ≠ []) →
    exec (.migrationCasDone k) s = .next s)

/-- RECALL of a placed region of the partition begins its recall; of any other frame it gives notice 6 and sets a sticky bit (R121). RELEASE reads the
region's entries, and gives the frame back when they no longer map it, and otherwise keeps it with a notice (R122). The recall's steps lock, drain, copy
and restore the region, each with its accesses, and end in a notice; a failed one leaves the recall failed (R121, R123). A thermal notice of a stack is
held until it clears (R278, R116). A map-out recalls the channel's regions, is acknowledged when none is left, and ends with its request (R117, R343). -/
def Obligations.RecallsAndStacks : Prop :=
  let still (s : State) : Prop := ∀ p, (s.skkPart p).en = false
  let fresh (s : State) : Prop := s.home = {} ∧ s.hlk.remap = none
  let line (a : Word) : Word := a &&& 0xFFFFFFFFFFFFFFC0
  let reach (s : State) (a : Word) : Prop := fresh s ∧ (s.cacheLink (line a)).isSome = true ∧ 0 < s.dirWays (lineOf a)
  let asks (s t : State) (op : String) (a : Word) : Prop := (.d2hReq ((s.cacheLink (line a)).getD 0) op (line a)) ∈ t.out
  let slot (s : State) (p : Nat) : Word :=
    ((s.queue true p).base &&& 0xFFFFFFFFFFFFF000) + BitVec.ofNat 64 (64 * ((s.queue true p).tail % (s.queue true p).n))
  let open_ (s : State) (p : Nat) : Prop :=
    s.canWrite true p = true ∧ (s.queue true p).flight = none ∧ (s.queue true p).overflow = 0 ∧ (s.queue true p).waiting = [] ∧
      (s.cacheLink (line (slot s p))).isSome = true
  let ready (s : State) (p : Nat) : Prop := open_ s p ∧ fresh s
  let noted (s t : State) (p kind reason : Nat) : Prop :=
    asks s t "ItoMWr" (slot s p) ∧
      ∃ r, (t.queue true p).flight = some r ∧ field (r.words.headD 0) 7 4 = kind ∧ field (r.words.headD 0) 11 8 = reason
  let may (s : State) (p : Nat) (a : Word) : Prop := s.masterEnabled p = true ∧ reach s a
  let held (s : State) (f : BitVec 32) (e : Placed) (st : RecallSt) : Prop :=
    s.atRest = true ∧ s.placed? f.toNat = some e ∧ e.rcl = st
  let stepped (s t : State) (f : BitVec 32) (g : Placed → Placed) : Prop :=
    t.skk.placed = s.skk.placed.map (fun x => if x.frame = f.toNat then g x else x) ∧ t.skk.pending = s.skk.pending
  let gone (s t : State) (f : BitVec 32) : Prop :=
    t.skk.placed = s.skk.placed.filter (·.frame ≠ f.toNat) ∧ t.skk.pending = s.skk.pending
  let now (s : State) (e : Placed) (i : Nat) : Word := e.vals.getD i ((s.profile e.prof).placedOf e.frame i (e.saved.getD i 0))
  let starts (s : State) (e : Placed) (x : Placed) : Placed := { x with
    rcl := .locking, changed := 0, fail := none, vals := (List.range 16).map (now s e)
    cas := (List.range 16).map fun i => (i, now s e i, setSlot (profSlot (s.profile e.prof).bitsB 3) (now s e i) true) }
  let fails (s t : State) (f : BitVec 32) (p reason : Nat) : Prop :=
    stepped s t f (fun x => { x with rcl := .failed, fail := none, cas := [] }) ∧ noted s t p 6 reason
  let inChan (e : Placed) (k c : Nat) : Bool := frameStack e.frame = k && (Config.frameChan e.frame).val = c
  let idle (e : Placed) : Bool := e.rcl = .none || e.rcl = .failed
  (∀ (s : State) (fn : Fn) (f : BitVec 32) (i : Instr), s.viewOpen fn.toNat = true → ready s fn.toNat →
    (∀ e, s.placed? f.toNat = some e → e.part ≠ fn.toNat) → (i = .recall fn f ∨ i = .release fn f) →
    ∃ t, exec i s = .next t ∧ t.skk.placed = s.skk.placed ∧ noted s t fn.toNat 6 5 ∧ s.onlyChanges t [.skk, .home] [(pgSKK, fn.toNat, 5)]) ∧
  (∀ (s : State) (fn : Fn) (f : BitVec 32) (e : Placed), s.viewOpen fn.toNat = true → s.placed? f.toNat = some e → e.part = fn.toNat →
    s.skk.lostFrames.any (·.2 = f.toNat) = false →
    (idle e = true → may s fn.toNat e.entryAddr → ∃ t, exec (.recall fn f) s = .next t ∧ stepped s t f (starts s e) ∧
      asks s t "RdOwn" e.entryAddr ∧ s.onlyChanges t [.skk, .home]) ∧
    (idle e = false → ∃ t, exec (.recall fn f) s = .next t ∧ t.out = s.out ∧ s.onlyChanges t [])) ∧
  (∀ (s : State) (fn : Fn) (f : BitVec 32) (e : Placed), s.viewOpen fn.toNat = true → s.placed? f.toNat = some e → e.part = fn.toNat →
    (e.rel = 0 → may s fn.toNat e.entryAddr → (s.cacheLink (line (e.entryAddr + 64))).isSome = true →
      ∃ t, exec (.release fn f) s = .next t ∧ stepped s t f (fun x => { x with rel := x.rel + 1, lines := if x.rel = 0 then [] else x.lines }) ∧
        asks s t "RdCurr" e.entryAddr ∧ asks s t "RdCurr" (e.entryAddr + 64) ∧ s.onlyChanges t [.skk, .home]) ∧
    (e.rel ≠ 0 → ∃ t, exec (.release fn f) s = .next t ∧
      stepped s t f (fun x => { x with rel := x.rel + 1, lines := if x.rel = 0 then [] else x.lines }) ∧ t.out = s.out ∧ s.onlyChanges t [.skk])) ∧
  (∀ (s : State) (f : BitVec 32) (e : Placed) (n : Nat) (x : Txn) (g0 g1 : Granule), s.atRest = true → s.placed? f.toNat = some e →
    e.rel = 1 → e.lines = [(0, 0, g0)] → s.home = { line := [(n, { txn := some x })] } → s.hlk.remap = none → n < 2 ^ 58 → x.st = .curr →
    x.cause = .req { who := .unit (.releaseRead f.toNat 1), kind := .readNoAlloc, addr := lineAddr n, part := e.part } → open_ s e.part →
    let es := (List.range 8).map (fun i => granWord g0 (8 * i)) ++ (List.range 8).map fun i => granWord g1 (8 * i)
    ∃ t, exec (.hostData (lineAddr n) false g1) s = .next t ∧ s.onlyChanges t [.skk, .home] ∧
      if es.any ((s.profile e.prof).stillMaps f.toNat) then stepped s t f (fun x => { x with rel := 0, lines := [] }) ∧ noted s t e.part 6 6
      else gone s t f ∧ noted s t e.part 8 0) ∧
  (∀ (s : State) (f : BitVec 32) (e : Placed), held s f e .locking → e.cas = [] →
    (e.fail = none → still s → (∀ x ∈ s.mov.stray, x.asked = true) → ∃ t, exec (.recallLockDone f) s = .next t ∧ stepped s t f (fun x => { x with rcl := .draining }) ∧
      (∃ v ∈ t.xlt.invs, v.from_ = .recall f.toNat ∧ v.begun = true ∧ v.va = e.va ∧ v.pages = 16) ∧ s.onlyChanges t [.skk, .xlt]) ∧
    (∀ reason, e.fail = some (reason, 0) → reason < 16 → ready s e.part →
      ∃ t, exec (.recallLockDone f) s = .next t ∧ fails s t f e.part reason ∧ s.onlyChanges t [.skk, .home])) ∧
  (∀ (s : State) (f : BitVec 32) (v : Inv) (e : Placed), held s f e .draining → s.drainedFrom (.recall f.toNat) = some v → e.out = none →
    e.fail = none → ∃ t, exec (.recallDrainDone f) s = .next t ∧
      stepped s t f (fun x => { x with rcl := .copying, at_ := 0, out := some (s.epochOf e.asid) }) ∧
      t.xlt = { s.xlt with invs := s.xlt.invs.filter (·.id ≠ v.id) } ∧
      t.noc.reqs = s.noc.reqs ++ [{ port := Config.devicePort (frameAddr f.toNat).toNat % 4, agent := 1404, tag := s.freeTag 1404
                                    addr := frameAddr f.toNat, for_ := .skinkRead f.toNat 0 }] ∧ s.onlyChanges t [.skk, .xlt, .noc]) ∧
  (∀ (s : State) (f : BitVec 32) (v : Inv), s.atRest = true → s.drainedFrom (.recall f.toNat) = some v → s.placed? f.toNat = none →
    ∃ t, exec (.recallDrainDone f) s = .next t ∧ t.xlt = { s.xlt with invs := s.xlt.invs.filter (·.id ≠ v.id) } ∧ t.out = s.out ∧
      s.onlyChanges t [.xlt]) ∧
  (∀ (s : State) (f : BitVec 32), s.atRest = true → (s.drainedFrom (.recall f.toNat) = none ∨
      ∃ e, s.placed? f.toNat = some e ∧ (e.rcl ≠ .draining ∨ e.out.isSome = true)) → exec (.recallDrainDone f) s = .next s) ∧
  (∀ (s : State) (f : BitVec 32) (e : Placed), held s f e .copying → e.out = none →
    (e.fail = none → e.at_ = 1024 → bit e.changed 0 = false → may s e.part e.entryAddr → ∃ t, exec (.recallCopyDone f) s = .next t ∧
      stepped s t f (fun x => { x with rcl := .restoring, cas := ((List.range 16).filter fun i => !bit e.changed i).map fun i =>
        (i, e.vals.getD i 0, (s.profile e.prof).restoredOf e.written (e.saved.getD i 0)) }) ∧
      asks s t "RdOwn" e.entryAddr ∧ s.onlyChanges t [.skk, .home]) ∧
    (e.fail = none → e.at_ < 1024 → exec (.recallCopyDone f) s = .next s) ∧
    (∀ reason code, e.fail = some (reason, code) → reason < 16 → ready s e.part →
      ∃ t l, exec (.recallCopyDone f) s = .next t ∧ fails s t f e.part reason ∧ s.onlyChanges t [.skk, .xlt, .home] l ∧
        ∀ x ∈ l, x = (pgXLT, e.part, 1) ∨ x = (pgHLK, 0, 4))) ∧
  (∀ (s : State) (f : BitVec 32) (e : Placed), held s f e .restoring → e.cas = [] → ready s e.part →
    (e.fail = none → s.inPlace = [] → ∃ t, exec (.recallCasDone f) s = .next t ∧ gone s t f ∧
      noted s t e.part 5 (if e.changed = 0 then 0 else 2) ∧ s.onlyChanges t [.skk, .xlt, .home]) ∧
    (∀ reason, e.fail = some (reason, 0) → reason < 16 →
      ∃ t, exec (.recallCasDone f) s = .next t ∧ fails s t f e.part reason ∧ s.onlyChanges t [.skk, .home])) ∧
  (∀ (s : State) (f : BitVec 32), s.atRest = true →
    ((∀ e, s.placed? f.toNat = some e → e.rcl ≠ .locking ∨ e.cas ≠ []) → exec (.recallLockDone f) s = .next s) ∧
    ((∀ e, s.placed? f.toNat = some e → e.rcl ≠ .copying ∨ e.out.isSome = true) → exec (.recallCopyDone f) s = .next s) ∧
    ((∀ e, s.placed? f.toNat = some e → e.rcl ≠ .restoring ∨ e.cas ≠ []) → exec (.recallCasDone f) s = .next s)) ∧
  (∀ (s : State) (k : BitVec 3), s.atRest = true →
    (bit s.skk.thermal k.toNat = true → exec (.thermalNotice k) s = .next s) ∧
    (bit s.skk.thermal k.toNat = false → exec (.thermalClear k) s = .next s) ∧
    (s.skk.pending = [] → s.cht.master = false → s.isSelf s.cht.masterChip.toNat = false →
      (bit s.skk.thermal k.toNat = false → ∃ t, exec (.thermalNotice k) s = .next t ∧
        t.skk = { s.skk with thermal := s.skk.thermal ||| BitVec.ofNat 8 (2 ^ k.toNat) } ∧
        (s.skk.thermal = 0 → t.peer.slipSent = true) ∧ s.onlyChanges t [.skk, .peer, .syn] [(pgPXP, 0, 3)]) ∧
      (bit s.skk.thermal k.toNat = true → ∃ t, exec (.thermalClear k) s = .next t ∧
        t.skk = { s.skk with thermal := s.skk.thermal &&& ~~~(BitVec.ofNat 8 (2 ^ k.toNat)) } ∧
        (t.skk.thermal = 0 → t.peer.slipSent = false) ∧ s.onlyChanges t [.skk, .peer, .syn]))) ∧
  (∀ (s : State) (k : BitVec 3) (c : BitVec 5), s.atRest = true →
    (s.skk.mapReq.isSome = true → exec (.mapoutRequest k c) s = .next s) ∧
    (s.skk.mapReq = none → s.skk.pending = [] → (∀ i, i < 4 → s.slotStack i ≠ k.toNat) →
      ((∀ e ∈ s.skk.placed, inChan e k.toNat c.toNat = true → idle e = false) → ∃ t, exec (.mapoutRequest k c) s = .next t ∧
        t.skk = { s.skk with mapReq := some (k.toNat, c.toNat) } ∧ t.out = s.out ∧ s.onlyChanges t [.skk]) ∧
      (∀ e ∈ s.skk.placed, inChan e k.toNat c.toNat = true → idle e = true → s.placed? e.frame = some e → e.frame < 2 ^ 32 →
        (∀ x ∈ s.skk.placed, inChan x k.toNat c.toNat = true → idle x = true → x = e) → may s e.part e.entryAddr →
        ∃ t, exec (.mapoutRequest k c) s = .next t ∧ stepped s t (BitVec.ofNat 32 e.frame) (starts s e) ∧
          t.skk.mapReq = some (k.toNat, c.toNat) ∧ asks s t "RdOwn" e.entryAddr ∧ s.onlyChanges t [.skk, .home]))) ∧
  (∀ s : State, s.atRest = true → (s.skk.mapReq = none ∨ s.skk.mapAck = true) → exec .mapoutAck s = .next s) ∧
  (∀ (s : State) (c : Nat × Nat), s.atRest = true → s.skk.mapReq = some c → s.skk.mapAck = false → s.mapoutReady c = true →
    ∃ t, exec .mapoutAck s = .next t ∧ t.skk = { s.skk with mapAck := true, mapped := s.skk.mapped ++ [c] } ∧
      t.out = s.out ++ [.mapoutAck true] ∧ s.onlyChanges t [.skk]) ∧
  (∀ s : State, s.atRest = true → s.skk.mapReq = none → exec .mapoutReqFall s = .next s) ∧
  (∀ (s : State) (c : Nat × Nat), s.atRest = true → s.skk.mapReq = some c →
    ∃ t, exec .mapoutReqFall s = .next t ∧
      if s.skk.mapAck then t.skk = { s.skk with mapReq := none, mapAck := false } ∧ t.out = s.out ++ [.mapoutAck false] ∧ s.onlyChanges t [.skk]
      else t.skk = { s.skk with mapReq := none, mapEarly := s.skk.mapEarly ++ [c] } ∧ s.onlyChanges t [.skk] [(pgGLB, 0, 7)])

/-! ## Staging, the CCU and retired units -/

/-- A staging area that fits, meets no other and is not busy is set, its units that were another's read 0 and are clearing until the zeros are written (R145); else its sticky bit. A BAR4
write of whole words inside the area writes exactly those bytes; one outside the area sets STG_RANGE, one of part of a word STG_PARTIAL, one
of both both, and nothing is written; a read gives zeros and sets STG_READ (R146). One whose sender broke the stream writes nothing and sets PORT_PROTOCOL (R332). CCU_SR_SEED starts every lane
from its seed for the beats of later hub cycles, and leaves those of its own the states of before it (R162). A failed lane, an idle failed mover and a failed walker are retired, a walker's requests looking up again, to walk from
the root; a spare that takes the number brings its own rows (R27, R170). -/
def Obligations.StagingAndUnits : Prop :=
  let own (r : Ras) (strs : List Nat) (n : Nat) : Ras :=
    let kept (str bank : Nat) : Bool := !(strs.contains str && bank = n)
    { r with
      remapped := r.remapped.filter fun x => kept x.1.str x.1.bank, ceRows := r.ceRows.filter fun x => kept x.1.str x.1.bank
      rowCopy := r.rowCopy.filter fun x => kept x.1.str x.1.bank, lostMarks := r.lostMarks.filter fun x => kept x.1 x.2.1 }
  (∀ (s : State) (v : Word), s.hostOpen 0 = true →
    let p := field s.mov.psel 5 0
    let a : Area := { base := field v 7 0, size := field v 24 16 }
    let meets := (List.range 64).any fun q => q ≠ p && a.meets (s.area q)
    let passed := a.units.filter fun u => tabGet (fun _ => 0) s.mov.unitOwner u ≠ p
    ∃ t, exec (.movStgArea v) s = .next t ∧
      if 256 < a.size ∨ 256 - 16 * s.banksLost 8 < a.base + a.size then s.onlyChanges t [] [(pgMOV, 0, 8)]
      else if meets then s.onlyChanges t [] [(pgMOV, 0, 5)]
      else if s.stagingBusy p then s.onlyChanges t [] [(pgMOV, 0, 6)]
      else t.area p = { base := a.base, size := a.size, clearing := (s.area p).clearing || passed ≠ [] } ∧
        (∀ q, q ≠ p → t.area q = s.area q) ∧
        (∀ x, t.stagingByte x = if passed.contains (x / 65536) then 0 else s.stagingByte x) ∧
        t.mov = { s.mov with area := t.mov.area, unitOwner := t.mov.unitOwner, staging := t.mov.staging, lostWords := t.mov.lostWords } ∧
        t.out = s.out ∧ s.onlyChanges t [.mov]) ∧
  (∀ (s : State) (p : Fn), s.atRest = true →
    ∃ t, exec (.stagingClearDone p) s = .next t ∧ t.area p.toNat = { s.area p.toNat with clearing := false } ∧
      (∀ q, q ≠ p.toNat → t.area q = s.area q) ∧ t.mov = { s.mov with area := t.mov.area } ∧ t.out = s.out ∧ s.onlyChanges t [.mov]) ∧
  (∀ (s : State) (fn : Fn), s.hostOpen fn.toNat = true →
    ∃ t, exec (.bar4Read fn) s = .next t ∧ (.cpl none fn.toNat 0) ∈ t.out ∧ s.onlyChanges t [] [(pgMOV, fn.toNat, 1)]) ∧
  (∀ (s : State) (fn : Fn) (off : BitVec 24) (bs : List (Option Byte)) (link : BitVec 2), s.atRest = true →
    ∃ t, exec (.bar4Write fn off bs link true) s = .next t ∧ s.onlyChanges t [] [(pgGLB, 0, 5)]) ∧
  (∀ (s : State) (fn : Fn) (off : BitVec 24) (bs : List (Option Byte)) (link : BitVec 2), s.hostOpen fn.toNat = true →
    s.barOn fn.toNat link.toNat = true → (fn ≠ 0 ∨ s.pwr.bootOpen = false) →
    let a := s.area fn.toNat
    let on (k : Nat) : Prop := ∃ b, bs[k]? = some (some b)
    let inside : Prop := ∀ k, on k → off.toNat + k < a.size * 65536
    let whole : Prop := ∀ k, on k → ∀ j, j < 8 → off.toNat ≤ (off.toNat + k) / 8 * 8 + j ∧ on ((off.toNat + k) / 8 * 8 + j - off.toNat)
    let bad : Prop := a.clearing = true ∨ ¬ inside
    (bad → whole → ∃ t, exec (.bar4Write fn off bs link false) s = .next t ∧ s.onlyChanges t [] [(pgMOV, fn.toNat, 2)]) ∧
    (¬ bad → ¬ whole → ∃ t, exec (.bar4Write fn off bs link false) s = .next t ∧ s.onlyChanges t [] [(pgMOV, fn.toNat, 3)]) ∧
    (bad → ¬ whole → ∃ t, exec (.bar4Write fn off bs link false) s = .next t ∧
      s.onlyChanges t [] [(pgMOV, fn.toNat, 2), (pgMOV, fn.toNat, 3)]) ∧
    (¬ bad → whole → ∃ t, exec (.bar4Write fn off bs link false) s = .next t ∧
      (∀ x, t.stagingByte x =
        match (if a.base * 65536 + off.toNat ≤ x then bs.getD (x - (a.base * 65536 + off.toNat)) none else none) with
        | some b => b
        | none => s.stagingByte x) ∧
      t.mov = { s.mov with staging := t.mov.staging, lostWords := t.mov.lostWords } ∧ Memory.wf t.mov.staging = true ∧ t.out = s.out ∧
      s.onlyChanges t [.mov])) ∧
  (∀ (s : State) (v : Word), s.hostOpen 0 = true →
    ∃ t, exec (.ccuSrSeed v) s = .next t ∧ t.out = s.out ∧ s.onlyChanges t [.ccu] ∧
      t.ccu = (if s.ccu.seedAt = some s.glb.time then { s.ccu with seed := v, lane := [] }
        else { s.ccu with seed := v, lane := [], seedAt := some s.glb.time, oldSeed := s.ccu.seed, oldLane := s.ccu.lane }) ∧
      (∀ n, t.laneState n = s.laneState n) ∧
      ∀ u : State, u.ccu = t.ccu → u.glb.time ≠ s.glb.time → ∀ k, u.laneState k = seeded v k) ∧
  (∀ (s : State) (n : Fin 66), s.atRest = true → ∀ i : Instr, (i = .laneResidueError n ∨ i = .unitSelfCheckFail (.lane n)) →
    if s.activeLanes.contains n.val then
      ∃ t, exec i s = .next t ∧ t.ccu = { s.ccu with retired := n.val :: s.ccu.retired } ∧ s.onlyChanges t [.ccu] [(pgRAS, 0, 5)]
    else exec i s = .next s) ∧
  (∀ (s : State) (m : Fin 48), s.atRest = true → s.mov.gone.contains m.val = true →
    exec (.unitSelfCheckFail (.mover m)) s = .next s) ∧
  (∀ (s : State) (m : Fin 48), s.atRest = true → s.mov.gone.contains m.val = false → (∀ u, (s.job m.val u).work = none) →
    let spare := if m.val < 24 then s.mov.spareA else s.mov.spareB
    ∃ t, exec (.unitSelfCheckFail (.mover m)) s = .next t ∧
      t.mov = (if spare = 0 then { s.mov with gone := m.val :: s.mov.gone }
        else if m.val < 24 then { s.mov with spareA := s.mov.spareA - 1 } else { s.mov with spareB := s.mov.spareB - 1 }) ∧
      t.ras = (if spare = 0 then s.ras else own s.ras [1, 2] m.val) ∧ s.onlyChanges t [.mov, .ras] [(pgRAS, 0, 5)]) ∧
  (∀ (s : State) (w : Fin 64), s.atRest = true → s.ras.walkGone.contains w.val = true →
    exec (.unitSelfCheckFail (.walker w)) s = .next s) ∧
  (∀ (s : State) (w : Fin 64), s.atRest = true → s.ras.walkGone.contains w.val = false →
    let spare := if w.val < 32 then s.ras.walkSpareA else s.ras.walkSpareB
    ∃ t, exec (.unitSelfCheckFail (.walker w)) s = .next t ∧ t.walker w.val = none ∧
      (∀ v, v ≠ w.val → t.walker v = s.walker v) ∧
      t.xlt.lookups = s.xlt.lookups ++ (match s.walker w.val with | none => [] | some x => (x.req :: x.joiners).map fun (r : XReq) => ({ r with root := true, avoid := none } : XReq)) ∧
      t.xlt = { s.xlt with walk := t.xlt.walk, lookups := t.xlt.lookups } ∧
      t.ras = (if spare = 0 then { s.ras with walkGone := w.val :: s.ras.walkGone }
        else if w.val < 32 then { (own s.ras [3] w.val) with walkSpareA := s.ras.walkSpareA - 1 }
        else { (own s.ras [3] w.val) with walkSpareB := s.ras.walkSpareB - 1 }) ∧
      s.onlyChanges t [.xlt, .ras] [(pgRAS, 0, 5)])

/-! ## Sync objects -/

/-- OBJ_CREATE makes a live object at the lowest free index with the next generation and the value OBJ_CFG gives, or the result of the first check that fails (R194, R208); OBJ_DESTROY frees one
without waiters, keeping its generation; its waiters ended with 0x62; OBJ_READ
gives its state. While BUSY each is discarded and CMD_BUSY set (R194). The action at the front, of a core, waits while its object's bank is copied (18_stored_data_protection.md R374), and is then applied and acknowledged: a counter adds and saturates,
an event is set or cleared, a barrier counts to N and passes (R191 to R193); one on an abandoned object only counts, and one whose handle fails is refused (R196). -/
def Obligations.ObjectsAct : Prop :=
  let acked (t : State) (port agent tag : Nat) (code : Code) : Prop :=
    (.noc port { opc := 0x53, agent := agent, tag := tag, status := code }) ∈ t.out ++ t.noc.wait
  let replied (s t : State) (fn : Fn) (r : BitVec 3) (h : BitVec 32) : Prop :=
    t.synView fn.toNat = { s.synView fn.toNat with result := r, handle := h, busyUntil := (t.synView fn.toNat).busyUntil } ∧
      s.glb.time.toNat < (t.synView fn.toNat).busyUntil.toNat ∧ (∀ f, f ≠ fn.toNat → t.synView f = s.synView f)
  let failed (s t : State) (fn : Fn) (r : BitVec 3) : Prop :=
    replied s t fn r (s.synView fn.toNat).handle ∧ t.syn = { s.syn with view := t.syn.view } ∧ t.out = s.out ∧ s.onlyChanges t [.syn, .free]
  let objs (s t : State) (i : Nat) (o : Obj) : Prop := t.obj i = o ∧ ∀ j, j ≠ i → t.obj j = s.obj j
  let open_ (s : State) (fn : Fn) : Prop :=
    s.viewOpen fn.toNat = true ∧ s.objBusy fn.toNat = false ∧ s.glb.time.toNat + Config.usCycles + 2 < 2 ^ 64
  (∀ (s : State) (fn : Fn) (i : Instr) (ty : BitVec 2) (slip : Bool) (h : BitVec 32), s.viewOpen fn.toNat = true → s.objBusy fn.toNat = true →
    (i = .objCreate fn ty slip ∨ i = .objDestroy fn h ∨ i = .objRead fn h) →
    ∃ t, exec i s = .next t ∧ s.onlyChanges t [] [(pgSYN, fn.toNat, 6)]) ∧
  (∀ (s : State) (fn : Fn) (ty : BitVec 2) (slip : Bool), open_ s fn →
    let v := s.synView fn.toNat
    let owner : BitVec 32 := v.cfg.extractLsb' 32 32
    let init : BitVec 32 := v.cfg.setWidth 32
    let i := s.freeObj 0 9
    ∃ t, exec (.objCreate fn ty slip) s = .next t ∧
      if (s.part fn.toNat).st ≠ .enabled then failed s t fn 5
      else if owner ≠ 0 ∧ (∀ k, s.goodChan owner fn.toNat = some k → (s.chan k).st ≠ .creating ∧ (s.chan k).live = false) then failed s t fn 2
      else if ty = 3 ∨ (ty = 2 ∧ init.setWidth 16 = 0#16) then failed s t fn 3
      else if (s.part fn.toNat).qSync ≤ s.objCount fn.toNat ∨ Config.objects ≤ i then failed s t fn 4
      else
        objs s t i { gen := nextGen (s.obj i).gen, st := .live, type := ty, part := fn.toNat, slip := slip, owner := owner
                     value := if ty = 0 then init else if ty = 1 then init &&& 1 else 0, n := if ty = 2 then init.setWidth 16 else 0 } ∧
        replied s t fn 0 (objHandle (nextGen (s.obj i).gen) fn.toNat ty i) ∧ t.prt = { s.prt with objOrder := s.prt.objOrder ++ [i] } ∧
        t.out = s.out ∧ s.onlyChanges t [.syn, .prt, .free]) ∧
  (∀ (s : State) (fn : Fn) (h : BitVec 32), open_ s fn → s.goodObj h fn.toNat = false →
    (∃ t, exec (.objDestroy fn h) s = .next t ∧ failed s t fn 1) ∧ ∃ t, exec (.objRead fn h) s = .next t ∧ failed s t fn 1) ∧
  (∀ (s : State) (fn : Fn) (h : BitVec 32), open_ s fn → s.goodObj h fn.toNat = true →
    let o := s.obj (hIdx h)
    let quiet : Prop := ∀ a ∈ s.syn.acts, hIdx a.handle ≠ hIdx h
    (o.waiters = [] → quiet → ∃ t, exec (.objDestroy fn h) s = .next t ∧ objs s t (hIdx h) { gen := o.gen } ∧ replied s t fn 0 h ∧
      t.prt = { s.prt with objOrder := s.prt.objOrder.erase (hIdx h) } ∧ t.out = s.out ∧ s.onlyChanges t [.syn, .prt, .free]) ∧
    (∀ r w c tag sc, o.st = .live → quiet → o.waiters = [r] → s.wrec r = some w → w.handle = h → w.who = .client c tag sc →
      (s.canWrite false o.part = true → s.home = {} ∧ s.hlk.remap = none) →
      ∃ t l, exec (.objDestroy fn h) s = .next t ∧ t.obj (hIdx h) = { gen := o.gen } ∧ (∀ j, j ≠ hIdx h → t.obj j = s.obj j) ∧
        t.wrec r = none ∧ (∀ q, q ≠ r → t.wrec q = s.wrec q) ∧ (.p4 (.waitAns c tag 0x62 h)) ∈ t.out ++ t.noc.wait ∧
        replied s t fn 0 h ∧ t.prt = { s.prt with objOrder := s.prt.objOrder.erase (hIdx h) } ∧ t.xlt = { s.xlt with fq := t.xlt.fq } ∧
        s.onlyChanges t [.syn, .prt, .free, .xlt, .home] ((pgSYN, o.part, 2) :: l) ∧
        ∀ x ∈ l, x = (pgXLT, o.part, 1) ∨ x = (pgHLK, 0, 4)) ∧
    ∃ t, exec (.objRead fn h) s = .next t ∧ t.out = s.out ∧ t.syn = { s.syn with view := t.syn.view } ∧
      (∀ f, f ≠ fn.toNat → t.synView f = s.synView f) ∧ s.onlyChanges t [.syn, .free] ∧
      t.synView fn.toNat = { s.synView fn.toNat with
        result := 0, handle := h, busyUntil := (t.synView fn.toNat).busyUntil
        state := place (if o.st = .abandoned then 1 else 0) 63 ||| place o.passed.toNat 62 ||| place o.slip.toNat 61 |||
          place o.waiters.length 32 ||| place o.value.toNat 0
        info := place o.owner.toNat 32 ||| place o.episode.toNat 16 ||| place o.n.toNat 0 }) ∧
  (∀ s : State, s.atRest = true → (∀ a ∈ s.syn.acts, s.bankCopies 0x0B (hIdx a.handle / 8192) = true) →
    exec .syncActionApply s = .next s) ∧
  (∀ (s : State) (a : SAct) (rest : List SAct) (port agent tag : Nat), s.atRest = true → s.syn.acts = a :: rest →
    a.from_ = .core port agent tag → s.bankCopies 0x0B (hIdx a.handle / 8192) = false →
    let i := hIdx a.handle
    let o := s.obj i
    (s.goodObj a.handle (hPart a.handle) = false → ∃ t, exec .syncActionApply s = .next t ∧ acked t port agent tag 0x0A ∧
      t.syn = { s.syn with acts := rest } ∧ s.onlyChanges t [.syn]) ∧
    (s.goodObj a.handle (hPart a.handle) = true → o.st = .abandoned → ∃ t, exec .syncActionApply s = .next t ∧ acked t port agent tag 0 ∧
      objs s t i o ∧ t.syn.acts = rest ∧ (t.synView o.part).hits = satInc (s.synView o.part).hits ∧
      s.onlyChanges t [.syn] [(pgSYN, o.part, 3)]) ∧
    (s.goodObj a.handle (hPart a.handle) = true → o.st = .live → o.waiters = [] →
      ∃ t, exec .syncActionApply s = .next t ∧ acked t port agent tag 0 ∧ t.syn = { s.syn with acts := rest, obj := t.syn.obj } ∧
        let sum := o.value.toNat + a.value.toNat
        if o.type = 0 ∧ a.action = 0 then
          objs s t i { o with value := BitVec.ofNat 32 (min sum (2 ^ 32 - 1)) } ∧
            s.onlyChanges t [.syn] (if sum < 2 ^ 32 then [] else [(pgSYN, o.part, 4)])
        else if o.type = 1 ∧ a.action ≠ 0 then objs s t i { o with value := if a.action = 1 then 1 else 0 } ∧ s.onlyChanges t [.syn]
        else if (o.type = 2 ∨ o.type = 3) ∧ a.action = 0 then
          if sum < o.n.toNat then objs s t i { o with passed := false, value := BitVec.ofNat 32 sum } ∧ s.onlyChanges t [.syn]
          else objs s t i { o with passed := true, value := 0, episode := o.episode + 1 } ∧
            s.onlyChanges t [.syn] (if sum = o.n.toNat then [] else [(pgSYN, o.part, 5)])
        else objs s t i o ∧ s.onlyChanges t [.syn]))

/-- A core's signal that is encoded, names an object of its partition and adds more than 0 joins the actions; else it is refused with its code (R199, R336). A client's wait whose
condition is met takes its count and is answered; else it makes a record at the tail of its object's list, before those that sources of a later place linked in that hub cycle, or is answered with its code (R191 to R197). The oldest waiter
of an event is released when it is set. A wait that expires frees its record, is answered with 0x61, recorded and counted, but not while a slip
pauses its deadline (R202), nor where a release falls due with it (R200; R201, R203, R204). A stalled WAIT takes a record when one
is free (R197). -/
def Obligations.WaitsEnd : Prop :=
  let sends (t : State) (o : Out) : Prop := o ∈ t.out ++ t.noc.wait
  let later (s : State) (w : Waiter) (k : Nat) : Bool := match s.wrec k with
    | some x => x.linked = s.glb.time && decide (s.waiterRank w < s.waiterRank x.who)
    | none => false
  let linked (s t : State) (r : Nat) (w : Waiter) (h : BitVec 32) (cond : BitVec 2) (timeout : BitVec 32) : Prop :=
    t.wrec r = some { who := w, handle := h, cond := cond, timeout := timeout, linked := s.glb.time
                      deadline := s.glb.time + BitVec.ofNat 64 (64 * timeout.toNat)
                      slipped := (s.obj (hIdx h)).slip && s.syn.slip && !s.syn.slipOver && s.syn.slipMax ≠ 0 } ∧
      (∀ q, q ≠ r → t.wrec q = s.wrec q) ∧ t.obj (hIdx h) = { s.obj (hIdx h) with
        waiters := (s.obj (hIdx h)).waiters.takeWhile (fun k => !later s w k) ++ [r] ++
          (s.obj (hIdx h)).waiters.dropWhile fun k => !later s w k } ∧
      ∀ j, j ≠ hIdx h → t.obj j = s.obj j
  (∀ (s : State) (p : Fin 4) (agent : BitVec 11) (tag : BitVec 12) (sc : BitVec 2) (h : BitVec 32) (action : BitVec 2) (value : BitVec 16),
    s.atRest = true →
    s.creditsSpent p.val .req < 64 →
    let i : Instr := .coreSignal p agent tag sc h action value
    let part := (s.client (agent.toNat - 256)).part
    let refused (t : State) (code : Code) : Prop :=
      sends t (.noc p.val { opc := 0x53, agent := agent.toNat, tag := tag.toNat, status := code }) ∧ s.onlyChanges t []
    ∃ t, exec i s = .next t ∧
      if agent.toNat < 256 ∨ 1280 ≤ agent.toNat then s.onlyChanges t [] [(pgGLB, 0, 5)]
      else if actionOk action.toNat (hType h) = false then refused t 0x06
      else if s.goodObj h part = false then refused t 0x0A
      else if action = 0 ∧ value = 0 then refused t 0x05
      else t.syn = { s.syn with
          acts := s.syn.acts.filter (fun x => x.before s.glb.time (2 + p.val)) ++
            [{ from_ := .core p.val agent.toNat tag.toNat, handle := h, action := action, value := value
               at_ := s.glb.time, rank := 2 + p.val }] ++ s.syn.acts.filter (fun x => !x.before s.glb.time (2 + p.val)) } ∧
        t.out = s.out ∧ s.onlyChanges t [.syn]) ∧
  (∀ (s : State) (c : BitVec 10) (tag : BitVec 12) (sc cond : BitVec 2) (h timeout : BitVec 32), s.atRest = true → s.creditsSpent 4 .req < 64 →
    let i : Instr := .waitReq c tag sc cond h timeout
    let o := s.obj (hIdx h)
    let quiet : Prop := ∀ a ∈ s.syn.acts, hIdx a.handle ≠ hIdx h
    let free (e : Engine) : Option Nat := if s.engineSt e = .serving then s.freeRec e else none
    let answered (t : State) (code : Code) : Prop := sends t (.p4 (.waitAns c.toNat tag.toNat code h))
    (condOk cond.toNat (hType h) = false → ∃ t, exec i s = .next t ∧ answered t 0x06 ∧ s.onlyChanges t []) ∧
    (condOk cond.toNat (hType h) = true →
      (s.goodObj h (s.client c.toNat).part = false → ∃ t, exec i s = .next t ∧ answered t 0x0A ∧ s.onlyChanges t []) ∧
      (s.goodObj h (s.client c.toNat).part = true →
        (timeout = 0 → ∃ t, exec i s = .next t ∧ answered t 0x05 ∧ s.onlyChanges t []) ∧
        (timeout ≠ 0 → quiet → o.st = .abandoned → ∃ t, exec i s = .next t ∧ answered t 0x62 ∧ s.onlyChanges t []) ∧
        (timeout ≠ 0 → quiet → o.st = .live → o.meets = true → ∃ t, exec i s = .next t ∧ answered t 0 ∧
          t.obj (hIdx h) = (if o.type = 0 then { o with value := o.value - 1 } else o) ∧ (∀ j, j ≠ hIdx h → t.obj j = s.obj j) ∧
          s.onlyChanges t [.syn]) ∧
        (timeout ≠ 0 → quiet → o.st = .live → o.meets = false →
          (∀ r, (free .A).or (free .B) = some r → ∃ t, exec i s = .next t ∧
            linked s t r (.client c.toNat tag.toNat sc) h cond timeout ∧ t.out = s.out ∧ s.onlyChanges t [.syn]) ∧
          (free .A = none → free .B = none → ∃ t, exec i s = .next t ∧ answered t 0x63 ∧ s.onlyChanges t []))))) ∧
  (∀ (s : State) (a : SAct) (rest : List SAct) (e : Engine) (r c tag : Nat) (sc : BitVec 2) (w : WRec), s.atRest = true →
    s.syn.acts = a :: rest → a.from_ = .pulse e → s.goodObj a.handle (hPart a.handle) = true → (s.obj (hIdx a.handle)).st = .live →
    (s.obj (hIdx a.handle)).type = 1 → a.action = 1 → (s.obj (hIdx a.handle)).waiters = [r] → s.wrec r = some w →
    w.handle = a.handle → w.who = .client c tag sc → s.bankCopies 0x0B (hIdx a.handle / 8192) = false →
    ∃ t, exec .syncActionApply s = .next t ∧ sends t (.p4 (.waitAns c tag 0 a.handle)) ∧ t.wrec r = none ∧
      (∀ q, q ≠ r → t.wrec q = s.wrec q) ∧ t.obj (hIdx a.handle) = { s.obj (hIdx a.handle) with value := 1, waiters := [] } ∧
      s.onlyChanges t [.syn]) ∧
  (∀ (s : State) (r : Nat), s.atRest = true → (∀ w, s.wrec r = some w →
      (s.obj (hIdx w.handle)).slip = true ∧ s.syn.slip = true ∧ s.syn.slipOver = false ∧ s.syn.slipMax ≠ 0) →
    exec (.waitExpire r) s = .next s) ∧
  (∀ (s : State) (a : SAct) (e : Engine) (r c tag : Nat) (sc : BitVec 2) (w : WRec), s.atRest = true → s.wrec r = some w →
    s.syn.acts = [a] → a.at_.toNat + 8 ≤ s.glb.time.toNat → a.from_ = .pulse e → s.goodObj a.handle (hPart a.handle) = true →
    (s.obj (hIdx a.handle)).st = .live → (s.obj (hIdx a.handle)).type = 1 → a.action = 1 → (s.obj (hIdx a.handle)).waiters = [r] →
    w.handle = a.handle → w.who = .client c tag sc → s.paused w = false →
    ∃ t, exec (.waitExpire r) s = .next t ∧ sends t (.p4 (.waitAns c tag 0 a.handle)) ∧ t.wrec r = none ∧
      (t.synView (s.obj (hIdx a.handle)).part).timeouts = (s.synView (s.obj (hIdx a.handle)).part).timeouts ∧ s.onlyChanges t [.syn]) ∧
  (∀ (s : State) (r c tag : Nat) (sc : BitVec 2) (w : WRec), s.atRest = true → s.wrec r = some w → w.who = .client c tag sc →
    s.paused w = false → (∀ a ∈ s.syn.acts, hIdx a.handle = hIdx w.handle → s.glb.time.toNat < a.at_.toNat + 8) →
    let o := s.obj (hIdx w.handle)
    (s.canWrite false o.part = true → s.home = {} ∧ s.hlk.remap = none) →
    ∃ t l, exec (.waitExpire r) s = .next t ∧ t.wrec r = none ∧ (∀ q, q ≠ r → t.wrec q = s.wrec q) ∧
      t.obj (hIdx w.handle) = { o with waiters := o.waiters.erase r } ∧ sends t (.p4 (.waitAns c tag 0x61 w.handle)) ∧
      (t.synView o.part).timeouts = satInc (s.synView o.part).timeouts ∧ t.xlt = { s.xlt with fq := t.xlt.fq } ∧
      s.onlyChanges t [.syn, .xlt, .home] ((pgSYN, o.part, 1) :: l) ∧ ∀ x ∈ l, x = (pgXLT, o.part, 1) ∨ x = (pgHLK, 0, 4)) ∧
  (∀ (s : State) (e : Engine), s.atRest = true → (s.syn.stalled.find? (·.half = e) = none ∨ s.freeRec e = none) →
    exec (.waitRecordLink e) s = .next s) ∧
  (∀ (s : State) (e : Engine) (w : Stalled) (r : Nat) (h timeout : BitVec 32) (cond : BitVec 2), s.atRest = true →
    s.syn.stalled.find? (·.half = e) = some w → s.freeRec e = some r → s.waitArgs w.who = some (h, cond, timeout) →
    s.goodObj h (hPart h) = true → (s.obj (hIdx h)).st = .live → (s.obj (hIdx h)).meets = false →
    (∀ a ∈ s.syn.acts, hIdx a.handle ≠ hIdx h) →
    ∃ t, exec (.waitRecordLink e) s = .next t ∧ linked s t r w.who h cond timeout ∧
      t.syn.stalled.length + 1 = s.syn.stalled.length ∧ t.out = s.out ∧ s.onlyChanges t [.syn])

/-! ## The Drone and Chanter -/

/-- An update from the source that CHT_DRONE_CFG names - a CHT_DRONE_SET through PF0, an edge of a Drone pin, a DRONE packet - becomes the Drone when it
lies forward and crosses no window, a master then sending
its children a changed STEP (R211); the edges of one hub cycle on both pins are one update of the value before them; within the tolerance and the step it makes the Drone lag; further back it holds it with code 0xA3; a holding master keeps it
(R210, R213, R214). One from another source does nothing. A glitched edge sets its sticky bit and may count. Interpolation moves the phase up to the step's
end (R212); loss sets LOST with 0xA4 (R215). -/
def Obligations.DroneFollowsItsSource : Prop :=
  let quiet (s : State) (b : Nat) : Prop := ∀ i k v : Nat, (s.entry i).held = true → (s.entry i).kind = 1 →
    k % (s.entry i).period = (s.entry i).offset → (v = k * 16777216 + (s.entry i).start ∨ v = k * 16777216 + (s.entry i).end_) →
    ¬ (s.cht.drone.toNat < v ∧ v ≤ b)
  let goesTo (s t : State) (c : Nat) (h : PktHdr) : Prop := ∀ r rest, upSlots (s.route c) = r :: rest →
    .fabric (slotPort (s.route c) r) (slotTag (s.route c) r) (Packet.sealed { h := { h with route := BitVec.ofNat 2 r } }) ∈ t.out
  let away (s : State) (u : Word) : Prop :=
    field u 63 24 = s.droneStep ∨ s.cht.master = false ∨ ∀ c ∈ s.children, s.isSelf c = false
  let calm (s : State) : Prop := s.cht.held = true → ∀ i, (s.entry i).held = true → (s.entry i).kind = 1 →
    s.droneStep % (s.entry i).period = (s.entry i).offset →
    ¬ ((s.entry i).start ≤ field s.cht.drone 23 0 ∧ field s.cht.drone 23 0 < (s.entry i).end_)
  let told (s t : State) (u : Word) (rs : List Region) (l : List (Nat × Nat × Nat)) : Prop :=
    if field u 63 24 = s.droneStep ∨ s.cht.master = false then (l = [] → t.out = s.out) ∧ s.onlyChanges t rs l
    else (∀ c ∈ s.children, goesTo s t c { s.header 6 c with body := u, arg := BitVec.ofNat 32 t.cht.holding.toNat }) ∧
      t.peer = { s.peer with flow := t.peer.flow } ∧ s.onlyChanges t (.peer :: rs) l
  let records (s : State) : Prop := ∀ p, s.canWrite false p = true → s.home = {} ∧ s.hlk.remap = none
  let reported (s t : State) (b : Nat) : Prop :=
    (∀ p, p < 64 → (p = 0 ∨ ∃ i, (s.entry i).held = true ∧ (s.entry i).part = p ∧ s.armed (s.entry i) = true) →
      bit (t.sticky pgCHT p).bits b = true) ∧
    t.pending = s.pending ∧ s.out <+: t.out ∧ ∀ r, r ∈ [Region.cht, .xlt, .home] ∨ s.kept t r
  let edges (s : State) : PinCycle := match s.cht.pins with
    | some p => if p.at_ = s.glb.time then p else { at_ := s.glb.time, base := s.cht.drone }
    | none => { at_ := s.glb.time, base := s.cht.drone }
  let inc (s : State) : BitVec 64 := BitVec.ofNat 64 s.cht.tickInc.toNat
  let sent (s : State) (i : Instr) (u : Word) (pins : Option PinCycle) : Prop :=
    (i = .chtDroneSet 0 u ∧ s.hostOpen 0 = true ∧ s.cht.source = 0 ∧ pins = s.cht.pins) ∨
    (i = .droneStep false ∧ s.cht.source = 1 ∧ pins = some { edges s with step := true } ∧
      u = (place ((field (edges s).base 63 24 + 1) % 2 ^ 40) 24 ||| (if (edges s).tick then inc s else 0))) ∨
    (i = .droneTick false ∧ s.cht.source = 1 ∧ pins = some { edges s with tick := true } ∧
      u = if (edges s).step then place ((field (edges s).base 63 24 + 1) % 2 ^ 40) 24 ||| inc s
        else place (field (edges s).base 63 24) 24 ||| BitVec.ofNat 64 (min 0xFFFFFF (field (edges s).base 23 0 + s.cht.tickInc.toNat))) ∨
    ∃ h : PktHdr, i = .drone h ∧ h.cut = none ∧ h.early = false ∧ h.hcrcOk = true ∧ h.kind = 6 ∧ h.dstChip = s.peer.chipId ∧
      h.srcChip = s.cht.masterChip ∧ h.body = u ∧ s.cht.source = 2 ∧ s.children = [] ∧ s.slipping = s.syn.slip ∧
      bit h.arg 0 = s.cht.slipRx ∧ pins = s.cht.pins
  (∀ (s : State) (i : Instr) (u : Word) (pins : Option PinCycle), s.atRest = true → sent s i u pins →
    let c := { s.cht with latest := some u, pins := pins }
    (s.cht.holding = true → ∃ t, exec i s = .next t ∧ t.cht = { c with kept := some u, lost := false } ∧ t.out = s.out ∧
      s.onlyChanges t [.cht]) ∧
    (s.cht.holding = false → s.cht.drone.toNat ≤ u.toNat → quiet s u.toNat → calm s → away s u → ∃ t, exec i s = .next t ∧
      t.cht = { c with drone := u, held := false, lost := false, lagAt := none, frac := 0 } ∧ told s t u [.cht] []) ∧
    (s.cht.holding = false → u.toNat < s.cht.drone.toNat →
      (field u 63 24 = field s.cht.drone 63 24 → s.cht.drone.toNat - u.toNat ≤ s.cht.regressTol.toNat →
        ∃ t, exec i s = .next t ∧ t.cht = { c with lagAt := some u, lost := false, frac := 0 } ∧ t.out = s.out ∧ s.onlyChanges t [.cht]) ∧
      (records s → (field u 63 24 ≠ field s.cht.drone 63 24 ∨ s.cht.regressTol.toNat < s.cht.drone.toNat - u.toNat) →
        ∃ t, exec i s = .next t ∧ t.cht = { c with held := true, lost := false, lagAt := none, frac := 0 } ∧ reported s t 9))) ∧
  (∀ (s : State) (fn : Fn) (v : Word), s.hostOpen fn.toNat = true → (fn ≠ 0 ∨ s.cht.source ≠ 0) →
    ∃ t, exec (.chtDroneSet fn v) s = .next t ∧ t.out = s.out ∧ s.onlyChanges t []) ∧
  (∀ (s : State) (g : Bool), s.atRest = true → s.cht.source ≠ 1 →
    exec (.droneStep g) s = .next s ∧ exec (.droneTick g) s = .next s) ∧
  (∀ (s : State) (i : Instr) (u : Word) (pins : Option PinCycle), s.atRest = true → s.cht.source = 1 →
    ((i = .droneStep true ∧ sent s (.droneStep false) u pins) ∨ (i = .droneTick true ∧ sent s (.droneTick false) u pins)) →
    (Config.glitchCounts s.free = false → ∃ t, exec i s = .next t ∧ t.free = s.free + 1 ∧ s.onlyChanges t [.free] [(pgGLB, 0, 6)]) ∧
    (Config.glitchCounts s.free = true → s.cht.holding = false → s.cht.drone.toNat ≤ u.toNat → quiet s u.toNat → calm s → away s u →
      ∃ t, exec i s = .next t ∧ t.free = s.free + 1 ∧ told s t u [.free, .cht] [(pgGLB, 0, 6)] ∧
        t.cht = { s.cht with
          latest := some u, pins := pins, drone := u, held := false, lost := false, lagAt := none, frac := 0 })) ∧
  (∀ (s : State) (n : BitVec 32), s.atRest = true →
    (s.cht.rate = 0 ∨ s.cht.held = true ∨ s.cht.lost = true ∨ s.cht.holding = true ∨ (s.cht.source = 2 ∧ s.cht.slipRx = true)) →
    exec (.droneInterpolate n) s = .next s) ∧
  (∀ (s : State) (n : BitVec 32), s.atRest = true → s.cht.rate ≠ 0 → s.cht.held = false → s.cht.lost = false → s.cht.holding = false →
    (s.cht.source ≠ 2 ∨ s.cht.slipRx = false) →
    let tot := s.cht.frac.toNat + n.toNat * s.cht.rate.toNat
    let ph (w : Word) : Nat := field w 23 0 + tot / 65536
    let v (w : Word) : Word := place (field w 63 24) 24 ||| BitVec.ofNat 64 (min 0xFFFFFF (ph w))
    let fr (w : Word) : BitVec 16 := if ph w < 0xFFFFFF then BitVec.ofNat 16 tot else 0
    (s.cht.lagAt = none → quiet s (v s.cht.drone).toNat → ∃ t, exec (.droneInterpolate n) s = .next t ∧
      t.cht = { s.cht with drone := v s.cht.drone, frac := fr s.cht.drone } ∧ t.out = s.out ∧ s.onlyChanges t [.cht]) ∧
    ∀ a, s.cht.lagAt = some a →
      ((v a).toNat ≤ s.cht.drone.toNat → ∃ t, exec (.droneInterpolate n) s = .next t ∧
        t.cht = { s.cht with lagAt := some (v a), frac := fr a } ∧ t.out = s.out ∧ s.onlyChanges t [.cht]) ∧
      (s.cht.drone.toNat < (v a).toNat → quiet s (v a).toNat → away s (v a) → ∃ t, exec (.droneInterpolate n) s = .next t ∧
        t.cht = { s.cht with drone := v a, lagAt := none, frac := fr a } ∧ told s t (v a) [.cht] [])) ∧
  (∀ s : State, s.atRest = true → (s.cht.lossLimit = 0 ∨ s.cht.lost = true) → exec .droneLost s = .next s) ∧
  (∀ s : State, s.atRest = true → s.cht.lossLimit ≠ 0 → s.cht.lost = false → records s →
    ∃ t, exec .droneLost s = .next t ∧ t.cht = { s.cht with lost := true, lagAt := none, frac := 0 } ∧ reported s t 10)

/-- A DRONE packet with a bad header CRC, one that began before the end of the packet before it (15_block_ports.md R341), or one for another chip sets its PXP sticky bit and does nothing else (R269); from a chip that is not the master it
sets its CHT bit; else it is forwarded to every enabled child and sets SLIP (R210, R277). A master's broadcast sends every child the Drone and whether it holds (R211).
A DRONE packet that its
sender left incomplete sets PORT_PROTOCOL of its port (R332). REBASE through PF0 makes the latest update the Drone and ends hold and lag; the occurrence of a window entry not armed there is cleared (R214). CHT_DRONE_CFG
takes its fields; a change of SRC while an entry is armed, and MASTER with SRC FABRIC, are refused with the sticky bit (R210, R211). -/
def Obligations.DroneIsShared : Prop :=
  let goesTo (s : State) (t : State) (c : Nat) (h : PktHdr) : Prop := ∀ r rest, upSlots (s.route c) = r :: rest →
    .fabric (slotPort (s.route c) r) (slotTag (s.route c) r) (Packet.sealed { h := { h with route := BitVec.ofNat 2 r } }) ∈ t.out
  let away (s : State) (u : Word) : Prop :=
    field u 63 24 = s.droneStep ∨ s.cht.master = false ∨ ∀ c ∈ s.children, s.isSelf c = false
  let told (s t : State) (u : Word) (rs : List Region) (l : List (Nat × Nat × Nat)) : Prop :=
    if field u 63 24 = s.droneStep ∨ s.cht.master = false then (l = [] → t.out = s.out) ∧ s.onlyChanges t rs l
    else (∀ c ∈ s.children, goesTo s t c { s.header 6 c with body := u, arg := BitVec.ofNat 32 t.cht.holding.toNat }) ∧
      t.peer = { s.peer with flow := t.peer.flow } ∧ s.onlyChanges t (.peer :: rs) l
  let slips (s t : State) : Prop := t.syn.slip = (s.skk.thermal ≠ 0 || t.cht.slipRx || t.cht.holding)
  (∀ (s : State) (h : PktHdr) (p : Fin 12), s.atRest = true → h.cut = some p →
    ∃ t, exec (.drone h) s = .next t ∧ s.onlyChanges t [] [(pgGLB, 0, 5)]) ∧
  (∀ (s : State) (h : PktHdr), s.atRest = true → h.cut = none →
    (h.early = true ∨ h.hcrcOk = false ∨ h.kind = 0 ∨ 8 < h.kind.toNat) →
    ∃ t, exec (.drone h) s = .next t ∧ s.onlyChanges t [] [(pgPXP, 0, 5)]) ∧
  (∀ (s : State) (h : PktHdr), s.atRest = true → h.cut = none → h.early = false → h.hcrcOk = true → h.kind = 6 →
    h.dstChip ≠ s.peer.chipId →
    ∃ t, exec (.drone h) s = .next t ∧ s.onlyChanges t [] [(pgPXP, 0, 4)]) ∧
  (∀ (s : State) (h : PktHdr), s.atRest = true → h.cut = none → h.early = false → h.hcrcOk = true → h.kind = 6 → h.dstChip = s.peer.chipId →
    (s.cht.source = 2 → h.srcChip ≠ s.cht.masterChip → ∃ t, exec (.drone h) s = .next t ∧ s.onlyChanges t [] [(pgCHT, 0, 11)]) ∧
    (s.cht.source ≠ 2 → ∃ t, exec (.drone h) s = .next t ∧ t.cht = { s.cht with slipRx := bit h.arg 0 } ∧ slips s t ∧
      (∀ c ∈ s.children, s.isSelf c = false → goesTo s t c { h with dstChip := BitVec.ofNat 12 c }) ∧
      t.peer = { s.peer with flow := t.peer.flow } ∧ s.onlyChanges t [.cht, .peer, .syn])) ∧
  (∀ s : State, s.atRest = true → s.cht.master = false → exec .droneBroadcast s = .next s) ∧
  (∀ s : State, s.atRest = true → s.cht.master = true → (∀ c ∈ s.children, s.isSelf c = false) →
    ∃ t, exec .droneBroadcast s = .next t ∧ t.peer = { s.peer with flow := t.peer.flow } ∧ s.onlyChanges t [.peer] ∧
      ∀ c ∈ s.children, goesTo s t c { s.header 6 c with body := s.cht.drone, arg := BitVec.ofNat 32 s.cht.holding.toNat }) ∧
  (∀ (s : State) (fn : Fn), s.hostOpen fn.toNat = true → (fn ≠ 0 ∨ s.cht.latest = none) →
    ∃ t, exec (.rebase fn) s = .next t ∧ t.out = s.out ∧ s.onlyChanges t []) ∧
  (∀ (s : State) (u : Word), s.hostOpen 0 = true → s.cht.latest = some u → (∀ i, (s.entry i).covers (field u 63 24) = false) →
    away s u →
    ∃ t, exec (.rebase 0) s = .next t ∧
      t.cht = { s.cht with drone := u, held := false, lagAt := none, frac := 0, due := [], entry := t.cht.entry, row := t.cht.row } ∧
      (∀ i, if (s.entry i).kind = 1 then t.entry i = { s.entry i with
          open_ := false, live := false, step := 0, fired := false, done := false, gatePassed := false, fallback := false
          runOld := (s.entry i).run.isSome, occ := (t.entry i).occ, last := none } ∧ (s.entry i).occ < (t.entry i).occ
        else t.entry i = s.entry i) ∧
      told s t u [.cht, .syn] []) ∧
  (∀ (s : State) (fn : Fn) (v : Word), s.hostOpen fn.toNat = true → fn ≠ 0 →
    ∃ t, exec (.chtDroneCfg fn v) s = .next t ∧ t.out = s.out ∧ s.onlyChanges t []) ∧
  (∀ (s : State) (v : Word), s.hostOpen 0 = true →
    let asked : BitVec 2 := BitVec.ofNat 2 (field v 1 0)
    let refused : Bool := (if asked = 3 then 0 else asked.toNat) ≠ s.cht.source && s.anyArmed && !s.cht.held
    let src : BitVec 2 := if refused then s.cht.src else asked
    let master : Bool := bit v 4 && src ≠ 2
    ∃ t, exec (.chtDroneCfg 0 v) s = .next t ∧ slips s t ∧
      t.cht = { s.cht with
        masterChip := BitVec.ofNat 12 (field v 27 16), src := src, master := master
        slipHolders := if master then s.cht.slipHolders else [], kept := if master then s.cht.kept else none } ∧
      s.onlyChanges t [.cht, .syn] (if refused || (bit v 4 && src = 2) then [(pgCHT, 0, 12)] else []))

/-- When the Drone crosses START of an armed RESERVE entry, its window opens and its row is enabled; when it crosses END, it closes and the row is disabled (R216 to
R221). While the engine of its Chanter is in failover
the event waits (R298). A completion pulse of an armed window entry counts, and fires the action when its conditions hold; another is counted as discarded (R221, R224). SLIP of a
chip makes a master hold and counts, SLIP_END and the limit end the hold, which applies the update kept (R213, R280); both are acknowledged, a duplicate too,
which changes nothing else (R270). A slip that outlasts SYN_SLIP_MAX extends the affected deadlines by it (R202). -/
def Obligations.WindowsPulsesSlips : Prop :=
  let entries (s t : State) (i : Nat) (e : Entry) : Prop := t.entry i = e ∧ ∀ j, j ≠ i → t.entry j = s.entry j
  let goesTo (s t : State) (c : Nat) (h : PktHdr) : Prop := ∀ r rest, upSlots (s.route c) = r :: rest →
    .fabric (slotPort (s.route c) r) (slotTag (s.route c) r) (Packet.sealed { h := { h with route := BitVec.ofNat 2 r } }) ∈ t.out
  let acked (s t : State) (h : PktHdr) (mask : BitVec 16) : Prop :=
    goesTo s t h.srcChip.toNat { s.header 4 h.srcChip.toNat with mask := mask, psn := h.psn, blocks := h.blocks }
  let quiet (s : State) (b : Nat) : Prop := ∀ i k v : Nat, (s.entry i).held = true → (s.entry i).kind = 1 →
    k % (s.entry i).period = (s.entry i).offset → (v = k * 16777216 + (s.entry i).start ∨ v = k * 16777216 + (s.entry i).end_) →
    ¬ (s.cht.drone.toNat < v ∧ v ≤ b)
  let freed (s : State) : Cht :=
    let c := { s.cht with slipHolders := [], kept := none }
    match s.cht.kept with
    | some u => if s.cht.drone.toNat < u.toNat then { c with drone := u, held := false, lost := false, lagAt := none, frac := 0 } else c
    | none => c
  let calm (s : State) : Prop := s.cht.held = true → ∀ i, (s.entry i).held = true → (s.entry i).kind = 1 →
    s.droneStep % (s.entry i).period = (s.entry i).offset →
    ¬ ((s.entry i).start ≤ field s.cht.drone 23 0 ∧ field s.cht.drone 23 0 < (s.entry i).end_)
  let noLeap (s : State) : Prop := ∀ u, s.cht.kept = some u → quiet s u.toNat ∧ calm s ∧
    (field u 63 24 = s.droneStep ∨ s.cht.master = false ∨ ∀ c ∈ s.children, s.isSelf c = false)
  let tells (s t : State) : Prop := ∀ u, s.cht.kept = some u → s.cht.drone.toNat < u.toNat → field u 63 24 ≠ s.droneStep →
    s.cht.master = true → ∀ c ∈ s.children, goesTo s t c { s.header 6 c with body := u, arg := 0 }
  let slips (t : State) : Prop := t.syn.slip = t.slipping
  (∀ (s : State) (u : Word) (i k : Nat) (e : Entry), s.hostOpen 0 = true → s.cht.source = 0 → s.cht.holding = false →
    s.cht.entry = [(i, e)] → e.held = true → e.kind = 1 → e.action = 4 → k % e.period = e.offset →
    s.droneStep = k → field u 63 24 = k → s.cht.drone.toNat ≤ u.toNat → e.start < e.end_ →
    (∀ p, s.cht.pins = some p → p.at_ ≠ s.glb.time) →
    let row := field e.arg0 8 0
    let at_ (d : Word) (x : Nat) : Prop := d.toNat < k * 16777216 + x
    (at_ s.cht.drone e.start → ¬ at_ u e.start → at_ u e.end_ → e.covers k = true → e.live = false →
      (s.chanter e).isSome = true →
      ∃ t, exec (.chtDroneSet 0 u) s = .next t ∧ t.cht.drone = u ∧
        entries s t i { e with open_ := true, live := true, step := k, fired := false, done := true, gatePassed := false, fallback := false,
                               runOld := e.run.isSome, occ := e.occ + 1, last := some k } ∧
        (tabGet (fun _ => {}) t.cht.row row).enabled = !s.macroLost 0x10 (5 * 65536 + row) ∧ t.out = s.out ∧ s.onlyChanges t [.cht]) ∧
    (at_ s.cht.drone e.start → ¬ at_ u e.start → at_ u e.end_ → e.covers k = true → s.chanter e = none →
      s.ownerKnown e = true → ∃ t, exec (.chtDroneSet 0 u) s = .next t ∧ t.cht = { s.cht with
          latest := some u, drone := u, held := false, lost := false, lagAt := none, frac := 0
          due := s.cht.due ++ [{ at_ := k * 16777216 + e.start, i := i, step := k, opens := true, whole := false }] } ∧
        t.out = s.out ∧ s.onlyChanges t [.cht]) ∧
    (¬ at_ s.cht.drone e.start → at_ s.cht.drone e.end_ → ¬ at_ u e.end_ → e.open_ = true → e.step = k → e.deadline = false →
      (s.chanter e).isSome = true →
      ∃ t, exec (.chtDroneSet 0 u) s = .next t ∧ t.cht.drone = u ∧ entries s t i { e with open_ := false, live := false } ∧
        (tabGet (fun _ => {}) t.cht.row row).enabled = false ∧ t.out = s.out ∧ s.onlyChanges t [.cht])) ∧
  (∀ (s : State) (h : BitVec 32), s.atRest = true →
    let i := hIdx h
    let e := s.entry i
    let takes := s.goodEntry h (hPart h) && e.kind = 1 && s.armed e
    let fires := e.live && !e.fired && e.action ≠ 4 && (e.action ≠ 1 || e.run.isNone) && (s.chanter e).isSome && decide (e.need ≤ (satInc e.count).toNat) && (!e.gateEn || e.gatePassed)
    let pulses := dropFirst (fun x => x = h) s.cht.pulses
    (takes = false → ∃ t, exec (.planPulse h) s = .next t ∧
      t.chtView (hPart h) = { s.chtView (hPart h) with pulseDiscard := satInc (s.chtView (hPart h)).pulseDiscard } ∧
      (∀ f, f ≠ hPart h → t.chtView f = s.chtView f) ∧ t.cht = { s.cht with pulses := pulses, view := t.cht.view } ∧ t.out = s.out ∧
      s.onlyChanges t [.cht]) ∧
    (takes = true → fires = false → ∃ t, exec (.planPulse h) s = .next t ∧ entries s t i { e with count := satInc e.count } ∧
      t.cht = { s.cht with pulses := pulses, entry := t.cht.entry } ∧ t.out = s.out ∧ s.onlyChanges t [.cht]) ∧
    (takes = true → fires = true → e.open_ = true → e.action = 0 → ∃ t, exec (.planPulse h) s = .next t ∧
      entries s t i { e with count := satInc e.count - BitVec.ofNat 8 e.need, fired := true, done := true } ∧
      t.cht = { s.cht with pulses := pulses, entry := t.cht.entry } ∧ t.out = s.out ∧ s.onlyChanges t [.cht]) ∧
    (takes = true → fires = true → e.open_ = true → e.action = 3 → bit e.arg1 14 = false → s.goodObj e.arg0 e.part = true →
      ∃ t, exec (.planPulse h) s = .next t ∧
        entries s t i { e with count := satInc e.count - BitVec.ofNat 8 e.need, fired := true } ∧
        (let n := engineRank ((s.chanter e).getD .A)
         t.syn = { s.syn with acts := s.syn.acts.filter (fun x => x.before s.glb.time n) ++
          [{ from_ := .plan i e.occ, handle := e.arg0, action := BitVec.ofNat 2 (field e.arg1 17 16), value := e.value
             at_ := s.glb.time, rank := n }] ++ s.syn.acts.filter (fun x => !x.before s.glb.time n) }) ∧
        t.cht = { s.cht with pulses := pulses, entry := t.cht.entry } ∧ t.out = s.out ∧ s.onlyChanges t [.cht, .syn])) ∧
  (∀ (s : State) (h : PktHdr) (i : Instr) (p : Fin 12), s.atRest = true → h.cut = some p → (i = .slip h ∨ i = .slipEnd h) →
    ∃ t, exec i s = .next t ∧ s.onlyChanges t [] [(pgGLB, 0, 5)]) ∧
  (∀ (s : State) (h : PktHdr) (i : Instr), s.atRest = true → h.cut = none → h.early = false → h.hcrcOk = true →
    h.dstChip = s.peer.chipId → s.isSelf h.srcChip.toNat = false → ((i = .slip h ∧ h.kind = 7) ∨ (i = .slipEnd h ∧ h.kind = 8)) →
    let seen : Bool := match s.rxPkt h.srcChip.toNat h.psn.toNat with | some p => bit p.mask 0 | none => false
    (s.beforeWindow h = true → ∃ t, exec i s = .next t ∧ acked s t h (fullMask h) ∧
      t.peer = { s.peer with flow := t.peer.flow, dup := satInc s.peer.dup } ∧ s.onlyChanges t [.peer]) ∧
    (s.beforeWindow h = false → seen = true → ∃ t, exec i s = .next t ∧ acked s t h 1 ∧
      t.peer = { s.peer with flow := t.peer.flow, rx := t.peer.rx, dup := satInc s.peer.dup } ∧ s.onlyChanges t [.peer]) ∧
    (s.beforeWindow h = false → seen = false → (i = .slipEnd h → noLeap s) → ∃ t, exec i s = .next t ∧ acked s t h 1 ∧
      t.peer = { s.peer with flow := t.peer.flow, rx := t.peer.rx } ∧ s.onlyChanges t [.cht, .peer, .syn] ∧
      let chip := h.srcChip.toNat
      let rest := s.cht.slipHolders.filter (· ≠ chip)
      if i = .slip h then
        (if s.cht.master = false ∨ s.cht.slipHolders.contains chip = true then t.cht = s.cht
         else t.cht = { s.cht with slipHolders := chip :: s.cht.slipHolders, slipHeld := satInc s.cht.slipHeld } ∧ slips t)
      else if s.cht.slipHolders.contains chip = false then t.cht = s.cht
      else if rest ≠ [] then t.cht = { s.cht with slipHolders := rest }
      else t.cht = freed s ∧ slips t ∧ tells s t)) ∧
  (∀ s : State, s.atRest = true → s.cht.holding = false → exec .slipLimitExpired s = .next s) ∧
  (∀ s : State, s.atRest = true → s.cht.holding = true → noLeap s →
    ∃ t, exec .slipLimitExpired s = .next t ∧ t.cht = freed s ∧ slips t ∧ tells s t ∧ (s.cht.kept = none → t.out = s.out) ∧
      t.peer = { s.peer with flow := t.peer.flow } ∧ s.onlyChanges t [.cht, .syn, .peer]) ∧
  (∀ s : State, s.atRest = true → (s.syn.slip = false ∨ s.syn.slipOver = true) → exec .slipExpired s = .next s) ∧
  (∀ s : State, s.atRest = true → s.syn.slip = true → s.syn.slipOver = false →
    let stop := min s.glb.time.toNat (s.syn.slipAt.toNat + s.syn.slipMax.toNat * Config.usCycles)
    ∃ t, exec .slipExpired s = .next t ∧ t.syn = { s.syn with slipOver := true, rec_ := t.syn.rec_ } ∧
      (∀ r, s.wrec r = none → t.wrec r = none) ∧
      (∀ r w, s.wrec r = some w → t.wrec r = some (if (s.obj (hIdx w.handle)).slip then
        { w with deadline := w.deadline + BitVec.ofNat 64 (stop - max s.syn.slipAt.toNat w.linked.toNat) } else w)) ∧
      s.onlyChanges t [.syn] [(pgSYN, 0, 8)])

/-- PLAN_LOAD reads the image's header, or gives RESULT 7 for a partition not ENABLED, 1 for a header out of range; busy, it sets a sticky bit (R235, R287). Each line read joins the image
(R234). The image read is refused with the first check that fails - open, read, form, handles, entries, rows, reserves - or placed at the lowest free run of indices with the next generations, and its rows
in the lowest free rows; the load returns the first handle once its descriptors are resolved (R233, R235). PLAN_FREE frees COUNT entries of one partition,
withdrawing their resolutions, and rows of images with no entry left (R228, R236). -/
def Obligations.PlansLoadAndFree : Prop :=
  let replied (s t : State) (fn : Fn) (r : BitVec 3) (h : BitVec 32) : Prop :=
    t.chtView fn.toNat = { s.chtView fn.toNat with
      busy := false, result := r, handle := h, lines := [], binds := [], readDone := false, readBad := false, loaded := none } ∧
      ∀ f, f ≠ fn.toNat → t.chtView f = s.chtView f
  let failed (s t : State) (fn : Fn) (r : BitVec 3) : Prop :=
    replied s t fn r (s.chtView fn.toNat).handle ∧ t.cht = { s.cht with view := t.cht.view } ∧ t.out = s.out ∧ s.onlyChanges t [.cht]
  let fresh (s : State) : Prop := s.home = {} ∧ s.hlk.remap = none
  let line (a : Word) : Word := a &&& 0xFFFFFFFFFFFFFFC0
  let rowOf (s : State) (k : Nat) : Row := tabGet (fun _ => {}) s.cht.row k
  (∀ (s : State) (fn : Fn), s.viewOpen fn.toNat = true →
    let v := s.chtView fn.toNat
    let img := v.image &&& 0xFFFFFFFFFFFFFFC0
    ∃ t, exec (.planLoad fn) s = .next t ∧
      if v.busy = true then s.onlyChanges t [] [(pgCHT, fn.toNat, 8)]
      else if (s.part fn.toNat).st ≠ .enabled then failed s t fn 7
      else if s.masterEnabled fn.toNat = false ∨ s.inRange fn.toNat 0 img 64 = false then failed s t fn 1
      else ∀ l, fresh s → s.cacheLink img = some l →
        t.chtView fn.toNat = { v with busy := true, lines := [], binds := [], readDone := false, readBad := false, loaded := none } ∧
        (∀ f, f ≠ fn.toNat → t.chtView f = s.chtView f) ∧ t.cht = { s.cht with view := t.cht.view } ∧ (.d2hReq l "RdCurr" img) ∈ t.out ∧
        s.onlyChanges t [.cht, .home]) ∧
  (∀ (s : State) (fn : Fn) (bind : Bool) (k n : Nat) (x : Txn) (g : Granule), s.atRest = true → (s.chtView fn.toNat).busy = true →
    (s.chtView fn.toNat).readDone = false → s.masterEnabled fn.toNat = true → (∀ a, (s.cacheLink (line a)).isSome = true) →
    k = (if bind then (s.chtView fn.toNat).binds else (s.chtView fn.toNat).lines).length → s.home = { line := [(n, { txn := some x })] } →
    s.hlk.remap = none → n < 2 ^ 58 → x.st = .curr →
    x.cause = .req { who := .unit (.image fn.toNat bind k), kind := .readNoAlloc, addr := lineAddr n, part := fn.toNat } →
    let v := s.chtView fn.toNat
    ∃ t, exec (.hostData (lineAddr n) false g) s = .next t ∧ t.cht = { s.cht with view := t.cht.view } ∧
      { t.chtView fn.toNat with readDone := false, readBad := v.readBad } =
        { v with lines := if bind then v.lines else v.lines ++ [g], binds := if bind then v.binds ++ [g] else v.binds } ∧
      (∀ f, f ≠ fn.toNat → t.chtView f = s.chtView f) ∧ s.onlyChanges t [.cht, .home]) ∧
  (∀ (s : State) (fn : Fn), s.atRest = true → ((s.chtView fn.toNat).busy = false ∨ (s.chtView fn.toNat).readDone = false) →
    exec (.imageReadDone fn) s = .next s) ∧
  (∀ (s : State) (fn : Fn), s.atRest = true → (s.chtView fn.toNat).busy = true → (s.chtView fn.toNat).readDone = true →
    let p := fn.toNat
    let v := s.chtView p
    let m := v.planImage
    let base := freeRun m.nEntries 0 s.usedEntries
    let rows := s.freeRows m.nRows
    let isStart (k : Nat) : Bool := let e : Entry := { body := m.entries.getD k 0 }; e.kind = 1 && e.action = 1
    let handle (k : Nat) : BitVec 32 := objHandle (nextGen (s.entry (base + k)).gen) p 3 (base + k)
    ∃ t, exec (.imageReadDone fn) s = .next t ∧
      if (s.part p).st ≠ .enabled then failed s t fn 7
      else if v.readBad = true then failed s t fn 1
      else if s.imageGood p m = false then failed s t fn 2
      else if (List.range m.nEntries).all (s.entryBinds p m) = false then failed s t fn 3
      else if Config.planEntries < base + m.nEntries ∨ (s.part p).qEntries < s.entryCount p + m.nEntries then failed s t fn 4
      else if rows.length < m.nRows ∨ (s.part p).qRows < s.rowCount p + m.nRows then failed s t fn 5
      else if s.overReserved p (m.rows.take m.nRows) = true then failed s t fn 6
      else
        (let starts := ((List.range m.nEntries).filter isStart).map (base + ·)
         if t.resolving starts = true then t.chtView p = { v with loaded := some (handle 0, starts) } ∧ ∀ f, f ≠ p → t.chtView f = s.chtView f
         else replied s t fn 0 (handle 0)) ∧
        (∀ k, k < m.nEntries → ({ body := m.entries.getD k 0 : Entry }).kind = 1 →
          (t.entry (base + k)).body = relocate m rows handle (m.entries.getD k 0)) ∧
        (∀ k, k < m.nEntries → { t.entry (base + k) with body := 0, resNo := 0 } =
          { gen := nextGen (s.entry (base + k)).gen, held := true, part := p, img := s.cht.loads + 1
            occ := (s.entry (base + k)).occ + 1 }) ∧
        (∀ i, (i < base ∨ base + m.nEntries ≤ i) → t.entry i = s.entry i) ∧
        (∀ (j k : Nat) (r : PlanRow), rows[j]? = some k → m.rows[j]? = some r → rowOf t k =
          { held := true, part := p, img := s.cht.loads + 1, path := r.path, bytes := r.bytes, mask := r.mask }) ∧
        (∀ k, k ∉ rows → rowOf t k = rowOf s k) ∧
        t.cht = { s.cht with entry := t.cht.entry, row := t.cht.row, view := t.cht.view, loads := s.cht.loads + 1 } ∧ t.out = s.out ∧
        s.onlyChanges t [.cht, .xlt] ∧ (((List.range m.nEntries).any isStart) = false → t.xlt = s.xlt)) ∧
  (∀ (s : State) (fn : Fn) (h : BitVec 32) (n : BitVec 17), s.viewOpen fn.toNat = true →
    let p := fn.toNat
    let mine (i : Nat) : Bool := decide (hIdx h ≤ i) && decide (i < hIdx h + n.toNat)
    ∃ t, exec (.planFree fn h n) s = .next t ∧
      if (s.chtView p).busy = true then s.onlyChanges t [] [(pgCHT, p, 8)]
      else if n = 0 ∨ s.goodEntry h p = false ∨
        ((List.range n.toNat).any fun j => !(s.entry (hIdx h + j)).held || (s.entry (hIdx h + j)).part ≠ p) = true then failed s t fn 3
      else
        replied s t fn 0 h ∧
        (∀ i, t.entry i = let e := s.entry i
          if mine i = false then e else if e.run = none then { gen := e.gen, occ := e.occ + 1, resNo := e.resNo + 1 }
          else { e with held := false, arms := [], count := 0, fired := false, open_ := false, live := false, resNo := e.resNo + 1 }) ∧
        (∀ k, (rowOf t k).held = ((rowOf s k).held &&
          s.cht.entry.any fun e => e.2.held && !mine e.1 && e.2.img = (rowOf s k).img)) ∧
        t.cht = { s.cht with entry := t.cht.entry, row := t.cht.row, view := t.cht.view } ∧ t.out = s.out ∧ s.onlyChanges t [.cht, .syn, .xlt])

/-! ## The coherence home -/

/-- A request for an idle line the home holds in its device cache is answered at once: a read with the data and the directory state R253 gives, a whole write merged and
acknowledged, an AtomicReq begun. Owned by an agent, the line starts a transaction and the owner is snooped, with a TAG no other snoop has (15_block_ports.md R335). Not present, it is allocated and the host is asked, or the request
fails with 0x44 without a link (R247, R253). A busy line, and one whose WriteBack by the agent is not yet acknowledged, answers RETRY and records the request, or queues an atomic (R248, R250). A disabled agent gets 0x05, an undefined or misaligned
atomic 0x06 or 0x03; a kind its agent may not send is a breach (R246, R258). While a remap drains the home, requests are held. -/
def Obligations.HomeServesRequests : Prop :=
  let who (r : HReq) : Asker := .agent r.agent.toNat r.tag.toNat r.port.val
  let mk (r : HReq) (k : ReqKind) (ok : Bool) (d : Granule) : Option HomeReq :=
    if ok && decide (r.port.val ≠ 4) then some { who := who r, kind := k, addr := r.addr &&& 0xFFFFFFFFFFFFFFC0, data := d, be := r.be, poison := r.poison }
    else none
  let core (r : HReq) : Bool := decide (256 ≤ r.agent.toNat) && decide (r.agent.toNat < 1280)
  let ask (s : State) (i : Instr) : Option HomeReq :=
    match i with
    | .readShared r => mk r .readShared (decide (r.agent.toNat < 256)) 0
    | .readUnique r => mk r .readUnique (decide (r.agent.toNat < 256)) 0
    | .readNoAlloc r => mk r .readNoAlloc (decide (r.agent.toNat < 1280)) 0
    | .writeNoAlloc r d => mk r .writeNoAlloc (core r) d
    | .atomicReq r _ op ty a b =>
      if core r && decide (r.port.val ≠ 4) && atomicDefined op.toNat ty.toNat && multOf (typeBits ty.toNat / 8) r.addr then
        some { who := who r, kind := .atomic, addr := r.addr, be := r.be, poison := r.poison, op := ⟨op.toNat, ty.toNat, a, b⟩
               part := (s.client (r.agent.toNat - 256)).part }
      else none
    | _ => none
  let comes (s : State) (i : Instr) (q : HomeReq) : Prop :=
    ask s i = some q ∧ ∀ id tag port, q.who = .agent id tag port → s.creditsSpent port .req < 64
  let reply (t : State) (q : Asker) (addr : Word) (opc : Nat) (st : Code) (poison : Bool) (d : Granule) : Prop :=
    match q with
    | .agent id tag port => .noc port { opc := opc, agent := id, tag := tag, addr := addr, status := st, poison := poison, data := d } ∈
        t.out ++ t.noc.wait
    | .unit _ => False
  let open_ (s : State) : Prop :=
    s.atRest = true ∧ s.hlk.remap = none ∧ s.home.flush = [] ∧ s.home.todo = [] ∧ s.xlt.locks = [] ∧
    (∀ m, (s.line m).dcWait = false ∧ ∀ x, (s.line m).txn = some x → x.st ≠ .way) ∧ ∀ w x, s.walker w = some x → x.at_ ≠ .locked
  let idle (l : Line) : Prop := l.txn = none ∧ l.atomics = [] ∧ l.parked = [] ∧ l.snoop = none ∧ l.retry = [] ∧ l.credit = false ∧ l.next = none ∧ l.leaves = false
  let stays (s : State) (n : Nat) : Prop :=
    s.skinkCopies n = false ∧ ((s.link (s.line n).via).up = false ∨ s.carries (s.line n).via = true)
  let lines (s t : State) (n : Nat) (l : Line) : Prop := t.line n = l ∧ ∀ m, m ≠ n → t.line m = s.line m
  let only (s t : State) : Prop := t.home = { s.home with line := t.home.line } ∧ s.onlyChanges t [.home]
  -- the line is in the device cache
  (∀ (s : State) (i : Instr) (q : HomeReq), open_ s → comes s i q → s.home.disabled.contains (askerId q.who) = false →
    let n := lineOf q.addr
    let l := s.line n
    let id := askerId q.who
    s.wbUnacked n id = false → idle l → stays s n → l.entry = true → l.dc ≠ 0 → (l.dstate = .i ∨ l.dstate = .s) →
    (q.kind = .readShared → ∃ t, exec i s = .next t ∧ only s t ∧
      if l.hm = true ∧ s.holdersOf n = [] then lines s t n (l.own .e id) ∧ reply t q.who q.addr 0x29 0 l.poison l.data
      else lines s t n (l.share id) ∧ reply t q.who q.addr 0x28 0 l.poison l.data) ∧
    (q.kind = .readUnique → l.hm = true → (s.holdersOf n).filter (· ≠ id) = [] → ∃ t, exec i s = .next t ∧ only s t ∧
      lines s t n (l.own .m id) ∧ reply t q.who q.addr 0x2A 0 l.poison l.data) ∧
    (q.kind = .readNoAlloc → ∃ t, exec i s = .next t ∧ only s t ∧ lines s t n l ∧
      if l.poison = true ∧ 256 ≤ id then reply t q.who q.addr 0x30 0xC1 false 0 else reply t q.who q.addr 0x2B 0 l.poison l.data) ∧
    (q.kind = .writeNoAlloc → l.hm = true → s.holdersOf n = [] → ∃ t, exec i s = .next t ∧ only s t ∧
      lines s t n { l.homeOwned with
        dc := 2, data := granMerge l.data q.data q.be, poison := q.poison || (l.poison && q.be ≠ 0xFFFFFFFFFFFFFFFF) } ∧
      reply t q.who q.addr 0x2C 0 false 0) ∧
    (q.kind = .atomic → l.hm = true → s.holdersOf n = [] → ∃ t, exec i s = .next t ∧ only s t ∧
      if l.poison = true then lines s t n l.homeOwned ∧ reply t q.who q.addr 0x30 0xC1 false 0
      else lines s t n { l.homeOwned with txn := some { cause := .req q, st := .atm, entryBefore := true } } ∧
        t.out = s.out)) ∧
  -- an agent owns the line
  (∀ (s : State) (i : Instr) (q : HomeReq) (o : Nat), open_ s → comes s i q → s.home.disabled.contains (askerId q.who) = false →
    let n := lineOf q.addr
    let l := s.line n
    s.wbUnacked n (askerId q.who) = false → s.home.dead.contains o = false → idle l → l.entry = true → (l.dstate = .e ∨ l.dstate = .m) → l.ptrs = [o] →
    let opc := match q.kind with | .readShared => 0x10 | .readNoAlloc => 0x12 | _ => 0x11
    let st : Tran := if q.kind = .writeNoAlloc then .rcl else .oFwd
    ∃ t k, exec i s = .next t ∧ s.onlyChanges t [.home] ∧ (∀ x ∈ s.home.snps, x.tag ≠ k) ∧
      t.home = { s.home with line := t.home.line, snps := s.home.snps ++ [{ tag := k, agent := o, flush := false, key := n }] } ∧
      lines s t n { l with txn := some { cause := .req q, st := st, waits := [o], entryBefore := true } } ∧
      .noc (Config.agentPort o % 4) { opc := opc, agent := o, tag := k, addr := lineAddr n } ∈ t.out ++ t.noc.wait) ∧
  -- the line is not present
  (∀ (s : State) (i : Instr) (q : HomeReq), open_ s → comes s i q → s.home.disabled.contains (askerId q.who) = false →
    let n := lineOf q.addr
    let (op, st) := match q.kind with
      | .readShared => ("RdShared", Tran.isH) | .readUnique => ("RdOwn", .imH) | .atomic => ("RdOwn", .atmH)
      | .readNoAlloc => ("RdCurr", .curr) | .writeNoAlloc => ("ItoMWr", .write)
    let alloc : Bool := !(q.kind = .readNoAlloc || q.kind = .writeNoAlloc)
    s.line n = {} → s.wbUnacked n (askerId q.who) = false → (s.home.line.filter (·.2.entry)).length < s.dirWays n →
    match s.cacheLink (lineAddr n) with
    | some k => ∃ t, exec i s = .next t ∧ t.out = s.out ++ [.d2hReq k op (lineAddr n)] ∧ s.onlyChanges t [.home] ∧
        t.home = { s.home with line := t.home.line, clock := s.home.clock + if alloc then 1 else 0 } ∧
        lines s t n { entry := alloc, age := if alloc then s.home.clock + 1 else 0
                      txn := some { cause := .req q, st := st, link := k, goWait := true, entryBefore := q.kind = .writeNoAlloc } }
    | none => ∃ t, exec i s = .next t ∧ reply t q.who q.addr 0x30 0x44 false 0 ∧ (t.line n).entry = false ∧ (t.line n).txn = none ∧
        (∀ m, m ≠ n → t.line m = s.line m) ∧ s.onlyChanges t [.home] [(pgHLK, 0, 4)]) ∧
  -- the line is busy
  (∀ (s : State) (i : Instr) (q : HomeReq), open_ s → comes s i q → s.home.disabled.contains (askerId q.who) = false →
    let n := lineOf q.addr
    let l := s.line n
    l.txn.isSome = true → l.credit = false → s.wbUnacked n (askerId q.who) = false →
    if q.kind = .atomic ∧ l.inAtomic = true ∧ s.atomicsQueued < 64 then
      ∃ t, exec i s = .next t ∧ only s t ∧ lines s t n { l with atomics := l.atomics ++ [q] } ∧ t.out = s.out
    else ∃ t, exec i s = .next t ∧ s.onlyChanges t [.home] ∧ reply t q.who q.addr 0x2E 0 false 0 ∧
      t.home = { s.home with line := t.home.line, retries := satInc s.home.retries } ∧
      lines s t n { l with retry := match q.who with
        | .agent id tag _ => if s.recorded id < 2 then l.retry ++ [(id, tag)] else l.retry
        | .unit _ => l.retry }) ∧
  -- the agent's WriteBack of the line is not yet acknowledged (R251)
  (∀ (s : State) (i : Instr) (q : HomeReq), open_ s → comes s i q → s.home.disabled.contains (askerId q.who) = false →
    let n := lineOf q.addr
    idle (s.line n) → stays s n → s.wbUnacked n (askerId q.who) = true →
    ∃ t, exec i s = .next t ∧ reply t q.who q.addr 0x2E 0 false 0 ∧ (t.line n).txn = none ∧ (∀ m, m ≠ n → t.line m = s.line m) ∧
      s.onlyChanges t [.home]) ∧
  -- refusals
  (∀ (s : State) (i : Instr) (q : HomeReq), s.atRest = true → comes s i q → s.home.disabled.contains (askerId q.who) = true →
    ∃ t, exec i s = .next t ∧ s.onlyChanges t [] [(pgCOH, 0, 1)] ∧ reply t q.who q.addr 0x30 0x05 false 0) ∧
  (∀ (s : State) (i : Instr) (q : HomeReq), s.atRest = true → comes s i q → s.home.disabled.contains (askerId q.who) = false →
    s.hlk.remap.isSome = true →
    ∃ t, exec i s = .next t ∧ t.home = { s.home with held := s.home.held ++ [q] } ∧ t.out = s.out ∧ s.onlyChanges t [.home]) ∧
  (∀ (s : State) (r : HReq) (i : Instr), s.atRest = true →
    (((i = .readShared r ∨ i = .readUnique r) ∧ 256 ≤ r.agent.toNat) ∨ (i = .readNoAlloc r ∧ 1280 ≤ r.agent.toNat) ∨
      (((∃ d, i = .writeNoAlloc r d) ∨ ∃ sc op ty a b, i = .atomicReq r sc op ty a b) ∧ core r = false) ∨
      ((i = .readShared r ∨ i = .readUnique r ∨ i = .readNoAlloc r ∨ (∃ d, i = .writeNoAlloc r d) ∨
        ∃ sc op ty a b, i = .atomicReq r sc op ty a b) ∧ r.port.val = 4)) →
    ∃ t, exec i s = .next t ∧ s.onlyChanges t [] [(pgGLB, 0, 5)]) ∧
  (∀ (s : State) (r : HReq) (sc : BitVec 2) (op ty : BitVec 4) (a b : Word), s.atRest = true → core r = true → r.port.val ≠ 4 →
    s.home.disabled.contains r.agent.toNat = false → s.creditsSpent r.port.val .req < 64 →
    (atomicDefined op.toNat ty.toNat = false → ∃ t, exec (.atomicReq r sc op ty a b) s = .next t ∧ s.onlyChanges t [] ∧
      reply t (who r) r.addr 0x30 0x06 false 0) ∧
    (atomicDefined op.toNat ty.toNat = true → multOf (typeBits ty.toNat / 8) r.addr = false →
      ∃ t, exec (.atomicReq r sc op ty a b) s = .next t ∧ s.onlyChanges t [] ∧ reply t (who r) r.addr 0x30 0x03 false 0))

/-- An answer to a snoop takes its agent off those awaited, changes the directory and absorbs written data (R253, R256); the last one serves the request from the device cache, or asks the host
when it holds no data. WB_PENDING waits for the WriteBack (R257). An answer whose AGENT and TAG match no snoop
outstanding is a breach (15_block_ports.md R335). A WriteBack of the owner is absorbed and acknowledged, another is stale and only
acknowledged (R257). GO-S, GO-E and GO-M fill the line and serve the request with the state they give; GO_WritePull sends the data; GO-I ends an eviction; GO-Err leaves a
poisoned line (R247, R253, R258). The data of an RdCurr is passed on and not kept. A home atomic writes its new value and answers the old (R254). -/
def Obligations.HomeTakesAnswers : Prop :=
  let reply (t : State) (q : HomeReq) (opc : Nat) (st : Code) (poison : Bool) (d : Granule) : Prop :=
    match q.who with
    | .agent id tag port => .noc port { opc := opc, agent := id, tag := tag, addr := q.addr, status := st, poison := poison, data := d } ∈
        t.out ++ t.noc.wait
    | .unit _ => False
  let open_ (s : State) : Prop :=
    s.atRest = true ∧ s.hlk.remap = none ∧ s.home.flush = [] ∧ s.home.todo = [] ∧ s.xlt.locks = [] ∧
    (∀ m, (s.line m).dcWait = false ∧ ∀ x, (s.line m).txn = some x → x.st ≠ .way) ∧ ∀ w x, s.walker w = some x → x.at_ ≠ .locked
  let alone (s : State) (n : Nat) (l : Line) : Prop := (l.atomics = [] ∧ l.parked = [] ∧ l.snoop = none ∧ l.retry = [] ∧ l.credit = false ∧
      l.next = none ∧ l.leaves = false) ∧ s.skinkCopies n = false ∧
    ((s.link l.via).up = false ∨ s.carries l.via = true)
  let lines (s t : State) (n : Nat) (l : Line) : Prop := t.line n = l ∧ ∀ m, m ≠ n → t.line m = s.line m
  let only (s t : State) : Prop := t.home = { s.home with line := t.home.line } ∧ s.onlyChanges t [.home]
  let room (s : State) (n : Nat) : Prop :=
    (s.line n).dc ≠ 0 ∨ (s.home.line.filter fun p => decide (p.2.dc ≠ 0)).length < s.waysLeft 6 (dcSet n / 1024) 16
  let gone (l : Line) : Line := { l.homeOwned with
    entry := false, coarse := false, hm := false, dc := 0, data := 0, poison := false, leaves := false, recalled := false, txn := none }
  let keepS (l : Line) : Line := if l.dstate = .e ∨ l.dstate = .m then { l with dstate := .s } else l
  let fill (l : Line) (p : Bool) (d : Granule) : Line := { l with dc := 2, data := d, poison := p }
  let mine (h : SnpHdr) (n : Nat) (x : SnpOut) : Bool := x.tag = h.tag.toNat && x.agent = h.agent.toNat && x.flush = false && x.key = n
  let rest (s : State) (h : SnpHdr) (n : Nat) : List SnpOut := dropFirst (mine h n) s.home.snps
  let due (s : State) (h : SnpHdr) (n : Nat) : Prop :=
    s.home.snps.any (mine h n) = true ∧ s.creditsSpent (Config.agentPort h.agent.toNat % 4) .rsp < 96
  -- the line after each answer but WB_PENDING
  let after (i : Instr) (h : SnpHdr) (addr : Word) (t : Txn) (l l' : Line) : Prop :=
    let put (d : Granule) : Line := if t.discards then l else fill l h.poison d
    (i = .ackS h addr ∧ l' = keepS l) ∨ (i = .ackI h addr ∧ l' = l.unshare h.agent.toNat) ∨
    (∃ d, i = .dataS h addr d ∧ l' = keepS (put d)) ∨
    (∃ d, i = .dataI h addr d ∧ l' = (put d).unshare h.agent.toNat) ∨
    (∃ d, i = .dataCur h addr d ∧ l' = put d)
  -- the line once a read of an agent is served from data, and its answer
  let served (s t : State) (n : Nat) (l : Line) (q : HomeReq) (poison : Bool) (d : Granule) : Prop :=
    let id := askerId q.who
    match q.kind with
    | .readShared => if l.hm = true ∧ (l.holders.filter fun a => !s.home.dead.contains a) = [] then lines s t n { l.own .e id with txn := none } ∧ reply t q 0x29 0 poison d
      else lines s t n { l.share id with txn := none } ∧ reply t q 0x28 0 poison d
    | .readUnique => lines s t n { l.own .m id with txn := none } ∧ reply t q 0x2A 0 poison d
    | .readNoAlloc => lines s t n { l with txn := none } ∧
      if poison = true ∧ 256 ≤ id then reply t q 0x30 0xC1 false 0 else reply t q 0x2B 0 poison d
    | _ => True
  let reads (q : HomeReq) : Prop := q.kind = .readShared ∨ q.kind = .readUnique ∨ q.kind = .readNoAlloc
  let fromAgent (q : HomeReq) : Prop := ∃ id tag port, q.who = .agent id tag port ∧ (q.kind = .readShared → id < 256)
  -- answers to snoops
  (∀ (s : State) (i : Instr) (h : SnpHdr) (addr : Word) (t : Txn) (l' : Line), open_ s →
    let n := lineOf addr
    let l := s.line n
    let a := h.agent.toNat
    let only (u : State) : Prop := u.home = { s.home with line := u.home.line, snps := rest s h n } ∧ s.onlyChanges u [.home]
    due s h n → l.txn = some t → t.waits.contains a = true → room s n → after i h addr t l l' →
    let x := { l'.txn.getD t with waits := t.waits.erase a }
    (x.waits ≠ [] → ∃ u, exec i s = .next u ∧ only u ∧ lines s u n { l' with txn := some x } ∧ u.out = s.out) ∧
    (∀ q, x.waits = [] → t.goWait = false → t.lost = false → t.cause = .req q → reads q → fromAgent q → alone s n l →
      (l'.dc ≠ 0 → ∃ u, exec i s = .next u ∧ only u ∧ served s u n l' q l'.poison l'.data) ∧
      (l'.dc = 0 → ∀ k, s.cacheLink (lineAddr n) = some k → ∃ u, exec i s = .next u ∧ only u ∧
        u.out = s.out ++ [.d2hReq k "RdCurr" (lineAddr n)] ∧
        (u.line n).txn = some { x with st := .curr, link := k, goWait := true } ∧ ∀ m, m ≠ n → u.line m = s.line m))) ∧
  (∀ (s : State) (h : SnpHdr) (addr : Word) (t : Txn), open_ s →
    let n := lineOf addr
    let l := s.line n
    let a := h.agent.toNat
    due s h n → l.txn = some t → t.waits.contains a = true →
    (t.waits.erase a ≠ [] → ∃ u, exec (.miss h addr) s = .next u ∧
      lines s u n { l.unshare a with txn := some { (l.unshare a).txn.getD t with waits := t.waits.erase a } } ∧ u.out = s.out ∧
      u.home = { s.home with line := u.home.line, snps := rest s h n, stale := satInc s.home.stale } ∧ s.onlyChanges u [.home]) ∧
    (t.wbGot = false → ∃ u, exec (.wbPending h addr) s = .next u ∧
      lines s u n { l with txn := some { t with wbPend := true, st := if t.st = .oFwd then .wbWait else t.st } } ∧ u.out = s.out ∧
      u.home = { s.home with line := u.home.line, snps := rest s h n, crosses := satInc s.home.crosses } ∧ s.onlyChanges u [.home])) ∧
  (∀ (s : State) (i : Instr) (h : SnpHdr) (addr : Word), open_ s →
    let n := lineOf addr
    let l := s.line n
    let given : Prop := i = .ackI h addr ∨ (∃ d, i = .dataI h addr d) ∨ i = .miss h addr
    let kept : Prop := i = .ackS h addr ∨ (∃ d, i = .dataS h addr d ∨ i = .dataCur h addr d) ∨ i = .wbPending h addr
    (given ∨ kept →
      (∀ x ∈ s.home.snps, x.tag = h.tag.toNat → x.agent ≠ h.agent.toNat) →
      ∃ u, exec i s = .next u ∧ s.onlyChanges u [] [(pgGLB, 0, 5)]) ∧
    -- the transaction that sent the snoop has ended without the answer (log entry 134)
    (due s h n → (∀ t, l.txn = some t → t.waits.contains h.agent.toNat = false) →
      (given → ∃ u, exec i s = .next u ∧ lines s u n (l.unshare h.agent.toNat) ∧ u.out = s.out ∧
        u.home = { s.home with line := u.home.line, snps := rest s h n } ∧ s.onlyChanges u [.home]) ∧
      (kept → ∃ u, exec i s = .next u ∧ u.out = s.out ∧ u.home = { s.home with snps := rest s h n } ∧ s.onlyChanges u [.home]))) ∧
  -- WriteBacks
  (∀ (s : State) (r : HReq) (d : Granule), open_ s → r.agent.toNat < 256 → r.port.val ≠ 4 → s.creditsSpent r.port.val .req < 64 →
    s.home.disabled.contains r.agent.toNat = false →
    let n := lineOf r.addr
    let l := s.line n
    let a := r.agent.toNat
    let owner : Bool := (l.dstate = .e || l.dstate = .m) && l.ptrs = [a]
    let ack (u : State) : Prop := .noc r.port.val { opc := 0x2D, agent := a, tag := r.tag.toNat, addr := r.addr } ∈ u.out ++ u.noc.wait
    (l.txn = none → owner = true → room s n → alone s n l → ∃ u, exec (.writeBack r d) s = .next u ∧ only s u ∧ ack u ∧
      lines s u n { fill l r.poison d with dstate := .i, ptrs := [] }) ∧
    (∀ t, l.txn = some t → t.waits.contains a = true → owner = true → t.wbPend = false → room s n →
      ∃ u, exec (.writeBack r d) s = .next u ∧ only s u ∧ ack u ∧
        let x := { t with wbGot := true }
        lines s u n { (if t.discards then l else fill l r.poison d) with dstate := .i, ptrs := [], txn := some x }) ∧
    ((owner = false ∨ ∃ t, l.txn = some t ∧ t.waits.contains a = false) → (∀ t, l.txn = some t → t.lost = false) →
      ∃ u, exec (.writeBack r d) s = .next u ∧ ack u ∧ s.onlyChanges u [] [(pgCOH, 0, 6)])) ∧
  (∀ (s : State) (r : HReq) (d : Granule), open_ s → (256 ≤ r.agent.toNat ∨ r.port.val = 4) →
    ∃ u, exec (.writeBack r d) s = .next u ∧ s.onlyChanges u [] [(pgGLB, 0, 5)]) ∧
  -- answers of the host
  (∀ (s : State) (i : Instr) (addr : Word) (d : Granule) (hm : Bool) (sts : List Tran), open_ s →
    ((i = .goS addr d ∧ hm = false ∧ sts = [.isH]) ∨ (i = .goE addr d ∧ hm = true ∧ sts = [.isH, .imH, .smH, .atmH, .atmS]) ∨
      (i = .goM addr d ∧ hm = true ∧ sts = [.imH, .smH, .atmH, .atmS])) →
    let n := lineOf addr
    let l := s.line n
    ((∀ t, l.txn = some t → t.goWait = false ∨ t.st ∉ sts) → ∃ u, exec i s = .next u ∧ s.onlyChanges u [] [(pgGLB, 0, 5)]) ∧
    (∀ t q, l.txn = some t → t.goWait = true → t.st ∈ sts → t.waits = [] → t.lost = false → t.cause = .req q →
      fromAgent q → room s n →
      let l' := { l with hm := hm, via := t.link, dc := max 1 l.dc, data := d, poison := false }
      alone s n l' →
      (q.kind = .readShared → ∃ u, exec i s = .next u ∧ only s u ∧ served s u n l' q false d) ∧
      (q.kind = .readUnique → ∃ u, exec i s = .next u ∧ only s u ∧ served s u n l' q false d) ∧
      (q.kind = .atomic → ∃ u, exec i s = .next u ∧ only s u ∧ u.out = s.out ∧
        lines s u n { l'.homeOwned with txn := some { t with goWait := false, st := .atm } }))) ∧
  (∀ (s : State) (addr : Word) (d : Granule), open_ s →
    let n := lineOf addr
    let l := s.line n
    ((∀ t, l.txn = some t → t.goWait = false) → ∃ u, exec (.goErr addr d) s = .next u ∧ s.onlyChanges u [] [(pgGLB, 0, 5)]) ∧
    (∀ t q, l.txn = some t → t.goWait = true → (t.st = .isH ∨ t.st = .imH) → t.waits = [] → t.lost = false →
      t.cause = .req q → fromAgent q →
      (q.kind = .readShared ∨ q.kind = .readUnique) → room s n →
      let l' := { l with hm := decide (t.st = .imH), via := t.link, dc := max 1 l.dc, data := d, poison := true }
      alone s n l' → ∃ u, exec (.goErr addr d) s = .next u ∧ served s u n l' q true d ∧ s.onlyChanges u [.home] [(pgCOH, 0, 4)]) ∧
    (∀ t q, l.txn = some t → t.goWait = true → t.st = .curr → t.cause = .req q → fromAgent q → t.entryBefore = true → alone s n l →
      ∃ u, exec (.goErr addr d) s = .next u ∧ lines s u n { l with txn := none } ∧ reply u q 0x30 0xC1 false 0 ∧
        s.onlyChanges u [.home] [(pgCOH, 0, 4)])) ∧
  (∀ (s : State) (addr : Word) (t : Txn), open_ s →
    let n := lineOf addr
    let l := s.line n
    l.txn = some t → alone s n l →
    (∀ q, t.st = .write → t.cause = .req q → fromAgent q → ∃ u, exec (.goWritepull addr) s = .next u ∧ only s u ∧
      lines s u n { l with txn := none } ∧ reply u q 0x2C 0 false 0 ∧ .d2hData t.link (lineAddr n) q.poison q.be q.data ∈ u.out) ∧
    (t.st = .evict → ∃ u, exec (.goWritepull addr) s = .next u ∧ only s u ∧ lines s u n (gone l) ∧
      u.out = s.out ++ (if l.dc = 2 then [.d2hData t.link (lineAddr n) l.poison 0xFFFFFFFFFFFFFFFF l.data] else [])) ∧
    (t.st = .evict → t.goWait = true → ∃ u, exec (.goI addr) s = .next u ∧ only s u ∧ lines s u n (gone l) ∧ u.out = s.out) ∧
    (t.st ≠ .write → t.st ≠ .evict → ∀ i, (i = .goWritepull addr ∨ i = .goI addr) →
      ∃ u, exec i s = .next u ∧ s.onlyChanges u [] [(pgGLB, 0, 5)])) ∧
  (∀ (s : State) (addr : Word) (p : Bool) (d : Granule), open_ s →
    let n := lineOf addr
    let l := s.line n
    (l.drop ≠ 0 → ∃ u, exec (.hostData addr p d) s = .next u ∧ only s u ∧ lines s u n { l with drop := l.drop - 1 } ∧ u.out = s.out) ∧
    (l.drop = 0 → (∀ t, l.txn = some t → t.st ≠ .curr) → ∃ u, exec (.hostData addr p d) s = .next u ∧ s.onlyChanges u [] [(pgGLB, 0, 5)]) ∧
    (∀ t q, l.drop = 0 → l.txn = some t → t.st = .curr → t.cause = .req q → reads q → fromAgent q → alone s n l →
      ∃ u, exec (.hostData addr p d) s = .next u ∧ served s u n l q p d ∧
        s.onlyChanges u [.home] (if p then [(pgCOH, 0, 4)] else []))) ∧
  -- the home atomic
  (∀ (s : State) (addr : Word), open_ s → (∀ t, (s.line (lineOf addr)).txn = some t → t.st ≠ .atm) →
    exec (.homeAtomicDone addr) s = .next s) ∧
  (∀ (s : State) (addr : Word) (t : Txn) (q : HomeReq), open_ s →
    let n := lineOf addr
    let l := s.line n
    l.txn = some t → t.st = .atm → t.cause = .req q → fromAgent q → alone s n l →
    let o := q.addr.toNat % 64
    let old := getTyped l.data o q.op.type
    let (new, e) := atomicNew q.op.op q.op.type old q.op.operand q.op.compare
    let c := s.ccuCount q.part
    ∃ u, exec (.homeAtomicDone addr) s = .next u ∧ reply u q 0x2C 0 false (old.setWidth 512) ∧
      lines s u n { l.homeOwned with hm := true, dc := 2, data := putTyped l.data o q.op.type new, txn := none } ∧
      u.ccuCount q.part = { c with
        nan := satAdd c.nan e.nan, ovf := satAdd c.ovf e.ovf, sat := satAdd c.sat e.sat, clamp := satAdd c.clamp e.clamp
        atomic := satInc c.atomic } ∧
      (∀ p, p ≠ q.part → u.ccuCount p = s.ccuCount p) ∧ u.ccu = { s.ccu with count := u.ccu.count } ∧
      u.pending = s.pending ∧ s.out <+: u.out ∧ ∀ r, r ∈ [Region.home, .ccu] ∨ s.kept u r)

/-- A host snoop of a line the home does not hold answers RspIHitI; of one no agent holds exclusively it is answered at once with the data of a dirty copy, and leaves the line removed
(SnpInv), shared (SnpData) or as it was (SnpCur); of one owned on the die, the owner is snooped first; of a line whose transaction runs, it waits, or a second one is a breach (R255). An
unused CREDIT is withdrawn (R250). An agent late with its snoop answer is disabled and taken to hold nothing; a host request late with its answer fails with 0x41 and
frees the entry allocated for it (R258). With nothing outstanding, a limit does nothing. -/
def Obligations.HostSpeaksToHome : Prop :=
  let open_ (s : State) : Prop :=
    s.atRest = true ∧ s.hlk.remap = none ∧ s.home.flush = [] ∧ s.home.todo = [] ∧ s.xlt.locks = [] ∧
    (∀ m, (s.line m).dcWait = false ∧ ∀ x, (s.line m).txn = some x → x.st ≠ .way) ∧ ∀ w x, s.walker w = some x → x.at_ ≠ .locked
  let alone (s : State) (n : Nat) (l : Line) : Prop := (l.atomics = [] ∧ l.parked = [] ∧ l.snoop = none ∧ l.retry = [] ∧ l.credit = false ∧
      l.next = none ∧ l.leaves = false) ∧ s.skinkCopies n = false ∧
    ((s.link l.via).up = false ∨ s.carries l.via = true)
  let lines (s t : State) (n : Nat) (l : Line) : Prop := t.line n = l ∧ ∀ m, m ≠ n → t.line m = s.line m
  let only (s t : State) : Prop := t.home = { s.home with line := t.home.line } ∧ s.onlyChanges t [.home]
  let counted (s t : State) : Prop :=
    t.home = { s.home with line := t.home.line, snoops := satInc s.home.snoops } ∧ s.onlyChanges t [.home]
  let gone (l : Line) : Line := { l.homeOwned with
    entry := false, coarse := false, hm := false, dc := 0, data := 0, poison := false, leaves := false, recalled := false, txn := none }
  let snoop (i : Instr) (link : BitVec 2) (addr : Word) (kind : Nat) : Prop :=
    (i = .snpInv link addr ∧ kind = 0) ∨ (i = .snpData link addr ∧ kind = 1) ∨ (i = .snpCur link addr ∧ kind = 2)
  let reply (t : State) (q : HomeReq) (opc : Nat) (st : Code) : Prop :=
    match q.who with
    | .agent id tag port => .noc port { opc := opc, agent := id, tag := tag, addr := q.addr, status := st } ∈ t.out ++ t.noc.wait
    | .unit _ => False
  (∀ (s : State) (i : Instr) (link : BitVec 2) (addr : Word) (kind : Nat), open_ s → snoop i link addr kind →
    let n := lineOf addr
    let l := s.line n
    let k := link.toNat
    let data : List Out := if l.dc = 2 then [.d2hData k (lineAddr n) l.poison 0xFFFFFFFFFFFFFFFF l.data] else []
    (l.txn = none → l.entry = false → alone s n l → ∃ t, exec i s = .next t ∧ counted s t ∧ t.home.line = s.home.line ∧
      t.out = s.out ++ [.d2hRsp k "RspIHitI" (lineAddr n)]) ∧
    (l.txn = none → l.entry = true → alone s n l → (if kind = 0 then s.holdersOf n = [] else l.dstate = .i ∨ l.dstate = .s) →
      ∃ t, exec i s = .next t ∧ counted s t ∧ t.out = s.out ++ [.d2hRsp k (snoopRsp kind (l.dc = 2)) (lineAddr n)] ++ data ∧
        lines s t n (match kind with
          | 0 => gone l
          | 1 => { l with dstate := .s, hm := false, dc := min l.dc 1 }
          | _ => l)) ∧
    (∀ o, l.txn = none → l.entry = true → (l.dstate = .e ∨ l.dstate = .m) → l.ptrs = [o] →
      s.home.dead.contains o = false →
      let opc := match kind with | 0 => 0x11 | 1 => 0x10 | _ => 0x12
      ∃ t g, exec i s = .next t ∧ s.onlyChanges t [.home] ∧ (∀ x ∈ s.home.snps, x.tag ≠ g) ∧
        t.home = { s.home with line := t.home.line, snps := s.home.snps ++ [{ tag := g, agent := o, flush := false, key := n }] } ∧
        .noc (Config.agentPort o % 4) { opc := opc, agent := o, tag := g, addr := lineAddr n } ∈ t.out ++ t.noc.wait ∧
        lines s t n { l with txn := some { cause := .host kind k, st := if kind = 0 then .rcl else .oFwd, waits := [o]
                                           entryBefore := true } }) ∧
    (∀ x, l.txn = some x → (x.st = .rcl ∨ x.st = .oFwd ∨ x.st = .wbWait ∨ x.st = .sInv ∨ x.st = .atm) →
      (l.snoop = none → ∃ t, exec i s = .next t ∧ only s t ∧ t.out = s.out ∧ lines s t n { l with snoop := some (kind, k) }) ∧
      (l.snoop.isSome = true → ∃ t, exec i s = .next t ∧ s.onlyChanges t [] [(pgGLB, 0, 5)])) ∧
    (∀ x, l.txn = some x → (x.st = .write ∨ (x.st = .isH ∧ x.goWait = true ∧ x.entryBefore = false)) →
      ∃ t, exec i s = .next t ∧ counted s t ∧ t.home.line = s.home.line ∧ t.out = s.out ++ [.d2hRsp k "RspIHitI" (lineAddr n)]) ∧
    (∀ x, l.txn = some x → x.st = .smH → x.entryBefore = true →
      ∃ t, exec i s = .next t ∧ counted s t ∧ t.out = s.out ++ [.d2hRsp k (snoopRsp kind false) (lineAddr n)] ∧
        lines s t n (if kind = 0 then { l with dc := 0, data := 0, poison := false } else l)) ∧
    (∀ x, l.txn = some x → x.st = .evict →
      ∃ t, exec i s = .next t ∧ counted s t ∧ t.out = s.out ++ [.d2hRsp k (snoopRsp kind (l.dc = 2)) (lineAddr n)] ++ data ∧
        lines s t n { l with dc := if kind = 2 then l.dc else min l.dc 1 })) ∧
  (∀ (s : State) (addr : Word), open_ s →
    let n := lineOf addr
    let l := s.line n
    (l.credit = false → exec (.creditLimitExpired addr) s = .next s) ∧
    (l.credit = true → l.txn.isSome = true ∨ (alone s n { l with credit := false, retry := l.retry.tail }) →
      ∃ t, exec (.creditLimitExpired addr) s = .next t ∧ t.home = { s.home with line := t.home.line } ∧
        lines s t n { l with credit := false, retry := l.retry.tail } ∧ s.onlyChanges t [.home] [(pgCOH, 0, 5)])) ∧
  (∀ (s : State) (a : BitVec 8) (addr : Word), open_ s →
    let n := lineOf addr
    let l := s.line n
    ((∀ x, l.txn = some x → x.waits.contains a.toNat = false) → exec (.snoopLimitExpired a addr) s = .next s) ∧
    (∀ x, l.txn = some x → x.waits.contains a.toNat = true → x.waits.erase a.toNat ≠ [] →
      (∀ m y, m ≠ n → (s.line m).txn = some y → y.waits.contains a.toNat = false) →
      ∃ t, exec (.snoopLimitExpired a addr) s = .next t ∧
        t.home = { s.home with
          line := t.home.line, disabled := a.toNat :: s.home.disabled.filter (· ≠ a.toNat)
          dead := a.toNat :: s.home.dead.filter (· ≠ a.toNat), snps := s.home.snps.filter (·.agent ≠ a.toNat) } ∧
        t.line n = { l.unshare a.toNat with txn := some { (l.unshare a.toNat).txn.getD x with waits := x.waits.erase a.toNat } } ∧
        (∀ m, m ≠ n → t.line m = (s.line m).unshare a.toNat) ∧
        s.onlyChanges t [.home] [(pgCOH, 0, 2)])) ∧
  (∀ (s : State) (addr : Word), open_ s →
    let n := lineOf addr
    let l := s.line n
    ((∀ x, l.txn = some x → x.goWait = false) → exec (.hostLimitExpired addr) s = .next s) ∧
    (∀ x q, l.txn = some x → x.goWait = true → x.cause = .req q → (∃ id tag port, q.who = .agent id tag port) → alone s n l →
      ∃ t, exec (.hostLimitExpired addr) s = .next t ∧ reply t q 0x30 0x41 ∧
        t.home = { s.home with line := t.home.line } ∧ lines s t n (if x.entryBefore then { l with txn := none } else gone l) ∧
        s.onlyChanges t [.home] [(pgCOH, 0, 3)]))

/-! ## Arbiters -/

/-- ARBITER_ROUND is one hub cycle of an arbiter, over the requests that stand at it. With no holder that still requests, it grants, in the urgent tier where there is one, a requester of the highest rank, or under COMPAT_HX3 one that has lost often
enough, the next from the rank's pointer; the winner's age and wait clear, each loser ages (R358, R359, R363, R364). At a Bulk segment queue it grants only a channel
that may take a mover (06_movers.md R129). A holder that still requests keeps the grant (R360); a
winner that withdrew before it used its grant makes a dead cycle, after which its rank's pointer and its GRANTS are as before it won (R361); a wait that ends, by
grant or by withdrawal, is taken into LONGEST (R364; log entry 49); the holder of a path sends its granule (R133, R135). STARVE_LIMIT flags a wait once (R362). ARB_CHAN_PRIO sets the priority of a channel of the function (R365). -/
def Obligations.ArbitersChoose : Prop :=
  let dropped (s : State) (a : Nat) (x : ArbReq) : ArbReq :=
    let wait : BitVec 32 := match x.since with | none => 0 | some w => satAdd (0 : BitVec 32) (s.glb.time - w).toNat
    { x with age := 0, lost := 0, since := none, flagged := false, longest := if 4 ≤ a ∧ x.longest < wait then wait else x.longest }
  let others (s t : State) (a : Nat) : Prop :=
    (∀ b, b ≠ a → t.arbiter b = s.arbiter b) ∧ (∀ b i, b ≠ a → i < 16384 → t.areq b i = s.areq b i) ∧
      t.arb = { s.arb with arb := t.arb.arb, req := t.arb.req } ∧ t.out = s.out ∧ s.onlyChanges t [.arb]
  -- the winner that withdrew before it used its grant, and what its dead cycle leaves
  let gone (s : State) (a i : Nat) : Bool := (s.arbiter a).holder = some i && (s.arbiter a).fresh && !(s.requests a).any fun r => r.1 = i
  let undone (s : State) (a i : Nat) : ArbReq :=
    let x := s.areq a i
    match (s.arbiter a).undo with
    | some (_, _, grants) => if gone s a i && x.grants ≠ 0 then { x with grants := grants } else x
    | none => x
  let back (s : State) (a : Nat) : Arbiter :=
    let x := s.arbiter a
    if x.holder.any (gone s a) then { x with
      fresh := false, undo := none, dead := satInc x.dead
      ptr := match x.undo with | some (level, before, _) => tabPut (fun _ => none) x.ptr level before | none => x.ptr }
    else x
  let asked (reqs : List (Nat × Bool)) : Prop := (reqs.map (·.1)).Nodup ∧ ∀ r ∈ reqs, r.1 < 16384
  let notIn (i : Nat) (reqs : List (Nat × Bool)) : Prop := ∀ r ∈ reqs, r.1 ≠ i
  (∀ (s : State) (a : Fin 35), s.atRest = true →
    let n := a.val
    let reqs := s.requests n
    let able := s.able n
    asked reqs → able ≠ [] → (∀ h, (s.arbiter n).holder = some h → notIn h able ∧ h < 16384) → (s.arbiter n).kept = none →
    let now := s.glb.time
    let tiered : Bool := decide (4 ≤ n) && decide (n < 27)
    let inTier (r : Nat × Bool) : Prop := r ∈ able ∧ (tiered = true → (∃ u ∈ reqs, u.2 = true) → r.2 = true)
    let forced (r : Nat × Bool) : Prop := s.arb.compat = true ∧ inTier r ∧ max 1 s.arb.waitMax.toNat ≤ (s.areq n r.1).lost
    let best (r : Nat × Bool) : Prop :=
      inTier r ∧ ((∃ u, forced u) → forced r) ∧ ((¬ ∃ u, forced u) → ∀ u, inTier u → s.rank n u ≤ s.rank n r)
    ∃ t w level, exec (.arbiterRound a) s = .next t ∧ best w ∧
      (((∃ u, forced u) ∧ level = 7) ∨ ((¬ ∃ u, forced u) ∧ level = s.rank n w)) ∧
      let ptr : Option Nat := tabGet (fun _ => none) (back s n).ptr level
      let from_ := match ptr with | none => 0 | some k => k + 1
      ((from_ ≤ w.1 ∧ ∀ u, best u → from_ ≤ u.1 → w.1 ≤ u.1) ∨ ((∀ u, best u → u.1 < from_) ∧ ∀ u, best u → w.1 ≤ u.1)) ∧
      t.arbiter n = { back s n with
        holder := some w.1, fresh := true, urgent := w.2, ptr := tabPut (fun _ => none) (back s n).ptr level (some w.1)
        burst := if tiered = true ∧ w.2 = false then (t.job w.1 false).burstId (n - 4) else (s.arbiter n).burst
        undo := some (level, ptr, (undone s n w.1).grants) } ∧
      (∀ i, i < 16384 → t.areq n i =
        let x := undone s n i
        let since := x.since.getD now
        let wait : BitVec 32 := satAdd (0 : BitVec 32) (now - since).toNat
        if i = w.1 then { x with
          age := 0, lost := 0, since := none, flagged := false
          grants := if 4 ≤ n then satInc x.grants else x.grants, longest := if 4 ≤ n ∧ x.longest < wait then wait else x.longest }
        else if reqs.any (fun r => r.1 = i) then { x with
          age := min 7 (x.age + 1), lost := x.lost + 1, since := some since, waits := if 4 ≤ n then satInc x.waits else x.waits }
        else dropped s n x) ∧
      others s t n) ∧
  (∀ (s : State) (a : Fin 35) (h : Nat), s.atRest = true → (a.val < 4 ∨ 27 ≤ a.val) →
    let reqs := s.requests a.val
    asked reqs → (s.arbiter a.val).holder = some h → ¬ notIn h (s.able a.val) →
    ∃ t, exec (.arbiterRound a) s = .next t ∧ t.arbiter a.val = s.arbiter a.val ∧
      (∀ i, i < 16384 → t.areq a.val i =
        let x := s.areq a.val i
        if i = h then x else if reqs.any (fun r => r.1 = i) then { x with since := some (x.since.getD s.glb.time) } else dropped s a.val x) ∧
      others s t a.val) ∧
  (∀ (s : State) (a : Fin 35), s.atRest = true → s.requests a.val = [] → (∀ h, (s.arbiter a.val).holder = some h → h < 16384) →
    ∃ t, exec (.arbiterRound a) s = .next t ∧
      t.arbiter a.val = { back s a.val with holder := none, kept := (t.arbiter a.val).kept } ∧
      (∀ i, i < 16384 → t.areq a.val i = dropped s a.val (undone s a.val i)) ∧ others s t a.val) ∧
  (∀ (s : State) (a : Fin 35) (m k n : Nat) (c : Cmd) (r : Rd), s.atRest = true → a.val = 12 → (s.arbiter 12).holder = some m →
    (s.arbiter 12).urgent = false → (s.arbiter 12).kept = none → s.requests 12 = [(m, false)] → s.sideTaken m 8 = false →
    let j := s.job m false
    let q : NocMsg := { opc := 0x40, agent := 1280 + m, addr := r.addr, tag := s.freeTag (1280 + m) }
    s.engineSt (moverEngine m) = .serving → s.fenced m = false → j.work = some (.chan k n) → s.cmdOf k n = some c → j.planned = false →
    j.crcPhase = false → j.reads = [r] → r.sent = false → r.host = false → r.path = 8 → r.data = none → j.wq = [] → j.acc = [] →
    j.outScale = [] → j.used < j.total →
    ∃ t, exec (.arbiterRound a) s = .next t ∧ t.job m false = { j with reads := [{ r with sent := true }] } ∧
      (∀ m' u', (m', u') ≠ (m, false) → t.job m' u' = s.job m' u') ∧
      .noc (Config.devicePort r.addr.toNat % 4) q ∈ t.out ++ t.noc.wait ∧
      t.noc.reqs = s.noc.reqs ++ [{ port := Config.devicePort r.addr.toNat % 4, agent := q.agent, tag := q.tag, addr := r.addr
                                    for_ := .read m false r.kind r.idx }] ∧
      t.arbiter 12 = { s.arbiter 12 with holder := none, fresh := false } ∧ s.onlyChanges t [.arb, .mov, .noc]) ∧
  (∀ (s : State) (a : Fin 35) (i : BitVec 14), s.atRest = true →
    (s.arb.starveLimit = 0 ∨ (s.areq a.val i.toNat).since = none ∨ (s.areq a.val i.toNat).flagged = true) →
    exec (.starveLimit a i) s = .next s) ∧
  (∀ (s : State) (a : Fin 35) (i : BitVec 14), s.atRest = true → s.arb.starveLimit ≠ 0 → (s.areq a.val i.toNat).since.isSome = true →
    (s.areq a.val i.toNat).flagged = false →
    ∃ t, exec (.starveLimit a i) s = .next t ∧ t.areq a.val i.toNat = { s.areq a.val i.toNat with flagged := true } ∧
      (∀ b j, j < 16384 → (b ≠ a.val ∨ j ≠ i.toNat) → t.areq b j = s.areq b j) ∧
      t.arb = { s.arb with
        req := t.arb.req, starved := s.arb.starved ||| BitVec.ofNat 35 (2 ^ a.val), starvedAt := s.glb.time
        starvedNow := (if s.arb.starvedAt = s.glb.time then s.arb.starvedNow else 0) ||| BitVec.ofNat 35 (2 ^ a.val)
        starveFirst := if bit s.arb.starveFirst 63 then s.arb.starveFirst
          else place 1 63 ||| place a.val 56 ||| place i.toNat 40 ||| place (field s.glb.time 39 0) 0 } ∧
      s.onlyChanges t [.arb] ([(pgARB, 0, 1)] ++ if a.val < 4 then [(pgARB, (s.chan i.toNat).part, 3)] else [])) ∧
  (∀ (s : State) (fn : Fn) (v : Word), s.hostOpen fn.toNat = true →
    match s.goodChan (tabGet (fun _ => 0) s.arb.chanSel fn.toNat) fn.toNat with
    | some k => ∃ t, exec (.arbChanPrio fn v) s = .next t ∧ t.chan k = { s.chan k with
          prio := v.setWidth 3, cmds := (s.chan k).cmds.map fun x => { x with prio := v.setWidth 3 } } ∧
        (∀ j, j ≠ k → t.chan j = s.chan j) ∧ t.dbl = { s.dbl with chan := t.dbl.chan } ∧ t.out = s.out ∧ s.onlyChanges t [.dbl]
    | none => ∃ t, exec (.arbChanPrio fn v) s = .next t ∧ s.onlyChanges t [] [(pgARB, fn.toNat, 2)])

/-! ## Stored data -/

/-- RAS_SCRUB_CMD starts a scrub of a defined structure, or sets the sticky bit while one runs. Each block or word read moves it on and counts. A word
marked lost has the syndrome 0xFF, which no column of the code equals, until a whole-word write; syndrome 0 needs nothing, one set bit is a check bit, an even
number of them cannot be corrected (R367, R369). A corrected word is tracked by its row, which is remapped into a spare row at its second one within the
window (R371, R372). A hub-store block is decoded from its slots' pieces, each corrected one
written back, and with three slots lost it is uncorrectable (R377, R379); a correction lengthens the run of each of its slots that is not lost, and ends
the other slots' runs (R379); an uncorrectable block of no use only counts and is recorded; a block waits for a rebuild that is at it (R381), and for
partition 0's Reed credit on paths 8 and 9, which its reads and write-backs charge (R367 to R371, R379, R383). A scrub ends past its limit and leaves its
summary (R383). What the code writes of a byte is read back from its four nibbles, one of them changed, or any two
of them erased (R376, R377). The background walker reads the next word of the
arrays and the store unless an entry is armed, and stops after one pass with ONCE (R384). -/
def Obligations.ScrubsRun : Prop :=
  let count (s t : State) : Prop := t.pending = s.pending ∧ s.out <+: t.out ∧ ∀ r, r ∈ [Region.ras, .mov, .xlt, .home] ∨ s.kept t r
  -- a whole-word write has reached the word since it was marked
  let seen (s : State) (r : ScrubIn) : State := match r with | .word h true => s.wordWritten h | _ => s
  let result (s : State) (r : ScrubIn) (b : Nat) : ScrubOut :=
    match r with | .word h _ => (seen s r).wordOutcome h | .block p => s.storeOutcome b p
  let slots (o : ScrubOut) : BitVec 4 := match o with | .clean => 0 | .corrected h => h.slots | .uncorrectable h => h.slots
  let on (s : State) (o : ScrubOut) (k : Nat) : Bool := (slots o).getLsbD k && !s.ras.lost.contains k
  let run (s : State) (k : Nat) : Nat := tabGet (fun _ => 0) s.ras.run k
  -- a block's runs, and no slot's reaches RAS_LOSS_RUN
  let runs (s t : State) (o : ScrubOut) : Prop := ∀ k, k < 4 → run t k = if on s o k then run s k + 1 else 0
  let short (s : State) (o : ScrubOut) : Prop := ∀ k, k < 4 → on s o k = true → run s k + 1 < max 1 s.ras.lossRun.toNat
  -- the registers after an outcome that costs no unit, row or slot, and the sticky bits it sets
  let late (s : State) (w : Word) : Bool := decide (s.ras.ceWindow.toNat * Config.usCycles < s.glb.time.toNat - w.toNat)
  let outcome (s : State) (store : Bool) (o : ScrubOut) : Option (Ras × List (Nat × Nat × Nat)) :=
    match o with
    | .clean => some (s.ras, [])
    | .corrected h =>
      if store then some ({ s.ras with ce := satInc s.ras.ce }, [(pgRAS, 0, 1)])
      else match s.ras.ceRows.find? fun x => x.1 = rowOf h with
        | none => some ({ s.ras with ce := satInc s.ras.ce, ceRows := ((rowOf h, s.glb.time) :: s.ras.ceRows).take 256 }, [(pgRAS, 0, 1)])
        | some (_, w) =>
          if late s w then
            some ({ s.ras with ce := satInc s.ras.ce, ceRows := (rowOf h, s.glb.time) :: s.ras.ceRows.filter fun x => x.1 ≠ rowOf h }, [(pgRAS, 0, 1)])
          else none
    | .uncorrectable _ => none
  let after (s t : State) (r : ScrubIn) (o : ScrubOut) (b : Nat) : Prop :=
    match r with
    | .word .. => t.ras.run = s.ras.run
    | .block p => runs s t o ∧ .hubStore false b ∈ t.out ∧ ∀ ks bs, decodeBlock (s.erasedSlots b) (pieceOf p) = some (ks, bs) →
        ∀ k stack, k ∈ ks → s.slotTarget k b = some stack →
          (.storePiece stack (s.storeAddr stack (32 * b)) (slotPiece k fun i => bs.getD i 0)) ∈ t.out
  let records (s : State) : Prop := s.canWrite false 0 = true → s.home = {} ∧ s.hlk.remap = none
  (∀ (s : State) (v : Word), s.hostOpen 0 = true →
    let str := field v 15 8
    ∃ t, exec (.scrubStart v) s = .next t ∧
      if s.ras.scrub.isSome = true then s.onlyChanges t [] [(pgRAS, 0, 12)]
      else if bit v 0 = true ∧ structDefined str = true then
        t.ras = { s.ras with scrub := some { str := str, at_ := s.ras.scrubBase.toNat, last := s.ras.scrubLimit.toNat } } ∧
          t.out = s.out ∧ s.onlyChanges t [.ras]
      else t.out = s.out ∧ s.onlyChanges t []) ∧
  (∀ s : State, s.atRest = true → (∀ x, s.ras.scrub = some x → (s.scrubNext x).isSome = true) → exec .scrubDone s = .next s) ∧
  (∀ (s : State) (x : Scrub), s.atRest = true → s.ras.scrub = some x → s.scrubNext x = none →
    ∃ t, exec .scrubDone s = .next t ∧ s.onlyChanges t [.ras] [(pgRAS, 0, 9)] ∧
      t.ras = { s.ras with
        scrub := none, scrubSum := place 1 63 ||| place (min 0xFFFFFF x.ue) 32 ||| place (min 0xFFFFFF x.ce) 0
        scrubFirst := match x.first with | some k => place 1 63 ||| place (k % 4294967296) 0 | none => 0 }) ∧
  (∀ (s : State) (r : ScrubIn), s.atRest = true →
    (∀ x k, s.ras.scrub = some x → s.scrubNext x = some k → s.scrubCan r x.str k = false ∨ s.storePaced (s.scrubPaths r k) = false) →
    exec (.rangeScrubBlock r) s = .next s) ∧
  (∀ (s : State) (r : ScrubIn) (x : Scrub) (k : Nat), s.atRest = true → s.ras.scrub = some x → s.scrubNext x = some k →
    s.scrubCan r x.str k = true → s.storePaced (s.scrubPaths r k) = true →
    let store : Bool := x.str = hubStore
    let written := match r with | .block p => (s.mends k p).length | .word .. => 0
    let y := { x with at_ := k + 1 }
    let o := result s r k
    let charged (t : State) : Prop :=
      if store = true then t.mov = { s.mov with slotBytes := t.mov.slotBytes, partCredit := t.mov.partCredit } ∧
        t.partCredit 0 8 = s.partCredit 0 8 - 32 * (4 - s.ras.lost.length : Nat) ∧ t.partCredit 0 9 = s.partCredit 0 9 - 32 * written ∧
        ∀ q p, p < 23 → (q ≠ 0 ∨ (p ≠ 8 ∧ p ≠ 9)) → t.partCredit q p = s.partCredit q p
      else t.mov = s.mov
    (∀ a l, outcome (seen s r) store o = some (a, l) → (store = true → short s o) → ∃ t, exec (.rangeScrubBlock r) s = .next t ∧
      t.ras = { a with scrub := some (if o = .clean then y else { y with ce := x.ce + 1 }), run := t.ras.run } ∧ charged t ∧
      after s t r o k ∧ s.onlyChanges t [.ras, .mov] l) ∧
    -- the second corrected error of a row within the window, with a spare row left
    (∀ h w z, store = false → o = .corrected h → s.ras.ceRows.find? (fun x => x.1 = rowOf h) = some (z, w) → late s w = false → records s →
      s.ras.rowCopy.all (fun x => x.1 ≠ rowOf h || x.2 ≠ s.glb.time) = true → s.sparesUsed (rowOf h) < 2 →
      ∃ t, exec (.rangeScrubBlock r) s = .next t ∧ count s t ∧ t.mov = s.mov ∧
        bit (t.sticky pgRAS 0).bits 1 = true ∧ bit (t.sticky pgRAS 0).bits 3 = true ∧
        t.ras = { (seen s r).ras with
          ce := satInc s.ras.ce, repairs := satInc s.ras.repairs, ceRows := s.ras.ceRows.filter fun x => x.1 ≠ rowOf h
          remapped := s.ras.remapped ++ [(rowOf h, s.sparesUsed (rowOf h))]
          rowCopy := (rowOf h, s.glb.time) :: s.ras.rowCopy.filter fun x => x.1 ≠ rowOf h && decide ((s.glb.time - x.2).toNat < 64)
          scrub := some { y with ce := x.ce + 1 } }) ∧
    (∀ h, store = true → o = .uncorrectable h → records s → short s o → Config.storeUse k ≠ 1 → Config.storeUse k ≠ 2 →
      ∃ t, exec (.rangeScrubBlock r) s = .next t ∧
        t.ras = { s.ras with
          ue := satInc s.ras.ue, run := t.ras.run, scrub := some { y with ue := x.ue + 1, first := x.first.or (some k) } } ∧
        bit (t.sticky pgRAS 0).bits 2 = true ∧ charged t ∧ after s t r o k ∧ count s t)) ∧
  (∀ (s : State) (h : ScrubHit), h.struct_.toNat ≠ 8 →
    (s.ras.lostMarks.contains (markKey h) = true → s.wordOutcome h = .uncorrectable { h with syndrome := 0xFF }) ∧
    (s.ras.lostMarks.contains (markKey h) = false →
      (h.syndrome = 0 → s.wordOutcome h = .clean) ∧
      (∀ k : Fin 8, h.syndrome = BitVec.ofNat 8 (2 ^ k.val) → s.wordOutcome h = .corrected h) ∧
      (h.syndrome ≠ 0 → synWeight h.syndrome % 2 = 0 → s.wordOutcome h = .uncorrectable h)) ∧
    (s.wordWritten h).ras.lostMarks.contains (markKey h) = false) ∧
  (∀ (s : State) (r : ScrubIn), s.atRest = true →
    (s.ras.bgEn = false ∨ s.bgHolds = true ∨ (s.ras.bgAt < Config.arrayWords + s.ras.valid.length ∧
      s.bgCan r (s.ras.valid.getD (s.ras.bgAt - Config.arrayWords) 0) = false)) → exec (.backgroundScrub r) s = .next s) ∧
  (∀ (s : State) (r : ScrubIn), s.atRest = true → s.ras.bgEn = true → s.bgHolds = false →
    let store := decide (Config.arrayWords ≤ s.ras.bgAt)
    let ends := decide (Config.arrayWords + s.ras.valid.length ≤ s.ras.bgAt + 1)
    let at_ := if ends then 0 else s.ras.bgAt + 1
    let str := if ends then 0 else match r with | .word h _ => h.struct_.toNat | .block _ => hubStore
    let en := !(ends && s.ras.bgOnce)
    let b := s.ras.valid.getD (s.ras.bgAt - Config.arrayWords) 0
    let o := result s r b
    (Config.arrayWords + s.ras.valid.length ≤ s.ras.bgAt → ∃ t, exec (.backgroundScrub r) s = .next t ∧
      t.ras = { s.ras with bgAt := 0, bgStr := 0, bgEn := !s.ras.bgOnce } ∧ t.out = s.out ∧ s.onlyChanges t [.ras]) ∧
    (s.ras.bgAt < Config.arrayWords + s.ras.valid.length → s.bgCan r b = true →
      (∀ a l, outcome (seen s r) store o = some (a, l) → (store = true → short s o) → ∃ t, exec (.backgroundScrub r) s = .next t ∧
        t.ras = { a with bgAt := at_, bgStr := str, bgEn := en, run := t.ras.run } ∧ after s t r o b ∧ s.onlyChanges t [.ras] l) ∧
      ∀ h, store = true → o = .uncorrectable h → records s → short s o → Config.storeUse b ≠ 1 → Config.storeUse b ≠ 2 →
        ∃ t, exec (.backgroundScrub r) s = .next t ∧
          t.ras = { s.ras with ue := satInc s.ras.ue, run := t.ras.run, bgAt := at_, bgStr := str, bgEn := en } ∧
          bit (t.sticky pgRAS 0).bits 2 = true ∧ after s t r o b ∧ count s t)) ∧
  (∀ (b : Byte) (p q : Nat) (e : Gf), p < q → q < 4 → e ≠ 0 →
    decodeByte [] (codeNibble b) = some ([], b) ∧ decodeByte [p, q] (codeNibble b) = some ([slotPos p, slotPos q], b) ∧
    decodeByte [p] (codeNibble b) = some ([slotPos p], b) ∧ decodeByte [q] (codeNibble b) = some ([slotPos q], b) ∧
    decodeByte [] (mendNibble (codeNibble b) p (codeNibble b p ^^^ e)) = some ([slotPos p], b) ∧
    decodeByte [] (mendNibble (codeNibble b) q (codeNibble b q ^^^ e)) = some ([slotPos q], b)) ∧
  (∀ data : Nat → Byte,
    decodeBlock [] (fun k => some (BitVec.ofNat 256 (leNat (slotPiece k data)))) = some ([], (List.range 64).map data))

/-- DECLARE_LOST loses a slot once, sets its sticky bits, records it and starts a rebuild where AUTO_REBUILD says so (R379). REBUILD takes the lowest standby stack, or waits for the rebuild in
progress (R380). REBUILD_BLOCK reads the next written block and writes it once partition 0's Reed credit on paths 8 and 9 lets it, which it charges, and the
writes that waited for the block go into the target; REBUILD_DONE makes the target the slot's stack and retires the old
one (R380, R381). REPAIR_LOAD reads the map through the home line by line, or fails out of range; an entry read is applied as a remap and counted, or skipped with the sticky bit (R386). BANK_COPY_DONE
ends the copies into a structure's spare bank, and a channel whose context lies in that bank fetches again (R374). -/
def Obligations.StoreIsRepaired : Prop :=
  let recorded (s t : State) : Prop := t.pending = s.pending ∧ s.out <+: t.out ∧ ∀ r, r ∈ [Region.ras, .xlt, .home] ∨ s.kept t r
  let fresh (s : State) : Prop := s.home = {} ∧ s.hlk.remap = none
  let records (s : State) : Prop := s.canWrite false 0 = true → fresh s
  let line (a : Word) : Word := a &&& 0xFFFFFFFFFFFFFFC0
  let idle (t s : State) : Prop := t.out = s.out ∧ s.onlyChanges t []
  let started (s : State) (a : Ras) (slot : Nat) : Ras :=
    match s.ras.rebuild, s.rebuildTarget with
    | some r, _ => if r.slot = slot ∨ s.ras.rebuildNext.contains slot = true then a else { a with rebuildNext := s.ras.rebuildNext ++ [slot] }
    | none, none => a
    | none, some k => { a with rebuild := some { slot := slot, target := k } }
  (∀ (s : State) (slot : BitVec 2), s.hostOpen 0 = true → records s →
    let k := slot.toNat
    let a := { s.ras with lost := k :: s.ras.lost, run := tabPut (fun _ => 0) s.ras.run k 0 }
    ∃ t, exec (.declareLost slot) s = .next t ∧
      if s.ras.lost.contains k = true then idle t s
      else t.ras = (if s.ras.autoRebuild = true then started s a k else a) ∧ bit (t.sticky pgRAS 0).bits 6 = true ∧
        (s.ras.lost.length = 1 → bit (t.sticky pgRAS 0).bits 7 = true) ∧ recorded s t) ∧
  (∀ (s : State) (slot : BitVec 2), s.hostOpen 0 = true →
    ∃ t, exec (.rebuild slot) s = .next t ∧ t.ras = started s s.ras slot.toNat ∧ t.out = s.out ∧ s.onlyChanges t [.ras]) ∧
  let read (s : State) (r : Rebuild) : Nat := if s.ras.lost.contains r.slot then 32 * (4 - s.ras.lost.length) else 32
  (∀ s : State, s.atRest = true →
    (∀ r, s.ras.rebuild = some r → s.nextBlock r.p = none ∨ s.storePaced [(8, read s r), (9, 32)] = false) → exec .rebuildBlock s = .next s) ∧
  (∀ (s : State) (r : Rebuild) (b : Nat), s.atRest = true → s.ras.rebuild = some r → s.nextBlock r.p = some b →
    s.storePaced [(8, read s r), (9, 32)] = true →
    let copied (t : State) : Prop :=
      t.mov = { s.mov with slotBytes := t.mov.slotBytes, partCredit := t.mov.partCredit } ∧
      t.partCredit 0 8 = s.partCredit 0 8 - read s r ∧ t.partCredit 0 9 = s.partCredit 0 9 - 32 ∧
      (∀ q p, p < 23 → (q ≠ 0 ∨ (p ≠ 8 ∧ p ≠ 9)) → t.partCredit q p = s.partCredit q p) ∧ s.onlyChanges t [.ras, .mov]
    let copy : List Out := [.hubStore false b, .storeCopy r.slot r.target (s.storeAddr r.target (32 * b))]
    (s.ras.held.all (fun e => e.1 ≠ b) = true → ∃ t, exec .rebuildBlock s = .next t ∧
      t.ras = { s.ras with rebuild := some { r with p := b + 1 } } ∧ t.out = s.out ++ copy ∧ copied t) ∧
    ∀ o bs, s.ras.held = [(b, o, bs)] → ∃ t, exec .rebuildBlock s = .next t ∧
      t.ras = { s.ras with rebuild := some { r with p := b + 1 }, held := [] } ∧ s.out ++ copy <+: t.out ∧
      (let byte (i : Nat) : Byte := if o ≤ i ∧ i < o + bs.length then bs.getD (i - o) 0 else 0
       Out.storePiece r.target (s.storeAddr r.target (32 * b + o / 2)) (((slotPiece r.slot byte).drop (o / 2)).take ((o + bs.length + 1) / 2 - o / 2)) ∈ t.out) ∧
      copied t) ∧
  (∀ s : State, s.atRest = true → (∀ r, s.ras.rebuild = some r → (s.nextBlock r.p).isSome = true) → exec .rebuildDone s = .next s) ∧
  (∀ (s : State) (r : Rebuild), s.atRest = true → s.ras.rebuild = some r → s.nextBlock r.p = none → s.ras.rebuildNext = [] → records s →
    ∃ t, exec .rebuildDone s = .next t ∧ bit (t.sticky pgRAS 0).bits 8 = true ∧ recorded s t ∧
      t.ras = { s.ras with
        hsSlots := (s.ras.hsSlots &&& ~~~(place 7 (8 * r.slot))) ||| place (r.target % 8) (8 * r.slot)
        retiredStacks := s.slotStack r.slot :: s.ras.retiredStacks, lost := s.ras.lost.filter (· ≠ r.slot), rebuild := none }) ∧
  (∀ (s : State) (v : Word), s.hostOpen 0 = true →
    let n := field v 12 0
    let base := s.ras.repairBase &&& 0xFFFFFFFFFFFFFFF8
    let a := { s.ras with repairFail := false, repairSkip := 0, repairDone := 0 }
    ∃ t, exec (.repairLoad v) s = .next t ∧
      if s.ras.repairBusy.isSome = true ∨ bit v 63 = false ∨ n = 0 ∨ 4096 < n then idle t s
      else if s.inRange 0 0 base (8 * n) = true ∧ s.masterEnabled 0 = true then
        ∀ l, fresh s → s.cacheLink (line base) = some l →
          t.ras = { a with repairBusy := some n, repairAt := base, repairLines := [], repairEnd := none } ∧
            (.d2hReq l "RdCurr" (line base)) ∈ t.out ∧ s.onlyChanges t [.ras, .home]
      else t.ras = { a with repairFail := true } ∧ t.out = s.out ∧ s.onlyChanges t [.ras]) ∧
  (∀ (s : State) (k n m : Nat) (x : Txn) (g : Granule), s.atRest = true → s.ras.repairBusy = some m → s.ras.repairEnd = none →
    s.masterEnabled 0 = true → (∀ a, (s.cacheLink (line a)).isSome = true) → k = s.ras.repairLines.length →
    s.home = { line := [(n, { txn := some x })] } → s.hlk.remap = none → n < 2 ^ 58 → x.st = .curr →
    x.cause = .req { who := .unit (.repair k), kind := .readNoAlloc, addr := lineAddr n } →
    ∃ t, exec (.hostData (lineAddr n) false g) s = .next t ∧ s.onlyChanges t [.ras, .home] ∧
      t.ras = { s.ras with
        repairLines := s.ras.repairLines ++ [g]
        repairEnd := if s.ras.repairAt.toNat % 64 + 8 * m ≤ 64 * (k + 1) then some true else none }) ∧
  (∀ s : State, s.atRest = true → (s.ras.repairBusy = none ∨ s.ras.repairEnd = none) → exec .repairReadDone s = .next s) ∧
  (∀ (s : State) (n : Nat), s.atRest = true → s.ras.repairBusy = some n →
    let a := { s.ras with repairBusy := none, repairLines := [], repairEnd := none }
    (s.ras.repairEnd = some false → ∃ t, exec .repairReadDone s = .next t ∧ t.ras = { a with repairFail := true } ∧
      t.out = s.out ∧ s.onlyChanges t [.ras]) ∧
    ∀ e, s.ras.repairEnd = some true → s.ras.repairWords n = [e] →
      let r : RowName := { str := field e 63 56, bank := field e 55 48, mac := field e 47 32, row := field e 31 16 }
      ∃ t, exec .repairReadDone s = .next t ∧
        if structDefined r.str = false ∨ s.ras.remapped.any (fun x => x.1 = r) = true ∨ 2 ≤ s.sparesUsed r then
          t.ras = { a with repairSkip := s.ras.repairSkip + 1 } ∧ s.onlyChanges t [.ras] [(pgRAS, 0, 10)]
        else t.ras = { a with
            repairDone := s.ras.repairDone + 1, repairs := satInc s.ras.repairs
            rowCopy := (r, s.glb.time) :: s.ras.rowCopy.filter fun x => x.1 ≠ r && decide ((s.glb.time - x.2).toNat < 64)
            remapped := s.ras.remapped ++ [(r, s.sparesUsed r)] } ∧ s.onlyChanges t [.ras] [(pgRAS, 0, 3)]) ∧
  (∀ (s : State) (code : Byte), s.atRest = true →
    let a := { s.ras with copying := s.ras.copying.filter (·.1 ≠ code.toNat) }
    let waits (e : Nat × Chan) : Bool := code = 0x0A && e.2.st = .active && s.bankCopies 0x0A (Config.ctxBank e.1)
    (s.dbl.chan.filter waits = [] → ∃ t, exec (.bankCopyDone code) s = .next t ∧ t.ras = a ∧ t.out = s.out ∧ s.onlyChanges t [.ras]) ∧
    ∀ k c, s.dbl.chan.filter waits = [(k, c)] → c.cached = true → c.hand = [] → c.stale = none → s.masterEnabled c.part = true →
      s.served k = true → ∃ t, exec (.bankCopyDone code) s = .next t ∧ t.ras = a ∧
        (let more := ((List.range (min 16 c.avail)).map fun i => c.f + BitVec.ofNat 32 i).filter fun p => !c.want.contains p && !c.reads.contains p
         t.chan k = { c with want := c.want ++ more } ∧ t.xlt = { s.xlt with lookups := s.xlt.lookups ++ more.map (c.ringReq k) }) ∧
        (∀ j, j ≠ k → t.chan j = s.chan j) ∧ t.out = s.out ∧ s.onlyChanges t [.ras, .dbl, .xlt])

/-! ## Windows and the transport -/

/-- A packet is sent with the CRC-32C of its header's first 28 bytes and of each block (R268). A packet that its sender left incomplete sets PORT_PROTOCOL and
nothing else (R332). A packet with a bad header CRC, one whose sop came before the eop of the one before it (15_block_ports.md R341), or one for another
chip, sets a sticky bit (R269); one before the window is acknowledged whole, and the blocks it carries are counted (R270); one its window entry does not let in is refused with a NACK
and counted (R264). A new block with a good CRC is admitted and asks for its translation, a REDUCE block converted first; a bad one is asked for again, one already
applied is acknowledged (R265, R270, R276). A SIGNAL joins the queue of actions (R207). BLOCK_APPLIED marks and acknowledges a block, of a packet with LAST once its read-back is back (R271). ACK completes a packet
or marks its blocks; NACK, and the timeout, send it again, or give up the route for the flow's next one with every count back at 0, or, with none left, fail the flow (R271, R273, R274,
R275). -/
def Obligations.PacketsArrive : Prop :=
  let goesTo (s t : State) (c : Nat) (p : Packet) : Prop := ∀ r rest, upSlots (s.route c) = r :: rest →
    .fabric (slotPort (s.route c) r) (slotTag (s.route c) r) ({ p with h := { p.h with route := BitVec.ofNat 2 r } } : Packet).sealed ∈ t.out
  let answer (s t : State) (h : PktHdr) (kind : Nat) (mask : BitVec 16) (arg : Nat) : Prop :=
    goesTo s t h.srcChip.toNat { h := { s.header kind h.srcChip.toNat with
      mask := mask, psn := h.psn, blocks := h.blocks, arg := BitVec.ofNat 32 arg } }
  let packet (i : Instr) (h : PktHdr) (kind : Nat) (bs : List Block) : Prop :=
    (i = .packetData h bs ∧ kind = 1) ∨ (i = .packetReduce h bs ∧ kind = 2) ∨ (i = .packetSignal h ∧ kind = 3 ∧ bs = []) ∨
    (i = .packetAck h ∧ kind = 4 ∧ bs = []) ∨ (i = .packetNack h ∧ kind = 5 ∧ bs = [])
  let good (s : State) (h : PktHdr) (kind : Nat) : Prop := s.atRest = true ∧ h.cut = none ∧ h.early = false ∧ h.hcrcOk = true ∧
    h.kind.toNat = kind ∧ h.dstChip = s.peer.chipId ∧ s.isSelf h.srcChip.toNat = false
  let fresh (s : State) (h : PktHdr) : Prop := s.beforeWindow h = false ∧ s.rxPkt h.srcChip.toNat h.psn.toNat = none
  let records (s : State) : Prop := ∀ p, s.canWrite false p = true → s.home = {} ∧ s.hlk.remap = none
  let others (s t : State) (c : Nat) : Prop := (∀ d, d ≠ c → t.rxFlow d = s.rxFlow d) ∧ ∀ d, d ≠ c → t.flow d = s.flow d
  let framed (s t : State) (rs : List Region) : Prop := t.pending = s.pending ∧ s.out <+: t.out ∧ ∀ r, r ∈ rs ∨ s.kept t r
  let new (s : State) (h : PktHdr) : RxPkt :=
    { psn := h.psn.toNat, h := h, part := (s.iwinPart h.window.toNat).getD 0, asid := field (s.iwin h.window.toNat).w0 19 0
      base := (s.iwin h.window.toNat).w1 &&& 0xFFFFFFFFFFFFF000 }
  (∀ p : Packet, p.sealed.h = { p.h with hcrc := crc32c (headerBytes p.h) } ∧ p.sealed.h.hcrcOk = true ∧ p.sealed.blocks = p.blocks ∧
    ∀ k : Nat, p.sealed.crcs[k]? = (p.blocks[k]?).map fun (b : Nat × List Byte) => crc32c b.2) ∧
  (∀ (s : State) (i : Instr) (h : PktHdr) (k : Nat) (bs : List Block), s.atRest = true → packet i h k bs →
    (∀ p, h.cut = some p → ∃ t, exec i s = .next t ∧ s.onlyChanges t [] [(pgGLB, 0, 5)]) ∧ (h.cut = none →
    ((h.early = true ∨ h.hcrcOk = false ∨ h.kind = 0 ∨ 8 < h.kind.toNat) → ∃ t, exec i s = .next t ∧ s.onlyChanges t [] [(pgPXP, 0, 5)]) ∧
    (h.early = false → h.hcrcOk = true → h.kind.toNat = k → h.dstChip ≠ s.peer.chipId → ∃ t, exec i s = .next t ∧ s.onlyChanges t [] [(pgPXP, 0, 4)]))) ∧
  (∀ (s : State) (i : Instr) (h : PktHdr) (k : Nat) (bs : List Block), packet i h k bs → k ≤ 3 → good s h k → s.beforeWindow h = true →
    ∃ t, exec i s = .next t ∧ answer s t h 4 (fullMask h) 0 ∧
      t.peer = { s.peer with flow := t.peer.flow, dup := satAdd s.peer.dup (max 1 bs.length) } ∧ s.onlyChanges t [.peer]) ∧
  (∀ (s : State) (i : Instr) (h : PktHdr) (k : Nat) (bs : List Block), packet i h k bs → k ≤ 3 → good s h k → s.beforeWindow h = false →
    let (cause, detail) := s.judgePkt h bs
    let carried := bs.foldl (fun m b => m ||| blockBit b.k.val) (0 : BitVec 16)
    let mask := if k = 3 then 1 else if carried = 0 then fullMask h else carried
    cause ≠ 0 → records s → ∃ t, exec i s = .next t ∧ answer s t h 5 mask (cause + detail.toNat <<< 8) ∧
      t.peer = { s.peer with flow := t.peer.flow, refused := satAdd s.peer.refused (maskCount mask) } ∧ framed s t [.peer, .xlt, .home]) ∧
  (∀ (s : State) (i : Instr) (h : PktHdr) (k : Nat) (b : Block), packet i h k [b] → good s h k → s.judgePkt h [b] = (0, 0) →
    let src := h.srcChip.toNat
    let w := h.window.toNat
    let e := s.iwin w
    let x := new s h
    let va := x.base + BitVec.ofNat 64 (blockOff h b.k.val)
    (b.crcOk = true → fresh s h → (k = 1 ∨ (redSpec h).sfmt ≠ 6) → ∃ t bytes, exec i s = .next t ∧
      (k = 1 → bytes = b.bytes) ∧ (k = 2 → field h.arg 10 8 ≠ 4 → bytes = (s.convert x.part (redSpec h) b.bytes [] [] []).1) ∧
      t.rxPkt src h.psn.toNat = some { x with busy := blockBit b.k.val, held := [{ k := b.k.val, va := va, bytes := bytes }] } ∧
      t.iwin w = { e with admitted := e.admitted + 1 } ∧ (∀ j, j ≠ w → t.iwin j = s.iwin j) ∧
      t.xlt = { s.xlt with lookups := s.xlt.lookups ++
        [{ who := .inbound src h.psn.toNat b.k.val, part := x.part, asid := x.asid, access := 1, va := va }] } ∧
      (k = 1 → t.out = s.out ∧ s.onlyChanges t [.peer, .xlt]) ∧ others s t src ∧
      t.peer = { s.peer with rx := t.peer.rx, iwin := t.peer.iwin } ∧
      framed s t ([.peer, .xlt] ++ if k = 2 then [.ccu, .free] else [])) ∧
    (b.crcOk = false → fresh s h → ∃ t, exec i s = .next t ∧ answer s t h 5 (blockBit b.k.val) 0 ∧
      t.rxPkt src h.psn.toNat = some x ∧ (∀ d, d ≠ src → t.rxFlow d = s.rxFlow d) ∧
      t.peer = { s.peer with rx := t.peer.rx, flow := t.peer.flow, crcFail := satAdd s.peer.crcFail 1 } ∧ s.onlyChanges t [.peer]) ∧
    (∀ p, b.crcOk = true → s.beforeWindow h = false → s.rxPkt src h.psn.toNat = some p → bit p.mask b.k.val = true →
      ∃ t, exec i s = .next t ∧ answer s t h 4 (blockBit b.k.val) 0 ∧
        t.peer = { s.peer with rx := t.peer.rx, flow := t.peer.flow, dup := satAdd s.peer.dup 1 } ∧ s.onlyChanges t [.peer])) ∧
  (∀ (s : State) (h : PktHdr), good s h 3 → fresh s h → s.judgePkt h [] = (0, 0) →
    ∃ t, exec (.packetSignal h) s = .next t ∧ t.rxPkt h.srcChip.toNat h.psn.toNat = some { new s h with busy := 1 } ∧
      (let act : SAct := { from_ := .peer h.srcChip.toNat h.psn.toNat, handle := h.body.setWidth 32, action := BitVec.ofNat 2 (field h.arg 1 0), value := h.arg.extractLsb' 16 16 }
       t.syn = { s.syn with
         acts := s.syn.acts.filter (fun x => x.before s.glb.time 7) ++ [{ act with at_ := s.glb.time, rank := 7 }] ++
           s.syn.acts.filter (fun x => !x.before s.glb.time 7) }) ∧ t.out = s.out ∧ others s t h.srcChip.toNat ∧
      t.peer = { s.peer with rx := t.peer.rx } ∧ s.onlyChanges t [.peer, .syn]) ∧
  (∀ (s : State) (src : BitVec 12) (psn : BitVec 24) (k : Fin 16), s.atRest = true →
    ((∀ p, s.rxPkt src.toNat psn.toNat = some p → bit p.busy k.val = false) → exec (.blockApplied src psn k) s = .next s) ∧
    ∀ p, s.rxPkt src.toNat psn.toNat = some p → bit p.busy k.val = true → p.h.kind = 1 → (p.h.last = false ∨ p.back = .back) → p.h.srcChip = src →
      s.isSelf src.toNat = false → p.held.all (·.k ≠ k.val) = true → p.raw.all (·.1 ≠ k.val) = true → p.writes.all (·.1 ≠ k.val) = true →
      let w := p.h.window.toNat
      let e := s.iwin w
      ∃ t, exec (.blockApplied src psn k) s = .next t ∧ answer s t p.h 4 (blockBit k.val) 0 ∧
        t.rxPkt src.toNat psn.toNat = some { p with mask := p.mask ||| blockBit k.val, busy := p.busy &&& ~~~(blockBit k.val) } ∧
        t.iwin w = { e with admitted := e.admitted - 1, applied := e.applied + 1 } ∧ (∀ j, j ≠ w → t.iwin j = s.iwin j) ∧
        (∀ d, d ≠ src.toNat → t.rxFlow d = s.rxFlow d) ∧
        t.peer = { s.peer with rx := t.peer.rx, iwin := t.peer.iwin, flow := t.peer.flow } ∧ s.onlyChanges t [.peer]) ∧
  (∀ (s : State) (h : PktHdr), good s h 4 ∨ good s h 5 → s.unacked h.srcChip.toNat h.psn.toNat = none →
    ∃ t, exec (if h.kind = 4 then .packetAck h else .packetNack h) s = .next t ∧ t.out = s.out ∧ s.onlyChanges t []) ∧
  (∀ (s : State) (h : PktHdr) (u : Unacked), good s h 4 → s.unacked h.srcChip.toNat h.psn.toNat = some u → (∀ c, (s.flow c).wait = []) →
    let c := h.srcChip.toNat
    let acked := u.acked ||| h.mask
    let left := (s.flow c).out.filter (·.p.h.psn.toNat ≠ h.psn.toNat)
    let whole : Bool := u.p.h.blocks = 0 || acked &&& fullMask u.p.h = fullMask u.p.h
    (whole = false → ∃ t, exec (.packetAck h) s = .next t ∧
      t.flow c = { s.flow c with out := (s.flow c).out.map fun x => if x.p.h.psn = h.psn then { x with acked := acked } else x } ∧
      others s t c ∧ t.out = s.out ∧ s.onlyChanges t [.peer]) ∧
    (whole = true → u.for_ = .notice → ∃ t, exec (.packetAck h) s = .next t ∧ t.flow c = { s.flow c with out := left } ∧ others s t c ∧
      t.out = s.out ∧ s.onlyChanges t [.peer]) ∧
    (∀ i o, whole = true → u.for_ = .planSignal i o → ∃ t, exec (.packetAck h) s = .next t ∧ t.flow c = { s.flow c with out := left } ∧
      others s t c ∧ t.entry i = (if (s.entry i).occ = o then { s.entry i with done := (s.entry i).done || (s.entry i).fired } else s.entry i) ∧
      (∀ j, j ≠ i → t.entry j = s.entry j) ∧ t.out = s.out ∧ s.onlyChanges t [.peer, .cht])) ∧
  (∀ (s : State) (h : PktHdr) (u : Unacked), good s h 5 → s.unacked h.srcChip.toNat h.psn.toNat = some u → (∀ c, (s.flow c).wait = []) →
    field h.arg 7 0 ≠ 0 →
    let c := h.srcChip.toNat
    let left := (s.flow c).out.filter (·.p.h.psn.toNat ≠ h.psn.toNat)
    (u.for_ = .notice → ∃ t, exec (.packetNack h) s = .next t ∧ t.flow c = { s.flow c with out := left } ∧ others s t c ∧ t.out = s.out ∧
      s.onlyChanges t [.peer]) ∧
    (∀ i o, u.for_ = .planSignal i o → ∃ t, exec (.packetNack h) s = .next t ∧ t.flow c = { s.flow c with out := left } ∧ others s t c ∧
      t.entry i = (if (s.entry i).occ = o then { s.entry i with code := 0x81 } else s.entry i) ∧ (∀ j, j ≠ i → t.entry j = s.entry j) ∧ t.out = s.out ∧
      s.onlyChanges t [.peer, .cht])) ∧
  (∀ (s : State) (i : Instr) (c : BitVec 12) (psn : BitVec 24) (mask : BitVec 16), s.atRest = true →
    ((i = .resendTimeout c psn ∧ mask = 0xFFFF) ∨
      ∃ h, i = .packetNack h ∧ good s h 5 ∧ field h.arg 7 0 = 0 ∧ h.srcChip = c ∧ h.psn = psn ∧ h.mask = mask) →
    ((s.unacked c.toNat psn.toNat = none ∨ s.isSelf c.toNat = true) → i = .resendTimeout c psn → exec i s = .next s) ∧
    (∀ u, s.unacked c.toNat psn.toNat = some u → u.answered mask = true → ∃ t, exec i s = .next t ∧ t.out = s.out ∧ s.onlyChanges t []) ∧
    (∀ u, s.unacked c.toNat psn.toNat = some u → s.isSelf c.toNat = false → u.answered mask = false → u.resends < max 1 s.peer.resendMax.toNat →
      ∃ t, exec i s = .next t ∧ goesTo s t c.toNat (u.again mask) ∧ s.onlyChanges t [.peer] ∧
        (t.flow c.toNat).out = ((s.flow c.toNat).out.map fun x => if x.p.h.psn.toNat = psn.toNat then { x with resends := x.resends + 1 } else x) ∧
        t.peer = { s.peer with
          flow := t.peer.flow, resendCount := satAdd s.peer.resendCount (max 1 (u.again mask).blocks.length) }) ∧
    (∀ u r r2 rest, s.unacked c.toNat psn.toNat = some u → s.isSelf c.toNat = false → u.answered mask = false → max 1 s.peer.resendMax.toNat ≤ u.resends →
      upSlots (s.route c.toNat) = r :: r2 :: rest →
      ∃ t, exec i s = .next t ∧ t.route c.toNat = s.route c.toNat &&& ~~~(place 1 (16 * r + 15)) ∧
        (∀ d, d ≠ c.toNat → t.route d = s.route d) ∧ (∀ x ∈ (t.flow c.toNat).out, x.resends = 0) ∧ (t.flow c.toNat).slot = r2 ∧
        (∀ x ∈ (s.flow c.toNat).out, goesTo t t c.toNat (x.again 0xFFFF)) ∧ s.onlyChanges t [.peer] [(pgPXP, 0, 1)]) ∧
    (∀ u r, s.unacked c.toNat psn.toNat = some u → s.isSelf c.toNat = false → u.answered mask = false → max 1 s.peer.resendMax.toNat ≤ u.resends →
      upSlots (s.route c.toNat) = [r] → (s.flow c.toNat).out = [u] → u.for_ = .notice → (s.flow c.toNat).wait = [] → records s →
      ∃ t, exec i s = .next t ∧ t.route c.toNat = s.route c.toNat &&& ~~~(place 1 (16 * r + 15)) ∧ (∀ d, d ≠ c.toNat → t.route d = s.route d) ∧
        t.flow c.toNat = { s.flow c.toNat with out := [], failed := true, fails := (s.flow c.toNat).fails + 1 } ∧
        (∀ d, d ≠ c.toNat → t.flow d = s.flow d) ∧ bit (t.sticky pgPXP 0).bits 1 = true ∧ bit (t.sticky pgPXP 0).bits 2 = true ∧
        framed s t [.peer, .xlt, .home]))

/-- FABRIC_PORT_DOWN clears UP of every route slot on the port, and the flow that used it goes on from its next slot, but that nothing of the loopback path is
sent again (R341, R272, R274). PXP_ROUTE sets the selected chip's slots and ends a failure of its flow, its re-sends counted anew where the route it uses is another; with no
slot marked UP any more the flow fails (R273, R274, R275). A word of a window entry is
written while EN is 0; an enabled entry takes only EN 0, a change else sets its sticky bit, as does an entry outside the run, a range upside down or one that meets another (R261, R263, R266). An
inbound entry disabled with blocks admitted is busy until they are answered (R266). A run of indices that meets another, or gives up an enabled entry, is refused with its
sticky bit (R282). -/
def Obligations.RoutesAndWindows : Prop :=
  let sound (s : State) : Prop := s.ras.lostCap = []
  let owins (s t : State) (i : Nat) (e : WinEntry) : Prop := t.owin i = e ∧ (∀ j, j ≠ i → t.owin j = s.owin j) ∧
    t.peer = { s.peer with owin := t.peer.owin }
  let iwins (s t : State) (i : Nat) (e : WinEntry) : Prop := t.iwin i = e ∧ (∀ j, j ≠ i → t.iwin j = s.iwin j) ∧
    t.peer = { s.peer with iwin := t.peer.iwin }
  let only (s t : State) : Prop := t.out = s.out ∧ s.onlyChanges t [.peer]
  (∀ (s : State) (f : Fin 12), s.atRest = true → (∀ c r, r ∈ upSlots (s.route c) → slotPort (s.route c) r ≠ f.val) →
    ∃ t, exec (.fabricPortDown f) s = .next t ∧ only s t ∧
      t.peer = { s.peer with portDown := f.val :: s.peer.portDown.filter (· ≠ f.val) }) ∧
  (∀ (s : State) (f : Fin 12) (c r r2 : Nat), s.atRest = true → s.isSelf c = false → upSlots (s.route c) = [r, r2] →
    slotPort (s.route c) r = f.val → slotPort (s.route c) r2 ≠ f.val →
    (∀ d, d ≠ c → ∀ q, q ∈ upSlots (s.route d) → slotPort (s.route d) q ≠ f.val) →
    ∃ t, exec (.fabricPortDown f) s = .next t ∧ t.route c = s.route c &&& ~~~(place 1 (16 * r + 15)) ∧
      (∀ d, d ≠ c → t.route d = s.route d) ∧ (t.flow c).slot = r2 ∧ (∀ x ∈ (t.flow c).out, x.resends = 0) ∧ (∀ d, d ≠ c → t.flow d = s.flow d) ∧
      t.peer.portDown = f.val :: s.peer.portDown.filter (· ≠ f.val) ∧ s.onlyChanges t [.peer] [(pgPXP, 0, 1)]) ∧
  (∀ (s : State) (f : Fin 12) (c r : Nat), s.atRest = true → s.isSelf c = true → r ∈ upSlots (s.route c) → slotPort (s.route c) r = f.val →
    (∀ d q, q ∈ upSlots (s.route d) → slotPort (s.route d) q = f.val → d = c ∧ q = r) →
    ∃ t, exec (.fabricPortDown f) s = .next t ∧ t.route c = s.route c &&& ~~~(place 1 (16 * r + 15)) ∧
      (∀ d, d ≠ c → t.route d = s.route d) ∧ (∀ g w p, Out.fabric g w p ∈ t.out → Out.fabric g w p ∈ s.out) ∧
      s.onlyChanges t [.peer] [(pgPXP, 0, 1)] ∧
      t.peer = { s.peer with route := t.peer.route, portDown := f.val :: s.peer.portDown.filter (· ≠ f.val) }) ∧
  (∀ (s : State) (v : Word), s.hostOpen 0 = true → sound s → (∀ d, (s.flow d).wait = []) →
    let c := s.peer.routeSel.toNat
    let w := v &&& 0x8FFF8FFF8FFF8FFF
    ((upSlots w ≠ [] ∨ upSlots (s.route c) = [] ∨ s.isSelf c = true) →
      ∃ t, exec (.pxpRoute v) s = .next t ∧ only s t ∧ t.route c = w ∧ (∀ d, d ≠ c → t.route d = s.route d) ∧
        (∀ d, d ≠ c → t.flow d = s.flow d) ∧ t.peer = { s.peer with route := t.peer.route, flow := t.peer.flow } ∧
        t.flow c = match upSlots w with
          | r :: _ => { s.flow c with
              failed := false, slot := r
              out := (s.flow c).out.map fun u => if routeUsed w = routeUsed (s.route c) then u else { u with resends := 0 } }
          | [] => s.flow c) ∧
    (upSlots w = [] → upSlots (s.route c) ≠ [] → s.isSelf c = false → (s.flow c).out = [] →
      (∀ p, s.canWrite false p = true → s.home = {} ∧ s.hlk.remap = none) →
      ∃ t, exec (.pxpRoute v) s = .next t ∧ t.route c = w ∧ (∀ d, d ≠ c → t.route d = s.route d) ∧ (∀ d, d ≠ c → t.flow d = s.flow d) ∧
        t.flow c = { s.flow c with failed := true, fails := (s.flow c).fails + 1 } ∧ bit (t.sticky pgPXP 0).bits 2 = true ∧
        t.pending = s.pending ∧ ∀ g, g ∈ [Region.peer, .xlt, .home] ∨ s.kept t g)) ∧
  (∀ (s : State) (fn : Fn) (k : BitVec 2) (v : Word), s.viewOpen fn.toNat = true → sound s →
    let i := (s.pwnView fn.toNat).owinSel.toNat
    let e := s.owin i
    let n := e.put false k.toNat v
    let off : WinEntry := { n with w0 := n.w0 &&& 0x7FFFFFFFFFFFFFFF }
    ∃ t, exec (.pwnOwin fn k v) s = .next t ∧
      if (s.allot false fn.toNat).has i = false then s.onlyChanges t [] [(pgPWN, fn.toNat, 5)]
      else if e.en = true then
        (if n = e then t.out = s.out ∧ s.onlyChanges t [] else if k = 0 ∧ n.en = false then owins s t i n ∧ only s t
         else s.onlyChanges t [] [(pgPWN, fn.toNat, 3)])
      else if n.en = false then owins s t i n ∧ only s t
      else if field n.w2 63 12 < field n.w1 63 12 then owins s t i off ∧ s.onlyChanges t [.peer] [(pgPWN, fn.toNat, 2)]
      else if s.windowsOn fn.toNat (field n.w0 19 0) n.lo n.hi ≠ [] then owins s t i off ∧ s.onlyChanges t [.peer] [(pgPWN, fn.toNat, 1)]
      else owins s t i n ∧ only s t) ∧
  (∀ (s : State) (fn : Fn) (k : BitVec 2) (v : Word), s.viewOpen fn.toNat = true → sound s →
    let i := (s.pwnView fn.toNat).iwinSel.toNat
    let e := s.iwin i
    let n := e.put true k.toNat v
    ∃ t, exec (.pwnIwin fn k v) s = .next t ∧
      if (s.allot true fn.toNat).has i = false then s.onlyChanges t [] [(pgPWN, fn.toNat, 5)]
      else if e.en = true then
        (if n = e then t.out = s.out ∧ s.onlyChanges t []
         else if k = 0 ∧ n.en = false then iwins s t i { n with busy := decide (0 < n.admitted) } ∧ only s t
         else s.onlyChanges t [] [(pgPWN, fn.toNat, 4)])
      else iwins s t i n ∧ only s t) ∧
  (∀ (s : State) (i : BitVec 16), s.atRest = true →
    if (s.iwin i.toNat).busy = true ∧ (s.iwin i.toNat).admitted = 0 then
      ∃ t, exec (.iwinDrained i) s = .next t ∧ iwins s t i.toNat { s.iwin i.toNat with busy := false } ∧ only s t
    else exec (.iwinDrained i) s = .next s) ∧
  (∀ (s : State) (inb : Bool) (v : Word), s.hostOpen 0 = true →
    let p := s.peer.psel.toNat
    let n : Allot := if inb then { base := field v 15 0, count := field v 32 16 } else { base := field v 13 0, count := field v 30 16 }
    let meets : Prop := ∃ q j, q < 64 ∧ q ≠ p ∧ j < (if inb then 65536 else 16384) ∧ n.has j = true ∧ (s.allot inb q).has j = true
    let gives : Prop := ∃ i, (if inb then s.iwin i else s.owin i).en = true ∧ (s.allot inb p).has i = true ∧ n.has i = false
    (meets → ∃ t, exec (.windowAllotment inb v) s = .next t ∧ s.onlyChanges t [] [(pgPWN, 0, 6)]) ∧
    (¬ meets → gives → ∃ t, exec (.windowAllotment inb v) s = .next t ∧ s.onlyChanges t [] [(pgPWN, 0, 7)]) ∧
    (¬ meets → ¬ gives → ∃ t, exec (.windowAllotment inb v) s = .next t ∧ t.allot inb p = n ∧ t.allot (!inb) p = s.allot (!inb) p ∧
      (∀ q, q ≠ p → t.allot true q = s.allot true q ∧ t.allot false q = s.allot false q) ∧
      t.peer = { s.peer with oAllot := t.peer.oAllot, iAllot := t.peer.iAllot } ∧ only s t))
end

