-- ==== Sys2Proof/Laws/State.lean ====
section
/-! SUPPORT. One lemma per part of the state per updater: what an update leaves, and what it gives. -/

-- One proof at a time: hundreds of proofs started together would each wait on the same lemma on a thread of its own.
set_option Elab.async false

namespace Sys2Proof.Machine

namespace State

variable (s : State)

/-! ### onGlb -/
@[simp] theorem onGlb_glb (f : Glb → Glb) : (s.onGlb f).glb = f s.glb := rfl
@[simp] theorem onGlb_evc (f : Glb → Glb) : (s.onGlb f).evc = s.evc := rfl
@[simp] theorem onGlb_hlk (f : Glb → Glb) : (s.onGlb f).hlk = s.hlk := rfl
@[simp] theorem onGlb_noc (f : Glb → Glb) : (s.onGlb f).noc = s.noc := rfl
@[simp] theorem onGlb_dbl (f : Glb → Glb) : (s.onGlb f).dbl = s.dbl := rfl
@[simp] theorem onGlb_xlt (f : Glb → Glb) : (s.onGlb f).xlt = s.xlt := rfl
@[simp] theorem onGlb_skk (f : Glb → Glb) : (s.onGlb f).skk = s.skk := rfl
@[simp] theorem onGlb_mov (f : Glb → Glb) : (s.onGlb f).mov = s.mov := rfl
@[simp] theorem onGlb_ccu (f : Glb → Glb) : (s.onGlb f).ccu = s.ccu := rfl
@[simp] theorem onGlb_syn (f : Glb → Glb) : (s.onGlb f).syn = s.syn := rfl
@[simp] theorem onGlb_cht (f : Glb → Glb) : (s.onGlb f).cht = s.cht := rfl
@[simp] theorem onGlb_home (f : Glb → Glb) : (s.onGlb f).home = s.home := rfl
@[simp] theorem onGlb_peer (f : Glb → Glb) : (s.onGlb f).peer = s.peer := rfl
@[simp] theorem onGlb_prt (f : Glb → Glb) : (s.onGlb f).prt = s.prt := rfl
@[simp] theorem onGlb_twn (f : Glb → Glb) : (s.onGlb f).twn = s.twn := rfl
@[simp] theorem onGlb_arb (f : Glb → Glb) : (s.onGlb f).arb = s.arb := rfl
@[simp] theorem onGlb_ras (f : Glb → Glb) : (s.onGlb f).ras = s.ras := rfl
@[simp] theorem onGlb_pwr (f : Glb → Glb) : (s.onGlb f).pwr = s.pwr := rfl
@[simp] theorem onGlb_out (f : Glb → Glb) : (s.onGlb f).out = s.out := rfl
@[simp] theorem onGlb_free (f : Glb → Glb) : (s.onGlb f).free = s.free := rfl
@[simp] theorem onGlb_pending (f : Glb → Glb) : (s.onGlb f).pending = s.pending := rfl

/-! ### onEvc -/
@[simp] theorem onEvc_glb (f : Evc → Evc) : (s.onEvc f).glb = s.glb := rfl
@[simp] theorem onEvc_evc (f : Evc → Evc) : (s.onEvc f).evc = f s.evc := rfl
@[simp] theorem onEvc_hlk (f : Evc → Evc) : (s.onEvc f).hlk = s.hlk := rfl
@[simp] theorem onEvc_noc (f : Evc → Evc) : (s.onEvc f).noc = s.noc := rfl
@[simp] theorem onEvc_dbl (f : Evc → Evc) : (s.onEvc f).dbl = s.dbl := rfl
@[simp] theorem onEvc_xlt (f : Evc → Evc) : (s.onEvc f).xlt = s.xlt := rfl
@[simp] theorem onEvc_skk (f : Evc → Evc) : (s.onEvc f).skk = s.skk := rfl
@[simp] theorem onEvc_mov (f : Evc → Evc) : (s.onEvc f).mov = s.mov := rfl
@[simp] theorem onEvc_ccu (f : Evc → Evc) : (s.onEvc f).ccu = s.ccu := rfl
@[simp] theorem onEvc_syn (f : Evc → Evc) : (s.onEvc f).syn = s.syn := rfl
@[simp] theorem onEvc_cht (f : Evc → Evc) : (s.onEvc f).cht = s.cht := rfl
@[simp] theorem onEvc_home (f : Evc → Evc) : (s.onEvc f).home = s.home := rfl
@[simp] theorem onEvc_peer (f : Evc → Evc) : (s.onEvc f).peer = s.peer := rfl
@[simp] theorem onEvc_prt (f : Evc → Evc) : (s.onEvc f).prt = s.prt := rfl
@[simp] theorem onEvc_twn (f : Evc → Evc) : (s.onEvc f).twn = s.twn := rfl
@[simp] theorem onEvc_arb (f : Evc → Evc) : (s.onEvc f).arb = s.arb := rfl
@[simp] theorem onEvc_ras (f : Evc → Evc) : (s.onEvc f).ras = s.ras := rfl
@[simp] theorem onEvc_pwr (f : Evc → Evc) : (s.onEvc f).pwr = s.pwr := rfl
@[simp] theorem onEvc_out (f : Evc → Evc) : (s.onEvc f).out = s.out := rfl
@[simp] theorem onEvc_free (f : Evc → Evc) : (s.onEvc f).free = s.free := rfl
@[simp] theorem onEvc_pending (f : Evc → Evc) : (s.onEvc f).pending = s.pending := rfl

/-! ### onHlk -/
@[simp] theorem onHlk_glb (f : Hlk → Hlk) : (s.onHlk f).glb = s.glb := rfl
@[simp] theorem onHlk_evc (f : Hlk → Hlk) : (s.onHlk f).evc = s.evc := rfl
@[simp] theorem onHlk_hlk (f : Hlk → Hlk) : (s.onHlk f).hlk = f s.hlk := rfl
@[simp] theorem onHlk_noc (f : Hlk → Hlk) : (s.onHlk f).noc = s.noc := rfl
@[simp] theorem onHlk_dbl (f : Hlk → Hlk) : (s.onHlk f).dbl = s.dbl := rfl
@[simp] theorem onHlk_xlt (f : Hlk → Hlk) : (s.onHlk f).xlt = s.xlt := rfl
@[simp] theorem onHlk_skk (f : Hlk → Hlk) : (s.onHlk f).skk = s.skk := rfl
@[simp] theorem onHlk_mov (f : Hlk → Hlk) : (s.onHlk f).mov = s.mov := rfl
@[simp] theorem onHlk_ccu (f : Hlk → Hlk) : (s.onHlk f).ccu = s.ccu := rfl
@[simp] theorem onHlk_syn (f : Hlk → Hlk) : (s.onHlk f).syn = s.syn := rfl
@[simp] theorem onHlk_cht (f : Hlk → Hlk) : (s.onHlk f).cht = s.cht := rfl
@[simp] theorem onHlk_home (f : Hlk → Hlk) : (s.onHlk f).home = s.home := rfl
@[simp] theorem onHlk_peer (f : Hlk → Hlk) : (s.onHlk f).peer = s.peer := rfl
@[simp] theorem onHlk_prt (f : Hlk → Hlk) : (s.onHlk f).prt = s.prt := rfl
@[simp] theorem onHlk_twn (f : Hlk → Hlk) : (s.onHlk f).twn = s.twn := rfl
@[simp] theorem onHlk_arb (f : Hlk → Hlk) : (s.onHlk f).arb = s.arb := rfl
@[simp] theorem onHlk_ras (f : Hlk → Hlk) : (s.onHlk f).ras = s.ras := rfl
@[simp] theorem onHlk_pwr (f : Hlk → Hlk) : (s.onHlk f).pwr = s.pwr := rfl
@[simp] theorem onHlk_out (f : Hlk → Hlk) : (s.onHlk f).out = s.out := rfl
@[simp] theorem onHlk_free (f : Hlk → Hlk) : (s.onHlk f).free = s.free := rfl
@[simp] theorem onHlk_pending (f : Hlk → Hlk) : (s.onHlk f).pending = s.pending := rfl

/-! ### onNoc -/
@[simp] theorem onNoc_glb (f : Noc → Noc) : (s.onNoc f).glb = s.glb := rfl
@[simp] theorem onNoc_evc (f : Noc → Noc) : (s.onNoc f).evc = s.evc := rfl
@[simp] theorem onNoc_hlk (f : Noc → Noc) : (s.onNoc f).hlk = s.hlk := rfl
@[simp] theorem onNoc_noc (f : Noc → Noc) : (s.onNoc f).noc = f s.noc := rfl
@[simp] theorem onNoc_dbl (f : Noc → Noc) : (s.onNoc f).dbl = s.dbl := rfl
@[simp] theorem onNoc_xlt (f : Noc → Noc) : (s.onNoc f).xlt = s.xlt := rfl
@[simp] theorem onNoc_skk (f : Noc → Noc) : (s.onNoc f).skk = s.skk := rfl
@[simp] theorem onNoc_mov (f : Noc → Noc) : (s.onNoc f).mov = s.mov := rfl
@[simp] theorem onNoc_ccu (f : Noc → Noc) : (s.onNoc f).ccu = s.ccu := rfl
@[simp] theorem onNoc_syn (f : Noc → Noc) : (s.onNoc f).syn = s.syn := rfl
@[simp] theorem onNoc_cht (f : Noc → Noc) : (s.onNoc f).cht = s.cht := rfl
@[simp] theorem onNoc_home (f : Noc → Noc) : (s.onNoc f).home = s.home := rfl
@[simp] theorem onNoc_peer (f : Noc → Noc) : (s.onNoc f).peer = s.peer := rfl
@[simp] theorem onNoc_prt (f : Noc → Noc) : (s.onNoc f).prt = s.prt := rfl
@[simp] theorem onNoc_twn (f : Noc → Noc) : (s.onNoc f).twn = s.twn := rfl
@[simp] theorem onNoc_arb (f : Noc → Noc) : (s.onNoc f).arb = s.arb := rfl
@[simp] theorem onNoc_ras (f : Noc → Noc) : (s.onNoc f).ras = s.ras := rfl
@[simp] theorem onNoc_pwr (f : Noc → Noc) : (s.onNoc f).pwr = s.pwr := rfl
@[simp] theorem onNoc_out (f : Noc → Noc) : (s.onNoc f).out = s.out := rfl
@[simp] theorem onNoc_free (f : Noc → Noc) : (s.onNoc f).free = s.free := rfl
@[simp] theorem onNoc_pending (f : Noc → Noc) : (s.onNoc f).pending = s.pending := rfl

/-! ### onDbl -/
@[simp] theorem onDbl_glb (f : Dbl → Dbl) : (s.onDbl f).glb = s.glb := rfl
@[simp] theorem onDbl_evc (f : Dbl → Dbl) : (s.onDbl f).evc = s.evc := rfl
@[simp] theorem onDbl_hlk (f : Dbl → Dbl) : (s.onDbl f).hlk = s.hlk := rfl
@[simp] theorem onDbl_noc (f : Dbl → Dbl) : (s.onDbl f).noc = s.noc := rfl
@[simp] theorem onDbl_dbl (f : Dbl → Dbl) : (s.onDbl f).dbl = f s.dbl := rfl
@[simp] theorem onDbl_xlt (f : Dbl → Dbl) : (s.onDbl f).xlt = s.xlt := rfl
@[simp] theorem onDbl_skk (f : Dbl → Dbl) : (s.onDbl f).skk = s.skk := rfl
@[simp] theorem onDbl_mov (f : Dbl → Dbl) : (s.onDbl f).mov = s.mov := rfl
@[simp] theorem onDbl_ccu (f : Dbl → Dbl) : (s.onDbl f).ccu = s.ccu := rfl
@[simp] theorem onDbl_syn (f : Dbl → Dbl) : (s.onDbl f).syn = s.syn := rfl
@[simp] theorem onDbl_cht (f : Dbl → Dbl) : (s.onDbl f).cht = s.cht := rfl
@[simp] theorem onDbl_home (f : Dbl → Dbl) : (s.onDbl f).home = s.home := rfl
@[simp] theorem onDbl_peer (f : Dbl → Dbl) : (s.onDbl f).peer = s.peer := rfl
@[simp] theorem onDbl_prt (f : Dbl → Dbl) : (s.onDbl f).prt = s.prt := rfl
@[simp] theorem onDbl_twn (f : Dbl → Dbl) : (s.onDbl f).twn = s.twn := rfl
@[simp] theorem onDbl_arb (f : Dbl → Dbl) : (s.onDbl f).arb = s.arb := rfl
@[simp] theorem onDbl_ras (f : Dbl → Dbl) : (s.onDbl f).ras = s.ras := rfl
@[simp] theorem onDbl_pwr (f : Dbl → Dbl) : (s.onDbl f).pwr = s.pwr := rfl
@[simp] theorem onDbl_out (f : Dbl → Dbl) : (s.onDbl f).out = s.out := rfl
@[simp] theorem onDbl_free (f : Dbl → Dbl) : (s.onDbl f).free = s.free := rfl
@[simp] theorem onDbl_pending (f : Dbl → Dbl) : (s.onDbl f).pending = s.pending := rfl

/-! ### onXlt -/
@[simp] theorem onXlt_glb (f : Xlt → Xlt) : (s.onXlt f).glb = s.glb := rfl
@[simp] theorem onXlt_evc (f : Xlt → Xlt) : (s.onXlt f).evc = s.evc := rfl
@[simp] theorem onXlt_hlk (f : Xlt → Xlt) : (s.onXlt f).hlk = s.hlk := rfl
@[simp] theorem onXlt_noc (f : Xlt → Xlt) : (s.onXlt f).noc = s.noc := rfl
@[simp] theorem onXlt_dbl (f : Xlt → Xlt) : (s.onXlt f).dbl = s.dbl := rfl
@[simp] theorem onXlt_xlt (f : Xlt → Xlt) : (s.onXlt f).xlt = f s.xlt := rfl
@[simp] theorem onXlt_skk (f : Xlt → Xlt) : (s.onXlt f).skk = s.skk := rfl
@[simp] theorem onXlt_mov (f : Xlt → Xlt) : (s.onXlt f).mov = s.mov := rfl
@[simp] theorem onXlt_ccu (f : Xlt → Xlt) : (s.onXlt f).ccu = s.ccu := rfl
@[simp] theorem onXlt_syn (f : Xlt → Xlt) : (s.onXlt f).syn = s.syn := rfl
@[simp] theorem onXlt_cht (f : Xlt → Xlt) : (s.onXlt f).cht = s.cht := rfl
@[simp] theorem onXlt_home (f : Xlt → Xlt) : (s.onXlt f).home = s.home := rfl
@[simp] theorem onXlt_peer (f : Xlt → Xlt) : (s.onXlt f).peer = s.peer := rfl
@[simp] theorem onXlt_prt (f : Xlt → Xlt) : (s.onXlt f).prt = s.prt := rfl
@[simp] theorem onXlt_twn (f : Xlt → Xlt) : (s.onXlt f).twn = s.twn := rfl
@[simp] theorem onXlt_arb (f : Xlt → Xlt) : (s.onXlt f).arb = s.arb := rfl
@[simp] theorem onXlt_ras (f : Xlt → Xlt) : (s.onXlt f).ras = s.ras := rfl
@[simp] theorem onXlt_pwr (f : Xlt → Xlt) : (s.onXlt f).pwr = s.pwr := rfl
@[simp] theorem onXlt_out (f : Xlt → Xlt) : (s.onXlt f).out = s.out := rfl
@[simp] theorem onXlt_free (f : Xlt → Xlt) : (s.onXlt f).free = s.free := rfl
@[simp] theorem onXlt_pending (f : Xlt → Xlt) : (s.onXlt f).pending = s.pending := rfl

/-! ### onSkk -/
@[simp] theorem onSkk_glb (f : Skk → Skk) : (s.onSkk f).glb = s.glb := rfl
@[simp] theorem onSkk_evc (f : Skk → Skk) : (s.onSkk f).evc = s.evc := rfl
@[simp] theorem onSkk_hlk (f : Skk → Skk) : (s.onSkk f).hlk = s.hlk := rfl
@[simp] theorem onSkk_noc (f : Skk → Skk) : (s.onSkk f).noc = s.noc := rfl
@[simp] theorem onSkk_dbl (f : Skk → Skk) : (s.onSkk f).dbl = s.dbl := rfl
@[simp] theorem onSkk_xlt (f : Skk → Skk) : (s.onSkk f).xlt = s.xlt := rfl
@[simp] theorem onSkk_skk (f : Skk → Skk) : (s.onSkk f).skk = f s.skk := rfl
@[simp] theorem onSkk_mov (f : Skk → Skk) : (s.onSkk f).mov = s.mov := rfl
@[simp] theorem onSkk_ccu (f : Skk → Skk) : (s.onSkk f).ccu = s.ccu := rfl
@[simp] theorem onSkk_syn (f : Skk → Skk) : (s.onSkk f).syn = s.syn := rfl
@[simp] theorem onSkk_cht (f : Skk → Skk) : (s.onSkk f).cht = s.cht := rfl
@[simp] theorem onSkk_home (f : Skk → Skk) : (s.onSkk f).home = s.home := rfl
@[simp] theorem onSkk_peer (f : Skk → Skk) : (s.onSkk f).peer = s.peer := rfl
@[simp] theorem onSkk_prt (f : Skk → Skk) : (s.onSkk f).prt = s.prt := rfl
@[simp] theorem onSkk_twn (f : Skk → Skk) : (s.onSkk f).twn = s.twn := rfl
@[simp] theorem onSkk_arb (f : Skk → Skk) : (s.onSkk f).arb = s.arb := rfl
@[simp] theorem onSkk_ras (f : Skk → Skk) : (s.onSkk f).ras = s.ras := rfl
@[simp] theorem onSkk_pwr (f : Skk → Skk) : (s.onSkk f).pwr = s.pwr := rfl
@[simp] theorem onSkk_out (f : Skk → Skk) : (s.onSkk f).out = s.out := rfl
@[simp] theorem onSkk_free (f : Skk → Skk) : (s.onSkk f).free = s.free := rfl
@[simp] theorem onSkk_pending (f : Skk → Skk) : (s.onSkk f).pending = s.pending := rfl

/-! ### onMov -/
@[simp] theorem onMov_glb (f : Mov → Mov) : (s.onMov f).glb = s.glb := rfl
@[simp] theorem onMov_evc (f : Mov → Mov) : (s.onMov f).evc = s.evc := rfl
@[simp] theorem onMov_hlk (f : Mov → Mov) : (s.onMov f).hlk = s.hlk := rfl
@[simp] theorem onMov_noc (f : Mov → Mov) : (s.onMov f).noc = s.noc := rfl
@[simp] theorem onMov_dbl (f : Mov → Mov) : (s.onMov f).dbl = s.dbl := rfl
@[simp] theorem onMov_xlt (f : Mov → Mov) : (s.onMov f).xlt = s.xlt := rfl
@[simp] theorem onMov_skk (f : Mov → Mov) : (s.onMov f).skk = s.skk := rfl
@[simp] theorem onMov_mov (f : Mov → Mov) : (s.onMov f).mov = f s.mov := rfl
@[simp] theorem onMov_ccu (f : Mov → Mov) : (s.onMov f).ccu = s.ccu := rfl
@[simp] theorem onMov_syn (f : Mov → Mov) : (s.onMov f).syn = s.syn := rfl
@[simp] theorem onMov_cht (f : Mov → Mov) : (s.onMov f).cht = s.cht := rfl
@[simp] theorem onMov_home (f : Mov → Mov) : (s.onMov f).home = s.home := rfl
@[simp] theorem onMov_peer (f : Mov → Mov) : (s.onMov f).peer = s.peer := rfl
@[simp] theorem onMov_prt (f : Mov → Mov) : (s.onMov f).prt = s.prt := rfl
@[simp] theorem onMov_twn (f : Mov → Mov) : (s.onMov f).twn = s.twn := rfl
@[simp] theorem onMov_arb (f : Mov → Mov) : (s.onMov f).arb = s.arb := rfl
@[simp] theorem onMov_ras (f : Mov → Mov) : (s.onMov f).ras = s.ras := rfl
@[simp] theorem onMov_pwr (f : Mov → Mov) : (s.onMov f).pwr = s.pwr := rfl
@[simp] theorem onMov_out (f : Mov → Mov) : (s.onMov f).out = s.out := rfl
@[simp] theorem onMov_free (f : Mov → Mov) : (s.onMov f).free = s.free := rfl
@[simp] theorem onMov_pending (f : Mov → Mov) : (s.onMov f).pending = s.pending := rfl

/-! ### onCcu -/
@[simp] theorem onCcu_glb (f : Ccu → Ccu) : (s.onCcu f).glb = s.glb := rfl
@[simp] theorem onCcu_evc (f : Ccu → Ccu) : (s.onCcu f).evc = s.evc := rfl
@[simp] theorem onCcu_hlk (f : Ccu → Ccu) : (s.onCcu f).hlk = s.hlk := rfl
@[simp] theorem onCcu_noc (f : Ccu → Ccu) : (s.onCcu f).noc = s.noc := rfl
@[simp] theorem onCcu_dbl (f : Ccu → Ccu) : (s.onCcu f).dbl = s.dbl := rfl
@[simp] theorem onCcu_xlt (f : Ccu → Ccu) : (s.onCcu f).xlt = s.xlt := rfl
@[simp] theorem onCcu_skk (f : Ccu → Ccu) : (s.onCcu f).skk = s.skk := rfl
@[simp] theorem onCcu_mov (f : Ccu → Ccu) : (s.onCcu f).mov = s.mov := rfl
@[simp] theorem onCcu_ccu (f : Ccu → Ccu) : (s.onCcu f).ccu = f s.ccu := rfl
@[simp] theorem onCcu_syn (f : Ccu → Ccu) : (s.onCcu f).syn = s.syn := rfl
@[simp] theorem onCcu_cht (f : Ccu → Ccu) : (s.onCcu f).cht = s.cht := rfl
@[simp] theorem onCcu_home (f : Ccu → Ccu) : (s.onCcu f).home = s.home := rfl
@[simp] theorem onCcu_peer (f : Ccu → Ccu) : (s.onCcu f).peer = s.peer := rfl
@[simp] theorem onCcu_prt (f : Ccu → Ccu) : (s.onCcu f).prt = s.prt := rfl
@[simp] theorem onCcu_twn (f : Ccu → Ccu) : (s.onCcu f).twn = s.twn := rfl
@[simp] theorem onCcu_arb (f : Ccu → Ccu) : (s.onCcu f).arb = s.arb := rfl
@[simp] theorem onCcu_ras (f : Ccu → Ccu) : (s.onCcu f).ras = s.ras := rfl
@[simp] theorem onCcu_pwr (f : Ccu → Ccu) : (s.onCcu f).pwr = s.pwr := rfl
@[simp] theorem onCcu_out (f : Ccu → Ccu) : (s.onCcu f).out = s.out := rfl
@[simp] theorem onCcu_free (f : Ccu → Ccu) : (s.onCcu f).free = s.free := rfl
@[simp] theorem onCcu_pending (f : Ccu → Ccu) : (s.onCcu f).pending = s.pending := rfl

/-! ### onSyn -/
@[simp] theorem onSyn_glb (f : Syn → Syn) : (s.onSyn f).glb = s.glb := rfl
@[simp] theorem onSyn_evc (f : Syn → Syn) : (s.onSyn f).evc = s.evc := rfl
@[simp] theorem onSyn_hlk (f : Syn → Syn) : (s.onSyn f).hlk = s.hlk := rfl
@[simp] theorem onSyn_noc (f : Syn → Syn) : (s.onSyn f).noc = s.noc := rfl
@[simp] theorem onSyn_dbl (f : Syn → Syn) : (s.onSyn f).dbl = s.dbl := rfl
@[simp] theorem onSyn_xlt (f : Syn → Syn) : (s.onSyn f).xlt = s.xlt := rfl
@[simp] theorem onSyn_skk (f : Syn → Syn) : (s.onSyn f).skk = s.skk := rfl
@[simp] theorem onSyn_mov (f : Syn → Syn) : (s.onSyn f).mov = s.mov := rfl
@[simp] theorem onSyn_ccu (f : Syn → Syn) : (s.onSyn f).ccu = s.ccu := rfl
@[simp] theorem onSyn_syn (f : Syn → Syn) : (s.onSyn f).syn = f s.syn := rfl
@[simp] theorem onSyn_cht (f : Syn → Syn) : (s.onSyn f).cht = s.cht := rfl
@[simp] theorem onSyn_home (f : Syn → Syn) : (s.onSyn f).home = s.home := rfl
@[simp] theorem onSyn_peer (f : Syn → Syn) : (s.onSyn f).peer = s.peer := rfl
@[simp] theorem onSyn_prt (f : Syn → Syn) : (s.onSyn f).prt = s.prt := rfl
@[simp] theorem onSyn_twn (f : Syn → Syn) : (s.onSyn f).twn = s.twn := rfl
@[simp] theorem onSyn_arb (f : Syn → Syn) : (s.onSyn f).arb = s.arb := rfl
@[simp] theorem onSyn_ras (f : Syn → Syn) : (s.onSyn f).ras = s.ras := rfl
@[simp] theorem onSyn_pwr (f : Syn → Syn) : (s.onSyn f).pwr = s.pwr := rfl
@[simp] theorem onSyn_out (f : Syn → Syn) : (s.onSyn f).out = s.out := rfl
@[simp] theorem onSyn_free (f : Syn → Syn) : (s.onSyn f).free = s.free := rfl
@[simp] theorem onSyn_pending (f : Syn → Syn) : (s.onSyn f).pending = s.pending := rfl

/-! ### onCht -/
@[simp] theorem onCht_glb (f : Cht → Cht) : (s.onCht f).glb = s.glb := rfl
@[simp] theorem onCht_evc (f : Cht → Cht) : (s.onCht f).evc = s.evc := rfl
@[simp] theorem onCht_hlk (f : Cht → Cht) : (s.onCht f).hlk = s.hlk := rfl
@[simp] theorem onCht_noc (f : Cht → Cht) : (s.onCht f).noc = s.noc := rfl
@[simp] theorem onCht_dbl (f : Cht → Cht) : (s.onCht f).dbl = s.dbl := rfl
@[simp] theorem onCht_xlt (f : Cht → Cht) : (s.onCht f).xlt = s.xlt := rfl
@[simp] theorem onCht_skk (f : Cht → Cht) : (s.onCht f).skk = s.skk := rfl
@[simp] theorem onCht_mov (f : Cht → Cht) : (s.onCht f).mov = s.mov := rfl
@[simp] theorem onCht_ccu (f : Cht → Cht) : (s.onCht f).ccu = s.ccu := rfl
@[simp] theorem onCht_syn (f : Cht → Cht) : (s.onCht f).syn = s.syn := rfl
@[simp] theorem onCht_cht (f : Cht → Cht) : (s.onCht f).cht = f s.cht := rfl
@[simp] theorem onCht_home (f : Cht → Cht) : (s.onCht f).home = s.home := rfl
@[simp] theorem onCht_peer (f : Cht → Cht) : (s.onCht f).peer = s.peer := rfl
@[simp] theorem onCht_prt (f : Cht → Cht) : (s.onCht f).prt = s.prt := rfl
@[simp] theorem onCht_twn (f : Cht → Cht) : (s.onCht f).twn = s.twn := rfl
@[simp] theorem onCht_arb (f : Cht → Cht) : (s.onCht f).arb = s.arb := rfl
@[simp] theorem onCht_ras (f : Cht → Cht) : (s.onCht f).ras = s.ras := rfl
@[simp] theorem onCht_pwr (f : Cht → Cht) : (s.onCht f).pwr = s.pwr := rfl
@[simp] theorem onCht_out (f : Cht → Cht) : (s.onCht f).out = s.out := rfl
@[simp] theorem onCht_free (f : Cht → Cht) : (s.onCht f).free = s.free := rfl
@[simp] theorem onCht_pending (f : Cht → Cht) : (s.onCht f).pending = s.pending := rfl

/-! ### onHome -/
@[simp] theorem onHome_glb (f : Home → Home) : (s.onHome f).glb = s.glb := rfl
@[simp] theorem onHome_evc (f : Home → Home) : (s.onHome f).evc = s.evc := rfl
@[simp] theorem onHome_hlk (f : Home → Home) : (s.onHome f).hlk = s.hlk := rfl
@[simp] theorem onHome_noc (f : Home → Home) : (s.onHome f).noc = s.noc := rfl
@[simp] theorem onHome_dbl (f : Home → Home) : (s.onHome f).dbl = s.dbl := rfl
@[simp] theorem onHome_xlt (f : Home → Home) : (s.onHome f).xlt = s.xlt := rfl
@[simp] theorem onHome_skk (f : Home → Home) : (s.onHome f).skk = s.skk := rfl
@[simp] theorem onHome_mov (f : Home → Home) : (s.onHome f).mov = s.mov := rfl
@[simp] theorem onHome_ccu (f : Home → Home) : (s.onHome f).ccu = s.ccu := rfl
@[simp] theorem onHome_syn (f : Home → Home) : (s.onHome f).syn = s.syn := rfl
@[simp] theorem onHome_cht (f : Home → Home) : (s.onHome f).cht = s.cht := rfl
@[simp] theorem onHome_home (f : Home → Home) : (s.onHome f).home = f s.home := rfl
@[simp] theorem onHome_peer (f : Home → Home) : (s.onHome f).peer = s.peer := rfl
@[simp] theorem onHome_prt (f : Home → Home) : (s.onHome f).prt = s.prt := rfl
@[simp] theorem onHome_twn (f : Home → Home) : (s.onHome f).twn = s.twn := rfl
@[simp] theorem onHome_arb (f : Home → Home) : (s.onHome f).arb = s.arb := rfl
@[simp] theorem onHome_ras (f : Home → Home) : (s.onHome f).ras = s.ras := rfl
@[simp] theorem onHome_pwr (f : Home → Home) : (s.onHome f).pwr = s.pwr := rfl
@[simp] theorem onHome_out (f : Home → Home) : (s.onHome f).out = s.out := rfl
@[simp] theorem onHome_free (f : Home → Home) : (s.onHome f).free = s.free := rfl
@[simp] theorem onHome_pending (f : Home → Home) : (s.onHome f).pending = s.pending := rfl

/-! ### onPeer -/
@[simp] theorem onPeer_glb (f : Peer → Peer) : (s.onPeer f).glb = s.glb := rfl
@[simp] theorem onPeer_evc (f : Peer → Peer) : (s.onPeer f).evc = s.evc := rfl
@[simp] theorem onPeer_hlk (f : Peer → Peer) : (s.onPeer f).hlk = s.hlk := rfl
@[simp] theorem onPeer_noc (f : Peer → Peer) : (s.onPeer f).noc = s.noc := rfl
@[simp] theorem onPeer_dbl (f : Peer → Peer) : (s.onPeer f).dbl = s.dbl := rfl
@[simp] theorem onPeer_xlt (f : Peer → Peer) : (s.onPeer f).xlt = s.xlt := rfl
@[simp] theorem onPeer_skk (f : Peer → Peer) : (s.onPeer f).skk = s.skk := rfl
@[simp] theorem onPeer_mov (f : Peer → Peer) : (s.onPeer f).mov = s.mov := rfl
@[simp] theorem onPeer_ccu (f : Peer → Peer) : (s.onPeer f).ccu = s.ccu := rfl
@[simp] theorem onPeer_syn (f : Peer → Peer) : (s.onPeer f).syn = s.syn := rfl
@[simp] theorem onPeer_cht (f : Peer → Peer) : (s.onPeer f).cht = s.cht := rfl
@[simp] theorem onPeer_home (f : Peer → Peer) : (s.onPeer f).home = s.home := rfl
@[simp] theorem onPeer_peer (f : Peer → Peer) : (s.onPeer f).peer = f s.peer := rfl
@[simp] theorem onPeer_prt (f : Peer → Peer) : (s.onPeer f).prt = s.prt := rfl
@[simp] theorem onPeer_twn (f : Peer → Peer) : (s.onPeer f).twn = s.twn := rfl
@[simp] theorem onPeer_arb (f : Peer → Peer) : (s.onPeer f).arb = s.arb := rfl
@[simp] theorem onPeer_ras (f : Peer → Peer) : (s.onPeer f).ras = s.ras := rfl
@[simp] theorem onPeer_pwr (f : Peer → Peer) : (s.onPeer f).pwr = s.pwr := rfl
@[simp] theorem onPeer_out (f : Peer → Peer) : (s.onPeer f).out = s.out := rfl
@[simp] theorem onPeer_free (f : Peer → Peer) : (s.onPeer f).free = s.free := rfl
@[simp] theorem onPeer_pending (f : Peer → Peer) : (s.onPeer f).pending = s.pending := rfl

/-! ### onPrt -/
@[simp] theorem onPrt_glb (f : Prt → Prt) : (s.onPrt f).glb = s.glb := rfl
@[simp] theorem onPrt_evc (f : Prt → Prt) : (s.onPrt f).evc = s.evc := rfl
@[simp] theorem onPrt_hlk (f : Prt → Prt) : (s.onPrt f).hlk = s.hlk := rfl
@[simp] theorem onPrt_noc (f : Prt → Prt) : (s.onPrt f).noc = s.noc := rfl
@[simp] theorem onPrt_dbl (f : Prt → Prt) : (s.onPrt f).dbl = s.dbl := rfl
@[simp] theorem onPrt_xlt (f : Prt → Prt) : (s.onPrt f).xlt = s.xlt := rfl
@[simp] theorem onPrt_skk (f : Prt → Prt) : (s.onPrt f).skk = s.skk := rfl
@[simp] theorem onPrt_mov (f : Prt → Prt) : (s.onPrt f).mov = s.mov := rfl
@[simp] theorem onPrt_ccu (f : Prt → Prt) : (s.onPrt f).ccu = s.ccu := rfl
@[simp] theorem onPrt_syn (f : Prt → Prt) : (s.onPrt f).syn = s.syn := rfl
@[simp] theorem onPrt_cht (f : Prt → Prt) : (s.onPrt f).cht = s.cht := rfl
@[simp] theorem onPrt_home (f : Prt → Prt) : (s.onPrt f).home = s.home := rfl
@[simp] theorem onPrt_peer (f : Prt → Prt) : (s.onPrt f).peer = s.peer := rfl
@[simp] theorem onPrt_prt (f : Prt → Prt) : (s.onPrt f).prt = f s.prt := rfl
@[simp] theorem onPrt_twn (f : Prt → Prt) : (s.onPrt f).twn = s.twn := rfl
@[simp] theorem onPrt_arb (f : Prt → Prt) : (s.onPrt f).arb = s.arb := rfl
@[simp] theorem onPrt_ras (f : Prt → Prt) : (s.onPrt f).ras = s.ras := rfl
@[simp] theorem onPrt_pwr (f : Prt → Prt) : (s.onPrt f).pwr = s.pwr := rfl
@[simp] theorem onPrt_out (f : Prt → Prt) : (s.onPrt f).out = s.out := rfl
@[simp] theorem onPrt_free (f : Prt → Prt) : (s.onPrt f).free = s.free := rfl
@[simp] theorem onPrt_pending (f : Prt → Prt) : (s.onPrt f).pending = s.pending := rfl

/-! ### onTwn -/
@[simp] theorem onTwn_glb (f : Twn → Twn) : (s.onTwn f).glb = s.glb := rfl
@[simp] theorem onTwn_evc (f : Twn → Twn) : (s.onTwn f).evc = s.evc := rfl
@[simp] theorem onTwn_hlk (f : Twn → Twn) : (s.onTwn f).hlk = s.hlk := rfl
@[simp] theorem onTwn_noc (f : Twn → Twn) : (s.onTwn f).noc = s.noc := rfl
@[simp] theorem onTwn_dbl (f : Twn → Twn) : (s.onTwn f).dbl = s.dbl := rfl
@[simp] theorem onTwn_xlt (f : Twn → Twn) : (s.onTwn f).xlt = s.xlt := rfl
@[simp] theorem onTwn_skk (f : Twn → Twn) : (s.onTwn f).skk = s.skk := rfl
@[simp] theorem onTwn_mov (f : Twn → Twn) : (s.onTwn f).mov = s.mov := rfl
@[simp] theorem onTwn_ccu (f : Twn → Twn) : (s.onTwn f).ccu = s.ccu := rfl
@[simp] theorem onTwn_syn (f : Twn → Twn) : (s.onTwn f).syn = s.syn := rfl
@[simp] theorem onTwn_cht (f : Twn → Twn) : (s.onTwn f).cht = s.cht := rfl
@[simp] theorem onTwn_home (f : Twn → Twn) : (s.onTwn f).home = s.home := rfl
@[simp] theorem onTwn_peer (f : Twn → Twn) : (s.onTwn f).peer = s.peer := rfl
@[simp] theorem onTwn_prt (f : Twn → Twn) : (s.onTwn f).prt = s.prt := rfl
@[simp] theorem onTwn_twn (f : Twn → Twn) : (s.onTwn f).twn = f s.twn := rfl
@[simp] theorem onTwn_arb (f : Twn → Twn) : (s.onTwn f).arb = s.arb := rfl
@[simp] theorem onTwn_ras (f : Twn → Twn) : (s.onTwn f).ras = s.ras := rfl
@[simp] theorem onTwn_pwr (f : Twn → Twn) : (s.onTwn f).pwr = s.pwr := rfl
@[simp] theorem onTwn_out (f : Twn → Twn) : (s.onTwn f).out = s.out := rfl
@[simp] theorem onTwn_free (f : Twn → Twn) : (s.onTwn f).free = s.free := rfl
@[simp] theorem onTwn_pending (f : Twn → Twn) : (s.onTwn f).pending = s.pending := rfl

/-! ### onArb -/
@[simp] theorem onArb_glb (f : Arb → Arb) : (s.onArb f).glb = s.glb := rfl
@[simp] theorem onArb_evc (f : Arb → Arb) : (s.onArb f).evc = s.evc := rfl
@[simp] theorem onArb_hlk (f : Arb → Arb) : (s.onArb f).hlk = s.hlk := rfl
@[simp] theorem onArb_noc (f : Arb → Arb) : (s.onArb f).noc = s.noc := rfl
@[simp] theorem onArb_dbl (f : Arb → Arb) : (s.onArb f).dbl = s.dbl := rfl
@[simp] theorem onArb_xlt (f : Arb → Arb) : (s.onArb f).xlt = s.xlt := rfl
@[simp] theorem onArb_skk (f : Arb → Arb) : (s.onArb f).skk = s.skk := rfl
@[simp] theorem onArb_mov (f : Arb → Arb) : (s.onArb f).mov = s.mov := rfl
@[simp] theorem onArb_ccu (f : Arb → Arb) : (s.onArb f).ccu = s.ccu := rfl
@[simp] theorem onArb_syn (f : Arb → Arb) : (s.onArb f).syn = s.syn := rfl
@[simp] theorem onArb_cht (f : Arb → Arb) : (s.onArb f).cht = s.cht := rfl
@[simp] theorem onArb_home (f : Arb → Arb) : (s.onArb f).home = s.home := rfl
@[simp] theorem onArb_peer (f : Arb → Arb) : (s.onArb f).peer = s.peer := rfl
@[simp] theorem onArb_prt (f : Arb → Arb) : (s.onArb f).prt = s.prt := rfl
@[simp] theorem onArb_twn (f : Arb → Arb) : (s.onArb f).twn = s.twn := rfl
@[simp] theorem onArb_arb (f : Arb → Arb) : (s.onArb f).arb = f s.arb := rfl
@[simp] theorem onArb_ras (f : Arb → Arb) : (s.onArb f).ras = s.ras := rfl
@[simp] theorem onArb_pwr (f : Arb → Arb) : (s.onArb f).pwr = s.pwr := rfl
@[simp] theorem onArb_out (f : Arb → Arb) : (s.onArb f).out = s.out := rfl
@[simp] theorem onArb_free (f : Arb → Arb) : (s.onArb f).free = s.free := rfl
@[simp] theorem onArb_pending (f : Arb → Arb) : (s.onArb f).pending = s.pending := rfl

/-! ### onRas -/
@[simp] theorem onRas_glb (f : Ras → Ras) : (s.onRas f).glb = s.glb := rfl
@[simp] theorem onRas_evc (f : Ras → Ras) : (s.onRas f).evc = s.evc := rfl
@[simp] theorem onRas_hlk (f : Ras → Ras) : (s.onRas f).hlk = s.hlk := rfl
@[simp] theorem onRas_noc (f : Ras → Ras) : (s.onRas f).noc = s.noc := rfl
@[simp] theorem onRas_dbl (f : Ras → Ras) : (s.onRas f).dbl = s.dbl := rfl
@[simp] theorem onRas_xlt (f : Ras → Ras) : (s.onRas f).xlt = s.xlt := rfl
@[simp] theorem onRas_skk (f : Ras → Ras) : (s.onRas f).skk = s.skk := rfl
@[simp] theorem onRas_mov (f : Ras → Ras) : (s.onRas f).mov = s.mov := rfl
@[simp] theorem onRas_ccu (f : Ras → Ras) : (s.onRas f).ccu = s.ccu := rfl
@[simp] theorem onRas_syn (f : Ras → Ras) : (s.onRas f).syn = s.syn := rfl
@[simp] theorem onRas_cht (f : Ras → Ras) : (s.onRas f).cht = s.cht := rfl
@[simp] theorem onRas_home (f : Ras → Ras) : (s.onRas f).home = s.home := rfl
@[simp] theorem onRas_peer (f : Ras → Ras) : (s.onRas f).peer = s.peer := rfl
@[simp] theorem onRas_prt (f : Ras → Ras) : (s.onRas f).prt = s.prt := rfl
@[simp] theorem onRas_twn (f : Ras → Ras) : (s.onRas f).twn = s.twn := rfl
@[simp] theorem onRas_arb (f : Ras → Ras) : (s.onRas f).arb = s.arb := rfl
@[simp] theorem onRas_ras (f : Ras → Ras) : (s.onRas f).ras = f s.ras := rfl
@[simp] theorem onRas_pwr (f : Ras → Ras) : (s.onRas f).pwr = s.pwr := rfl
@[simp] theorem onRas_out (f : Ras → Ras) : (s.onRas f).out = s.out := rfl
@[simp] theorem onRas_free (f : Ras → Ras) : (s.onRas f).free = s.free := rfl
@[simp] theorem onRas_pending (f : Ras → Ras) : (s.onRas f).pending = s.pending := rfl

/-! ### onPwr -/
@[simp] theorem onPwr_glb (f : Pwr → Pwr) : (s.onPwr f).glb = s.glb := rfl
@[simp] theorem onPwr_evc (f : Pwr → Pwr) : (s.onPwr f).evc = s.evc := rfl
@[simp] theorem onPwr_hlk (f : Pwr → Pwr) : (s.onPwr f).hlk = s.hlk := rfl
@[simp] theorem onPwr_noc (f : Pwr → Pwr) : (s.onPwr f).noc = s.noc := rfl
@[simp] theorem onPwr_dbl (f : Pwr → Pwr) : (s.onPwr f).dbl = s.dbl := rfl
@[simp] theorem onPwr_xlt (f : Pwr → Pwr) : (s.onPwr f).xlt = s.xlt := rfl
@[simp] theorem onPwr_skk (f : Pwr → Pwr) : (s.onPwr f).skk = s.skk := rfl
@[simp] theorem onPwr_mov (f : Pwr → Pwr) : (s.onPwr f).mov = s.mov := rfl
@[simp] theorem onPwr_ccu (f : Pwr → Pwr) : (s.onPwr f).ccu = s.ccu := rfl
@[simp] theorem onPwr_syn (f : Pwr → Pwr) : (s.onPwr f).syn = s.syn := rfl
@[simp] theorem onPwr_cht (f : Pwr → Pwr) : (s.onPwr f).cht = s.cht := rfl
@[simp] theorem onPwr_home (f : Pwr → Pwr) : (s.onPwr f).home = s.home := rfl
@[simp] theorem onPwr_peer (f : Pwr → Pwr) : (s.onPwr f).peer = s.peer := rfl
@[simp] theorem onPwr_prt (f : Pwr → Pwr) : (s.onPwr f).prt = s.prt := rfl
@[simp] theorem onPwr_twn (f : Pwr → Pwr) : (s.onPwr f).twn = s.twn := rfl
@[simp] theorem onPwr_arb (f : Pwr → Pwr) : (s.onPwr f).arb = s.arb := rfl
@[simp] theorem onPwr_ras (f : Pwr → Pwr) : (s.onPwr f).ras = s.ras := rfl
@[simp] theorem onPwr_pwr (f : Pwr → Pwr) : (s.onPwr f).pwr = f s.pwr := rfl
@[simp] theorem onPwr_out (f : Pwr → Pwr) : (s.onPwr f).out = s.out := rfl
@[simp] theorem onPwr_free (f : Pwr → Pwr) : (s.onPwr f).free = s.free := rfl
@[simp] theorem onPwr_pending (f : Pwr → Pwr) : (s.onPwr f).pending = s.pending := rfl

/-! ### onSrc -/
@[simp] theorem onSrc_glb (n : Nat) (f : Source → Source) : (s.onSrc n f).glb = s.glb := rfl
@[simp] theorem onSrc_hlk (n : Nat) (f : Source → Source) : (s.onSrc n f).hlk = s.hlk := rfl
@[simp] theorem onSrc_noc (n : Nat) (f : Source → Source) : (s.onSrc n f).noc = s.noc := rfl
@[simp] theorem onSrc_dbl (n : Nat) (f : Source → Source) : (s.onSrc n f).dbl = s.dbl := rfl
@[simp] theorem onSrc_xlt (n : Nat) (f : Source → Source) : (s.onSrc n f).xlt = s.xlt := rfl
@[simp] theorem onSrc_skk (n : Nat) (f : Source → Source) : (s.onSrc n f).skk = s.skk := rfl
@[simp] theorem onSrc_mov (n : Nat) (f : Source → Source) : (s.onSrc n f).mov = s.mov := rfl
@[simp] theorem onSrc_ccu (n : Nat) (f : Source → Source) : (s.onSrc n f).ccu = s.ccu := rfl
@[simp] theorem onSrc_syn (n : Nat) (f : Source → Source) : (s.onSrc n f).syn = s.syn := rfl
@[simp] theorem onSrc_cht (n : Nat) (f : Source → Source) : (s.onSrc n f).cht = s.cht := rfl
@[simp] theorem onSrc_home (n : Nat) (f : Source → Source) : (s.onSrc n f).home = s.home := rfl
@[simp] theorem onSrc_peer (n : Nat) (f : Source → Source) : (s.onSrc n f).peer = s.peer := rfl
@[simp] theorem onSrc_prt (n : Nat) (f : Source → Source) : (s.onSrc n f).prt = s.prt := rfl
@[simp] theorem onSrc_twn (n : Nat) (f : Source → Source) : (s.onSrc n f).twn = s.twn := rfl
@[simp] theorem onSrc_arb (n : Nat) (f : Source → Source) : (s.onSrc n f).arb = s.arb := rfl
@[simp] theorem onSrc_ras (n : Nat) (f : Source → Source) : (s.onSrc n f).ras = s.ras := rfl
@[simp] theorem onSrc_pwr (n : Nat) (f : Source → Source) : (s.onSrc n f).pwr = s.pwr := rfl
@[simp] theorem onSrc_out (n : Nat) (f : Source → Source) : (s.onSrc n f).out = s.out := rfl
@[simp] theorem onSrc_free (n : Nat) (f : Source → Source) : (s.onSrc n f).free = s.free := rfl
@[simp] theorem onSrc_pending (n : Nat) (f : Source → Source) : (s.onSrc n f).pending = s.pending := rfl

/-! ### onTgt -/
@[simp] theorem onTgt_glb (t : Nat) (f : Target → Target) : (s.onTgt t f).glb = s.glb := rfl
@[simp] theorem onTgt_hlk (t : Nat) (f : Target → Target) : (s.onTgt t f).hlk = s.hlk := rfl
@[simp] theorem onTgt_noc (t : Nat) (f : Target → Target) : (s.onTgt t f).noc = s.noc := rfl
@[simp] theorem onTgt_dbl (t : Nat) (f : Target → Target) : (s.onTgt t f).dbl = s.dbl := rfl
@[simp] theorem onTgt_xlt (t : Nat) (f : Target → Target) : (s.onTgt t f).xlt = s.xlt := rfl
@[simp] theorem onTgt_skk (t : Nat) (f : Target → Target) : (s.onTgt t f).skk = s.skk := rfl
@[simp] theorem onTgt_mov (t : Nat) (f : Target → Target) : (s.onTgt t f).mov = s.mov := rfl
@[simp] theorem onTgt_ccu (t : Nat) (f : Target → Target) : (s.onTgt t f).ccu = s.ccu := rfl
@[simp] theorem onTgt_syn (t : Nat) (f : Target → Target) : (s.onTgt t f).syn = s.syn := rfl
@[simp] theorem onTgt_cht (t : Nat) (f : Target → Target) : (s.onTgt t f).cht = s.cht := rfl
@[simp] theorem onTgt_home (t : Nat) (f : Target → Target) : (s.onTgt t f).home = s.home := rfl
@[simp] theorem onTgt_peer (t : Nat) (f : Target → Target) : (s.onTgt t f).peer = s.peer := rfl
@[simp] theorem onTgt_prt (t : Nat) (f : Target → Target) : (s.onTgt t f).prt = s.prt := rfl
@[simp] theorem onTgt_twn (t : Nat) (f : Target → Target) : (s.onTgt t f).twn = s.twn := rfl
@[simp] theorem onTgt_arb (t : Nat) (f : Target → Target) : (s.onTgt t f).arb = s.arb := rfl
@[simp] theorem onTgt_ras (t : Nat) (f : Target → Target) : (s.onTgt t f).ras = s.ras := rfl
@[simp] theorem onTgt_pwr (t : Nat) (f : Target → Target) : (s.onTgt t f).pwr = s.pwr := rfl
@[simp] theorem onTgt_out (t : Nat) (f : Target → Target) : (s.onTgt t f).out = s.out := rfl
@[simp] theorem onTgt_free (t : Nat) (f : Target → Target) : (s.onTgt t f).free = s.free := rfl
@[simp] theorem onTgt_pending (t : Nat) (f : Target → Target) : (s.onTgt t f).pending = s.pending := rfl

/-! ### onLink -/
@[simp] theorem onLink_glb (l : Nat) (f : Link → Link) : (s.onLink l f).glb = s.glb := rfl
@[simp] theorem onLink_evc (l : Nat) (f : Link → Link) : (s.onLink l f).evc = s.evc := rfl
@[simp] theorem onLink_noc (l : Nat) (f : Link → Link) : (s.onLink l f).noc = s.noc := rfl
@[simp] theorem onLink_dbl (l : Nat) (f : Link → Link) : (s.onLink l f).dbl = s.dbl := rfl
@[simp] theorem onLink_xlt (l : Nat) (f : Link → Link) : (s.onLink l f).xlt = s.xlt := rfl
@[simp] theorem onLink_skk (l : Nat) (f : Link → Link) : (s.onLink l f).skk = s.skk := rfl
@[simp] theorem onLink_mov (l : Nat) (f : Link → Link) : (s.onLink l f).mov = s.mov := rfl
@[simp] theorem onLink_ccu (l : Nat) (f : Link → Link) : (s.onLink l f).ccu = s.ccu := rfl
@[simp] theorem onLink_syn (l : Nat) (f : Link → Link) : (s.onLink l f).syn = s.syn := rfl
@[simp] theorem onLink_cht (l : Nat) (f : Link → Link) : (s.onLink l f).cht = s.cht := rfl
@[simp] theorem onLink_home (l : Nat) (f : Link → Link) : (s.onLink l f).home = s.home := rfl
@[simp] theorem onLink_peer (l : Nat) (f : Link → Link) : (s.onLink l f).peer = s.peer := rfl
@[simp] theorem onLink_prt (l : Nat) (f : Link → Link) : (s.onLink l f).prt = s.prt := rfl
@[simp] theorem onLink_twn (l : Nat) (f : Link → Link) : (s.onLink l f).twn = s.twn := rfl
@[simp] theorem onLink_arb (l : Nat) (f : Link → Link) : (s.onLink l f).arb = s.arb := rfl
@[simp] theorem onLink_ras (l : Nat) (f : Link → Link) : (s.onLink l f).ras = s.ras := rfl
@[simp] theorem onLink_pwr (l : Nat) (f : Link → Link) : (s.onLink l f).pwr = s.pwr := rfl
@[simp] theorem onLink_out (l : Nat) (f : Link → Link) : (s.onLink l f).out = s.out := rfl
@[simp] theorem onLink_free (l : Nat) (f : Link → Link) : (s.onLink l f).free = s.free := rfl
@[simp] theorem onLink_pending (l : Nat) (f : Link → Link) : (s.onLink l f).pending = s.pending := rfl

/-! ### onInst -/
@[simp] theorem onInst_glb (l f : Nat) (g : Inst → Inst) : (s.onInst l f g).glb = s.glb := rfl
@[simp] theorem onInst_evc (l f : Nat) (g : Inst → Inst) : (s.onInst l f g).evc = s.evc := rfl
@[simp] theorem onInst_noc (l f : Nat) (g : Inst → Inst) : (s.onInst l f g).noc = s.noc := rfl
@[simp] theorem onInst_dbl (l f : Nat) (g : Inst → Inst) : (s.onInst l f g).dbl = s.dbl := rfl
@[simp] theorem onInst_xlt (l f : Nat) (g : Inst → Inst) : (s.onInst l f g).xlt = s.xlt := rfl
@[simp] theorem onInst_skk (l f : Nat) (g : Inst → Inst) : (s.onInst l f g).skk = s.skk := rfl
@[simp] theorem onInst_mov (l f : Nat) (g : Inst → Inst) : (s.onInst l f g).mov = s.mov := rfl
@[simp] theorem onInst_ccu (l f : Nat) (g : Inst → Inst) : (s.onInst l f g).ccu = s.ccu := rfl
@[simp] theorem onInst_syn (l f : Nat) (g : Inst → Inst) : (s.onInst l f g).syn = s.syn := rfl
@[simp] theorem onInst_cht (l f : Nat) (g : Inst → Inst) : (s.onInst l f g).cht = s.cht := rfl
@[simp] theorem onInst_home (l f : Nat) (g : Inst → Inst) : (s.onInst l f g).home = s.home := rfl
@[simp] theorem onInst_peer (l f : Nat) (g : Inst → Inst) : (s.onInst l f g).peer = s.peer := rfl
@[simp] theorem onInst_prt (l f : Nat) (g : Inst → Inst) : (s.onInst l f g).prt = s.prt := rfl
@[simp] theorem onInst_twn (l f : Nat) (g : Inst → Inst) : (s.onInst l f g).twn = s.twn := rfl
@[simp] theorem onInst_arb (l f : Nat) (g : Inst → Inst) : (s.onInst l f g).arb = s.arb := rfl
@[simp] theorem onInst_ras (l f : Nat) (g : Inst → Inst) : (s.onInst l f g).ras = s.ras := rfl
@[simp] theorem onInst_pwr (l f : Nat) (g : Inst → Inst) : (s.onInst l f g).pwr = s.pwr := rfl
@[simp] theorem onInst_out (l f : Nat) (g : Inst → Inst) : (s.onInst l f g).out = s.out := rfl
@[simp] theorem onInst_free (l f : Nat) (g : Inst → Inst) : (s.onInst l f g).free = s.free := rfl
@[simp] theorem onInst_pending (l f : Nat) (g : Inst → Inst) : (s.onInst l f g).pending = s.pending := rfl

/-! ### onAer -/
@[simp] theorem onAer_glb (l f : Nat) (g : Aer → Aer) : (s.onAer l f g).glb = s.glb := rfl
@[simp] theorem onAer_evc (l f : Nat) (g : Aer → Aer) : (s.onAer l f g).evc = s.evc := rfl
@[simp] theorem onAer_noc (l f : Nat) (g : Aer → Aer) : (s.onAer l f g).noc = s.noc := rfl
@[simp] theorem onAer_dbl (l f : Nat) (g : Aer → Aer) : (s.onAer l f g).dbl = s.dbl := rfl
@[simp] theorem onAer_xlt (l f : Nat) (g : Aer → Aer) : (s.onAer l f g).xlt = s.xlt := rfl
@[simp] theorem onAer_skk (l f : Nat) (g : Aer → Aer) : (s.onAer l f g).skk = s.skk := rfl
@[simp] theorem onAer_mov (l f : Nat) (g : Aer → Aer) : (s.onAer l f g).mov = s.mov := rfl
@[simp] theorem onAer_ccu (l f : Nat) (g : Aer → Aer) : (s.onAer l f g).ccu = s.ccu := rfl
@[simp] theorem onAer_syn (l f : Nat) (g : Aer → Aer) : (s.onAer l f g).syn = s.syn := rfl
@[simp] theorem onAer_cht (l f : Nat) (g : Aer → Aer) : (s.onAer l f g).cht = s.cht := rfl
@[simp] theorem onAer_home (l f : Nat) (g : Aer → Aer) : (s.onAer l f g).home = s.home := rfl
@[simp] theorem onAer_peer (l f : Nat) (g : Aer → Aer) : (s.onAer l f g).peer = s.peer := rfl
@[simp] theorem onAer_prt (l f : Nat) (g : Aer → Aer) : (s.onAer l f g).prt = s.prt := rfl
@[simp] theorem onAer_twn (l f : Nat) (g : Aer → Aer) : (s.onAer l f g).twn = s.twn := rfl
@[simp] theorem onAer_arb (l f : Nat) (g : Aer → Aer) : (s.onAer l f g).arb = s.arb := rfl
@[simp] theorem onAer_ras (l f : Nat) (g : Aer → Aer) : (s.onAer l f g).ras = s.ras := rfl
@[simp] theorem onAer_pwr (l f : Nat) (g : Aer → Aer) : (s.onAer l f g).pwr = s.pwr := rfl
@[simp] theorem onAer_out (l f : Nat) (g : Aer → Aer) : (s.onAer l f g).out = s.out := rfl
@[simp] theorem onAer_free (l f : Nat) (g : Aer → Aer) : (s.onAer l f g).free = s.free := rfl
@[simp] theorem onAer_pending (l f : Nat) (g : Aer → Aer) : (s.onAer l f g).pending = s.pending := rfl

/-! ### onMsix -/
@[simp] theorem onMsix_glb (f v : Nat) (g : MsixEntry → MsixEntry) : (s.onMsix f v g).glb = s.glb := rfl
@[simp] theorem onMsix_evc (f v : Nat) (g : MsixEntry → MsixEntry) : (s.onMsix f v g).evc = s.evc := rfl
@[simp] theorem onMsix_noc (f v : Nat) (g : MsixEntry → MsixEntry) : (s.onMsix f v g).noc = s.noc := rfl
@[simp] theorem onMsix_dbl (f v : Nat) (g : MsixEntry → MsixEntry) : (s.onMsix f v g).dbl = s.dbl := rfl
@[simp] theorem onMsix_xlt (f v : Nat) (g : MsixEntry → MsixEntry) : (s.onMsix f v g).xlt = s.xlt := rfl
@[simp] theorem onMsix_skk (f v : Nat) (g : MsixEntry → MsixEntry) : (s.onMsix f v g).skk = s.skk := rfl
@[simp] theorem onMsix_mov (f v : Nat) (g : MsixEntry → MsixEntry) : (s.onMsix f v g).mov = s.mov := rfl
@[simp] theorem onMsix_ccu (f v : Nat) (g : MsixEntry → MsixEntry) : (s.onMsix f v g).ccu = s.ccu := rfl
@[simp] theorem onMsix_syn (f v : Nat) (g : MsixEntry → MsixEntry) : (s.onMsix f v g).syn = s.syn := rfl
@[simp] theorem onMsix_cht (f v : Nat) (g : MsixEntry → MsixEntry) : (s.onMsix f v g).cht = s.cht := rfl
@[simp] theorem onMsix_home (f v : Nat) (g : MsixEntry → MsixEntry) : (s.onMsix f v g).home = s.home := rfl
@[simp] theorem onMsix_peer (f v : Nat) (g : MsixEntry → MsixEntry) : (s.onMsix f v g).peer = s.peer := rfl
@[simp] theorem onMsix_prt (f v : Nat) (g : MsixEntry → MsixEntry) : (s.onMsix f v g).prt = s.prt := rfl
@[simp] theorem onMsix_twn (f v : Nat) (g : MsixEntry → MsixEntry) : (s.onMsix f v g).twn = s.twn := rfl
@[simp] theorem onMsix_arb (f v : Nat) (g : MsixEntry → MsixEntry) : (s.onMsix f v g).arb = s.arb := rfl
@[simp] theorem onMsix_ras (f v : Nat) (g : MsixEntry → MsixEntry) : (s.onMsix f v g).ras = s.ras := rfl
@[simp] theorem onMsix_pwr (f v : Nat) (g : MsixEntry → MsixEntry) : (s.onMsix f v g).pwr = s.pwr := rfl
@[simp] theorem onMsix_out (f v : Nat) (g : MsixEntry → MsixEntry) : (s.onMsix f v g).out = s.out := rfl
@[simp] theorem onMsix_free (f v : Nat) (g : MsixEntry → MsixEntry) : (s.onMsix f v g).free = s.free := rfl
@[simp] theorem onMsix_pending (f v : Nat) (g : MsixEntry → MsixEntry) : (s.onMsix f v g).pending = s.pending := rfl

/-! ### onChan -/
@[simp] theorem onChan_glb (i : Nat) (f : Chan → Chan) : (s.onChan i f).glb = s.glb := rfl
@[simp] theorem onChan_evc (i : Nat) (f : Chan → Chan) : (s.onChan i f).evc = s.evc := rfl
@[simp] theorem onChan_hlk (i : Nat) (f : Chan → Chan) : (s.onChan i f).hlk = s.hlk := rfl
@[simp] theorem onChan_noc (i : Nat) (f : Chan → Chan) : (s.onChan i f).noc = s.noc := rfl
@[simp] theorem onChan_xlt (i : Nat) (f : Chan → Chan) : (s.onChan i f).xlt = s.xlt := rfl
@[simp] theorem onChan_skk (i : Nat) (f : Chan → Chan) : (s.onChan i f).skk = s.skk := rfl
@[simp] theorem onChan_mov (i : Nat) (f : Chan → Chan) : (s.onChan i f).mov = s.mov := rfl
@[simp] theorem onChan_ccu (i : Nat) (f : Chan → Chan) : (s.onChan i f).ccu = s.ccu := rfl
@[simp] theorem onChan_syn (i : Nat) (f : Chan → Chan) : (s.onChan i f).syn = s.syn := rfl
@[simp] theorem onChan_cht (i : Nat) (f : Chan → Chan) : (s.onChan i f).cht = s.cht := rfl
@[simp] theorem onChan_home (i : Nat) (f : Chan → Chan) : (s.onChan i f).home = s.home := rfl
@[simp] theorem onChan_peer (i : Nat) (f : Chan → Chan) : (s.onChan i f).peer = s.peer := rfl
@[simp] theorem onChan_prt (i : Nat) (f : Chan → Chan) : (s.onChan i f).prt = s.prt := rfl
@[simp] theorem onChan_twn (i : Nat) (f : Chan → Chan) : (s.onChan i f).twn = s.twn := rfl
@[simp] theorem onChan_arb (i : Nat) (f : Chan → Chan) : (s.onChan i f).arb = s.arb := rfl
@[simp] theorem onChan_ras (i : Nat) (f : Chan → Chan) : (s.onChan i f).ras = s.ras := rfl
@[simp] theorem onChan_pwr (i : Nat) (f : Chan → Chan) : (s.onChan i f).pwr = s.pwr := rfl
@[simp] theorem onChan_out (i : Nat) (f : Chan → Chan) : (s.onChan i f).out = s.out := rfl
@[simp] theorem onChan_free (i : Nat) (f : Chan → Chan) : (s.onChan i f).free = s.free := rfl
@[simp] theorem onChan_pending (i : Nat) (f : Chan → Chan) : (s.onChan i f).pending = s.pending := rfl

/-! ### onMgmt -/
@[simp] theorem onMgmt_glb (f : Nat) (g : Mgmt → Mgmt) : (s.onMgmt f g).glb = s.glb := rfl
@[simp] theorem onMgmt_evc (f : Nat) (g : Mgmt → Mgmt) : (s.onMgmt f g).evc = s.evc := rfl
@[simp] theorem onMgmt_hlk (f : Nat) (g : Mgmt → Mgmt) : (s.onMgmt f g).hlk = s.hlk := rfl
@[simp] theorem onMgmt_noc (f : Nat) (g : Mgmt → Mgmt) : (s.onMgmt f g).noc = s.noc := rfl
@[simp] theorem onMgmt_xlt (f : Nat) (g : Mgmt → Mgmt) : (s.onMgmt f g).xlt = s.xlt := rfl
@[simp] theorem onMgmt_skk (f : Nat) (g : Mgmt → Mgmt) : (s.onMgmt f g).skk = s.skk := rfl
@[simp] theorem onMgmt_mov (f : Nat) (g : Mgmt → Mgmt) : (s.onMgmt f g).mov = s.mov := rfl
@[simp] theorem onMgmt_ccu (f : Nat) (g : Mgmt → Mgmt) : (s.onMgmt f g).ccu = s.ccu := rfl
@[simp] theorem onMgmt_syn (f : Nat) (g : Mgmt → Mgmt) : (s.onMgmt f g).syn = s.syn := rfl
@[simp] theorem onMgmt_cht (f : Nat) (g : Mgmt → Mgmt) : (s.onMgmt f g).cht = s.cht := rfl
@[simp] theorem onMgmt_home (f : Nat) (g : Mgmt → Mgmt) : (s.onMgmt f g).home = s.home := rfl
@[simp] theorem onMgmt_peer (f : Nat) (g : Mgmt → Mgmt) : (s.onMgmt f g).peer = s.peer := rfl
@[simp] theorem onMgmt_prt (f : Nat) (g : Mgmt → Mgmt) : (s.onMgmt f g).prt = s.prt := rfl
@[simp] theorem onMgmt_twn (f : Nat) (g : Mgmt → Mgmt) : (s.onMgmt f g).twn = s.twn := rfl
@[simp] theorem onMgmt_arb (f : Nat) (g : Mgmt → Mgmt) : (s.onMgmt f g).arb = s.arb := rfl
@[simp] theorem onMgmt_ras (f : Nat) (g : Mgmt → Mgmt) : (s.onMgmt f g).ras = s.ras := rfl
@[simp] theorem onMgmt_pwr (f : Nat) (g : Mgmt → Mgmt) : (s.onMgmt f g).pwr = s.pwr := rfl
@[simp] theorem onMgmt_out (f : Nat) (g : Mgmt → Mgmt) : (s.onMgmt f g).out = s.out := rfl
@[simp] theorem onMgmt_free (f : Nat) (g : Mgmt → Mgmt) : (s.onMgmt f g).free = s.free := rfl
@[simp] theorem onMgmt_pending (f : Nat) (g : Mgmt → Mgmt) : (s.onMgmt f g).pending = s.pending := rfl

/-! ### onBind -/
@[simp] theorem onBind_glb (f : Nat) (g : Bind → Bind) : (s.onBind f g).glb = s.glb := rfl
@[simp] theorem onBind_evc (f : Nat) (g : Bind → Bind) : (s.onBind f g).evc = s.evc := rfl
@[simp] theorem onBind_hlk (f : Nat) (g : Bind → Bind) : (s.onBind f g).hlk = s.hlk := rfl
@[simp] theorem onBind_noc (f : Nat) (g : Bind → Bind) : (s.onBind f g).noc = s.noc := rfl
@[simp] theorem onBind_dbl (f : Nat) (g : Bind → Bind) : (s.onBind f g).dbl = s.dbl := rfl
@[simp] theorem onBind_skk (f : Nat) (g : Bind → Bind) : (s.onBind f g).skk = s.skk := rfl
@[simp] theorem onBind_mov (f : Nat) (g : Bind → Bind) : (s.onBind f g).mov = s.mov := rfl
@[simp] theorem onBind_ccu (f : Nat) (g : Bind → Bind) : (s.onBind f g).ccu = s.ccu := rfl
@[simp] theorem onBind_syn (f : Nat) (g : Bind → Bind) : (s.onBind f g).syn = s.syn := rfl
@[simp] theorem onBind_cht (f : Nat) (g : Bind → Bind) : (s.onBind f g).cht = s.cht := rfl
@[simp] theorem onBind_home (f : Nat) (g : Bind → Bind) : (s.onBind f g).home = s.home := rfl
@[simp] theorem onBind_peer (f : Nat) (g : Bind → Bind) : (s.onBind f g).peer = s.peer := rfl
@[simp] theorem onBind_prt (f : Nat) (g : Bind → Bind) : (s.onBind f g).prt = s.prt := rfl
@[simp] theorem onBind_twn (f : Nat) (g : Bind → Bind) : (s.onBind f g).twn = s.twn := rfl
@[simp] theorem onBind_arb (f : Nat) (g : Bind → Bind) : (s.onBind f g).arb = s.arb := rfl
@[simp] theorem onBind_ras (f : Nat) (g : Bind → Bind) : (s.onBind f g).ras = s.ras := rfl
@[simp] theorem onBind_pwr (f : Nat) (g : Bind → Bind) : (s.onBind f g).pwr = s.pwr := rfl
@[simp] theorem onBind_out (f : Nat) (g : Bind → Bind) : (s.onBind f g).out = s.out := rfl
@[simp] theorem onBind_free (f : Nat) (g : Bind → Bind) : (s.onBind f g).free = s.free := rfl
@[simp] theorem onBind_pending (f : Nat) (g : Bind → Bind) : (s.onBind f g).pending = s.pending := rfl

/-! ### setWalker -/
@[simp] theorem setWalker_glb (w : Nat) (x : Option Walk) : (s.setWalker w x).glb = s.glb := rfl
@[simp] theorem setWalker_evc (w : Nat) (x : Option Walk) : (s.setWalker w x).evc = s.evc := rfl
@[simp] theorem setWalker_hlk (w : Nat) (x : Option Walk) : (s.setWalker w x).hlk = s.hlk := rfl
@[simp] theorem setWalker_noc (w : Nat) (x : Option Walk) : (s.setWalker w x).noc = s.noc := rfl
@[simp] theorem setWalker_dbl (w : Nat) (x : Option Walk) : (s.setWalker w x).dbl = s.dbl := rfl
@[simp] theorem setWalker_skk (w : Nat) (x : Option Walk) : (s.setWalker w x).skk = s.skk := rfl
@[simp] theorem setWalker_mov (w : Nat) (x : Option Walk) : (s.setWalker w x).mov = s.mov := rfl
@[simp] theorem setWalker_ccu (w : Nat) (x : Option Walk) : (s.setWalker w x).ccu = s.ccu := rfl
@[simp] theorem setWalker_syn (w : Nat) (x : Option Walk) : (s.setWalker w x).syn = s.syn := rfl
@[simp] theorem setWalker_cht (w : Nat) (x : Option Walk) : (s.setWalker w x).cht = s.cht := rfl
@[simp] theorem setWalker_home (w : Nat) (x : Option Walk) : (s.setWalker w x).home = s.home := rfl
@[simp] theorem setWalker_peer (w : Nat) (x : Option Walk) : (s.setWalker w x).peer = s.peer := rfl
@[simp] theorem setWalker_prt (w : Nat) (x : Option Walk) : (s.setWalker w x).prt = s.prt := rfl
@[simp] theorem setWalker_twn (w : Nat) (x : Option Walk) : (s.setWalker w x).twn = s.twn := rfl
@[simp] theorem setWalker_arb (w : Nat) (x : Option Walk) : (s.setWalker w x).arb = s.arb := rfl
@[simp] theorem setWalker_ras (w : Nat) (x : Option Walk) : (s.setWalker w x).ras = s.ras := rfl
@[simp] theorem setWalker_pwr (w : Nat) (x : Option Walk) : (s.setWalker w x).pwr = s.pwr := rfl
@[simp] theorem setWalker_out (w : Nat) (x : Option Walk) : (s.setWalker w x).out = s.out := rfl
@[simp] theorem setWalker_free (w : Nat) (x : Option Walk) : (s.setWalker w x).free = s.free := rfl
@[simp] theorem setWalker_pending (w : Nat) (x : Option Walk) : (s.setWalker w x).pending = s.pending := rfl

/-! ### onSkkPart -/
@[simp] theorem onSkkPart_glb (p : Nat) (f : SkkPart → SkkPart) : (s.onSkkPart p f).glb = s.glb := rfl
@[simp] theorem onSkkPart_evc (p : Nat) (f : SkkPart → SkkPart) : (s.onSkkPart p f).evc = s.evc := rfl
@[simp] theorem onSkkPart_hlk (p : Nat) (f : SkkPart → SkkPart) : (s.onSkkPart p f).hlk = s.hlk := rfl
@[simp] theorem onSkkPart_noc (p : Nat) (f : SkkPart → SkkPart) : (s.onSkkPart p f).noc = s.noc := rfl
@[simp] theorem onSkkPart_dbl (p : Nat) (f : SkkPart → SkkPart) : (s.onSkkPart p f).dbl = s.dbl := rfl
@[simp] theorem onSkkPart_xlt (p : Nat) (f : SkkPart → SkkPart) : (s.onSkkPart p f).xlt = s.xlt := rfl
@[simp] theorem onSkkPart_mov (p : Nat) (f : SkkPart → SkkPart) : (s.onSkkPart p f).mov = s.mov := rfl
@[simp] theorem onSkkPart_ccu (p : Nat) (f : SkkPart → SkkPart) : (s.onSkkPart p f).ccu = s.ccu := rfl
@[simp] theorem onSkkPart_syn (p : Nat) (f : SkkPart → SkkPart) : (s.onSkkPart p f).syn = s.syn := rfl
@[simp] theorem onSkkPart_cht (p : Nat) (f : SkkPart → SkkPart) : (s.onSkkPart p f).cht = s.cht := rfl
@[simp] theorem onSkkPart_home (p : Nat) (f : SkkPart → SkkPart) : (s.onSkkPart p f).home = s.home := rfl
@[simp] theorem onSkkPart_peer (p : Nat) (f : SkkPart → SkkPart) : (s.onSkkPart p f).peer = s.peer := rfl
@[simp] theorem onSkkPart_prt (p : Nat) (f : SkkPart → SkkPart) : (s.onSkkPart p f).prt = s.prt := rfl
@[simp] theorem onSkkPart_twn (p : Nat) (f : SkkPart → SkkPart) : (s.onSkkPart p f).twn = s.twn := rfl
@[simp] theorem onSkkPart_arb (p : Nat) (f : SkkPart → SkkPart) : (s.onSkkPart p f).arb = s.arb := rfl
@[simp] theorem onSkkPart_ras (p : Nat) (f : SkkPart → SkkPart) : (s.onSkkPart p f).ras = s.ras := rfl
@[simp] theorem onSkkPart_pwr (p : Nat) (f : SkkPart → SkkPart) : (s.onSkkPart p f).pwr = s.pwr := rfl
@[simp] theorem onSkkPart_out (p : Nat) (f : SkkPart → SkkPart) : (s.onSkkPart p f).out = s.out := rfl
@[simp] theorem onSkkPart_free (p : Nat) (f : SkkPart → SkkPart) : (s.onSkkPart p f).free = s.free := rfl
@[simp] theorem onSkkPart_pending (p : Nat) (f : SkkPart → SkkPart) : (s.onSkkPart p f).pending = s.pending := rfl

/-! ### onJob -/
@[simp] theorem onJob_glb (m : Nat) (urgent : Bool) (f : Job → Job) : (s.onJob m urgent f).glb = s.glb := rfl
@[simp] theorem onJob_evc (m : Nat) (urgent : Bool) (f : Job → Job) : (s.onJob m urgent f).evc = s.evc := rfl
@[simp] theorem onJob_hlk (m : Nat) (urgent : Bool) (f : Job → Job) : (s.onJob m urgent f).hlk = s.hlk := rfl
@[simp] theorem onJob_noc (m : Nat) (urgent : Bool) (f : Job → Job) : (s.onJob m urgent f).noc = s.noc := rfl
@[simp] theorem onJob_dbl (m : Nat) (urgent : Bool) (f : Job → Job) : (s.onJob m urgent f).dbl = s.dbl := rfl
@[simp] theorem onJob_xlt (m : Nat) (urgent : Bool) (f : Job → Job) : (s.onJob m urgent f).xlt = s.xlt := rfl
@[simp] theorem onJob_skk (m : Nat) (urgent : Bool) (f : Job → Job) : (s.onJob m urgent f).skk = s.skk := rfl
@[simp] theorem onJob_ccu (m : Nat) (urgent : Bool) (f : Job → Job) : (s.onJob m urgent f).ccu = s.ccu := rfl
@[simp] theorem onJob_syn (m : Nat) (urgent : Bool) (f : Job → Job) : (s.onJob m urgent f).syn = s.syn := rfl
@[simp] theorem onJob_cht (m : Nat) (urgent : Bool) (f : Job → Job) : (s.onJob m urgent f).cht = s.cht := rfl
@[simp] theorem onJob_home (m : Nat) (urgent : Bool) (f : Job → Job) : (s.onJob m urgent f).home = s.home := rfl
@[simp] theorem onJob_peer (m : Nat) (urgent : Bool) (f : Job → Job) : (s.onJob m urgent f).peer = s.peer := rfl
@[simp] theorem onJob_prt (m : Nat) (urgent : Bool) (f : Job → Job) : (s.onJob m urgent f).prt = s.prt := rfl
@[simp] theorem onJob_twn (m : Nat) (urgent : Bool) (f : Job → Job) : (s.onJob m urgent f).twn = s.twn := rfl
@[simp] theorem onJob_arb (m : Nat) (urgent : Bool) (f : Job → Job) : (s.onJob m urgent f).arb = s.arb := rfl
@[simp] theorem onJob_ras (m : Nat) (urgent : Bool) (f : Job → Job) : (s.onJob m urgent f).ras = s.ras := rfl
@[simp] theorem onJob_pwr (m : Nat) (urgent : Bool) (f : Job → Job) : (s.onJob m urgent f).pwr = s.pwr := rfl
@[simp] theorem onJob_out (m : Nat) (urgent : Bool) (f : Job → Job) : (s.onJob m urgent f).out = s.out := rfl
@[simp] theorem onJob_free (m : Nat) (urgent : Bool) (f : Job → Job) : (s.onJob m urgent f).free = s.free := rfl
@[simp] theorem onJob_pending (m : Nat) (urgent : Bool) (f : Job → Job) : (s.onJob m urgent f).pending = s.pending := rfl

/-! ### onArea -/
@[simp] theorem onArea_glb (p : Nat) (f : Area → Area) : (s.onArea p f).glb = s.glb := rfl
@[simp] theorem onArea_evc (p : Nat) (f : Area → Area) : (s.onArea p f).evc = s.evc := rfl
@[simp] theorem onArea_hlk (p : Nat) (f : Area → Area) : (s.onArea p f).hlk = s.hlk := rfl
@[simp] theorem onArea_noc (p : Nat) (f : Area → Area) : (s.onArea p f).noc = s.noc := rfl
@[simp] theorem onArea_dbl (p : Nat) (f : Area → Area) : (s.onArea p f).dbl = s.dbl := rfl
@[simp] theorem onArea_xlt (p : Nat) (f : Area → Area) : (s.onArea p f).xlt = s.xlt := rfl
@[simp] theorem onArea_skk (p : Nat) (f : Area → Area) : (s.onArea p f).skk = s.skk := rfl
@[simp] theorem onArea_ccu (p : Nat) (f : Area → Area) : (s.onArea p f).ccu = s.ccu := rfl
@[simp] theorem onArea_syn (p : Nat) (f : Area → Area) : (s.onArea p f).syn = s.syn := rfl
@[simp] theorem onArea_cht (p : Nat) (f : Area → Area) : (s.onArea p f).cht = s.cht := rfl
@[simp] theorem onArea_home (p : Nat) (f : Area → Area) : (s.onArea p f).home = s.home := rfl
@[simp] theorem onArea_peer (p : Nat) (f : Area → Area) : (s.onArea p f).peer = s.peer := rfl
@[simp] theorem onArea_prt (p : Nat) (f : Area → Area) : (s.onArea p f).prt = s.prt := rfl
@[simp] theorem onArea_twn (p : Nat) (f : Area → Area) : (s.onArea p f).twn = s.twn := rfl
@[simp] theorem onArea_arb (p : Nat) (f : Area → Area) : (s.onArea p f).arb = s.arb := rfl
@[simp] theorem onArea_ras (p : Nat) (f : Area → Area) : (s.onArea p f).ras = s.ras := rfl
@[simp] theorem onArea_pwr (p : Nat) (f : Area → Area) : (s.onArea p f).pwr = s.pwr := rfl
@[simp] theorem onArea_out (p : Nat) (f : Area → Area) : (s.onArea p f).out = s.out := rfl
@[simp] theorem onArea_free (p : Nat) (f : Area → Area) : (s.onArea p f).free = s.free := rfl
@[simp] theorem onArea_pending (p : Nat) (f : Area → Area) : (s.onArea p f).pending = s.pending := rfl

/-! ### onMovView -/
@[simp] theorem onMovView_glb (f : Nat) (g : MovView → MovView) : (s.onMovView f g).glb = s.glb := rfl
@[simp] theorem onMovView_evc (f : Nat) (g : MovView → MovView) : (s.onMovView f g).evc = s.evc := rfl
@[simp] theorem onMovView_hlk (f : Nat) (g : MovView → MovView) : (s.onMovView f g).hlk = s.hlk := rfl
@[simp] theorem onMovView_noc (f : Nat) (g : MovView → MovView) : (s.onMovView f g).noc = s.noc := rfl
@[simp] theorem onMovView_dbl (f : Nat) (g : MovView → MovView) : (s.onMovView f g).dbl = s.dbl := rfl
@[simp] theorem onMovView_xlt (f : Nat) (g : MovView → MovView) : (s.onMovView f g).xlt = s.xlt := rfl
@[simp] theorem onMovView_skk (f : Nat) (g : MovView → MovView) : (s.onMovView f g).skk = s.skk := rfl
@[simp] theorem onMovView_ccu (f : Nat) (g : MovView → MovView) : (s.onMovView f g).ccu = s.ccu := rfl
@[simp] theorem onMovView_syn (f : Nat) (g : MovView → MovView) : (s.onMovView f g).syn = s.syn := rfl
@[simp] theorem onMovView_cht (f : Nat) (g : MovView → MovView) : (s.onMovView f g).cht = s.cht := rfl
@[simp] theorem onMovView_home (f : Nat) (g : MovView → MovView) : (s.onMovView f g).home = s.home := rfl
@[simp] theorem onMovView_peer (f : Nat) (g : MovView → MovView) : (s.onMovView f g).peer = s.peer := rfl
@[simp] theorem onMovView_prt (f : Nat) (g : MovView → MovView) : (s.onMovView f g).prt = s.prt := rfl
@[simp] theorem onMovView_twn (f : Nat) (g : MovView → MovView) : (s.onMovView f g).twn = s.twn := rfl
@[simp] theorem onMovView_arb (f : Nat) (g : MovView → MovView) : (s.onMovView f g).arb = s.arb := rfl
@[simp] theorem onMovView_ras (f : Nat) (g : MovView → MovView) : (s.onMovView f g).ras = s.ras := rfl
@[simp] theorem onMovView_pwr (f : Nat) (g : MovView → MovView) : (s.onMovView f g).pwr = s.pwr := rfl
@[simp] theorem onMovView_out (f : Nat) (g : MovView → MovView) : (s.onMovView f g).out = s.out := rfl
@[simp] theorem onMovView_free (f : Nat) (g : MovView → MovView) : (s.onMovView f g).free = s.free := rfl
@[simp] theorem onMovView_pending (f : Nat) (g : MovView → MovView) : (s.onMovView f g).pending = s.pending := rfl

/-! ### onCcuCount -/
@[simp] theorem onCcuCount_glb (p : Nat) (f : CcuCount → CcuCount) : (s.onCcuCount p f).glb = s.glb := rfl
@[simp] theorem onCcuCount_evc (p : Nat) (f : CcuCount → CcuCount) : (s.onCcuCount p f).evc = s.evc := rfl
@[simp] theorem onCcuCount_hlk (p : Nat) (f : CcuCount → CcuCount) : (s.onCcuCount p f).hlk = s.hlk := rfl
@[simp] theorem onCcuCount_noc (p : Nat) (f : CcuCount → CcuCount) : (s.onCcuCount p f).noc = s.noc := rfl
@[simp] theorem onCcuCount_dbl (p : Nat) (f : CcuCount → CcuCount) : (s.onCcuCount p f).dbl = s.dbl := rfl
@[simp] theorem onCcuCount_xlt (p : Nat) (f : CcuCount → CcuCount) : (s.onCcuCount p f).xlt = s.xlt := rfl
@[simp] theorem onCcuCount_skk (p : Nat) (f : CcuCount → CcuCount) : (s.onCcuCount p f).skk = s.skk := rfl
@[simp] theorem onCcuCount_mov (p : Nat) (f : CcuCount → CcuCount) : (s.onCcuCount p f).mov = s.mov := rfl
@[simp] theorem onCcuCount_syn (p : Nat) (f : CcuCount → CcuCount) : (s.onCcuCount p f).syn = s.syn := rfl
@[simp] theorem onCcuCount_cht (p : Nat) (f : CcuCount → CcuCount) : (s.onCcuCount p f).cht = s.cht := rfl
@[simp] theorem onCcuCount_home (p : Nat) (f : CcuCount → CcuCount) : (s.onCcuCount p f).home = s.home := rfl
@[simp] theorem onCcuCount_peer (p : Nat) (f : CcuCount → CcuCount) : (s.onCcuCount p f).peer = s.peer := rfl
@[simp] theorem onCcuCount_prt (p : Nat) (f : CcuCount → CcuCount) : (s.onCcuCount p f).prt = s.prt := rfl
@[simp] theorem onCcuCount_twn (p : Nat) (f : CcuCount → CcuCount) : (s.onCcuCount p f).twn = s.twn := rfl
@[simp] theorem onCcuCount_arb (p : Nat) (f : CcuCount → CcuCount) : (s.onCcuCount p f).arb = s.arb := rfl
@[simp] theorem onCcuCount_ras (p : Nat) (f : CcuCount → CcuCount) : (s.onCcuCount p f).ras = s.ras := rfl
@[simp] theorem onCcuCount_pwr (p : Nat) (f : CcuCount → CcuCount) : (s.onCcuCount p f).pwr = s.pwr := rfl
@[simp] theorem onCcuCount_out (p : Nat) (f : CcuCount → CcuCount) : (s.onCcuCount p f).out = s.out := rfl
@[simp] theorem onCcuCount_free (p : Nat) (f : CcuCount → CcuCount) : (s.onCcuCount p f).free = s.free := rfl
@[simp] theorem onCcuCount_pending (p : Nat) (f : CcuCount → CcuCount) : (s.onCcuCount p f).pending = s.pending := rfl

/-! ### onObj -/
@[simp] theorem onObj_glb (i : Nat) (f : Obj → Obj) : (s.onObj i f).glb = s.glb := rfl
@[simp] theorem onObj_evc (i : Nat) (f : Obj → Obj) : (s.onObj i f).evc = s.evc := rfl
@[simp] theorem onObj_hlk (i : Nat) (f : Obj → Obj) : (s.onObj i f).hlk = s.hlk := rfl
@[simp] theorem onObj_noc (i : Nat) (f : Obj → Obj) : (s.onObj i f).noc = s.noc := rfl
@[simp] theorem onObj_dbl (i : Nat) (f : Obj → Obj) : (s.onObj i f).dbl = s.dbl := rfl
@[simp] theorem onObj_xlt (i : Nat) (f : Obj → Obj) : (s.onObj i f).xlt = s.xlt := rfl
@[simp] theorem onObj_skk (i : Nat) (f : Obj → Obj) : (s.onObj i f).skk = s.skk := rfl
@[simp] theorem onObj_mov (i : Nat) (f : Obj → Obj) : (s.onObj i f).mov = s.mov := rfl
@[simp] theorem onObj_ccu (i : Nat) (f : Obj → Obj) : (s.onObj i f).ccu = s.ccu := rfl
@[simp] theorem onObj_cht (i : Nat) (f : Obj → Obj) : (s.onObj i f).cht = s.cht := rfl
@[simp] theorem onObj_home (i : Nat) (f : Obj → Obj) : (s.onObj i f).home = s.home := rfl
@[simp] theorem onObj_peer (i : Nat) (f : Obj → Obj) : (s.onObj i f).peer = s.peer := rfl
@[simp] theorem onObj_prt (i : Nat) (f : Obj → Obj) : (s.onObj i f).prt = s.prt := rfl
@[simp] theorem onObj_twn (i : Nat) (f : Obj → Obj) : (s.onObj i f).twn = s.twn := rfl
@[simp] theorem onObj_arb (i : Nat) (f : Obj → Obj) : (s.onObj i f).arb = s.arb := rfl
@[simp] theorem onObj_ras (i : Nat) (f : Obj → Obj) : (s.onObj i f).ras = s.ras := rfl
@[simp] theorem onObj_pwr (i : Nat) (f : Obj → Obj) : (s.onObj i f).pwr = s.pwr := rfl
@[simp] theorem onObj_out (i : Nat) (f : Obj → Obj) : (s.onObj i f).out = s.out := rfl
@[simp] theorem onObj_free (i : Nat) (f : Obj → Obj) : (s.onObj i f).free = s.free := rfl
@[simp] theorem onObj_pending (i : Nat) (f : Obj → Obj) : (s.onObj i f).pending = s.pending := rfl

/-! ### setWrec -/
@[simp] theorem setWrec_glb (r : Nat) (x : Option WRec) : (s.setWrec r x).glb = s.glb := rfl
@[simp] theorem setWrec_evc (r : Nat) (x : Option WRec) : (s.setWrec r x).evc = s.evc := rfl
@[simp] theorem setWrec_hlk (r : Nat) (x : Option WRec) : (s.setWrec r x).hlk = s.hlk := rfl
@[simp] theorem setWrec_noc (r : Nat) (x : Option WRec) : (s.setWrec r x).noc = s.noc := rfl
@[simp] theorem setWrec_dbl (r : Nat) (x : Option WRec) : (s.setWrec r x).dbl = s.dbl := rfl
@[simp] theorem setWrec_xlt (r : Nat) (x : Option WRec) : (s.setWrec r x).xlt = s.xlt := rfl
@[simp] theorem setWrec_skk (r : Nat) (x : Option WRec) : (s.setWrec r x).skk = s.skk := rfl
@[simp] theorem setWrec_mov (r : Nat) (x : Option WRec) : (s.setWrec r x).mov = s.mov := rfl
@[simp] theorem setWrec_ccu (r : Nat) (x : Option WRec) : (s.setWrec r x).ccu = s.ccu := rfl
@[simp] theorem setWrec_cht (r : Nat) (x : Option WRec) : (s.setWrec r x).cht = s.cht := rfl
@[simp] theorem setWrec_home (r : Nat) (x : Option WRec) : (s.setWrec r x).home = s.home := rfl
@[simp] theorem setWrec_peer (r : Nat) (x : Option WRec) : (s.setWrec r x).peer = s.peer := rfl
@[simp] theorem setWrec_prt (r : Nat) (x : Option WRec) : (s.setWrec r x).prt = s.prt := rfl
@[simp] theorem setWrec_twn (r : Nat) (x : Option WRec) : (s.setWrec r x).twn = s.twn := rfl
@[simp] theorem setWrec_arb (r : Nat) (x : Option WRec) : (s.setWrec r x).arb = s.arb := rfl
@[simp] theorem setWrec_ras (r : Nat) (x : Option WRec) : (s.setWrec r x).ras = s.ras := rfl
@[simp] theorem setWrec_pwr (r : Nat) (x : Option WRec) : (s.setWrec r x).pwr = s.pwr := rfl
@[simp] theorem setWrec_out (r : Nat) (x : Option WRec) : (s.setWrec r x).out = s.out := rfl
@[simp] theorem setWrec_free (r : Nat) (x : Option WRec) : (s.setWrec r x).free = s.free := rfl
@[simp] theorem setWrec_pending (r : Nat) (x : Option WRec) : (s.setWrec r x).pending = s.pending := rfl

/-! ### onSynView -/
@[simp] theorem onSynView_glb (f : Nat) (g : SynView → SynView) : (s.onSynView f g).glb = s.glb := rfl
@[simp] theorem onSynView_evc (f : Nat) (g : SynView → SynView) : (s.onSynView f g).evc = s.evc := rfl
@[simp] theorem onSynView_hlk (f : Nat) (g : SynView → SynView) : (s.onSynView f g).hlk = s.hlk := rfl
@[simp] theorem onSynView_noc (f : Nat) (g : SynView → SynView) : (s.onSynView f g).noc = s.noc := rfl
@[simp] theorem onSynView_dbl (f : Nat) (g : SynView → SynView) : (s.onSynView f g).dbl = s.dbl := rfl
@[simp] theorem onSynView_xlt (f : Nat) (g : SynView → SynView) : (s.onSynView f g).xlt = s.xlt := rfl
@[simp] theorem onSynView_skk (f : Nat) (g : SynView → SynView) : (s.onSynView f g).skk = s.skk := rfl
@[simp] theorem onSynView_mov (f : Nat) (g : SynView → SynView) : (s.onSynView f g).mov = s.mov := rfl
@[simp] theorem onSynView_ccu (f : Nat) (g : SynView → SynView) : (s.onSynView f g).ccu = s.ccu := rfl
@[simp] theorem onSynView_cht (f : Nat) (g : SynView → SynView) : (s.onSynView f g).cht = s.cht := rfl
@[simp] theorem onSynView_home (f : Nat) (g : SynView → SynView) : (s.onSynView f g).home = s.home := rfl
@[simp] theorem onSynView_peer (f : Nat) (g : SynView → SynView) : (s.onSynView f g).peer = s.peer := rfl
@[simp] theorem onSynView_prt (f : Nat) (g : SynView → SynView) : (s.onSynView f g).prt = s.prt := rfl
@[simp] theorem onSynView_twn (f : Nat) (g : SynView → SynView) : (s.onSynView f g).twn = s.twn := rfl
@[simp] theorem onSynView_arb (f : Nat) (g : SynView → SynView) : (s.onSynView f g).arb = s.arb := rfl
@[simp] theorem onSynView_ras (f : Nat) (g : SynView → SynView) : (s.onSynView f g).ras = s.ras := rfl
@[simp] theorem onSynView_pwr (f : Nat) (g : SynView → SynView) : (s.onSynView f g).pwr = s.pwr := rfl
@[simp] theorem onSynView_out (f : Nat) (g : SynView → SynView) : (s.onSynView f g).out = s.out := rfl
@[simp] theorem onSynView_free (f : Nat) (g : SynView → SynView) : (s.onSynView f g).free = s.free := rfl
@[simp] theorem onSynView_pending (f : Nat) (g : SynView → SynView) : (s.onSynView f g).pending = s.pending := rfl

/-! ### onEntry -/
@[simp] theorem onEntry_glb (i : Nat) (f : Entry → Entry) : (s.onEntry i f).glb = s.glb := rfl
@[simp] theorem onEntry_evc (i : Nat) (f : Entry → Entry) : (s.onEntry i f).evc = s.evc := rfl
@[simp] theorem onEntry_hlk (i : Nat) (f : Entry → Entry) : (s.onEntry i f).hlk = s.hlk := rfl
@[simp] theorem onEntry_noc (i : Nat) (f : Entry → Entry) : (s.onEntry i f).noc = s.noc := rfl
@[simp] theorem onEntry_dbl (i : Nat) (f : Entry → Entry) : (s.onEntry i f).dbl = s.dbl := rfl
@[simp] theorem onEntry_xlt (i : Nat) (f : Entry → Entry) : (s.onEntry i f).xlt = s.xlt := rfl
@[simp] theorem onEntry_skk (i : Nat) (f : Entry → Entry) : (s.onEntry i f).skk = s.skk := rfl
@[simp] theorem onEntry_mov (i : Nat) (f : Entry → Entry) : (s.onEntry i f).mov = s.mov := rfl
@[simp] theorem onEntry_ccu (i : Nat) (f : Entry → Entry) : (s.onEntry i f).ccu = s.ccu := rfl
@[simp] theorem onEntry_syn (i : Nat) (f : Entry → Entry) : (s.onEntry i f).syn = s.syn := rfl
@[simp] theorem onEntry_home (i : Nat) (f : Entry → Entry) : (s.onEntry i f).home = s.home := rfl
@[simp] theorem onEntry_peer (i : Nat) (f : Entry → Entry) : (s.onEntry i f).peer = s.peer := rfl
@[simp] theorem onEntry_prt (i : Nat) (f : Entry → Entry) : (s.onEntry i f).prt = s.prt := rfl
@[simp] theorem onEntry_twn (i : Nat) (f : Entry → Entry) : (s.onEntry i f).twn = s.twn := rfl
@[simp] theorem onEntry_arb (i : Nat) (f : Entry → Entry) : (s.onEntry i f).arb = s.arb := rfl
@[simp] theorem onEntry_ras (i : Nat) (f : Entry → Entry) : (s.onEntry i f).ras = s.ras := rfl
@[simp] theorem onEntry_pwr (i : Nat) (f : Entry → Entry) : (s.onEntry i f).pwr = s.pwr := rfl
@[simp] theorem onEntry_out (i : Nat) (f : Entry → Entry) : (s.onEntry i f).out = s.out := rfl
@[simp] theorem onEntry_free (i : Nat) (f : Entry → Entry) : (s.onEntry i f).free = s.free := rfl
@[simp] theorem onEntry_pending (i : Nat) (f : Entry → Entry) : (s.onEntry i f).pending = s.pending := rfl

/-! ### onChtView -/
@[simp] theorem onChtView_glb (f : Nat) (g : ChtView → ChtView) : (s.onChtView f g).glb = s.glb := rfl
@[simp] theorem onChtView_evc (f : Nat) (g : ChtView → ChtView) : (s.onChtView f g).evc = s.evc := rfl
@[simp] theorem onChtView_hlk (f : Nat) (g : ChtView → ChtView) : (s.onChtView f g).hlk = s.hlk := rfl
@[simp] theorem onChtView_noc (f : Nat) (g : ChtView → ChtView) : (s.onChtView f g).noc = s.noc := rfl
@[simp] theorem onChtView_dbl (f : Nat) (g : ChtView → ChtView) : (s.onChtView f g).dbl = s.dbl := rfl
@[simp] theorem onChtView_xlt (f : Nat) (g : ChtView → ChtView) : (s.onChtView f g).xlt = s.xlt := rfl
@[simp] theorem onChtView_skk (f : Nat) (g : ChtView → ChtView) : (s.onChtView f g).skk = s.skk := rfl
@[simp] theorem onChtView_mov (f : Nat) (g : ChtView → ChtView) : (s.onChtView f g).mov = s.mov := rfl
@[simp] theorem onChtView_ccu (f : Nat) (g : ChtView → ChtView) : (s.onChtView f g).ccu = s.ccu := rfl
@[simp] theorem onChtView_syn (f : Nat) (g : ChtView → ChtView) : (s.onChtView f g).syn = s.syn := rfl
@[simp] theorem onChtView_home (f : Nat) (g : ChtView → ChtView) : (s.onChtView f g).home = s.home := rfl
@[simp] theorem onChtView_peer (f : Nat) (g : ChtView → ChtView) : (s.onChtView f g).peer = s.peer := rfl
@[simp] theorem onChtView_prt (f : Nat) (g : ChtView → ChtView) : (s.onChtView f g).prt = s.prt := rfl
@[simp] theorem onChtView_twn (f : Nat) (g : ChtView → ChtView) : (s.onChtView f g).twn = s.twn := rfl
@[simp] theorem onChtView_arb (f : Nat) (g : ChtView → ChtView) : (s.onChtView f g).arb = s.arb := rfl
@[simp] theorem onChtView_ras (f : Nat) (g : ChtView → ChtView) : (s.onChtView f g).ras = s.ras := rfl
@[simp] theorem onChtView_pwr (f : Nat) (g : ChtView → ChtView) : (s.onChtView f g).pwr = s.pwr := rfl
@[simp] theorem onChtView_out (f : Nat) (g : ChtView → ChtView) : (s.onChtView f g).out = s.out := rfl
@[simp] theorem onChtView_free (f : Nat) (g : ChtView → ChtView) : (s.onChtView f g).free = s.free := rfl
@[simp] theorem onChtView_pending (f : Nat) (g : ChtView → ChtView) : (s.onChtView f g).pending = s.pending := rfl

/-! ### onLine -/
@[simp] theorem onLine_glb (n : Nat) (f : Line → Line) : (s.onLine n f).glb = s.glb := rfl
@[simp] theorem onLine_evc (n : Nat) (f : Line → Line) : (s.onLine n f).evc = s.evc := rfl
@[simp] theorem onLine_hlk (n : Nat) (f : Line → Line) : (s.onLine n f).hlk = s.hlk := rfl
@[simp] theorem onLine_noc (n : Nat) (f : Line → Line) : (s.onLine n f).noc = s.noc := rfl
@[simp] theorem onLine_dbl (n : Nat) (f : Line → Line) : (s.onLine n f).dbl = s.dbl := rfl
@[simp] theorem onLine_xlt (n : Nat) (f : Line → Line) : (s.onLine n f).xlt = s.xlt := rfl
@[simp] theorem onLine_skk (n : Nat) (f : Line → Line) : (s.onLine n f).skk = s.skk := rfl
@[simp] theorem onLine_mov (n : Nat) (f : Line → Line) : (s.onLine n f).mov = s.mov := rfl
@[simp] theorem onLine_ccu (n : Nat) (f : Line → Line) : (s.onLine n f).ccu = s.ccu := rfl
@[simp] theorem onLine_syn (n : Nat) (f : Line → Line) : (s.onLine n f).syn = s.syn := rfl
@[simp] theorem onLine_cht (n : Nat) (f : Line → Line) : (s.onLine n f).cht = s.cht := rfl
@[simp] theorem onLine_peer (n : Nat) (f : Line → Line) : (s.onLine n f).peer = s.peer := rfl
@[simp] theorem onLine_prt (n : Nat) (f : Line → Line) : (s.onLine n f).prt = s.prt := rfl
@[simp] theorem onLine_twn (n : Nat) (f : Line → Line) : (s.onLine n f).twn = s.twn := rfl
@[simp] theorem onLine_arb (n : Nat) (f : Line → Line) : (s.onLine n f).arb = s.arb := rfl
@[simp] theorem onLine_ras (n : Nat) (f : Line → Line) : (s.onLine n f).ras = s.ras := rfl
@[simp] theorem onLine_pwr (n : Nat) (f : Line → Line) : (s.onLine n f).pwr = s.pwr := rfl
@[simp] theorem onLine_out (n : Nat) (f : Line → Line) : (s.onLine n f).out = s.out := rfl
@[simp] theorem onLine_free (n : Nat) (f : Line → Line) : (s.onLine n f).free = s.free := rfl
@[simp] theorem onLine_pending (n : Nat) (f : Line → Line) : (s.onLine n f).pending = s.pending := rfl

/-! ### onIwin -/
@[simp] theorem onIwin_glb (i : Nat) (f : WinEntry → WinEntry) : (s.onIwin i f).glb = s.glb := rfl
@[simp] theorem onIwin_evc (i : Nat) (f : WinEntry → WinEntry) : (s.onIwin i f).evc = s.evc := rfl
@[simp] theorem onIwin_hlk (i : Nat) (f : WinEntry → WinEntry) : (s.onIwin i f).hlk = s.hlk := rfl
@[simp] theorem onIwin_noc (i : Nat) (f : WinEntry → WinEntry) : (s.onIwin i f).noc = s.noc := rfl
@[simp] theorem onIwin_dbl (i : Nat) (f : WinEntry → WinEntry) : (s.onIwin i f).dbl = s.dbl := rfl
@[simp] theorem onIwin_xlt (i : Nat) (f : WinEntry → WinEntry) : (s.onIwin i f).xlt = s.xlt := rfl
@[simp] theorem onIwin_skk (i : Nat) (f : WinEntry → WinEntry) : (s.onIwin i f).skk = s.skk := rfl
@[simp] theorem onIwin_mov (i : Nat) (f : WinEntry → WinEntry) : (s.onIwin i f).mov = s.mov := rfl
@[simp] theorem onIwin_ccu (i : Nat) (f : WinEntry → WinEntry) : (s.onIwin i f).ccu = s.ccu := rfl
@[simp] theorem onIwin_syn (i : Nat) (f : WinEntry → WinEntry) : (s.onIwin i f).syn = s.syn := rfl
@[simp] theorem onIwin_cht (i : Nat) (f : WinEntry → WinEntry) : (s.onIwin i f).cht = s.cht := rfl
@[simp] theorem onIwin_home (i : Nat) (f : WinEntry → WinEntry) : (s.onIwin i f).home = s.home := rfl
@[simp] theorem onIwin_prt (i : Nat) (f : WinEntry → WinEntry) : (s.onIwin i f).prt = s.prt := rfl
@[simp] theorem onIwin_twn (i : Nat) (f : WinEntry → WinEntry) : (s.onIwin i f).twn = s.twn := rfl
@[simp] theorem onIwin_arb (i : Nat) (f : WinEntry → WinEntry) : (s.onIwin i f).arb = s.arb := rfl
@[simp] theorem onIwin_ras (i : Nat) (f : WinEntry → WinEntry) : (s.onIwin i f).ras = s.ras := rfl
@[simp] theorem onIwin_pwr (i : Nat) (f : WinEntry → WinEntry) : (s.onIwin i f).pwr = s.pwr := rfl
@[simp] theorem onIwin_out (i : Nat) (f : WinEntry → WinEntry) : (s.onIwin i f).out = s.out := rfl
@[simp] theorem onIwin_free (i : Nat) (f : WinEntry → WinEntry) : (s.onIwin i f).free = s.free := rfl
@[simp] theorem onIwin_pending (i : Nat) (f : WinEntry → WinEntry) : (s.onIwin i f).pending = s.pending := rfl

/-! ### onFlow -/
@[simp] theorem onFlow_glb (c : Nat) (f : Flow → Flow) : (s.onFlow c f).glb = s.glb := rfl
@[simp] theorem onFlow_evc (c : Nat) (f : Flow → Flow) : (s.onFlow c f).evc = s.evc := rfl
@[simp] theorem onFlow_hlk (c : Nat) (f : Flow → Flow) : (s.onFlow c f).hlk = s.hlk := rfl
@[simp] theorem onFlow_noc (c : Nat) (f : Flow → Flow) : (s.onFlow c f).noc = s.noc := rfl
@[simp] theorem onFlow_dbl (c : Nat) (f : Flow → Flow) : (s.onFlow c f).dbl = s.dbl := rfl
@[simp] theorem onFlow_xlt (c : Nat) (f : Flow → Flow) : (s.onFlow c f).xlt = s.xlt := rfl
@[simp] theorem onFlow_skk (c : Nat) (f : Flow → Flow) : (s.onFlow c f).skk = s.skk := rfl
@[simp] theorem onFlow_mov (c : Nat) (f : Flow → Flow) : (s.onFlow c f).mov = s.mov := rfl
@[simp] theorem onFlow_ccu (c : Nat) (f : Flow → Flow) : (s.onFlow c f).ccu = s.ccu := rfl
@[simp] theorem onFlow_syn (c : Nat) (f : Flow → Flow) : (s.onFlow c f).syn = s.syn := rfl
@[simp] theorem onFlow_cht (c : Nat) (f : Flow → Flow) : (s.onFlow c f).cht = s.cht := rfl
@[simp] theorem onFlow_home (c : Nat) (f : Flow → Flow) : (s.onFlow c f).home = s.home := rfl
@[simp] theorem onFlow_prt (c : Nat) (f : Flow → Flow) : (s.onFlow c f).prt = s.prt := rfl
@[simp] theorem onFlow_twn (c : Nat) (f : Flow → Flow) : (s.onFlow c f).twn = s.twn := rfl
@[simp] theorem onFlow_arb (c : Nat) (f : Flow → Flow) : (s.onFlow c f).arb = s.arb := rfl
@[simp] theorem onFlow_ras (c : Nat) (f : Flow → Flow) : (s.onFlow c f).ras = s.ras := rfl
@[simp] theorem onFlow_pwr (c : Nat) (f : Flow → Flow) : (s.onFlow c f).pwr = s.pwr := rfl
@[simp] theorem onFlow_out (c : Nat) (f : Flow → Flow) : (s.onFlow c f).out = s.out := rfl
@[simp] theorem onFlow_free (c : Nat) (f : Flow → Flow) : (s.onFlow c f).free = s.free := rfl
@[simp] theorem onFlow_pending (c : Nat) (f : Flow → Flow) : (s.onFlow c f).pending = s.pending := rfl

/-! ### onRx -/
@[simp] theorem onRx_glb (c : Nat) (f : RxFlow → RxFlow) : (s.onRx c f).glb = s.glb := rfl
@[simp] theorem onRx_evc (c : Nat) (f : RxFlow → RxFlow) : (s.onRx c f).evc = s.evc := rfl
@[simp] theorem onRx_hlk (c : Nat) (f : RxFlow → RxFlow) : (s.onRx c f).hlk = s.hlk := rfl
@[simp] theorem onRx_noc (c : Nat) (f : RxFlow → RxFlow) : (s.onRx c f).noc = s.noc := rfl
@[simp] theorem onRx_dbl (c : Nat) (f : RxFlow → RxFlow) : (s.onRx c f).dbl = s.dbl := rfl
@[simp] theorem onRx_xlt (c : Nat) (f : RxFlow → RxFlow) : (s.onRx c f).xlt = s.xlt := rfl
@[simp] theorem onRx_skk (c : Nat) (f : RxFlow → RxFlow) : (s.onRx c f).skk = s.skk := rfl
@[simp] theorem onRx_mov (c : Nat) (f : RxFlow → RxFlow) : (s.onRx c f).mov = s.mov := rfl
@[simp] theorem onRx_ccu (c : Nat) (f : RxFlow → RxFlow) : (s.onRx c f).ccu = s.ccu := rfl
@[simp] theorem onRx_syn (c : Nat) (f : RxFlow → RxFlow) : (s.onRx c f).syn = s.syn := rfl
@[simp] theorem onRx_cht (c : Nat) (f : RxFlow → RxFlow) : (s.onRx c f).cht = s.cht := rfl
@[simp] theorem onRx_home (c : Nat) (f : RxFlow → RxFlow) : (s.onRx c f).home = s.home := rfl
@[simp] theorem onRx_prt (c : Nat) (f : RxFlow → RxFlow) : (s.onRx c f).prt = s.prt := rfl
@[simp] theorem onRx_twn (c : Nat) (f : RxFlow → RxFlow) : (s.onRx c f).twn = s.twn := rfl
@[simp] theorem onRx_arb (c : Nat) (f : RxFlow → RxFlow) : (s.onRx c f).arb = s.arb := rfl
@[simp] theorem onRx_ras (c : Nat) (f : RxFlow → RxFlow) : (s.onRx c f).ras = s.ras := rfl
@[simp] theorem onRx_pwr (c : Nat) (f : RxFlow → RxFlow) : (s.onRx c f).pwr = s.pwr := rfl
@[simp] theorem onRx_out (c : Nat) (f : RxFlow → RxFlow) : (s.onRx c f).out = s.out := rfl
@[simp] theorem onRx_free (c : Nat) (f : RxFlow → RxFlow) : (s.onRx c f).free = s.free := rfl
@[simp] theorem onRx_pending (c : Nat) (f : RxFlow → RxFlow) : (s.onRx c f).pending = s.pending := rfl

/-! ### onPart -/
@[simp] theorem onPart_glb (p : Nat) (f : Part → Part) : (s.onPart p f).glb = s.glb := rfl
@[simp] theorem onPart_evc (p : Nat) (f : Part → Part) : (s.onPart p f).evc = s.evc := rfl
@[simp] theorem onPart_hlk (p : Nat) (f : Part → Part) : (s.onPart p f).hlk = s.hlk := rfl
@[simp] theorem onPart_noc (p : Nat) (f : Part → Part) : (s.onPart p f).noc = s.noc := rfl
@[simp] theorem onPart_dbl (p : Nat) (f : Part → Part) : (s.onPart p f).dbl = s.dbl := rfl
@[simp] theorem onPart_xlt (p : Nat) (f : Part → Part) : (s.onPart p f).xlt = s.xlt := rfl
@[simp] theorem onPart_skk (p : Nat) (f : Part → Part) : (s.onPart p f).skk = s.skk := rfl
@[simp] theorem onPart_mov (p : Nat) (f : Part → Part) : (s.onPart p f).mov = s.mov := rfl
@[simp] theorem onPart_ccu (p : Nat) (f : Part → Part) : (s.onPart p f).ccu = s.ccu := rfl
@[simp] theorem onPart_syn (p : Nat) (f : Part → Part) : (s.onPart p f).syn = s.syn := rfl
@[simp] theorem onPart_cht (p : Nat) (f : Part → Part) : (s.onPart p f).cht = s.cht := rfl
@[simp] theorem onPart_home (p : Nat) (f : Part → Part) : (s.onPart p f).home = s.home := rfl
@[simp] theorem onPart_peer (p : Nat) (f : Part → Part) : (s.onPart p f).peer = s.peer := rfl
@[simp] theorem onPart_twn (p : Nat) (f : Part → Part) : (s.onPart p f).twn = s.twn := rfl
@[simp] theorem onPart_arb (p : Nat) (f : Part → Part) : (s.onPart p f).arb = s.arb := rfl
@[simp] theorem onPart_ras (p : Nat) (f : Part → Part) : (s.onPart p f).ras = s.ras := rfl
@[simp] theorem onPart_pwr (p : Nat) (f : Part → Part) : (s.onPart p f).pwr = s.pwr := rfl
@[simp] theorem onPart_out (p : Nat) (f : Part → Part) : (s.onPart p f).out = s.out := rfl
@[simp] theorem onPart_free (p : Nat) (f : Part → Part) : (s.onPart p f).free = s.free := rfl
@[simp] theorem onPart_pending (p : Nat) (f : Part → Part) : (s.onPart p f).pending = s.pending := rfl

/-! ### onArbiter -/
@[simp] theorem onArbiter_glb (a : Nat) (f : Arbiter → Arbiter) : (s.onArbiter a f).glb = s.glb := rfl
@[simp] theorem onArbiter_evc (a : Nat) (f : Arbiter → Arbiter) : (s.onArbiter a f).evc = s.evc := rfl
@[simp] theorem onArbiter_hlk (a : Nat) (f : Arbiter → Arbiter) : (s.onArbiter a f).hlk = s.hlk := rfl
@[simp] theorem onArbiter_noc (a : Nat) (f : Arbiter → Arbiter) : (s.onArbiter a f).noc = s.noc := rfl
@[simp] theorem onArbiter_dbl (a : Nat) (f : Arbiter → Arbiter) : (s.onArbiter a f).dbl = s.dbl := rfl
@[simp] theorem onArbiter_xlt (a : Nat) (f : Arbiter → Arbiter) : (s.onArbiter a f).xlt = s.xlt := rfl
@[simp] theorem onArbiter_skk (a : Nat) (f : Arbiter → Arbiter) : (s.onArbiter a f).skk = s.skk := rfl
@[simp] theorem onArbiter_mov (a : Nat) (f : Arbiter → Arbiter) : (s.onArbiter a f).mov = s.mov := rfl
@[simp] theorem onArbiter_ccu (a : Nat) (f : Arbiter → Arbiter) : (s.onArbiter a f).ccu = s.ccu := rfl
@[simp] theorem onArbiter_syn (a : Nat) (f : Arbiter → Arbiter) : (s.onArbiter a f).syn = s.syn := rfl
@[simp] theorem onArbiter_cht (a : Nat) (f : Arbiter → Arbiter) : (s.onArbiter a f).cht = s.cht := rfl
@[simp] theorem onArbiter_home (a : Nat) (f : Arbiter → Arbiter) : (s.onArbiter a f).home = s.home := rfl
@[simp] theorem onArbiter_peer (a : Nat) (f : Arbiter → Arbiter) : (s.onArbiter a f).peer = s.peer := rfl
@[simp] theorem onArbiter_prt (a : Nat) (f : Arbiter → Arbiter) : (s.onArbiter a f).prt = s.prt := rfl
@[simp] theorem onArbiter_twn (a : Nat) (f : Arbiter → Arbiter) : (s.onArbiter a f).twn = s.twn := rfl
@[simp] theorem onArbiter_ras (a : Nat) (f : Arbiter → Arbiter) : (s.onArbiter a f).ras = s.ras := rfl
@[simp] theorem onArbiter_pwr (a : Nat) (f : Arbiter → Arbiter) : (s.onArbiter a f).pwr = s.pwr := rfl
@[simp] theorem onArbiter_out (a : Nat) (f : Arbiter → Arbiter) : (s.onArbiter a f).out = s.out := rfl
@[simp] theorem onArbiter_free (a : Nat) (f : Arbiter → Arbiter) : (s.onArbiter a f).free = s.free := rfl
@[simp] theorem onArbiter_pending (a : Nat) (f : Arbiter → Arbiter) : (s.onArbiter a f).pending = s.pending := rfl

/-! ### onAreq -/
@[simp] theorem onAreq_glb (a i : Nat) (f : ArbReq → ArbReq) : (s.onAreq a i f).glb = s.glb := rfl
@[simp] theorem onAreq_evc (a i : Nat) (f : ArbReq → ArbReq) : (s.onAreq a i f).evc = s.evc := rfl
@[simp] theorem onAreq_hlk (a i : Nat) (f : ArbReq → ArbReq) : (s.onAreq a i f).hlk = s.hlk := rfl
@[simp] theorem onAreq_noc (a i : Nat) (f : ArbReq → ArbReq) : (s.onAreq a i f).noc = s.noc := rfl
@[simp] theorem onAreq_dbl (a i : Nat) (f : ArbReq → ArbReq) : (s.onAreq a i f).dbl = s.dbl := rfl
@[simp] theorem onAreq_xlt (a i : Nat) (f : ArbReq → ArbReq) : (s.onAreq a i f).xlt = s.xlt := rfl
@[simp] theorem onAreq_skk (a i : Nat) (f : ArbReq → ArbReq) : (s.onAreq a i f).skk = s.skk := rfl
@[simp] theorem onAreq_mov (a i : Nat) (f : ArbReq → ArbReq) : (s.onAreq a i f).mov = s.mov := rfl
@[simp] theorem onAreq_ccu (a i : Nat) (f : ArbReq → ArbReq) : (s.onAreq a i f).ccu = s.ccu := rfl
@[simp] theorem onAreq_syn (a i : Nat) (f : ArbReq → ArbReq) : (s.onAreq a i f).syn = s.syn := rfl
@[simp] theorem onAreq_cht (a i : Nat) (f : ArbReq → ArbReq) : (s.onAreq a i f).cht = s.cht := rfl
@[simp] theorem onAreq_home (a i : Nat) (f : ArbReq → ArbReq) : (s.onAreq a i f).home = s.home := rfl
@[simp] theorem onAreq_peer (a i : Nat) (f : ArbReq → ArbReq) : (s.onAreq a i f).peer = s.peer := rfl
@[simp] theorem onAreq_prt (a i : Nat) (f : ArbReq → ArbReq) : (s.onAreq a i f).prt = s.prt := rfl
@[simp] theorem onAreq_twn (a i : Nat) (f : ArbReq → ArbReq) : (s.onAreq a i f).twn = s.twn := rfl
@[simp] theorem onAreq_ras (a i : Nat) (f : ArbReq → ArbReq) : (s.onAreq a i f).ras = s.ras := rfl
@[simp] theorem onAreq_pwr (a i : Nat) (f : ArbReq → ArbReq) : (s.onAreq a i f).pwr = s.pwr := rfl
@[simp] theorem onAreq_out (a i : Nat) (f : ArbReq → ArbReq) : (s.onAreq a i f).out = s.out := rfl
@[simp] theorem onAreq_free (a i : Nat) (f : ArbReq → ArbReq) : (s.onAreq a i f).free = s.free := rfl
@[simp] theorem onAreq_pending (a i : Nat) (f : ArbReq → ArbReq) : (s.onAreq a i f).pending = s.pending := rfl

end State

end Sys2Proof.Machine
end

