-- ==== Sys2Proof/Laws/Tables.lean ====
section
/-! SUPPORT. The laws of the sparse tables: what a read after a write gives, and that every operation keeps the canonical form. -/

-- One proof at a time: hundreds of proofs started together would each wait on the same lemma on a thread of its own.
set_option Elab.async false

namespace Sys2Proof.Machine

section Tables

variable {α : Type} [DecidableEq α] (d : Nat → α)

/-- The tail of a table in canonical form is in it too. -/
theorem tabWf_tail {e : Nat × α} {t : Tab α} (h : tabWf d (e :: t) = true) : tabWf d t = true := by
  cases t with
  | nil => rfl
  | cons x r => obtain ⟨i, a⟩ := e; obtain ⟨j, b⟩ := x; simp [tabWf] at h; exact h.2

/-- The first entry of a table in canonical form is not its default. -/
theorem tabWf_head {i : Nat} {a : α} {t : Tab α} (h : tabWf d ((i, a) :: t) = true) : a ≠ d i := by
  cases t with
  | nil => simpa [tabWf] using h
  | cons x r => obtain ⟨j, b⟩ := x; simp [tabWf] at h; exact h.1.1

/-- The indices after the first of a table in canonical form are above it. -/
theorem tabWf_above {i : Nat} {a : α} {t : Tab α} (h : tabWf d ((i, a) :: t) = true) : ∀ e ∈ t, i < e.1 := by
  induction t generalizing i a with
  | nil => simp
  | cons x r ih =>
    obtain ⟨j, b⟩ := x
    have hj : i < j := by simp [tabWf] at h; exact h.1.2
    intro e he
    rcases List.mem_cons.1 he with rfl | he
    · exact hj
    · exact lt_trans hj (ih (tabWf_tail d h) e he)

/-- A table is in canonical form if its tail is and its first entry stands below it and is not its default. -/
theorem tabWf_cons {i : Nat} {a : α} {t : Tab α} (ha : a ≠ d i) (hb : ∀ e ∈ t, i < e.1) (ht : tabWf d t = true) :
    tabWf d ((i, a) :: t) = true := by
  cases t with
  | nil => simpa [tabWf] using ha
  | cons x r =>
    obtain ⟨j, b⟩ := x
    have := hb (j, b) (by simp)
    simp [tabWf, ha, ht]; simpa using this

omit [DecidableEq α] in
/-- Reading below every listed index gives the default. -/
theorem tabGet_below {t : Tab α} {k : Nat} (h : ∀ e ∈ t, k < e.1) : tabGet d t k = d k := by
  cases t with
  | nil => rfl
  | cons x r => obtain ⟨i, a⟩ := x; have := h (i, a) (by simp); simp at this; simp [tabGet, this, Nat.ne_of_lt this]

/-- Reading what was listed. -/
theorem tabGet_tabIns (t : Tab α) (k : Nat) (a : α) (j : Nat) :
    tabGet d (tabIns t k a) j = if j = k then a else tabGet d t j := by
  induction t with
  | nil => simp [tabIns, tabGet]
  | cons x r ih =>
    obtain ⟨i, b⟩ := x
    unfold tabIns
    split
    · subst_vars; simp only [tabGet]; split_ifs <;> simp_all
    · split
      · simp only [tabGet]; split_ifs <;> first | rfl | omega
      · simp only [tabGet, ih]; split_ifs <;> first | rfl | omega

/-- Reading after an entry was taken out. -/
theorem tabGet_tabDel {t : Tab α} (h : tabWf d t = true) (k j : Nat) :
    tabGet d (tabDel t k) j = if j = k then d k else tabGet d t j := by
  induction t with
  | nil => simp only [tabDel, tabGet]; split_ifs <;> simp_all
  | cons x r ih =>
    obtain ⟨i, b⟩ := x
    have hb := tabWf_above d h
    have hr := ih (tabWf_tail d h)
    unfold tabDel
    split
    · subst_vars
      split_ifs with h1
      · subst h1; exact tabGet_below d hb
      · simp only [tabGet, h1, if_false]
        split_ifs with h2
        · exact tabGet_below d fun e he => lt_trans h2 (hb e he)
        · rfl
    · split
      · split_ifs with h1
        · subst h1; simp [tabGet, *]
        · rfl
      · simp only [tabGet, hr]; split_ifs <;> first | rfl | omega

/-- Reading after a write: the value written, and every other entry as before. -/
theorem tabGet_tabPut {t : Tab α} (h : tabWf d t = true) (k : Nat) (a : α) (j : Nat) :
    tabGet d (tabPut d t k a) j = if j = k then a else tabGet d t j := by
  unfold tabPut
  split
  · next e => rw [tabGet_tabDel d h, ← e]
  · exact tabGet_tabIns d t k a j

/-- Reading after a change: the changed value, and every other entry as before. -/
theorem tabGet_tabMod {t : Tab α} (h : tabWf d t = true) (k : Nat) (f : α → α) (j : Nat) :
    tabGet d (tabMod d t k f) j = if j = k then f (tabGet d t k) else tabGet d t j :=
  tabGet_tabPut d h k _ j

/-- A value that is not the default reads back, whatever the table. -/
theorem tabGet_tabPut_same {t : Tab α} {k : Nat} {a : α} (h : a ≠ d k) : tabGet d (tabPut d t k a) k = a := by
  simp [tabPut, h, tabGet_tabIns]

/-- The indices of a table with an entry more. -/
theorem mem_tabIns {t : Tab α} {k : Nat} {a : α} {e : Nat × α} (h : e ∈ tabIns t k a) : e = (k, a) ∨ e ∈ t := by
  induction t with
  | nil => simpa [tabIns] using h
  | cons x r ih =>
    obtain ⟨i, b⟩ := x
    unfold tabIns at h
    split at h
    · simp at h ⊢; tauto
    · split at h
      · simpa using h
      · rcases List.mem_cons.1 h with rfl | h
        · simp
        · rcases ih h with h | h <;> simp [h]

omit [DecidableEq α] in
/-- The entries of a table with one fewer. -/
theorem mem_tabDel {t : Tab α} {k : Nat} {e : Nat × α} (h : e ∈ tabDel t k) : e ∈ t := by
  induction t with
  | nil => simp [tabDel] at h
  | cons x r ih =>
    obtain ⟨i, b⟩ := x
    unfold tabDel at h
    split at h
    · simp [h]
    · split at h
      · exact h
      · rcases List.mem_cons.1 h with rfl | h
        · simp
        · simp [ih h]

/-- Listing an entry that is not its default keeps the canonical form. -/
theorem tabWf_tabIns {t : Tab α} (h : tabWf d t = true) {k : Nat} {a : α} (ha : a ≠ d k) : tabWf d (tabIns t k a) = true := by
  induction t with
  | nil => simpa [tabIns, tabWf] using ha
  | cons x r ih =>
    obtain ⟨i, b⟩ := x
    have hb := tabWf_above d h
    have hr := ih (tabWf_tail d h)
    unfold tabIns
    split
    · subst_vars; exact tabWf_cons d ha hb (tabWf_tail d h)
    · split
      · next h1 h2 =>
        refine tabWf_cons d ha (fun e he => ?_) h
        rcases List.mem_cons.1 he with rfl | he
        · exact h2
        · exact lt_trans h2 (hb e he)
      · next h1 h2 =>
        refine tabWf_cons d (tabWf_head d h) (fun e he => ?_) hr
        rcases mem_tabIns he with rfl | he
        · simp; omega
        · exact hb e he

/-- Taking an entry out keeps the canonical form. -/
@[simp] theorem tabWf_tabDel {t : Tab α} (h : tabWf d t = true) (k : Nat) : tabWf d (tabDel t k) = true := by
  induction t with
  | nil => rfl
  | cons x r ih =>
    obtain ⟨i, b⟩ := x
    unfold tabDel
    split
    · exact tabWf_tail d h
    · split
      · exact h
      · exact tabWf_cons d (tabWf_head d h) (fun e he => tabWf_above d h e (mem_tabDel he)) (ih (tabWf_tail d h))

/-- A write keeps the canonical form. -/
@[simp] theorem tabWf_tabPut {t : Tab α} (h : tabWf d t = true) (k : Nat) (a : α) : tabWf d (tabPut d t k a) = true := by
  unfold tabPut
  split
  · exact tabWf_tabDel d h k
  · next ha => exact tabWf_tabIns d h ha

/-- A change keeps the canonical form. -/
@[simp] theorem tabWf_tabMod {t : Tab α} (h : tabWf d t = true) (k : Nat) (f : α → α) : tabWf d (tabMod d t k f) = true :=
  tabWf_tabPut d h k _

omit [DecidableEq α] in
/-- What is read is the default or is listed. -/
theorem tabGet_listed (t : Tab α) (k : Nat) : tabGet d t k = d k ∨ (k, tabGet d t k) ∈ t := by
  induction t with
  | nil => exact .inl rfl
  | cons x r ih =>
    obtain ⟨i, a⟩ := x
    unfold tabGet
    split
    · next h => subst h; simp
    · split
      · exact .inl rfl
      · exact ih.imp id (List.mem_cons_of_mem _)

omit [DecidableEq α] in
/-- Listing what is listed changes nothing. -/
theorem tabIns_listed {t : Tab α} {k : Nat} (h : tabGet d t k ≠ d k) : tabIns t k (tabGet d t k) = t := by
  induction t with
  | nil => exact absurd rfl h
  | cons x r ih =>
    obtain ⟨i, a⟩ := x
    unfold tabGet at h ⊢
    unfold tabIns
    split at h
    · next e => simp [e]
    · split at h
      · exact absurd rfl h
      · next h1 h2 => simp [h1, h2, ih h]

/-- Writing what is read changes nothing. -/
theorem tabPut_same {t : Tab α} (h : tabWf d t = true) (k : Nat) : tabPut d t k (tabGet d t k) = t := by
  unfold tabPut
  split
  · next e =>
    induction t with
    | nil => rfl
    | cons x r ih =>
      obtain ⟨i, a⟩ := x
      have hh := tabWf_head d h
      unfold tabGet at e
      unfold tabDel
      split at e
      · next e' => subst e'; exact absurd e hh
      · split at e
        · next h1 h2 => simp [h1, h2]
        · next h1 h2 => simp only [h1, h2, if_false]; rw [ih (tabWf_tail d h) e]
  · next e => exact tabIns_listed d e

/-- A change that leaves an entry as it is changes nothing. -/
theorem tabMod_same {t : Tab α} (h : tabWf d t = true) {k : Nat} {f : α → α} (hf : f (tabGet d t k) = tabGet d t k) : tabMod d t k f = t := by
  unfold tabMod
  rw [hf, tabPut_same d h k]

/-- Keeping some entries keeps the canonical form. -/
@[simp] theorem tabWf_filter {t : Tab α} (h : tabWf d t = true) (p : Nat × α → Bool) : tabWf d (t.filter p) = true := by
  induction t with
  | nil => rfl
  | cons x r ih =>
    obtain ⟨i, b⟩ := x
    have hr := ih (tabWf_tail d h)
    rw [List.filter_cons]
    split
    · exact tabWf_cons d (tabWf_head d h) (fun e he => tabWf_above d h e (List.mem_of_mem_filter he)) hr
    · exact hr

/-- The empty table is in canonical form. -/
@[simp] theorem tabWf_nil : tabWf d ([] : Tab α) = true := rfl

end Tables

/-- A fold of steps that keep a property keeps it. -/
theorem foldl_keeps {σ β : Type} (P : σ → Prop) (f : σ → β → σ) (hf : ∀ s b, P s → P (f s b)) (l : List β) (s : σ) (h : P s) :
    P (l.foldl f s) := by
  induction l generalizing s with
  | nil => exact h
  | cons b r ih => exact ih _ (hf s b h)

end Sys2Proof.Machine
end

