-- ==== Sys2Proof/Laws/Access.lean ====
section
/-! SUPPORT. Reading an entry of a table after it was changed, for each table with an accessor of its own. -/

-- One proof at a time: hundreds of proofs started together would each wait on the same lemma on a thread of its own.
set_option Elab.async false

namespace Sys2Proof.Machine

variable {s : State}

theorem State.src_onSrc (h : tabWf srcDflt s.evc.src = true) (k j : Nat) (f : Source → Source) :
    (s.onSrc k f).src j = if j = k then f (s.src k) else s.src j := tabGet_tabMod srcDflt h k f j
theorem State.tgt_onTgt (h : tabWf tgtDflt s.evc.tgt = true) (k j : Nat) (f : Target → Target) :
    (s.onTgt k f).tgt j = if j = k then f (s.tgt k) else s.tgt j := tabGet_tabMod tgtDflt h k f j
theorem State.link_onLink (h : tabWf (fun _ => ({} : Link)) s.hlk.links = true) (k j : Nat) (f : Link → Link) :
    (s.onLink k f).link j = if j = k then f (s.link k) else s.link j := tabGet_tabMod (fun _ => ({} : Link)) h k f j
theorem State.chan_onChan (h : tabWf (fun _ => ({} : Chan)) s.dbl.chan = true) (k j : Nat) (f : Chan → Chan) :
    (s.onChan k f).chan j = if j = k then f (s.chan k) else s.chan j := tabGet_tabMod (fun _ => ({} : Chan)) h k f j
theorem State.mgmt_onMgmt (h : tabWf (fun _ => ({} : Mgmt)) s.dbl.mgmt = true) (k j : Nat) (f : Mgmt → Mgmt) :
    (s.onMgmt k f).mgmt j = if j = k then f (s.mgmt k) else s.mgmt j := tabGet_tabMod (fun _ => ({} : Mgmt)) h k f j
theorem State.skkPart_onSkkPart (h : tabWf (fun _ => ({} : SkkPart)) s.skk.part = true) (k j : Nat) (f : SkkPart → SkkPart) :
    (s.onSkkPart k f).skkPart j = if j = k then f (s.skkPart k) else s.skkPart j := tabGet_tabMod (fun _ => ({} : SkkPart)) h k f j
theorem State.area_onArea (h : tabWf areaDflt s.mov.area = true) (k j : Nat) (f : Area → Area) :
    (s.onArea k f).area j = if j = k then f (s.area k) else s.area j := tabGet_tabMod areaDflt h k f j
theorem State.movView_onMovView (h : tabWf (fun _ => ({} : MovView)) s.mov.view = true) (k j : Nat) (f : MovView → MovView) :
    (s.onMovView k f).movView j = if j = k then f (s.movView k) else s.movView j := tabGet_tabMod (fun _ => ({} : MovView)) h k f j
theorem State.ccuCount_onCcuCount (h : tabWf (fun _ => ({} : CcuCount)) s.ccu.count = true) (k j : Nat) (f : CcuCount → CcuCount) :
    (s.onCcuCount k f).ccuCount j = if j = k then f (s.ccuCount k) else s.ccuCount j := tabGet_tabMod (fun _ => ({} : CcuCount)) h k f j
theorem State.obj_onObj (h : tabWf (fun _ => ({} : Obj)) s.syn.obj = true) (k j : Nat) (f : Obj → Obj) :
    (s.onObj k f).obj j = if j = k then f (s.obj k) else s.obj j := tabGet_tabMod (fun _ => ({} : Obj)) h k f j
theorem State.synView_onSynView (h : tabWf (fun _ => ({} : SynView)) s.syn.view = true) (k j : Nat) (f : SynView → SynView) :
    (s.onSynView k f).synView j = if j = k then f (s.synView k) else s.synView j := tabGet_tabMod (fun _ => ({} : SynView)) h k f j
theorem State.entry_onEntry (h : tabWf (fun _ => ({} : Entry)) s.cht.entry = true) (k j : Nat) (f : Entry → Entry) :
    (s.onEntry k f).entry j = if j = k then f (s.entry k) else s.entry j := tabGet_tabMod (fun _ => ({} : Entry)) h k f j
theorem State.chtView_onChtView (h : tabWf (fun _ => ({} : ChtView)) s.cht.view = true) (k j : Nat) (f : ChtView → ChtView) :
    (s.onChtView k f).chtView j = if j = k then f (s.chtView k) else s.chtView j := tabGet_tabMod (fun _ => ({} : ChtView)) h k f j
theorem State.line_onLine (h : tabWf (fun _ => ({} : Line)) s.home.line = true) (k j : Nat) (f : Line → Line) :
    (s.onLine k f).line j = if j = k then f (s.line k) else s.line j := tabGet_tabMod (fun _ => ({} : Line)) h k f j
theorem State.iwin_onIwin (h : tabWf (fun _ => ({} : WinEntry)) s.peer.iwin = true) (k j : Nat) (f : WinEntry → WinEntry) :
    (s.onIwin k f).iwin j = if j = k then f (s.iwin k) else s.iwin j := tabGet_tabMod (fun _ => ({} : WinEntry)) h k f j
theorem State.flow_onFlow (h : tabWf (fun _ => ({} : Flow)) s.peer.flow = true) (k j : Nat) (f : Flow → Flow) :
    (s.onFlow k f).flow j = if j = k then f (s.flow k) else s.flow j := tabGet_tabMod (fun _ => ({} : Flow)) h k f j
theorem State.rxFlow_onRx (h : tabWf (fun _ => ({} : RxFlow)) s.peer.rx = true) (k j : Nat) (f : RxFlow → RxFlow) :
    (s.onRx k f).rxFlow j = if j = k then f (s.rxFlow k) else s.rxFlow j := tabGet_tabMod (fun _ => ({} : RxFlow)) h k f j
theorem State.part_onPart (h : tabWf partDflt s.prt.part = true) (k j : Nat) (f : Part → Part) :
    (s.onPart k f).part j = if j = k then f (s.part k) else s.part j := tabGet_tabMod partDflt h k f j
theorem State.arbiter_onArbiter (h : tabWf (fun _ => ({} : Arbiter)) s.arb.arb = true) (k j : Nat) (f : Arbiter → Arbiter) :
    (s.onArbiter k f).arbiter j = if j = k then f (s.arbiter k) else s.arbiter j := tabGet_tabMod (fun _ => ({} : Arbiter)) h k f j
theorem State.inst_onInst (h : tabWf (fun _ => ({} : Inst)) s.hlk.inst = true) (a b i j : Nat) (f : Inst → Inst) :
    (s.onInst a b f).inst i j = if i * 64 + j = a * 64 + b then f (s.inst a b) else s.inst i j := tabGet_tabMod (fun _ => ({} : Inst)) h _ f _
theorem State.msixEntry_onMsix (h : tabWf (fun _ => ({} : MsixEntry)) s.hlk.msix = true) (a b i j : Nat) (f : MsixEntry → MsixEntry) :
    (s.onMsix a b f).msixEntry i j = if i * 32 + j = a * 32 + b then f (s.msixEntry a b) else s.msixEntry i j := tabGet_tabMod (fun _ => ({} : MsixEntry)) h _ f _
theorem State.aerOf_onAer (h : tabWf (fun _ => ({} : Aer)) s.hlk.aer = true) (a b i j : Nat) (f : Aer → Aer) :
    (s.onAer a b f).aerOf i j = if i * 64 + j = a * 64 + b then f (s.aerOf a b) else s.aerOf i j := tabGet_tabMod (fun _ => ({} : Aer)) h _ f _
theorem State.areq_onAreq (h : tabWf (fun _ => ({} : ArbReq)) s.arb.req = true) (a b i j : Nat) (f : ArbReq → ArbReq) :
    (s.onAreq a b f).areq i j = if i * 16384 + j = a * 16384 + b then f (s.areq a b) else s.areq i j := tabGet_tabMod (fun _ => ({} : ArbReq)) h _ f _

end Sys2Proof.Machine
end

