-- ==== Sys2Proof/Laws/Memory.lean ====
section
/-! SUPPORT. The staging memory (06_movers.md R145 to R148): what a read after a write gives, what zeroing leaves, and that every operation
over it keeps the canonical form. -/

-- One proof at a time: hundreds of proofs started together would each wait on the same lemma on a thread of its own.
set_option Elab.async false

namespace Sys2Proof.Machine

variable {s : State}

/-- After reset nothing is listed. -/
theorem State.reset_staging_wf : Memory.wf State.reset.mov.staging = true := rfl

/-- A byte reads as the write that covers its address left it, and as before outside. -/
theorem State.stagingByte_stagingWrite (l : List Byte) : ∀ (s : State) (a : Nat), Memory.wf s.mov.staging = true → ∀ b,
    (s.stagingWrite a l).stagingByte b = if a ≤ b ∧ b < a + l.length then l.getD (b - a) 0 else s.stagingByte b := by
  induction l with
  | nil => intro s a _ b; simp [State.stagingWrite]
  | cons x r ih =>
    intro s a h b
    rw [State.stagingWrite, ih _ _ (by simpa [Memory.wf, State.onMov] using tabWf_tabPut _ h a x)]
    have hb : ∀ (f : Nat → Bool), State.stagingByte (s.onMov fun v => { v with
        staging := tabPut (fun _ => 0) v.staging a x, lostWords := v.lostWords.filter f }) b = if b = a then x else s.stagingByte b := by
      intro f; simpa [State.stagingByte, State.onMov] using tabGet_tabPut (fun _ => (0 : Byte)) h a x b
    rw [hb]
    simp only [List.length_cons]
    by_cases h1 : a + 1 ≤ b ∧ b < a + 1 + r.length
    · have e : b - a = (b - (a + 1)) + 1 := by omega
      rw [if_pos h1, if_pos (by omega), e, List.getD_cons_succ]
    · by_cases h2 : b = a
      · subst h2; simp
      · rw [if_neg h1, if_neg h2, if_neg (by omega)]

/-- A write of staging bytes keeps the canonical form. -/
theorem State.stagingWrite_wf (l : List Byte) : ∀ (s : State) (a : Nat), Memory.wf s.mov.staging = true →
    Memory.wf (s.stagingWrite a l).mov.staging = true := by
  induction l with
  | nil => intro s a h; exact h
  | cons x r ih =>
    intro s a h
    rw [State.stagingWrite]
    exact ih _ _ (by simpa [Memory.wf, State.onMov] using tabWf_tabPut _ h a x)

/-- Zeroing units keeps the canonical form. -/
theorem State.zeroUnits_wf (h : Memory.wf s.mov.staging = true) (us : List Nat) : Memory.wf (s.zeroUnits us).mov.staging = true :=
  tabWf_filter _ h _

/-- A byte of a zeroed unit reads 0; another reads as before. -/
theorem State.stagingByte_zeroUnits (h : Memory.wf s.mov.staging = true) (us : List Nat) (b : Nat) :
    (s.zeroUnits us).stagingByte b = if us.contains (b / 65536) then 0 else s.stagingByte b := by
  have key : ∀ m : List Host.Cell, tabWf (fun _ => (0 : Byte)) m = true →
      tabGet (fun _ => (0 : Byte)) (m.filter fun c => !us.contains (c.1 / 65536)) b =
        if us.contains (b / 65536) then 0 else tabGet (fun _ => (0 : Byte)) m b := by
    intro m
    induction m with
    | nil => intro _; simp [tabGet]
    | cons c r ih =>
      intro hm
      obtain ⟨i, v⟩ := c
      have hr := ih (tabWf_tail _ hm)
      have hab := tabWf_above _ hm
      rw [List.filter_cons]
      have below : b < i → ∀ e ∈ r, b < e.1 := fun hlt e he => lt_trans hlt (hab e he)
      have gone : b < i → tabGet (fun _ => (0 : Byte)) r b = 0 := fun hlt => tabGet_below _ (below hlt)
      cases hu : us.contains (i / 65536) with
      | true =>
        simp only [Bool.not_true, Bool.false_eq_true, if_false]
        rw [hr]
        rcases lt_trichotomy b i with hb | hb | hb
        · rw [gone hb]; simp [tabGet, hb, hb.ne]
        · subst hb; rw [hu]; simp
        · simp [tabGet, hb.ne', Nat.not_lt_of_gt hb]
      | false =>
        simp only [Bool.not_false, if_true]
        rcases lt_trichotomy b i with hb | hb | hb
        · simp [tabGet, hb, hb.ne]
        · subst hb; rw [hu]; simp [tabGet]
        · simp only [tabGet, hb.ne', Nat.not_lt_of_gt hb, if_false]; exact hr
  exact key _ h

/-- The host's BAR4 write keeps the canonical form. -/
theorem State.bar4Write_wf (h : Memory.wf s.mov.staging = true) (fn link off : Nat) (bytes : List (Option Byte))
    (hn : (fn = 0 ∧ s.pwr.bootOpen = true) → False) (hf : ∀ (t : State) b, (t.movFlag fn b).mov.staging = t.mov.staging) :
    Memory.wf (s.bar4Write fn link off bytes).mov.staging = true := by
  have hn' : (decide (fn = 0) && s.pwr.bootOpen) = false := by
    cases hb : (decide (fn = 0) && s.pwr.bootOpen) with
    | false => rfl
    | true => exact (hn (by simpa using hb)).elim
  unfold State.bar4Write
  simp only [hn', Bool.false_eq_true, if_false]
  split
  · split
    · rw [hf]; split
      · rw [hf]; exact h
      · exact h
    · split
      · rw [hf]; exact h
      · exact h
  · exact foldl_keeps (fun t => Memory.wf t.mov.staging = true) _ (fun t k ht => State.stagingWrite_wf _ t _ ht) _ _ h

end Sys2Proof.Machine
end

