-- ==== Sys2Proof/Laws/Steady.lean ====
section
/-! SUPPORT. What the hub's own work leaves alone: GLB_TIME, hub_ready, D3cold, the queue, what is on the ports, the tables' form, every
setting and every sticky bit that is set. One relation, its joins, and what each updater needs for it. -/

-- One proof at a time: hundreds of proofs started together would each wait on the same lemma on a thread of its own.
set_option Elab.async false

namespace Sys2Proof.Machine

variable {s t u : State}

/-- The second state is what the hub's own work makes of the first. -/
def State.steady (s t : State) : Prop :=
  (t.glb.time = s.glb.time ∧ t.glb.ready = s.glb.ready ∧ t.pwr.d3cold = s.pwr.d3cold ∧ t.pending = s.pending ∧ s.out <+: t.out) ∧
  (s.wf = true → t.wf = true ∧ s.sameSettings t ∧
    ∀ pg v b, bit (s.sticky pg v).bits b = true → bit (t.sticky pg v).bits b = true)

theorem Glb.same_refl (g : Glb) : g.same g := ⟨rfl, rfl, rfl, rfl⟩
theorem Hlk.same_refl (h : Hlk) : h.same h := ⟨rfl, rfl, rfl, rfl, rfl, rfl, rfl, rfl, fun _ => rfl, fun _ => rfl, fun _ => rfl⟩
theorem Prt.same_refl (p : Prt) : p.same p := ⟨rfl, rfl, fun _ => rfl⟩

theorem State.sameSettings_refl (s : State) : s.sameSettings s := by
  refine ⟨s.glb.same_refl, ⟨rfl, rfl⟩, s.hlk.same_refl, ?_, ?_, ?_, rfl, rfl, ?_, ?_, ?_, s.prt.same_refl, rfl, rfl, ?_, ?_, ?_⟩
  · exact ⟨rfl, rfl, rfl, rfl, rfl, rfl⟩
  · exact ⟨rfl, rfl, rfl⟩
  · exact ⟨rfl, rfl, rfl, rfl⟩
  · exact ⟨rfl, rfl, rfl, rfl, rfl, rfl, rfl, rfl, rfl, rfl, rfl⟩
  · exact ⟨rfl, rfl, rfl, rfl, rfl⟩
  · exact ⟨rfl, rfl, rfl, rfl, rfl, rfl, rfl, rfl⟩
  · exact ⟨rfl, rfl, rfl, rfl, rfl, rfl⟩
  · exact ⟨rfl, rfl, rfl, rfl, rfl, rfl, rfl, rfl, rfl⟩
  · exact ⟨rfl, rfl, rfl, rfl, rfl, rfl⟩

theorem Hlk.same_trans {a b c : Hlk} (h1 : a.same b) (h2 : b.same c) : a.same c := by
  obtain ⟨a1, a2, a3, a4, a5, a6, a7, a8, a9, a10, a11⟩ := h1
  obtain ⟨b1, b2, b3, b4, b5, b6, b7, b8, b9, b10, b11⟩ := h2
  refine ⟨b1.trans a1, b2.trans a2, b3.trans a3, b4.trans a4, b5.trans a5, b6.trans a6, b7.trans a7, b8.trans a8, fun l => ?_, fun i => ?_,
    fun i => (b11 i).trans (a11 i)⟩
  · rw [← a9 l, ← b9 l]
  · rw [← a10 i, ← b10 i]

theorem Prt.same_trans {a b c : Prt} (h1 : a.same b) (h2 : b.same c) : a.same c := by
  obtain ⟨a1, a2, a3⟩ := h1
  obtain ⟨b1, b2, b3⟩ := h2
  refine ⟨b1.trans a1, b2.trans a2, fun p => ?_⟩
  rw [← a3 p, ← b3 p]

theorem State.sameSettings_trans (h1 : s.sameSettings t) (h2 : t.sameSettings u) : s.sameSettings u := by
  obtain ⟨a1, a2, a3, a4, a5, a6, a7, a8, a9, a10, a11, a12, a13, a14, a15, a16, a17⟩ := h1
  obtain ⟨b1, b2, b3, b4, b5, b6, b7, b8, b9, b10, b11, b12, b13, b14, b15, b16, b17⟩ := h2
  refine ⟨?_, ?_, Hlk.same_trans a3 b3, ?_, ?_, ?_, b7.trans a7, b8.trans a8, ?_, ?_, ?_, Prt.same_trans a12 b12, b13.trans a13,
    b14.trans a14, ?_, ?_, ?_⟩
  · simp only [Glb.same] at *; simp_all
  · simp only [Evc.same] at *; simp_all
  · simp only [Xlt.same] at *; simp_all
  · simp only [Skk.same] at *; simp_all
  · simp only [Mov.same] at *; simp_all
  · simp only [Cht.same] at *; simp_all
  · simp only [Home.same] at *; simp_all
  · simp only [Peer.same] at *; simp_all
  · simp only [Arb.same] at *; simp_all
  · simp only [Ras.same] at *; simp_all
  · simp only [Pwr.same] at *; simp_all

theorem State.steady_refl (s : State) : s.steady s :=
  ⟨⟨rfl, rfl, rfl, rfl, List.prefix_refl _⟩, fun h => ⟨h, s.sameSettings_refl, fun _ _ _ h => h⟩⟩

theorem State.steady_trans (h1 : s.steady t) (h2 : t.steady u) : s.steady u := by
  obtain ⟨⟨a1, a2, a3, a4, a5⟩, a⟩ := h1
  obtain ⟨⟨b1, b2, b3, b4, b5⟩, b⟩ := h2
  refine ⟨⟨b1.trans a1, b2.trans a2, b3.trans a3, b4.trans a4, a5.trans b5⟩, fun h => ?_⟩
  obtain ⟨w, x, y⟩ := a h
  obtain ⟨w', x', y'⟩ := b w
  exact ⟨w', State.sameSettings_trans x x', fun pg v i hi => y' pg v i (y pg v i hi)⟩

theorem State.steady_foldl {β : Type} (f : State → β → State) (l : List β) (h : s.steady t)
    (hf : ∀ (t : State) (b : β), s.steady t → s.steady (f t b)) : s.steady (l.foldl f t) := by
  induction l generalizing t with
  | nil => exact h
  | cons b r ih => exact ih (hf _ b h)

theorem State.steady_snd {α : Type} {p : α × State} {a : α} (e : p = (a, u)) (h : s.steady p.2) : s.steady u := by subst e; exact h
theorem State.steady_fst {α : Type} {p : State × α} {a : α} (e : p = (u, a)) (h : s.steady p.1) : s.steady u := by subst e; exact h
theorem State.steady_some {p : Option State} (e : p = some u) (h : ∀ v, p = some v → s.steady v) : s.steady u := h _ e
theorem State.steady_let {b : State → State} (h : s.steady t) (hb : ∀ x, s.steady x → s.steady (b x)) : s.steady (b t) := hb _ h

/-! ## The updaters -/

theorem State.steady_onEvc (f : Evc → Evc) (h : s.steady t)
    (h1 : t.evc.same (f t.evc) := by first | exact ⟨rfl, rfl⟩ | (simp only [Evc.same]; split <;> simp) | simp [Evc.same])
    (h2 : t.evc.wf = true → (f t.evc).wf = true := by
      first | exact id | (intro hw; simp only [Evc.wf, Bool.and_eq_true] at hw ⊢; simp_all)) :
    s.steady (t.onEvc f) := by
  refine State.steady_trans h ⟨⟨rfl, rfl, rfl, rfl, List.prefix_refl _⟩, fun w => ⟨?_, ?_, fun _ _ _ h => h⟩⟩
  · simp only [State.wf, Bool.and_eq_true] at w ⊢; simp_all [State.onEvc]
  · have r := t.sameSettings_refl
    simp only [State.sameSettings] at r ⊢
    simp_all [State.onEvc]

theorem State.steady_onHlk (f : Hlk → Hlk) (h : s.steady t)
    (h1 : t.hlk.wf = true → t.hlk.same (f t.hlk) := by exact fun _ => ⟨rfl, rfl, rfl, rfl, rfl, rfl, rfl, rfl, fun _ => rfl, fun _ => rfl, fun _ => rfl⟩)
    (h2 : t.hlk.wf = true → (f t.hlk).wf = true := by
      first | exact id | (intro hw; simp only [Hlk.wf, Bool.and_eq_true] at hw ⊢; simp_all)) :
    s.steady (t.onHlk f) := by
  refine State.steady_trans h ⟨⟨rfl, rfl, rfl, rfl, List.prefix_refl _⟩, fun w => ⟨?_, ?_, fun _ _ _ h => h⟩⟩
  · simp only [State.wf, Bool.and_eq_true] at w ⊢; simp_all [State.onHlk]
  · have r := t.sameSettings_refl
    have h1 := h1 (by simp only [State.wf, Bool.and_eq_true] at w; simp_all)
    simp only [State.sameSettings] at r ⊢
    simp_all [State.onHlk]

theorem State.steady_onNoc (f : Noc → Noc) (h : s.steady t)
    (h2 : t.noc.wf = true → (f t.noc).wf = true := by
      first | exact id | (intro hw; simp only [Noc.wf, Bool.and_eq_true] at hw ⊢; simp_all)) : s.steady (t.onNoc f) := by
  refine State.steady_trans h ⟨⟨rfl, rfl, rfl, rfl, List.prefix_refl _⟩, fun w => ⟨?_, t.sameSettings_refl, fun _ _ _ h => h⟩⟩
  simp only [State.wf, Bool.and_eq_true] at w ⊢; simp_all [State.onNoc]

theorem State.steady_onDbl (f : Dbl → Dbl) (h : s.steady t)
    (h2 : t.dbl.wf = true → (f t.dbl).wf = true := by
      first | exact id | (intro hw; simp only [Dbl.wf, Bool.and_eq_true] at hw ⊢; simp_all)) : s.steady (t.onDbl f) := by
  refine State.steady_trans h ⟨⟨rfl, rfl, rfl, rfl, List.prefix_refl _⟩, fun w => ⟨?_, t.sameSettings_refl, fun _ _ _ h => h⟩⟩
  simp only [State.wf, Bool.and_eq_true] at w ⊢; simp_all [State.onDbl]

theorem State.steady_onXlt (f : Xlt → Xlt) (h : s.steady t)
    (h1 : t.xlt.same (f t.xlt) := by first | exact ⟨rfl, rfl, rfl, rfl, rfl, rfl⟩ | (simp only [Xlt.same]; split <;> simp) | simp [Xlt.same])
    (h2 : t.xlt.wf = true → (f t.xlt).wf = true := by
      first | exact id | (intro hw; simp only [Xlt.wf, Bool.and_eq_true] at hw ⊢; simp_all)) :
    s.steady (t.onXlt f) := by
  refine State.steady_trans h ⟨⟨rfl, rfl, rfl, rfl, List.prefix_refl _⟩, fun w => ⟨?_, ?_, fun _ _ _ h => h⟩⟩
  · simp only [State.wf, Bool.and_eq_true] at w ⊢; simp_all [State.onXlt]
  · have r := t.sameSettings_refl
    simp only [State.sameSettings] at r ⊢
    simp_all [State.onXlt]

theorem State.steady_onSkk (f : Skk → Skk) (h : s.steady t)
    (h1 : t.skk.same (f t.skk) := by first | exact ⟨rfl, rfl, rfl⟩ | (simp only [Skk.same]; split <;> simp) | simp [Skk.same])
    (h2 : t.skk.wf = true → (f t.skk).wf = true := by
      first | exact id | (intro hw; simp only [Skk.wf, Bool.and_eq_true] at hw ⊢; simp_all)) :
    s.steady (t.onSkk f) := by
  refine State.steady_trans h ⟨⟨rfl, rfl, rfl, rfl, List.prefix_refl _⟩, fun w => ⟨?_, ?_, fun _ _ _ h => h⟩⟩
  · simp only [State.wf, Bool.and_eq_true] at w ⊢; simp_all [State.onSkk]
  · have r := t.sameSettings_refl
    simp only [State.sameSettings] at r ⊢
    simp_all [State.onSkk]

theorem State.steady_onMov (f : Mov → Mov) (h : s.steady t)
    (h1 : t.mov.same (f t.mov) := by first | exact ⟨rfl, rfl, rfl, rfl⟩ | (simp only [Mov.same]; split <;> simp) | simp [Mov.same])
    (h2 : t.mov.wf = true → (f t.mov).wf = true := by
      first | exact id | (intro hw; simp only [Mov.wf, Bool.and_eq_true] at hw ⊢; simp_all)) :
    s.steady (t.onMov f) := by
  refine State.steady_trans h ⟨⟨rfl, rfl, rfl, rfl, List.prefix_refl _⟩, fun w => ⟨?_, ?_, fun _ _ _ h => h⟩⟩
  · simp only [State.wf, Bool.and_eq_true] at w ⊢; simp_all [State.onMov]
  · have r := t.sameSettings_refl
    simp only [State.sameSettings] at r ⊢
    simp_all [State.onMov]

theorem State.steady_onCcu (f : Ccu → Ccu) (h : s.steady t)
    (h1 : (f t.ccu).seed = t.ccu.seed := by first | rfl | (split <;> rfl))
    (h2 : t.ccu.wf = true → (f t.ccu).wf = true := by
      first | exact id | (intro hw; simp only [Ccu.wf, Bool.and_eq_true] at hw ⊢; simp_all)) :
    s.steady (t.onCcu f) := by
  refine State.steady_trans h ⟨⟨rfl, rfl, rfl, rfl, List.prefix_refl _⟩, fun w => ⟨?_, ?_, fun _ _ _ h => h⟩⟩
  · simp only [State.wf, Bool.and_eq_true] at w ⊢; simp_all [State.onCcu]
  · have r := t.sameSettings_refl
    simp only [State.sameSettings] at r ⊢
    simp_all [State.onCcu]

theorem State.steady_onSyn (f : Syn → Syn) (h : s.steady t)
    (h1 : (f t.syn).slipMax = t.syn.slipMax := by first | rfl | (split <;> rfl))
    (h2 : t.syn.wf = true → (f t.syn).wf = true := by
      first | (intro hw; simp only [Syn.wf] at hw ⊢; with_reducible exact hw) | exact id | (intro hw; simp only [Syn.wf, Bool.and_eq_true] at hw ⊢; simp_all)) :
    s.steady (t.onSyn f) := by
  refine State.steady_trans h ⟨⟨rfl, rfl, rfl, rfl, List.prefix_refl _⟩, fun w => ⟨?_, ?_, fun _ _ _ h => h⟩⟩
  · simp only [State.wf, Bool.and_eq_true] at w ⊢; simp_all [State.onSyn]
  · have r := t.sameSettings_refl
    simp only [State.sameSettings] at r ⊢
    simp_all [State.onSyn]

theorem State.steady_onCht (f : Cht → Cht) (h : s.steady t)
    (h1 : t.cht.same (f t.cht) := by first | exact ⟨rfl, rfl, rfl, rfl, rfl, rfl, rfl, rfl, rfl, rfl, rfl⟩ | (simp only [Cht.same]; split <;> simp) | simp [Cht.same])
    (h2 : t.cht.wf = true → (f t.cht).wf = true := by
      first | exact id | (intro hw; simp only [Cht.wf, Bool.and_eq_true] at hw ⊢; simp_all)) :
    s.steady (t.onCht f) := by
  refine State.steady_trans h ⟨⟨rfl, rfl, rfl, rfl, List.prefix_refl _⟩, fun w => ⟨?_, ?_, fun _ _ _ h => h⟩⟩
  · simp only [State.wf, Bool.and_eq_true] at w ⊢; simp_all [State.onCht]
  · have r := t.sameSettings_refl
    simp only [State.sameSettings] at r ⊢
    simp_all [State.onCht]

theorem State.steady_onHome (f : Home → Home) (h : s.steady t)
    (h1 : t.home.same (f t.home) := by first | exact ⟨rfl, rfl, rfl, rfl, rfl⟩ | (simp only [Home.same]; split <;> simp) | simp [Home.same])
    (h2 : t.home.wf = true → (f t.home).wf = true := by
      first | exact id | (intro hw; simp only [Home.wf, Bool.and_eq_true] at hw ⊢; simp_all)) :
    s.steady (t.onHome f) := by
  refine State.steady_trans h ⟨⟨rfl, rfl, rfl, rfl, List.prefix_refl _⟩, fun w => ⟨?_, ?_, fun _ _ _ h => h⟩⟩
  · simp only [State.wf, Bool.and_eq_true] at w ⊢; simp_all [State.onHome]
  · have r := t.sameSettings_refl
    simp only [State.sameSettings] at r ⊢
    simp_all [State.onHome]

theorem State.steady_onPeer (f : Peer → Peer) (h : s.steady t)
    (h1 : t.peer.same (f t.peer) := by first | exact ⟨rfl, rfl, rfl, rfl, rfl, rfl, rfl, rfl⟩ | (simp only [Peer.same]; split <;> simp) | simp [Peer.same])
    (h2 : t.peer.wf = true → (f t.peer).wf = true := by
      first | exact id | (intro hw; simp only [Peer.wf, Bool.and_eq_true] at hw ⊢; simp_all)) :
    s.steady (t.onPeer f) := by
  refine State.steady_trans h ⟨⟨rfl, rfl, rfl, rfl, List.prefix_refl _⟩, fun w => ⟨?_, ?_, fun _ _ _ h => h⟩⟩
  · simp only [State.wf, Bool.and_eq_true] at w ⊢; simp_all [State.onPeer]
  · have r := t.sameSettings_refl
    simp only [State.sameSettings] at r ⊢
    simp_all [State.onPeer]

theorem State.steady_onPrt (f : Prt → Prt) (h : s.steady t)
    (h1 : t.prt.wf = true → t.prt.same (f t.prt) := by exact fun _ => ⟨rfl, rfl, fun _ => rfl⟩)
    (h2 : t.prt.wf = true → (f t.prt).wf = true := by
      first | exact id | (intro hw; simp only [Prt.wf, Bool.and_eq_true] at hw ⊢; simp_all)) :
    s.steady (t.onPrt f) := by
  refine State.steady_trans h ⟨⟨rfl, rfl, rfl, rfl, List.prefix_refl _⟩, fun w => ⟨?_, ?_, fun _ _ _ h => h⟩⟩
  · simp only [State.wf, Bool.and_eq_true] at w ⊢; simp_all [State.onPrt]
  · have r := t.sameSettings_refl
    have h1 := h1 (by simp only [State.wf, Bool.and_eq_true] at w; simp_all)
    simp only [State.sameSettings] at r ⊢
    simp_all [State.onPrt]

theorem State.steady_onTwn (f : Twn → Twn) (h : s.steady t)
    (h1 : (f t.twn).hbLimit = t.twn.hbLimit ∧ (f t.twn).quiesceLimit = t.twn.quiesceLimit := by
      first | (refine ⟨?_, ?_⟩ <;> (dsimp only; done)) | exact ⟨rfl, rfl⟩ | (split <;> exact ⟨rfl, rfl⟩)) :
    s.steady (t.onTwn f) := by
  refine State.steady_trans h ⟨⟨rfl, rfl, rfl, rfl, List.prefix_refl _⟩, fun w => ⟨?_, ?_, fun _ _ _ h => h⟩⟩
  · exact w
  · have r := t.sameSettings_refl
    simp only [State.sameSettings] at r ⊢
    simp_all [State.onTwn]

theorem State.steady_onArb (f : Arb → Arb) (h : s.steady t)
    (h1 : t.arb.same (f t.arb) := by first | exact ⟨rfl, rfl, rfl, rfl, rfl, rfl⟩ | (simp only [Arb.same]; split <;> simp) | simp [Arb.same])
    (h2 : t.arb.wf = true → (f t.arb).wf = true := by
      first | exact id | (intro hw; simp only [Arb.wf, Bool.and_eq_true] at hw ⊢; simp_all)) :
    s.steady (t.onArb f) := by
  refine State.steady_trans h ⟨⟨rfl, rfl, rfl, rfl, List.prefix_refl _⟩, fun w => ⟨?_, ?_, fun _ _ _ h => h⟩⟩
  · simp only [State.wf, Bool.and_eq_true] at w ⊢; simp_all [State.onArb]
  · have r := t.sameSettings_refl
    simp only [State.sameSettings] at r ⊢
    simp_all [State.onArb]

theorem State.steady_onRas (f : Ras → Ras) (h : s.steady t)
    (h1 : t.ras.same (f t.ras) := by first | exact ⟨rfl, rfl, rfl, rfl, rfl, rfl, rfl, rfl, rfl⟩ | (simp only [Ras.same]; split <;> simp) | simp [Ras.same])
    (h2 : t.ras.wf = true → (f t.ras).wf = true := by
      first | (intro hw; simp only [Ras.wf] at hw ⊢; with_reducible exact hw) | exact id | (intro hw; simp only [Ras.wf] at hw ⊢; simp_all)) :
    s.steady (t.onRas f) := by
  refine State.steady_trans h ⟨⟨rfl, rfl, rfl, rfl, List.prefix_refl _⟩, fun w => ⟨?_, ?_, fun _ _ _ h => h⟩⟩
  · simp only [State.wf, Bool.and_eq_true] at w ⊢; simp_all [State.onRas]
  · have r := t.sameSettings_refl
    simp only [State.sameSettings] at r ⊢
    simp_all [State.onRas]

theorem State.steady_onPwr (f : Pwr → Pwr) (h : s.steady t)
    (h1 : t.pwr.same (f t.pwr) := by first | exact ⟨rfl, rfl, rfl, rfl, rfl, rfl⟩ | (simp only [Pwr.same]; split <;> simp) | simp [Pwr.same])
    (h0 : (f t.pwr).d3cold = t.pwr.d3cold := by first | rfl | (split <;> rfl))
    (h2 : t.pwr.wf = true → (f t.pwr).wf = true := by
      first | exact id | (intro hw; simp only [Pwr.wf, Bool.and_eq_true] at hw ⊢; simp_all)) :
    s.steady (t.onPwr f) := by
  refine State.steady_trans h ⟨⟨rfl, rfl, h0, rfl, List.prefix_refl _⟩, fun w => ⟨?_, ?_, fun _ _ _ h => h⟩⟩
  · simp only [State.wf, Bool.and_eq_true] at w ⊢; simp_all [State.onPwr]
  · have r := t.sameSettings_refl
    simp only [State.sameSettings] at r ⊢
    simp_all [State.onPwr]


theorem State.steady_onGlb (f : Glb → Glb) (h : s.steady t)
    (h0 : (f t.glb).time = t.glb.time ∧ (f t.glb).ready = t.glb.ready := by first | exact ⟨rfl, rfl⟩ | (split <;> exact ⟨rfl, rfl⟩))
    (h1 : t.glb.same (f t.glb) := by first | exact ⟨rfl, rfl, rfl, rfl⟩ | (split <;> exact ⟨rfl, rfl, rfl, rfl⟩))
    (h2 : t.glb.wf = true → (f t.glb).wf = true := by
      first | exact id | (intro hw; simp only [Glb.wf, Bool.and_eq_true] at hw ⊢; simp_all))
    (h3 : t.glb.wf = true → ∀ i b, bit (tabGet stickyDflt t.glb.sticky i).bits b = true →
      bit (tabGet stickyDflt (f t.glb).sticky i).bits b = true := by first | exact fun _ _ _ h => h | (split <;> exact fun _ _ _ h => h)) :
    s.steady (t.onGlb f) := by
  refine State.steady_trans h ⟨⟨h0.1, h0.2, rfl, rfl, List.prefix_refl _⟩, fun w => ?_⟩
  have w' : t.glb.wf = true := by simp only [State.wf, Bool.and_eq_true] at w; simp_all
  refine ⟨?_, ?_, fun pg v b hb => h3 w' _ _ hb⟩
  · simp only [State.wf, Bool.and_eq_true] at w ⊢; simp_all [State.onGlb]
  · have r := t.sameSettings_refl
    simp only [State.sameSettings] at r ⊢
    simp_all [State.onGlb]

theorem State.steady_onSrc (n : Nat) (f : Source → Source) (h : s.steady t) : s.steady (t.onSrc n f) := State.steady_onEvc _ h
theorem State.steady_onTgt (n : Nat) (f : Target → Target) (h : s.steady t) : s.steady (t.onTgt n f) := State.steady_onEvc _ h
theorem State.steady_onChan (k : Nat) (f : Chan → Chan) (h : s.steady t) : s.steady (t.onChan k f) := State.steady_onDbl _ h
theorem State.steady_onMgmt (k : Nat) (f : Mgmt → Mgmt) (h : s.steady t) : s.steady (t.onMgmt k f) := State.steady_onDbl _ h
theorem State.steady_onBind (k : Nat) (f : Bind → Bind) (h : s.steady t) : s.steady (t.onBind k f) := State.steady_onXlt _ h
theorem State.steady_onSkkPart (k : Nat) (f : SkkPart → SkkPart) (h : s.steady t) : s.steady (t.onSkkPart k f) := State.steady_onSkk _ h
theorem State.steady_onJob (k : Nat) (g : Bool) (f : Job → Job) (h : s.steady t) : s.steady (t.onJob k g f) := State.steady_onMov _ h
theorem State.steady_onArea (k : Nat) (f : Area → Area) (h : s.steady t) : s.steady (t.onArea k f) := State.steady_onMov _ h
theorem State.steady_onMovView (k : Nat) (f : MovView → MovView) (h : s.steady t) : s.steady (t.onMovView k f) := State.steady_onMov _ h
theorem State.steady_onCcuCount (k : Nat) (f : CcuCount → CcuCount) (h : s.steady t) : s.steady (t.onCcuCount k f) := State.steady_onCcu _ h
theorem State.steady_onObj (k : Nat) (f : Obj → Obj) (h : s.steady t) : s.steady (t.onObj k f) := State.steady_onSyn _ h
theorem State.steady_onSynView (k : Nat) (f : SynView → SynView) (h : s.steady t) : s.steady (t.onSynView k f) := State.steady_onSyn _ h
theorem State.steady_onEntry (k : Nat) (f : Entry → Entry) (h : s.steady t) : s.steady (t.onEntry k f) := State.steady_onCht _ h
theorem State.steady_onChtView (k : Nat) (f : ChtView → ChtView) (h : s.steady t) : s.steady (t.onChtView k f) := State.steady_onCht _ h
theorem State.steady_onLine (k : Nat) (f : Line → Line) (h : s.steady t) : s.steady (t.onLine k f) := State.steady_onHome _ h
theorem State.steady_onIwin (k : Nat) (f : WinEntry → WinEntry) (h : s.steady t) : s.steady (t.onIwin k f) := State.steady_onPeer _ h
theorem State.steady_onFlow (k : Nat) (f : Flow → Flow) (h : s.steady t) : s.steady (t.onFlow k f) := State.steady_onPeer _ h
theorem State.steady_onRx (k : Nat) (f : RxFlow → RxFlow) (h : s.steady t) : s.steady (t.onRx k f) := State.steady_onPeer _ h
theorem State.steady_onArbiter (k : Nat) (f : Arbiter → Arbiter) (h : s.steady t) : s.steady (t.onArbiter k f) := State.steady_onArb _ h
theorem State.steady_onAreq (k i : Nat) (f : ArbReq → ArbReq) (h : s.steady t) : s.steady (t.onAreq k i f) := State.steady_onArb _ h
theorem State.steady_setWalker (k : Nat) (x : Option Walk) (h : s.steady t) : s.steady (t.setWalker k x) := State.steady_onXlt _ h
theorem State.steady_setWrec (k : Nat) (x : Option WRec) (h : s.steady t) : s.steady (t.setWrec k x) := State.steady_onSyn _ h
theorem State.steady_onMsix (a b : Nat) (f : MsixEntry → MsixEntry) (h : s.steady t) : s.steady (t.onMsix a b f) :=
  State.steady_onHlk _ h fun _ => Hlk.same_refl _

/-- A change of a link's Cache Invalid alone. -/
theorem State.steady_onLink (k : Nat) (f : Link → Link) (h : s.steady t)
    (hf : ∀ x : Link, { f x with cacheInvalid := x.cacheInvalid } = x := by exact fun _ => rfl) : s.steady (t.onLink k f) := by
  refine State.steady_onHlk _ h fun w => ⟨rfl, rfl, rfl, rfl, rfl, rfl, rfl, rfl, fun l => ?_, fun _ => rfl, fun _ => rfl⟩
  simp only [Hlk.wf, Bool.and_eq_true] at w
  rw [tabGet_tabMod _ w.1.1.1.1.2]
  split
  · next e => subst e; exact hf _
  · rfl

/-- A change of an instance's PME_Status alone. -/
theorem State.steady_onInst (a b : Nat) (f : Inst → Inst) (h : s.steady t)
    (hf : ∀ x : Inst, { f x with pmeStatus := x.pmeStatus } = x := by exact fun _ => rfl) : s.steady (t.onInst a b f) := by
  refine State.steady_onHlk _ h fun w => ⟨rfl, rfl, rfl, rfl, rfl, rfl, rfl, rfl, fun _ => rfl, fun i => ?_, fun _ => rfl⟩
  simp only [Hlk.wf, Bool.and_eq_true] at w
  rw [tabGet_tabMod _ w.1.1.1.2]
  split
  · next e => subst e; exact hf _
  · rfl

/-- A change of what an AER capability reports alone. -/
theorem State.steady_onAer (a b : Nat) (f : Aer → Aer) (h : s.steady t)
    (hf : ∀ x : Aer, (f x).settings = x.settings := by exact fun _ => rfl) : s.steady (t.onAer a b f) := by
  refine State.steady_onHlk _ h fun w => ⟨rfl, rfl, rfl, rfl, rfl, rfl, rfl, rfl, fun _ => rfl, fun _ => rfl, fun i => ?_⟩
  simp only [Hlk.wf, Bool.and_eq_true] at w
  rw [tabGet_tabMod _ w.2]
  split
  · next e => subst e; exact hf _
  · rfl

/-- A change of a partition's shutdown alone. -/
theorem State.steady_onPart (k : Nat) (f : Part → Part) (h : s.steady t)
    (hf : ∀ x : Part, { f x with closing := x.closing } = x := by exact fun _ => rfl) : s.steady (t.onPart k f) := by
  refine State.steady_onPrt _ h fun w => ⟨rfl, rfl, fun i => ?_⟩
  simp only [Prt.wf] at w
  rw [tabGet_tabMod _ w]
  split
  · next e => subst e; exact hf _
  · rfl

theorem State.steady_onCount (pg : Nat) (f : PageCounters → PageCounters) (h : s.steady t) : s.steady (t.onCount pg f) := by
  unfold State.onCount
  split
  · exact State.steady_onGlb _ h
  · exact h
theorem State.steady_ops (pg n : Nat) (h : s.steady t) : s.steady (t.ops pg n) := State.steady_onCount _ _ h
theorem State.steady_bytes (pg n : Nat) (h : s.steady t) : s.steady (t.bytes pg n) := State.steady_onCount _ _ h

/-- More goes out on the ports. -/
theorem State.steady_sent (os : List Out) (h : s.steady t) : s.steady { t with out := t.out ++ os } :=
  State.steady_trans h ⟨⟨rfl, rfl, rfl, rfl, List.prefix_append _ _⟩, fun w => ⟨w, State.sameSettings_refl t, fun _ _ _ h => h⟩⟩

theorem State.steady_emit (o : Out) (h : s.steady t) : s.steady (t.emit o) := by
  unfold State.emit
  simp only
  split
  · exact State.steady_sent _ h
  · exact State.steady_sent _ (State.steady_bytes _ _ h)

theorem State.steady_ltrSince (a : State) (h : s.steady t) : s.steady (t.ltrSince a) := State.steady_sent _ h

/-- The count of free values moves on. -/
theorem State.steady_free (n : Nat) (h : s.steady t) : s.steady { t with free := n } :=
  State.steady_trans h ⟨⟨rfl, rfl, rfl, rfl, List.prefix_refl _⟩, fun w => ⟨w, State.sameSettings_refl t, fun _ _ _ h => h⟩⟩

theorem State.steady_draw (h : s.steady t) : s.steady t.draw.2 := State.steady_free _ h

end Sys2Proof.Machine
end

