-- ==== Sys2Proof/Laws/SteadyBase.lean ====
section
/-! SUPPORT. What the hub's own work leaves alone, function by function. -/

-- One proof at a time: hundreds of proofs started together would each wait on the same lemma on a thread of its own.
set_option Elab.async false

namespace Sys2Proof.Machine

set_option linter.unusedTactic false
set_option linter.unreachableTactic false

variable {s t u : State}

theorem State.steady_retire (a0 : Nat) (h : s.steady t) : s.steady (t.retire a0) := by
  unfold State.retire
  repeat' first
    | with_reducible assumption
    | with_reducible refine State.steady_onCount _ _ ?_
    | ((with_reducible show State.steady _ (State.onGlb _ _)); refine State.steady_onGlb _ ?_)
    | (intro _ _; try dsimp only)
    | dsimp only
    | split

theorem State.steady_nocTry (a0 : Out) (h : s.steady t) : s.steady (t.nocTry a0) := by
  unfold State.nocTry
  repeat' first
    | with_reducible assumption
    | with_reducible refine State.steady_emit _ ?_
    | ((with_reducible show State.steady _ (State.onNoc _ _)); refine State.steady_onNoc _ ?_)
    | (intro _ _; try dsimp only)
    | dsimp only
    | split

theorem State.steady_send (a0 : Out) (h : s.steady t) : s.steady (t.send a0) := by
  unfold State.send
  repeat' first
    | with_reducible assumption
    | ((with_reducible show State.steady _ (State.onNoc _ _)); refine State.steady_onNoc _ ?_)
    | with_reducible refine State.steady_nocTry _ ?_
    | (intro _ _; try dsimp only)
    | dsimp only
    | split

theorem State.steady_nocDrain (h : s.steady t) : s.steady (t.nocDrain) := by
  unfold State.nocDrain
  repeat' first
    | with_reducible assumption
    | with_reducible refine State.steady_foldl _ _ ?_ ?_
    | with_reducible refine State.steady_nocTry _ ?_
    | ((with_reducible show State.steady _ (State.onNoc _ _)); refine State.steady_onNoc _ ?_)
    | with_reducible refine State.steady_foldl _ _ ?_ ?_
    | (intro _ _ _; try dsimp only)
    | (intro _ _; try dsimp only)
    | dsimp only
    | split

theorem State.steady_nocRequest (a0 : Nat) (a1 : NocMsg) (a2 : NocFor) (h : s.steady t) : s.steady (t.nocRequest a0 a1 a2) := by
  unfold State.nocRequest
  repeat' first
    | with_reducible assumption
    | ((with_reducible show State.steady _ (State.onNoc _ _)); refine State.steady_onNoc _ ?_)
    | with_reducible refine State.steady_send _ ?_
    | (intro _ _; try dsimp only)
    | dsimp only
    | split

theorem State.steady_msix (a0 : Nat) (a1 : Nat) (h : s.steady t) : s.steady (t.msix a0 a1) := by
  unfold State.msix
  repeat' first
    | with_reducible assumption
    | with_reducible refine State.steady_onMsix _ _ _ ?_
    | with_reducible refine State.steady_emit _ ?_
    | with_reducible refine State.steady_snd (by with_reducible assumption) ?_
    | (intro _ _; try dsimp only)
    | dsimp only
    | split

theorem State.steady_msixRetry (a0 : Nat) (h : s.steady t) : s.steady (t.msixRetry a0) := by
  unfold State.msixRetry
  repeat' first
    | with_reducible assumption
    | with_reducible refine State.steady_foldl _ _ ?_ ?_
    | with_reducible refine State.steady_msix _ _ ?_
    | with_reducible refine State.steady_foldl _ _ ?_ ?_
    | (intro _ _ _; try dsimp only)
    | (intro _ _; try dsimp only)
    | dsimp only
    | split

theorem State.steady_aerCor (a0 : Nat) (a1 : Nat) (a2 : Nat) (a3 : AerErr) (h : s.steady t) : s.steady (t.aerCor a0 a1 a2 a3) := by
  unfold State.aerCor
  repeat' first
    | with_reducible assumption
    | ((with_reducible show State.steady _ (State.onAer _ _ _ _)); refine State.steady_onAer _ _ _ ?_)
    | with_reducible refine State.steady_emit _ ?_
    | (intro _ _; try dsimp only)
    | dsimp only
    | split

theorem State.steady_aerLog (a0 : Nat) (a1 : Nat) (a2 : AerErr) (h : s.steady t) : s.steady (t.aerLog a0 a1 a2) := by
  unfold State.aerLog
  repeat' first
    | with_reducible assumption
    | ((with_reducible show State.steady _ (State.onAer _ _ _ _)); refine State.steady_onAer _ _ _ ?_)
    | ((with_reducible show State.steady _ (State.onHlk _ _)); refine State.steady_onHlk _ ?_)
    | with_reducible refine State.steady_aerCor _ _ _ _ ?_
    | (intro _ _; try dsimp only)
    | dsimp only
    | split

theorem State.steady_aerAt (a0 : Nat) (a1 : Nat) (a2 : AerErr) (a3 : Bool) (h : s.steady t) : s.steady (t.aerAt a0 a1 a2 a3) := by
  unfold State.aerAt
  repeat' first
    | with_reducible assumption
    | with_reducible refine State.steady_aerCor _ _ _ _ ?_
    | with_reducible refine State.steady_aerLog _ _ _ ?_
    | ((with_reducible show State.steady _ (State.onAer _ _ _ _)); refine State.steady_onAer _ _ _ ?_)
    | with_reducible refine State.steady_emit _ ?_
    | (intro _ _; try dsimp only)
    | dsimp only
    | split

theorem State.steady_aer (a0 : Nat) (a1 : AerErr) (h : s.steady t) : s.steady (t.aer a0 a1) := by
  unfold State.aer
  repeat' first
    | with_reducible assumption
    | with_reducible refine State.steady_foldl _ _ ?_ ?_
    | with_reducible refine State.steady_aerAt _ _ _ _ ?_
    | with_reducible refine State.steady_foldl _ _ ?_ ?_
    | (intro _ _ _; try dsimp only)
    | (intro _ _; try dsimp only)
    | dsimp only
    | split

theorem State.steady_pmeEdge (a0 : Nat) (h : s.steady t) : s.steady (t.pmeEdge a0) := by
  unfold State.pmeEdge
  repeat' first
    | with_reducible assumption
    | ((with_reducible show State.steady _ (State.onInst _ _ _ _)); refine State.steady_onInst _ _ _ ?_)
    | ((with_reducible show State.steady _ (State.onPwr _ _)); refine State.steady_onPwr _ ?_)
    | with_reducible refine State.steady_emit _ ?_
    | (intro _ _; try dsimp only)
    | dsimp only
    | split

theorem State.steady_deliver (a0 : Nat) (h : s.steady t) : s.steady (t.deliver a0) := by
  unfold State.deliver
  repeat' first
    | with_reducible assumption
    | with_reducible refine State.steady_pmeEdge _ ?_
    | with_reducible refine State.steady_msix _ _ ?_
    | with_reducible refine State.steady_send _ ?_
    | dsimp only
    | split

theorem State.steady_refresh (a0 : Nat) (h : s.steady t) : s.steady (t.refresh a0) := by
  unfold State.refresh
  repeat' first
    | with_reducible assumption
    | with_reducible refine State.steady_onTgt _ _ ?_
    | with_reducible refine State.steady_emit _ ?_
    | with_reducible refine State.steady_deliver _ ?_
    | (intro _ _; try dsimp only)
    | dsimp only
    | split

theorem State.steady_merge (a0 : Nat) (h : s.steady t) : s.steady (t.merge a0) := by
  unfold State.merge
  repeat' first
    | with_reducible assumption
    | ((with_reducible show State.steady _ (State.onEvc _ _)); refine State.steady_onEvc _ ?_)
    | (intro _ _; try dsimp only)
    | dsimp only
    | split

theorem State.steady_edge (a0 : Nat) (h : s.steady t) : s.steady (t.edge a0) := by
  unfold State.edge
  repeat' first
    | with_reducible assumption
    | with_reducible refine State.steady_merge _ ?_
    | with_reducible refine State.steady_onSrc _ _ ?_
    | with_reducible refine State.steady_refresh _ ?_
    | (intro _ _; try dsimp only)
    | dsimp only
    | split

theorem State.steady_claim (a0 : Nat) (h : s.steady t) : s.steady (t.claim a0).2 := by
  unfold State.claim
  repeat' first
    | with_reducible assumption
    | with_reducible refine State.steady_onSrc _ _ ?_
    | with_reducible refine State.steady_onTgt _ _ ?_
    | with_reducible refine State.steady_ops _ _ ?_
    | with_reducible refine State.steady_refresh _ ?_
    | with_reducible refine State.steady_snd (by with_reducible assumption) ?_
    | (intro _ _; try dsimp only)
    | dsimp only
    | split

/-- A view's sticky registers are set, every bit that was set among them. -/
theorem State.steady_setView (pg view : Nat) (k : Sticky) (h : s.steady t)
    (hk : ∀ i, bit (t.sticky pg view).bits i = true → bit k.bits i = true) : s.steady (t.setView pg view k) := by
  have key : s.steady (t.onGlb fun g => { g with sticky := tabPut stickyDflt g.sticky (view * 32 + pg) k }) := by
    refine State.steady_onGlb _ h (h3 := fun w i b hb => ?_)
    simp only [Glb.wf, Bool.and_eq_true] at w
    rw [tabGet_tabPut _ w.1.1]
    split
    · next e => subst e; exact hk _ hb
    · exact hb
  unfold State.setView
  dsimp only
  split
  · exact State.steady_edge _ key
  · exact key

theorem State.steady_stick (pg view b : Nat) (code : Code) (i : Nat) (h : s.steady t) : s.steady (t.stick pg view b code i) := by
  refine State.steady_setView _ _ _ h fun j hj => ?_
  simp only [capture, bit, BitVec.getLsbD_or, Bool.or_eq_true] at hj ⊢
  exact .inl hj

theorem State.steady_trace (pg view b : Nat) (code : Code) (i : Nat) (h : s.steady t) : s.steady (t.trace pg view b code i) := by
  unfold State.trace
  dsimp only
  split
  · exact h
  · generalize (if t.glb.traceAt = t.glb.time then t.glb.traceNow else 0) = n
    split
    · exact State.steady_ops _ _ (State.steady_onGlb _ h)
    · exact State.steady_stick _ _ _ _ _ (State.steady_onGlb _ h)

theorem State.steady_flag (pg view b : Nat) (code : Code) (i : Nat) (h : s.steady t) : s.steady (t.flag pg view b code i) := by
  unfold State.flag
  exact State.steady_trace _ _ _ _ _ (State.steady_stick _ _ _ _ _ h)

theorem State.steady_captureOnly (pg view : Nat) (code : Code) (i : Nat) (h : s.steady t) : s.steady (t.captureOnly pg view code i) := by
  unfold State.captureOnly
  dsimp only
  split <;> exact State.steady_setView _ _ _ h fun _ hj => hj

theorem State.steady_portProtocol (a0 : Nat) (h : s.steady t) : s.steady (t.portProtocol a0) := by
  unfold State.portProtocol
  repeat' first
    | with_reducible assumption
    | with_reducible refine State.steady_flag _ _ _ _ _ ?_
    | dsimp only
    | split

theorem State.steady_hubFatal (h : s.steady t) : s.steady (t.hubFatal) := by
  unfold State.hubFatal
  repeat' first
    | with_reducible assumption
    | ((with_reducible show State.steady _ (State.onGlb _ _)); refine State.steady_onGlb _ ?_)
    | with_reducible refine State.steady_flag _ _ _ _ _ ?_
    | with_reducible refine State.steady_edge _ ?_
    | with_reducible refine State.steady_aer _ _ ?_
    | (intro _ _; try dsimp only)
    | dsimp only
    | split

theorem State.steady_inner (a0 : State → State) (h : s.steady t) (ha0 : ∀ t, s.steady t → s.steady (a0 t )) : s.steady (t.inner a0) := by
  unfold State.inner
  repeat' first
    | with_reducible assumption
    | (with_reducible refine ha0 _ ?_)
    | (intro _ _; try dsimp only)
    | dsimp only
    | split

theorem State.steady_awake (h : s.steady t) : s.steady (t.awake) := by
  unfold State.awake
  repeat' first
    | with_reducible assumption
    | ((with_reducible show State.steady _ (State.onPwr _ _)); refine State.steady_onPwr _ ?_)
    | with_reducible refine State.steady_ops _ _ ?_
    | (intro _ _; try dsimp only)
    | dsimp only
    | split

theorem State.steady_act (a0 : State → State) (h : s.steady t) (ha0 : ∀ t, s.steady t → s.steady (a0 t )) : s.steady (t.act a0) := by
  unfold State.act
  repeat' first
    | with_reducible assumption
    | (with_reducible refine ha0 _ ?_)
    | with_reducible refine State.steady_inner _ ?_ ?_
    | with_reducible refine State.steady_awake ?_
    | (intro _ _; try dsimp only)
    | dsimp only
    | split

theorem State.steady_actAnswer (a0 : State → State) (h : s.steady t) (ha0 : ∀ t, s.steady t → s.steady (a0 t )) : s.steady (t.actAnswer a0) := by
  unfold State.actAnswer
  repeat' first
    | with_reducible assumption
    | (with_reducible refine ha0 _ ?_)
    | with_reducible refine State.steady_inner _ ?_ ?_
    | with_reducible refine State.steady_act _ ?_ ?_
    | (intro _ _; try dsimp only)
    | dsimp only
    | split

theorem State.steady_tlp (h : s.steady t) : s.steady (t.tlp) := by
  unfold State.tlp
  repeat' first
    | with_reducible assumption
    | with_reducible refine State.steady_ops _ _ ?_
    | dsimp only
    | split

theorem State.steady_paged (a0 : Nat) (a1 : State → State) (h : s.steady t) (ha1 : ∀ t, s.steady t → s.steady (a1 t )) : s.steady (t.paged a0 a1) := by
  unfold State.paged
  repeat' first
    | with_reducible assumption
    | (with_reducible refine ha1 _ ?_)
    | with_reducible refine State.steady_act _ ?_ ?_
    | with_reducible refine State.steady_tlp ?_
    | (intro _ _; try dsimp only)
    | dsimp only
    | split

theorem State.steady_view (a0 : Nat) (a1 : State → State) (h : s.steady t) (ha1 : ∀ t, s.steady t → s.steady (a1 t )) : s.steady (t.view a0 a1) := by
  unfold State.view
  repeat' first
    | with_reducible assumption
    | (with_reducible refine ha1 _ ?_)
    | with_reducible refine State.steady_paged _ _ ?_ ?_
    | (intro _ _; try dsimp only)
    | dsimp only
    | split

end Sys2Proof.Machine
end

