-- ==== Sys2Proof/Laws/SteadyHome.lean ====
section
/-! SUPPORT. What the hub's own work leaves alone, function by function. -/

-- One proof at a time: hundreds of proofs started together would each wait on the same lemma on a thread of its own.
set_option Elab.async false

namespace Sys2Proof.Machine

set_option linter.unusedTactic false
set_option linter.unreachableTactic false

variable {s t u : State}

/-- A lane's advance changes no setting. -/
theorem Ccu.putLane_seed (c : Ccu) (now : Word) (n : Nat) (x : Word) : (c.putLane now n x).seed = c.seed := by
  unfold Ccu.putLane; split <;> rfl

/-- A lane's advance keeps the tables' form. -/
theorem Ccu.putLane_wf {c : Ccu} (now : Word) (n : Nat) (x : Word) (h : c.wf = true) : (c.putLane now n x).wf = true := by
  unfold Ccu.putLane
  simp only [Ccu.wf, Bool.and_eq_true] at h ⊢
  split <;> simp_all

/-- A write of the seed keeps the tables' form. -/
theorem Ccu.reseed_wf {c : Ccu} (now v : Word) (h : c.wf = true) : (c.reseed now v).wf = true := by
  unfold Ccu.reseed
  simp only [Ccu.wf, Bool.and_eq_true] at h ⊢
  split <;> simp_all

theorem State.steady_laneDraw (h : s.steady t) : s.steady (t.laneDraw).2 := by
  unfold State.laneDraw
  dsimp only
  exact State.steady_onCcu _ (State.steady_draw h) (Ccu.putLane_seed ..) (Ccu.putLane_wf _ _ _)

theorem State.steady_laneDraws (n : Nat) (h : s.steady t) : s.steady (t.laneDraws n).2 := by
  induction n generalizing t with
  | zero => exact h
  | succ n ih =>
    unfold State.laneDraws
    dsimp only
    exact ih (State.steady_laneDraw h)

theorem State.steady_drawsFor (a b : Nat) (h : s.steady t) : s.steady (t.drawsFor a b).2 := by
  unfold State.drawsFor
  split
  · exact State.steady_laneDraws _ h
  · exact h

theorem State.steady_ccuSticky (a0 : Nat) (a1 : Nat) (n : Nat) (h : s.steady t) : s.steady (t.ccuSticky a0 a1 n) := by
  induction n generalizing t with
  | zero => exact h
  | succ n ih =>
    unfold State.ccuSticky
    repeat' first
      | with_reducible assumption
      | with_reducible refine ih ?_
      | with_reducible refine State.steady_flag _ _ _ _ _ ?_
      | dsimp only
      | split

theorem State.steady_ccuAccount (a0 : Nat) (a1 : Exc) (h : s.steady t) : s.steady (t.ccuAccount a0 a1) := by
  unfold State.ccuAccount
  repeat' first
    | with_reducible assumption
    | with_reducible refine State.steady_onCcuCount _ _ ?_
    | with_reducible refine State.steady_ccuSticky _ _ _ ?_
    | (intro _ _; try dsimp only)
    | dsimp only
    | split

theorem State.steady_convert (a0 : Nat) (a1 : ConvSpec) (a2 a3 a4 a5 : List Byte) (h : s.steady t) :
    s.steady (t.convert a0 a1 a2 a3 a4 a5).2.2 := by
  unfold State.convert
  dsimp only
  split
  · exact State.steady_ops _ _ h
  · refine State.steady_bytes _ _ (State.steady_ops _ _ (State.steady_ccuAccount _ _ ?_))
    exact State.steady_drawsFor _ _ h

theorem State.steady_dropRequests (a0 : Nat) (a1 : List (Nat × Bool)) (h : s.steady t) : s.steady (t.dropRequests a0 a1) := by
  unfold State.dropRequests
  repeat' first
    | with_reducible assumption
    | with_reducible refine State.steady_foldl _ _ ?_ ?_
    | with_reducible refine State.steady_onAreq _ _ _ ?_
    | with_reducible refine State.steady_foldl _ _ ?_ ?_
    | (intro _ _ _; try dsimp only)
    | (intro _ _; try dsimp only)
    | dsimp only
    | split

theorem State.steady_round (a0 : Nat) (a1 : List (Nat × Bool)) (a2 : Nat × Bool) (a3 : Nat) (h : s.steady t) : s.steady (t.round a0 a1 a2 a3) := by
  unfold State.round
  repeat' first
    | with_reducible assumption
    | with_reducible refine State.steady_onAreq _ _ _ ?_
    | with_reducible refine State.steady_foldl _ _ ?_ ?_
    | with_reducible refine State.steady_onArbiter _ _ ?_
    | with_reducible refine State.steady_ops _ _ ?_
    | with_reducible refine State.steady_foldl _ _ ?_ ?_
    | (intro _ _ _; try dsimp only)
    | (intro _ _; try dsimp only)
    | dsimp only
    | split

theorem State.steady_arbDecide (a0 : Nat) (a1 : List (Nat × Bool)) (a2 : List (Nat × Bool)) (h : s.steady t) : s.steady (t.arbDecide a0 a1 a2) := by
  unfold State.arbDecide
  repeat' first
    | with_reducible assumption
    | with_reducible refine State.steady_dropRequests _ _ ?_
    | with_reducible refine State.steady_foldl _ _ ?_ ?_
    | with_reducible refine State.steady_onAreq _ _ _ ?_
    | with_reducible refine State.steady_onArbiter _ _ ?_
    | with_reducible refine State.steady_round _ _ _ _ ?_
    | with_reducible refine State.steady_foldl _ _ ?_ ?_
    | (intro _ _ _; try dsimp only)
    | (intro _ _; try dsimp only)
    | dsimp only
    | split

theorem State.steady_arbWithdraw (a0 : Nat) (h : s.steady t) : s.steady (t.arbWithdraw a0) := by
  unfold State.arbWithdraw
  repeat' first
    | with_reducible assumption
    | with_reducible refine State.steady_onAreq _ _ _ ?_
    | with_reducible refine State.steady_onArbiter _ _ ?_
    | (intro _ _; try dsimp only)
    | dsimp only
    | split

theorem State.steady_arbUse (a0 : Nat) (a1 : Nat) (h : s.steady t) : s.steady (t.arbUse a0 a1) := by
  unfold State.arbUse
  repeat' first
    | with_reducible assumption
    | with_reducible refine State.steady_onArbiter _ _ ?_
    | (intro _ _; try dsimp only)
    | dsimp only
    | split

theorem State.steady_arbCycle (a0 : Nat) (a1 : List (Nat × Bool)) (a2 : List (Nat × Bool)) (h : s.steady t) : s.steady (t.arbCycle a0 a1 a2) := by
  unfold State.arbCycle
  repeat' first
    | with_reducible assumption
    | with_reducible refine State.steady_arbWithdraw _ ?_
    | with_reducible refine State.steady_arbDecide _ _ _ ?_
    | dsimp only
    | split

theorem State.steady_arbNext (a0 : Nat) (a1 : List (Nat × Bool)) (a2 : List (Nat × Bool)) (a3 : Nat) (h : s.steady t) : s.steady (t.arbNext a0 a1 a2 a3) := by
  unfold State.arbNext
  repeat' first
    | with_reducible assumption
    | with_reducible refine State.steady_onArbiter _ _ ?_
    | with_reducible refine State.steady_arbDecide _ _ _ ?_
    | (intro _ _; try dsimp only)
    | dsimp only
    | split

theorem State.steady_starve (a0 : Nat) (a1 : Nat) (h : s.steady t) : s.steady (t.starve a0 a1) := by
  unfold State.starve
  repeat' first
    | with_reducible assumption
    | with_reducible refine State.steady_onAreq _ _ _ ?_
    | ((with_reducible show State.steady _ (State.onArb _ _)); refine State.steady_onArb _ ?_)
    | with_reducible refine State.steady_flag _ _ _ _ _ ?_
    | (intro _ _; try dsimp only)
    | dsimp only
    | split

theorem State.steady_chanPrio (a0 : Nat) (a1 : Word) (h : s.steady t) : s.steady (t.chanPrio a0 a1) := by
  unfold State.chanPrio
  repeat' first
    | with_reducible assumption
    | with_reducible refine State.steady_onChan _ _ ?_
    | with_reducible refine State.steady_flag _ _ _ _ _ ?_
    | (intro _ _; try dsimp only)
    | dsimp only
    | split

theorem State.steady_storeNow (a0 : Nat) (a1 : Nat) (a2 : Nat) (a3 : Nat → Byte) (h : s.steady t) : s.steady (t.storeNow a0 a1 a2 a3) := by
  unfold State.storeNow
  repeat' first
    | with_reducible assumption
    | ((with_reducible show State.steady _ (State.onRas _ _)); refine State.steady_onRas _ ?_)
    | with_reducible refine State.steady_emit _ ?_
    | with_reducible refine State.steady_foldl _ _ ?_ ?_
    | with_reducible refine State.steady_foldl _ _ ?_ ?_
    | (intro _ _ _; try dsimp only)
    | (intro _ _; try dsimp only)
    | dsimp only
    | split

theorem State.steady_storeWrite (a0 : Nat) (a1 : Nat) (a2 : Nat) (a3 : Nat → Byte) (h : s.steady t) : s.steady (t.storeWrite a0 a1 a2 a3) := by
  unfold State.storeWrite
  repeat' first
    | with_reducible assumption
    | ((with_reducible show State.steady _ (State.onRas _ _)); refine State.steady_onRas _ ?_)
    | with_reducible refine State.steady_storeNow _ _ _ _ ?_
    | (intro _ _; try dsimp only)
    | dsimp only
    | split

theorem State.steady_releaseStores (a0 : Nat) (h : s.steady t) : s.steady (t.releaseStores a0) := by
  unfold State.releaseStores
  repeat' first
    | with_reducible assumption
    | with_reducible refine State.steady_foldl _ _ ?_ ?_
    | with_reducible refine State.steady_storeNow _ _ _ _ ?_
    | ((with_reducible show State.steady _ (State.onRas _ _)); refine State.steady_onRas _ ?_)
    | with_reducible refine State.steady_foldl _ _ ?_ ?_
    | (intro _ _ _; try dsimp only)
    | (intro _ _; try dsimp only)
    | dsimp only
    | split

theorem State.steady_storeBlock (a0 : Nat) (h : s.steady t) : s.steady (t.storeBlock a0) := by
  unfold State.storeBlock
  repeat' first
    | with_reducible assumption
    | with_reducible refine State.steady_storeWrite _ _ _ _ ?_
    | dsimp only
    | split

theorem State.steady_coh (a0 : Nat) (a1 : Code) (h : s.steady t) : s.steady (t.coh a0 a1) := by
  unfold State.coh
  repeat' first
    | with_reducible assumption
    | with_reducible refine State.steady_flag _ _ _ _ _ ?_
    | dsimp only
    | split

theorem State.steady_answer (a0 : HomeReq) (a1 : Nat) (a2 : Code) (a3 : Bool) (a4 : Granule) (h : s.steady t) : s.steady (t.answer a0 a1 a2 a3 a4) := by
  unfold State.answer
  repeat' first
    | with_reducible assumption
    | with_reducible refine State.steady_send _ ?_
    | ((with_reducible show State.steady _ (State.onHome _ _)); refine State.steady_onHome _ ?_)
    | (intro _ _; try dsimp only)
    | dsimp only
    | split

theorem State.steady_err (a0 : HomeReq) (a1 : Code) (h : s.steady t) : s.steady (t.err a0 a1) := by
  unfold State.err
  repeat' first
    | with_reducible assumption
    | with_reducible refine State.steady_answer _ _ _ _ _ ?_
    | dsimp only
    | split

theorem State.steady_snoopOne (a0 : Bool) (a1 : Nat) (a2 : Nat) (a3 : Word) (a4 : Nat) (h : s.steady t) : s.steady (t.snoopOne a0 a1 a2 a3 a4) := by
  unfold State.snoopOne
  repeat' first
    | with_reducible assumption
    | ((with_reducible show State.steady _ (State.onHome _ _)); refine State.steady_onHome _ ?_)
    | with_reducible refine State.steady_send _ ?_
    | (intro _ _; try dsimp only)
    | dsimp only
    | split

theorem State.steady_snoopAll (a0 : Nat) (a1 : Nat) (a2 : List Nat) (h : s.steady t) : s.steady (t.snoopAll a0 a1 a2) := by
  unfold State.snoopAll
  repeat' first
    | with_reducible assumption
    | with_reducible refine State.steady_foldl _ _ ?_ ?_
    | with_reducible refine State.steady_snoopOne _ _ _ _ _ ?_
    | with_reducible refine State.steady_foldl _ _ ?_ ?_
    | (intro _ _ _; try dsimp only)
    | (intro _ _; try dsimp only)
    | dsimp only
    | split

theorem State.steady_onTxn (a0 : Nat) (a1 : Txn → Txn) (h : s.steady t) : s.steady (t.onTxn a0 a1) := by
  unfold State.onTxn
  repeat' first
    | with_reducible assumption
    | with_reducible refine State.steady_onLine _ _ ?_
    | (intro _ _; try dsimp only)
    | dsimp only
    | split

theorem State.steady_due (a0 : Nat) (h : s.steady t) : s.steady (t.due a0) := by
  unfold State.due
  repeat' first
    | with_reducible assumption
    | ((with_reducible show State.steady _ (State.onHome _ _)); refine State.steady_onHome _ ?_)
    | (intro _ _; try dsimp only)
    | dsimp only
    | split

theorem State.steady_stir (a0 : Nat) (h : s.steady t) : s.steady (t.stir a0) := by
  unfold State.stir
  repeat' first
    | with_reducible assumption
    | ((with_reducible show State.steady _ (State.onHome _ _)); refine State.steady_onHome _ ?_)
    | (intro _ _; try dsimp only)
    | dsimp only
    | split

theorem State.steady_endTxn (a0 : Nat) (h : s.steady t) : s.steady (t.endTxn a0) := by
  unfold State.endTxn
  repeat' first
    | with_reducible assumption
    | with_reducible refine State.steady_onLine _ _ ?_
    | with_reducible refine State.steady_due _ ?_
    | with_reducible refine State.steady_stir _ ?_
    | (intro _ _; try dsimp only)
    | dsimp only
    | split

theorem State.steady_wakeLine (a0 : Nat) (h : s.steady t) : s.steady (t.wakeLine a0) := by
  unfold State.wakeLine
  repeat' first
    | with_reducible assumption
    | ((with_reducible show State.steady _ (State.onHome _ _)); refine State.steady_onHome _ ?_)
    | (intro _ _; try dsimp only)
    | dsimp only
    | split

theorem State.steady_freeEntry (a0 : Nat) (h : s.steady t) : s.steady (t.freeEntry a0) := by
  unfold State.freeEntry
  repeat' first
    | with_reducible assumption
    | with_reducible refine State.steady_onLine _ _ ?_
    | with_reducible refine State.steady_stir _ ?_
    | (intro _ _; try dsimp only)
    | dsimp only
    | split

theorem State.steady_failTxn (a0 : Nat) (a1 : Code) (h : s.steady t) : s.steady (t.failTxn a0 a1) := by
  unfold State.failTxn
  repeat' first
    | with_reducible assumption
    | with_reducible refine State.steady_err _ _ ?_
    | with_reducible refine State.steady_freeEntry _ ?_
    | with_reducible refine State.steady_endTxn _ ?_
    | dsimp only
    | split

theorem State.steady_hostReq (a0 : Nat) (a1 : String) (h : s.steady t) : s.steady (t.hostReq a0 a1) := by
  unfold State.hostReq
  repeat' first
    | with_reducible assumption
    | with_reducible refine State.steady_failTxn _ _ ?_
    | with_reducible refine State.steady_flag _ _ _ _ _ ?_
    | with_reducible refine State.steady_onTxn _ _ ?_
    | with_reducible refine State.steady_emit _ ?_
    | (intro _ _; try dsimp only)
    | dsimp only
    | split

theorem State.steady_rdCurr (a0 : Nat) (h : s.steady t) : s.steady (t.rdCurr a0) := by
  unfold State.rdCurr
  repeat' first
    | with_reducible assumption
    | with_reducible refine State.steady_onTxn _ _ ?_
    | with_reducible refine State.steady_hostReq _ _ ?_
    | (intro _ _; try dsimp only)
    | dsimp only
    | split

theorem State.steady_evictLine (a0 : Nat) (h : s.steady t) : s.steady (t.evictLine a0) := by
  unfold State.evictLine
  repeat' first
    | with_reducible assumption
    | with_reducible refine State.steady_onTxn _ _ ?_
    | with_reducible refine State.steady_emit _ ?_
    | with_reducible refine State.steady_hostReq _ _ ?_
    | (intro _ _; try dsimp only)
    | dsimp only
    | split

theorem State.steady_recallLine (a0 : Nat) (h : s.steady t) : s.steady (t.recallLine a0) := by
  unfold State.recallLine
  repeat' first
    | with_reducible assumption
    | with_reducible refine State.steady_onLine _ _ ?_
    | ((with_reducible show State.steady _ (State.onHome _ _)); refine State.steady_onHome _ ?_)
    | with_reducible refine State.steady_evictLine _ ?_
    | with_reducible refine State.steady_snoopAll _ _ _ ?_
    | (intro _ _; try dsimp only)
    | dsimp only
    | split

theorem State.steady_dcVictim (a0 : Nat) (a1 : Line) (h : s.steady t) : s.steady (t.dcVictim a0 a1) := by
  unfold State.dcVictim
  repeat' first
    | with_reducible assumption
    | with_reducible refine State.steady_onLine _ _ ?_
    | with_reducible refine State.steady_evictLine _ ?_
    | with_reducible refine State.steady_recallLine _ ?_
    | (intro _ _; try dsimp only)
    | dsimp only
    | split

theorem State.steady_dcRoom (a0 : Nat) (h : s.steady t) : s.steady (t.dcRoom a0) := by
  unfold State.dcRoom
  repeat' first
    | with_reducible assumption
    | with_reducible refine State.steady_draw ?_
    | with_reducible refine State.steady_dcVictim _ _ ?_
    | with_reducible refine State.steady_snd (by with_reducible assumption) ?_
    | (intro _ _; try dsimp only)
    | dsimp only
    | split

theorem State.steady_dcTake (a0 : Nat) (h : s.steady t) : s.steady (t.dcTake a0) := by
  unfold State.dcTake
  repeat' first
    | with_reducible assumption
    | with_reducible refine State.steady_dcRoom _ ?_
    | with_reducible refine State.steady_onLine _ _ ?_
    | (intro _ _; try dsimp only)
    | dsimp only
    | split

theorem State.steady_fillDc (a0 : Nat) (a1 : Bool) (a2 : Bool) (a3 : Granule) (h : s.steady t) : s.steady (t.fillDc a0 a1 a2 a3) := by
  unfold State.fillDc
  repeat' first
    | with_reducible assumption
    | with_reducible refine State.steady_onLine _ _ ?_
    | with_reducible refine State.steady_dcTake _ ?_
    | (intro _ _; try dsimp only)
    | dsimp only
    | split

theorem State.steady_startAtomic (a0 : Nat) (a1 : HomeReq) (h : s.steady t) : s.steady (t.startAtomic a0 a1) := by
  unfold State.startAtomic
  repeat' first
    | with_reducible assumption
    | with_reducible refine State.steady_onLine _ _ ?_
    | with_reducible refine State.steady_err _ _ ?_
    | with_reducible refine State.steady_endTxn _ ?_
    | with_reducible refine State.steady_onTxn _ _ ?_
    | (intro _ _; try dsimp only)
    | dsimp only
    | split

theorem State.steady_writeDc (a0 : Nat) (a1 : HomeReq) (a2 : Granule) (a3 : Bool) (h : s.steady t) : s.steady (t.writeDc a0 a1 a2 a3) := by
  unfold State.writeDc
  repeat' first
    | with_reducible assumption
    | with_reducible refine State.steady_onLine _ _ ?_
    | with_reducible refine State.steady_fillDc _ _ _ _ ?_
    | with_reducible refine State.steady_answer _ _ _ _ _ ?_
    | with_reducible refine State.steady_wakeLine _ ?_
    | with_reducible refine State.steady_endTxn _ ?_
    | dsimp only
    | split

theorem State.steady_serveData (a0 : Nat) (a1 : HomeReq) (a2 : Bool) (a3 : Granule) (h : s.steady t) : s.steady (t.serveData a0 a1 a2 a3) := by
  unfold State.serveData
  repeat' first
    | with_reducible assumption
    | with_reducible refine State.steady_fillDc _ _ _ _ ?_
    | with_reducible refine State.steady_onLine _ _ ?_
    | with_reducible refine State.steady_err _ _ ?_
    | with_reducible refine State.steady_answer _ _ _ _ _ ?_
    | with_reducible refine State.steady_endTxn _ ?_
    | with_reducible refine State.steady_writeDc _ _ _ _ ?_
    | with_reducible refine State.steady_startAtomic _ _ ?_
    | (intro _ _; try dsimp only)
    | dsimp only
    | split

theorem State.steady_needData (a0 : Nat) (a1 : HomeReq) (h : s.steady t) : s.steady (t.needData a0 a1) := by
  unfold State.needData
  repeat' first
    | with_reducible assumption
    | with_reducible refine State.steady_rdCurr _ ?_
    | with_reducible refine State.steady_serveData _ _ _ _ ?_
    | dsimp only
    | split

theorem State.steady_writeLine (a0 : Nat) (a1 : HomeReq) (h : s.steady t) : s.steady (t.writeLine a0 a1) := by
  unfold State.writeLine
  repeat' first
    | with_reducible assumption
    | with_reducible refine State.steady_writeDc _ _ _ _ ?_
    | with_reducible refine State.steady_onLine _ _ ?_
    | with_reducible refine State.steady_needData _ _ ?_
    | with_reducible refine State.steady_freeEntry _ ?_
    | with_reducible refine State.steady_wakeLine _ ?_
    | with_reducible refine State.steady_onTxn _ _ ?_
    | with_reducible refine State.steady_hostReq _ _ ?_
    | (intro _ _; try dsimp only)
    | dsimp only
    | split

theorem State.steady_hostRsp (a0 : Nat) (a1 : Nat) (a2 : String) (h : s.steady t) : s.steady (t.hostRsp a0 a1 a2) := by
  unfold State.hostRsp
  repeat' first
    | with_reducible assumption
    | ((with_reducible show State.steady _ (State.onHome _ _)); refine State.steady_onHome _ ?_)
    | with_reducible refine State.steady_emit _ ?_
    | (intro _ _; try dsimp only)
    | dsimp only
    | split

theorem State.steady_hostAnswer (a0 : Nat) (a1 : Nat) (a2 : Nat) (h : s.steady t) : s.steady (t.hostAnswer a0 a1 a2) := by
  unfold State.hostAnswer
  repeat' first
    | with_reducible assumption
    | with_reducible refine State.steady_hostRsp _ _ _ ?_
    | with_reducible refine State.steady_emit _ ?_
    | with_reducible refine State.steady_freeEntry _ ?_
    | with_reducible refine State.steady_wakeLine _ ?_
    | with_reducible refine State.steady_onLine _ _ ?_
    | (intro _ _; try dsimp only)
    | dsimp only
    | split

theorem State.steady_yieldTxn (a0 : Nat) (h : s.steady t) : s.steady (t.yieldTxn a0) := by
  unfold State.yieldTxn
  repeat' first
    | with_reducible assumption
    | with_reducible refine State.steady_onLine _ _ ?_
    | with_reducible refine State.steady_due _ ?_
    | (intro _ _; try dsimp only)
    | dsimp only
    | split

theorem State.steady_settleLost (a0 : Nat) (a1 : Txn) (h : s.steady t) : s.steady (t.settleLost a0 a1) := by
  unfold State.settleLost
  repeat' first
    | with_reducible assumption
    | with_reducible refine State.steady_endTxn _ ?_
    | with_reducible refine State.steady_hostRsp _ _ _ ?_
    | with_reducible refine State.steady_yieldTxn _ ?_
    | dsimp only
    | split

theorem State.steady_settle (a0 : Nat) (h : s.steady t) : s.steady (t.settle a0) := by
  unfold State.settle
  repeat' first
    | with_reducible assumption
    | with_reducible refine State.steady_settleLost _ _ ?_
    | with_reducible refine State.steady_yieldTxn _ ?_
    | with_reducible refine State.steady_evictLine _ ?_
    | with_reducible refine State.steady_hostAnswer _ _ _ ?_
    | with_reducible refine State.steady_endTxn _ ?_
    | with_reducible refine State.steady_writeLine _ _ ?_
    | with_reducible refine State.steady_onLine _ _ ?_
    | with_reducible refine State.steady_needData _ _ ?_
    | dsimp only
    | split

theorem State.steady_begin (a0 : Nat) (a1 : HomeReq) (a2 : Tran) (a3 : Nat) (a4 : List Nat) (h : s.steady t) : s.steady (t.begin a0 a1 a2 a3 a4) := by
  unfold State.begin
  repeat' first
    | with_reducible assumption
    | with_reducible refine State.steady_onLine _ _ ?_
    | with_reducible refine State.steady_snoopAll _ _ _ ?_
    | (intro _ _; try dsimp only)
    | dsimp only
    | split

theorem State.steady_allocate (a0 : Nat) (a1 : HomeReq) (h : s.steady t) : s.steady (t.allocate a0 a1) := by
  unfold State.allocate
  repeat' first
    | with_reducible assumption
    | with_reducible refine State.steady_onLine _ _ ?_
    | ((with_reducible show State.steady _ (State.onHome _ _)); refine State.steady_onHome _ ?_)
    | with_reducible refine State.steady_onTxn _ _ ?_
    | with_reducible refine State.steady_hostReq _ _ ?_
    | with_reducible refine State.steady_recallLine _ ?_
    | with_reducible refine State.steady_foldl _ _ ?_ ?_
    | with_reducible refine State.steady_foldl _ _ ?_ ?_
    | with_reducible refine State.steady_snd (by with_reducible assumption) ?_
    | (intro _ _ _; try dsimp only)
    | (intro _ _; try dsimp only)
    | dsimp only
    | split

theorem State.steady_startReq (a0 : Nat) (a1 : HomeReq) (h : s.steady t) : s.steady (t.startReq a0 a1) := by
  unfold State.startReq
  repeat' first
    | with_reducible assumption
    | with_reducible refine State.steady_ops _ _ ?_
    | with_reducible refine State.steady_begin _ _ _ _ _ ?_
    | with_reducible refine State.steady_rdCurr _ ?_
    | with_reducible refine State.steady_writeLine _ _ ?_
    | with_reducible refine State.steady_allocate _ _ ?_
    | with_reducible refine State.steady_settle _ ?_
    | with_reducible refine State.steady_needData _ _ ?_
    | with_reducible refine State.steady_hostReq _ _ ?_
    | dsimp only
    | split

theorem State.steady_retry (a0 : Nat) (a1 : HomeReq) (h : s.steady t) : s.steady (t.retry a0 a1) := by
  unfold State.retry
  repeat' first
    | with_reducible assumption
    | ((with_reducible show State.steady _ (State.onHome _ _)); refine State.steady_onHome _ ?_)
    | with_reducible refine State.steady_onLine _ _ ?_
    | with_reducible refine State.steady_answer _ _ _ _ _ ?_
    | (intro _ _; try dsimp only)
    | dsimp only
    | split

theorem State.steady_startSnoop (a0 : Nat) (a1 : Nat) (a2 : Nat) (h : s.steady t) : s.steady (t.startSnoop a0 a1 a2) := by
  unfold State.startSnoop
  repeat' first
    | with_reducible assumption
    | with_reducible refine State.steady_hostRsp _ _ _ ?_
    | with_reducible refine State.steady_due _ ?_
    | with_reducible refine State.steady_onLine _ _ ?_
    | with_reducible refine State.steady_snoopAll _ _ _ ?_
    | with_reducible refine State.steady_settle _ ?_
    | (intro _ _; try dsimp only)
    | dsimp only
    | split

theorem State.steady_serveNext (a0 : Nat) (h : s.steady t) : s.steady (t.serveNext a0) := by
  unfold State.serveNext
  repeat' first
    | with_reducible assumption
    | with_reducible refine State.steady_onLine _ _ ?_
    | with_reducible refine State.steady_startReq _ _ ?_
    | with_reducible refine State.steady_retry _ _ ?_
    | with_reducible refine State.steady_send _ ?_
    | with_reducible refine State.steady_due _ ?_
    | with_reducible refine State.steady_snd (by with_reducible assumption) ?_
    | (intro _ _; try dsimp only)
    | dsimp only
    | split

theorem State.steady_serveLine (a0 : Nat) (h : s.steady t) : s.steady (t.serveLine a0) := by
  unfold State.serveLine
  repeat' first
    | with_reducible assumption
    | with_reducible refine State.steady_dcTake _ ?_
    | with_reducible refine State.steady_allocate _ _ ?_
    | with_reducible refine State.steady_onLine _ _ ?_
    | with_reducible refine State.steady_startSnoop _ _ _ ?_
    | with_reducible refine State.steady_recallLine _ ?_
    | with_reducible refine State.steady_serveNext _ ?_
    | (intro _ _; try dsimp only)
    | dsimp only
    | split

theorem State.steady_homePump (n : Nat) (h : s.steady t) : s.steady (t.homePump n) := by
  induction n generalizing t with
  | zero => exact h
  | succ n ih =>
    unfold State.homePump
    repeat' first
      | with_reducible assumption
      | with_reducible refine ih ?_
      | ((with_reducible show State.steady _ (State.onHome _ _)); refine State.steady_onHome _ ?_)
      | with_reducible refine State.steady_serveLine _ ?_
      | (intro _ _; try dsimp only)
      | dsimp only
      | split

theorem State.steady_runHome (h : s.steady t) : s.steady (t.runHome) := by
  unfold State.runHome
  repeat' first
    | with_reducible assumption
    | with_reducible refine State.steady_homePump _ ?_
    | dsimp only
    | split

theorem State.steady_homeAsk (a0 : HomeReq) (a1 : Bool) (h : s.steady t) : s.steady (t.homeAsk a0 a1) := by
  unfold State.homeAsk
  repeat' first
    | with_reducible assumption
    | with_reducible refine State.steady_coh _ _ ?_
    | with_reducible refine State.steady_err _ _ ?_
    | ((with_reducible show State.steady _ (State.onHome _ _)); refine State.steady_onHome _ ?_)
    | with_reducible refine State.steady_retry _ _ ?_
    | with_reducible refine State.steady_onLine _ _ ?_
    | with_reducible refine State.steady_startReq _ _ ?_
    | with_reducible refine State.steady_runHome ?_
    | with_reducible refine State.steady_due _ ?_
    | (intro _ _; try dsimp only)
    | dsimp only
    | split

theorem State.steady_releaseHeld (h : s.steady t) : s.steady (t.releaseHeld) := by
  unfold State.releaseHeld
  repeat' first
    | with_reducible assumption
    | with_reducible refine State.steady_foldl _ _ ?_ ?_
    | with_reducible refine State.steady_homeAsk _ _ ?_
    | ((with_reducible show State.steady _ (State.onHome _ _)); refine State.steady_onHome _ ?_)
    | with_reducible refine State.steady_foldl _ _ ?_ ?_
    | (intro _ _ _; try dsimp only)
    | (intro _ _; try dsimp only)
    | dsimp only
    | split

theorem State.steady_agentBreach (a0 : Nat) (h : s.steady t) : s.steady (t.agentBreach a0) := by
  unfold State.agentBreach
  repeat' first
    | with_reducible assumption
    | with_reducible refine State.steady_portProtocol _ ?_
    | dsimp only
    | split

theorem State.steady_agentReq (a0 : HReq) (a1 : ReqKind) (a2 : Granule) (a3 : AtomicOp) (h : s.steady t) : s.steady (t.agentReq a0 a1 a2 a3) := by
  unfold State.agentReq
  repeat' first
    | with_reducible assumption
    | with_reducible refine State.steady_portProtocol _ ?_
    | with_reducible refine State.steady_homeAsk _ _ ?_
    | dsimp only
    | split

theorem State.steady_snoopDone (a0 : Nat) (a1 : Nat) (h : s.steady t) : s.steady (t.snoopDone a0 a1) := by
  unfold State.snoopDone
  repeat' first
    | with_reducible assumption
    | with_reducible refine State.steady_onTxn _ _ ?_
    | with_reducible refine State.steady_settle _ ?_
    | with_reducible refine State.steady_runHome ?_
    | (intro _ _; try dsimp only)
    | dsimp only
    | split

theorem State.steady_absorb (a0 : Nat) (a1 : Txn) (a2 : Bool) (a3 : Granule) (h : s.steady t) : s.steady (t.absorb a0 a1 a2 a3) := by
  unfold State.absorb
  repeat' first
    | with_reducible assumption
    | with_reducible refine State.steady_fillDc _ _ _ _ ?_
    | with_reducible refine State.steady_wakeLine _ ?_
    | dsimp only
    | split

theorem State.steady_onAnswer (a0 : Nat) (a1 : Nat) (a2 : Txn) (a3 : Ans) (a4 : Bool) (a5 : Granule) (h : s.steady t) : s.steady (t.onAnswer a0 a1 a2 a3 a4 a5) := by
  unfold State.onAnswer
  repeat' first
    | with_reducible assumption
    | with_reducible refine State.steady_onLine _ _ ?_
    | with_reducible refine State.steady_snoopDone _ _ ?_
    | with_reducible refine State.steady_absorb _ _ _ _ ?_
    | ((with_reducible show State.steady _ (State.onHome _ _)); refine State.steady_onHome _ ?_)
    | with_reducible refine State.steady_onTxn _ _ ?_
    | (intro _ _; try dsimp only)
    | dsimp only
    | split

theorem State.steady_endFlushes (h : s.steady t) : s.steady (t.endFlushes) := by
  unfold State.endFlushes
  repeat' first
    | with_reducible assumption
    | ((with_reducible show State.steady _ (State.onHome _ _)); refine State.steady_onHome _ ?_)
    | with_reducible refine State.steady_runHome ?_
    | with_reducible refine State.steady_releaseHeld ?_
    | (intro _ _; try dsimp only)
    | dsimp only
    | split

theorem State.steady_flushLine (a0 : Nat) (h : s.steady t) : s.steady (t.flushLine a0) := by
  unfold State.flushLine
  repeat' first
    | with_reducible assumption
    | with_reducible refine State.steady_onLine _ _ ?_
    | with_reducible refine State.steady_evictLine _ ?_
    | with_reducible refine State.steady_freeEntry _ ?_
    | with_reducible refine State.steady_wakeLine _ ?_
    | (intro _ _; try dsimp only)
    | dsimp only
    | split

theorem State.steady_flushGo (a0 : Nat) (h : s.steady t) : s.steady (t.flushGo a0) := by
  unfold State.flushGo
  repeat' first
    | with_reducible assumption
    | with_reducible refine State.steady_flushLine _ ?_
    | dsimp only
    | split

theorem State.steady_flushedLine (a0 : Nat) (a1 : Nat) (h : s.steady t) : s.steady (t.flushedLine a0 a1) := by
  unfold State.flushedLine
  repeat' first
    | with_reducible assumption
    | with_reducible refine State.steady_onLine _ _ ?_
    | with_reducible refine State.steady_flushLine _ ?_
    | (intro _ _; try dsimp only)
    | dsimp only
    | split

theorem State.steady_flushed (a0 : Nat) (a1 : Nat) (h : s.steady t) : s.steady (t.flushed a0 a1) := by
  unfold State.flushed
  repeat' first
    | with_reducible assumption
    | ((with_reducible show State.steady _ (State.onHome _ _)); refine State.steady_onHome _ ?_)
    | with_reducible refine State.steady_foldl _ _ ?_ ?_
    | with_reducible refine State.steady_flushedLine _ _ ?_
    | with_reducible refine State.steady_runHome ?_
    | with_reducible refine State.steady_endFlushes ?_
    | with_reducible refine State.steady_foldl _ _ ?_ ?_
    | (intro _ _ _; try dsimp only)
    | (intro _ _; try dsimp only)
    | dsimp only
    | split

theorem State.steady_lateAnswer (a0 : Nat) (a1 : Nat) (a2 : Ans) (h : s.steady t) : s.steady (t.lateAnswer a0 a1 a2) := by
  unfold State.lateAnswer
  repeat' first
    | with_reducible assumption
    | with_reducible refine State.steady_onLine _ _ ?_
    | (intro _ _; try dsimp only)
    | dsimp only
    | split

theorem State.steady_snoopAnswer (a0 : SnpHdr) (a1 : Word) (a2 : Ans) (a3 : Granule) (h : s.steady t) : s.steady (t.snoopAnswer a0 a1 a2 a3) := by
  unfold State.snoopAnswer
  repeat' first
    | with_reducible assumption
    | ((with_reducible show State.steady _ (State.onHome _ _)); refine State.steady_onHome _ ?_)
    | with_reducible refine State.steady_onAnswer _ _ _ _ _ _ ?_
    | with_reducible refine State.steady_endFlushes ?_
    | with_reducible refine State.steady_lateAnswer _ _ _ ?_
    | with_reducible refine State.steady_flushed _ _ ?_
    | with_reducible refine State.steady_agentBreach _ ?_
    | (intro _ _; try dsimp only)
    | dsimp only
    | split

theorem State.steady_wbAck (a0 : HReq) (h : s.steady t) : s.steady (t.wbAck a0) := by
  unfold State.wbAck
  repeat' first
    | with_reducible assumption
    | with_reducible refine State.steady_send _ ?_
    | dsimp only
    | split

theorem State.steady_onWriteBack (a0 : HReq) (a1 : Granule) (h : s.steady t) : s.steady (t.onWriteBack a0 a1) := by
  unfold State.onWriteBack
  repeat' first
    | with_reducible assumption
    | with_reducible refine State.steady_portProtocol _ ?_
    | with_reducible refine State.steady_coh _ _ ?_
    | with_reducible refine State.steady_err _ _ ?_
    | with_reducible refine State.steady_onLine _ _ ?_
    | with_reducible refine State.steady_evictLine _ ?_
    | with_reducible refine State.steady_wbAck _ ?_
    | with_reducible refine State.steady_absorb _ _ _ _ ?_
    | with_reducible refine State.steady_snoopDone _ _ ?_
    | with_reducible refine State.steady_onTxn _ _ ?_
    | with_reducible refine State.steady_fillDc _ _ _ _ ?_
    | with_reducible refine State.steady_wakeLine _ ?_
    | with_reducible refine State.steady_flushGo _ ?_
    | with_reducible refine State.steady_runHome ?_
    | (intro _ _; try dsimp only)
    | dsimp only
    | split

theorem State.steady_onGo (a0 : Word) (a1 : List Tran) (a2 : Bool) (a3 : Bool) (a4 : Granule) (h : s.steady t) : s.steady (t.onGo a0 a1 a2 a3 a4) := by
  unfold State.onGo
  repeat' first
    | with_reducible assumption
    | with_reducible refine State.steady_portProtocol _ ?_
    | with_reducible refine State.steady_onLine _ _ ?_
    | with_reducible refine State.steady_onTxn _ _ ?_
    | with_reducible refine State.steady_fillDc _ _ _ _ ?_
    | with_reducible refine State.steady_settle _ ?_
    | with_reducible refine State.steady_runHome ?_
    | with_reducible refine State.steady_endFlushes ?_
    | (intro _ _; try dsimp only)
    | dsimp only
    | split

theorem State.steady_onGoErr (a0 : Word) (a1 : Granule) (h : s.steady t) : s.steady (t.onGoErr a0 a1) := by
  unfold State.onGoErr
  repeat' first
    | with_reducible assumption
    | with_reducible refine State.steady_portProtocol _ ?_
    | with_reducible refine State.steady_coh _ _ ?_
    | with_reducible refine State.steady_onGo _ _ _ _ _ ?_
    | with_reducible refine State.steady_freeEntry _ ?_
    | with_reducible refine State.steady_wakeLine _ ?_
    | with_reducible refine State.steady_endTxn _ ?_
    | with_reducible refine State.steady_runHome ?_
    | with_reducible refine State.steady_endFlushes ?_
    | with_reducible refine State.steady_failTxn _ _ ?_
    | dsimp only
    | split

theorem State.steady_onWritePull (a0 : Word) (h : s.steady t) : s.steady (t.onWritePull a0) := by
  unfold State.onWritePull
  repeat' first
    | with_reducible assumption
    | with_reducible refine State.steady_portProtocol _ ?_
    | with_reducible refine State.steady_emit _ ?_
    | with_reducible refine State.steady_answer _ _ _ _ _ ?_
    | with_reducible refine State.steady_wakeLine _ ?_
    | with_reducible refine State.steady_endTxn _ ?_
    | with_reducible refine State.steady_runHome ?_
    | with_reducible refine State.steady_endFlushes ?_
    | with_reducible refine State.steady_freeEntry _ ?_
    | dsimp only
    | split

theorem State.steady_onGoI (a0 : Word) (h : s.steady t) : s.steady (t.onGoI a0) := by
  unfold State.onGoI
  repeat' first
    | with_reducible assumption
    | with_reducible refine State.steady_portProtocol _ ?_
    | with_reducible refine State.steady_freeEntry _ ?_
    | with_reducible refine State.steady_wakeLine _ ?_
    | with_reducible refine State.steady_endTxn _ ?_
    | with_reducible refine State.steady_runHome ?_
    | with_reducible refine State.steady_endFlushes ?_
    | dsimp only
    | split

theorem State.steady_onHostData (a0 : Word) (a1 : Bool) (a2 : Granule) (h : s.steady t) : s.steady (t.onHostData a0 a1 a2) := by
  unfold State.onHostData
  repeat' first
    | with_reducible assumption
    | with_reducible refine State.steady_onLine _ _ ?_
    | with_reducible refine State.steady_portProtocol _ ?_
    | with_reducible refine State.steady_coh _ _ ?_
    | with_reducible refine State.steady_onTxn _ _ ?_
    | with_reducible refine State.steady_serveData _ _ _ _ ?_
    | with_reducible refine State.steady_runHome ?_
    | with_reducible refine State.steady_endFlushes ?_
    | (intro _ _; try dsimp only)
    | dsimp only
    | split

theorem State.steady_atomicDone (a0 : Word) (h : s.steady t) : s.steady (t.atomicDone a0) := by
  unfold State.atomicDone
  repeat' first
    | with_reducible assumption
    | with_reducible refine State.steady_onLine _ _ ?_
    | with_reducible refine State.steady_ccuAccount _ _ ?_
    | with_reducible refine State.steady_onCcuCount _ _ ?_
    | with_reducible refine State.steady_answer _ _ _ _ _ ?_
    | with_reducible refine State.steady_wakeLine _ ?_
    | with_reducible refine State.steady_endTxn _ ?_
    | with_reducible refine State.steady_runHome ?_
    | with_reducible refine State.steady_endFlushes ?_
    | with_reducible refine State.steady_snd (by with_reducible assumption) ?_
    | (intro _ _; try dsimp only)
    | dsimp only
    | split

theorem State.steady_onHostSnoop (a0 : Nat) (a1 : Word) (a2 : Nat) (h : s.steady t) : s.steady (t.onHostSnoop a0 a1 a2) := by
  unfold State.onHostSnoop
  repeat' first
    | with_reducible assumption
    | with_reducible refine State.steady_startSnoop _ _ _ ?_
    | with_reducible refine State.steady_runHome ?_
    | with_reducible refine State.steady_hostRsp _ _ _ ?_
    | with_reducible refine State.steady_onLine _ _ ?_
    | with_reducible refine State.steady_wakeLine _ ?_
    | with_reducible refine State.steady_yieldTxn _ ?_
    | with_reducible refine State.steady_emit _ ?_
    | with_reducible refine State.steady_portProtocol _ ?_
    | (intro _ _; try dsimp only)
    | dsimp only
    | split

theorem State.steady_creditExpired (a0 : Word) (h : s.steady t) : s.steady (t.creditExpired a0) := by
  unfold State.creditExpired
  repeat' first
    | with_reducible assumption
    | with_reducible refine State.steady_coh _ _ ?_
    | with_reducible refine State.steady_onLine _ _ ?_
    | with_reducible refine State.steady_retry _ _ ?_
    | with_reducible refine State.steady_due _ ?_
    | with_reducible refine State.steady_runHome ?_
    | (intro _ _; try dsimp only)
    | dsimp only
    | split

theorem State.steady_dropHolder (a0 : Nat) (a1 : Nat) (h : s.steady t) : s.steady (t.dropHolder a0 a1) := by
  unfold State.dropHolder
  repeat' first
    | with_reducible assumption
    | with_reducible refine State.steady_onLine _ _ ?_
    | with_reducible refine State.steady_snoopDone _ _ ?_
    | with_reducible refine State.steady_flushGo _ ?_
    | (intro _ _; try dsimp only)
    | dsimp only
    | split

theorem State.steady_dropAgent (a0 : Nat) (h : s.steady t) : s.steady (t.dropAgent a0) := by
  unfold State.dropAgent
  repeat' first
    | with_reducible assumption
    | ((with_reducible show State.steady _ (State.onHome _ _)); refine State.steady_onHome _ ?_)
    | with_reducible refine State.steady_coh _ _ ?_
    | with_reducible refine State.steady_foldl _ _ ?_ ?_
    | with_reducible refine State.steady_dropHolder _ _ ?_
    | with_reducible refine State.steady_runHome ?_
    | with_reducible refine State.steady_endFlushes ?_
    | with_reducible refine State.steady_foldl _ _ ?_ ?_
    | (intro _ _ _; try dsimp only)
    | (intro _ _; try dsimp only)
    | dsimp only
    | split

theorem State.steady_snoopExpired (a0 : BitVec 8) (a1 : Word) (h : s.steady t) : s.steady (t.snoopExpired a0 a1) := by
  unfold State.snoopExpired
  repeat' first
    | with_reducible assumption
    | with_reducible refine State.steady_dropAgent _ ?_
    | (intro _ _; try dsimp only)
    | dsimp only
    | split

theorem State.steady_hostExpired (a0 : Word) (h : s.steady t) : s.steady (t.hostExpired a0) := by
  unfold State.hostExpired
  repeat' first
    | with_reducible assumption
    | with_reducible refine State.steady_coh _ _ ?_
    | with_reducible refine State.steady_failTxn _ _ ?_
    | with_reducible refine State.steady_runHome ?_
    | with_reducible refine State.steady_endFlushes ?_
    | dsimp only
    | split

theorem State.steady_recallAll (h : s.steady t) : s.steady (t.recallAll) := by
  unfold State.recallAll
  repeat' first
    | with_reducible assumption
    | with_reducible refine State.steady_foldl _ _ ?_ ?_
    | with_reducible refine State.steady_recallLine _ ?_
    | with_reducible refine State.steady_runHome ?_
    | with_reducible refine State.steady_foldl _ _ ?_ ?_
    | (intro _ _ _; try dsimp only)
    | (intro _ _; try dsimp only)
    | dsimp only
    | split

theorem State.steady_flushSet (a0 : Nat) (h : s.steady t) : s.steady (t.flushSet a0) := by
  unfold State.flushSet
  repeat' first
    | with_reducible assumption
    | with_reducible refine State.steady_coh _ _ ?_
    | ((with_reducible show State.steady _ (State.onHome _ _)); refine State.steady_onHome _ ?_)
    | with_reducible refine State.steady_foldl _ _ ?_ ?_
    | with_reducible refine State.steady_snoopOne _ _ _ _ _ ?_
    | with_reducible refine State.steady_flushLine _ ?_
    | with_reducible refine State.steady_runHome ?_
    | with_reducible refine State.steady_endFlushes ?_
    | with_reducible refine State.steady_foldl _ _ ?_ ?_
    | (intro _ _ _; try dsimp only)
    | (intro _ _; try dsimp only)
    | dsimp only
    | split

theorem State.steady_homeResume (h : s.steady t) : s.steady (t.homeResume) := by
  unfold State.homeResume
  repeat' first
    | with_reducible assumption
    | with_reducible refine State.steady_retry _ _ ?_
    | ((with_reducible show State.steady _ (State.onHome _ _)); refine State.steady_onHome _ ?_)
    | with_reducible refine State.steady_runHome ?_
    | with_reducible refine State.steady_releaseHeld ?_
    | (intro _ _; try dsimp only)
    | dsimp only
    | split

theorem State.steady_pumpDrain (h : s.steady t) : s.steady (t.pumpDrain) := by
  unfold State.pumpDrain
  repeat' first
    | with_reducible assumption
    | with_reducible refine State.steady_foldl _ _ ?_ ?_
    | ((with_reducible show State.steady _ (State.onLink _ _ _)); refine State.steady_onLink _ _ ?_)
    | ((with_reducible show State.steady _ (State.onHlk _ _)); refine State.steady_onHlk _ ?_)
    | with_reducible refine State.steady_homeResume ?_
    | with_reducible refine State.steady_foldl _ _ ?_ ?_
    | (intro _ _ _; try dsimp only)
    | (intro _ _; try dsimp only)
    | dsimp only
    | split

theorem State.steady_unitAsk (a0 : UnitFor) (a1 : ReqKind) (a2 : Word) (a3 : Granule) (a4 : Word) (a5 : AtomicOp) (a6 : Nat) (h : s.steady t) : s.steady (t.unitAsk a0 a1 a2 a3 a4 a5 a6) := by
  unfold State.unitAsk
  repeat' first
    | with_reducible assumption
    | with_reducible refine State.steady_homeAsk _ _ ?_
    | dsimp only
    | split

theorem State.steady_unitRead (a0 : UnitFor) (a1 : Nat) (a2 : Word) (h : s.steady t) : s.steady (t.unitRead a0 a1 a2) := by
  unfold State.unitRead
  repeat' first
    | with_reducible assumption
    | with_reducible refine State.steady_unitAsk _ _ _ _ _ _ _ ?_
    | dsimp only
    | split

theorem State.steady_unitWrite (a0 : UnitFor) (a1 : Nat) (a2 : Word) (a3 : List Word) (h : s.steady t) : s.steady (t.unitWrite a0 a1 a2 a3) := by
  unfold State.unitWrite
  repeat' first
    | with_reducible assumption
    | with_reducible refine State.steady_unitAsk _ _ _ _ _ _ _ ?_
    | dsimp only
    | split

theorem State.steady_unitCas (a0 : UnitFor) (a1 : Nat) (a2 : Word) (a3 : Word) (a4 : Word) (h : s.steady t) : s.steady (t.unitCas a0 a1 a2 a3 a4) := by
  unfold State.unitCas
  repeat' first
    | with_reducible assumption
    | with_reducible refine State.steady_unitAsk _ _ _ _ _ _ _ ?_
    | dsimp only
    | split

theorem State.steady_takeAns (a0 : UnitFor) (h : s.steady t) : s.steady (t.takeAns a0) := by
  unfold State.takeAns
  repeat' first
    | with_reducible assumption
    | ((with_reducible show State.steady _ (State.onHome _ _)); refine State.steady_onHome _ ?_)
    | (intro _ _; try dsimp only)
    | dsimp only
    | split

theorem State.steady_selfAns (a0 : UnitFor) (a1 : Code) (h : s.steady t) : s.steady (t.selfAns a0 a1) := by
  unfold State.selfAns
  repeat' first
    | with_reducible assumption
    | ((with_reducible show State.steady _ (State.onHome _ _)); refine State.steady_onHome _ ?_)
    | (intro _ _; try dsimp only)
    | dsimp only
    | split

theorem State.steady_forPart (a0 : Nat) (a1 : UnitFor) (a2 : State → State) (h : s.steady t) (ha2 : ∀ t, s.steady t → s.steady (a2 t )) : s.steady (t.forPart a0 a1 a2) := by
  unfold State.forPart
  repeat' first
    | with_reducible assumption
    | (with_reducible refine ha2 _ ?_)
    | with_reducible refine State.steady_selfAns _ _ ?_
    | (intro _ _; try dsimp only)
    | dsimp only
    | split

theorem State.steady_takeFor (a0 : Nat) (a1 : UnitFor) (h : s.steady t) : s.steady (t.takeFor a0 a1) := by
  unfold State.takeFor
  repeat' first
    | with_reducible assumption
    | with_reducible refine State.steady_takeAns _ ?_
    | ((with_reducible show State.steady _ (State.onHlk _ _)); refine State.steady_onHlk _ ?_)
    | with_reducible refine State.steady_snd (by with_reducible assumption) ?_
    | (intro _ _; try dsimp only)
    | dsimp only
    | split

theorem State.steady_dropLine (a0 : Nat) (h : s.steady t) : s.steady (t.dropLine a0) := by
  unfold State.dropLine
  repeat' first
    | with_reducible assumption
    | with_reducible refine State.steady_freeEntry _ ?_
    | with_reducible refine State.steady_wakeLine _ ?_
    | with_reducible refine State.steady_onLine _ _ ?_
    | with_reducible refine State.steady_failTxn _ _ ?_
    | with_reducible refine State.steady_onTxn _ _ ?_
    | with_reducible refine State.steady_settle _ ?_
    | (intro _ _; try dsimp only)
    | dsimp only
    | split

theorem State.steady_homeLinkDown (a0 : Nat) (h : s.steady t) : s.steady (t.homeLinkDown a0) := by
  unfold State.homeLinkDown
  repeat' first
    | with_reducible assumption
    | with_reducible refine State.steady_foldl _ _ ?_ ?_
    | with_reducible refine State.steady_failTxn _ _ ?_
    | with_reducible refine State.steady_dropLine _ ?_
    | with_reducible refine State.steady_runHome ?_
    | with_reducible refine State.steady_foldl _ _ ?_ ?_
    | (intro _ _ _; try dsimp only)
    | (intro _ _; try dsimp only)
    | dsimp only
    | split

end Sys2Proof.Machine
end

