-- ==== Sys2Proof/Laws/SteadyWork.lean ====
section
/-! SUPPORT. What the hub's own work leaves alone, function by function. -/

-- One proof at a time: hundreds of proofs started together would each wait on the same lemma on a thread of its own.
set_option Elab.async false

namespace Sys2Proof.Machine

set_option linter.unusedTactic false
set_option linter.unreachableTactic false

variable {s t u : State}

theorem State.steady_onQueue (a0 : Bool) (a1 : Nat) (a2 : Queue → Queue) (h : s.steady t) : s.steady (t.onQueue a0 a1 a2) := by
  unfold State.onQueue
  repeat' first
    | with_reducible assumption
    | ((with_reducible show State.steady _ (State.onSkk _ _)); refine State.steady_onSkk _ ?_)
    | ((with_reducible show State.steady _ (State.onXlt _ _)); refine State.steady_onXlt _ ?_)
    | (intro _ _; try dsimp only)
    | dsimp only
    | split

theorem State.steady_setCounter (a0 : Nat) (a1 : Word) (a2 : BitVec 16) (h : s.steady t) : s.steady (t.setCounter a0 a1 a2) := by
  unfold State.setCounter
  repeat' first
    | with_reducible assumption
    | ((with_reducible show State.steady _ (State.onSkk _ _)); refine State.steady_onSkk _ ?_)
    | (intro _ _; try dsimp only)
    | dsimp only
    | split

theorem State.steady_placeDropped (a0 : Nat) (h : s.steady t) : s.steady (t.placeDropped a0) := by
  unfold State.placeDropped
  repeat' first
    | with_reducible assumption
    | ((with_reducible show State.steady _ (State.onSkk _ _)); refine State.steady_onSkk _ ?_)
    | with_reducible refine State.steady_setCounter _ _ _ ?_
    | (intro _ _; try dsimp only)
    | dsimp only
    | split

theorem State.steady_dropRecord (a0 : Bool) (a1 : Nat) (a2 : Record) (h : s.steady t) : s.steady (t.dropRecord a0 a1 a2) := by
  unfold State.dropRecord
  repeat' first
    | with_reducible assumption
    | with_reducible refine State.steady_onQueue _ _ _ ?_
    | with_reducible refine State.steady_flag _ _ _ _ _ ?_
    | with_reducible refine State.steady_placeDropped _ ?_
    | (intro _ _; try dsimp only)
    | dsimp only
    | split

theorem State.steady_issueRecord (a0 : Bool) (a1 : Nat) (a2 : Record) (h : s.steady t) : s.steady (t.issueRecord a0 a1 a2) := by
  unfold State.issueRecord
  repeat' first
    | with_reducible assumption
    | with_reducible refine State.steady_onQueue _ _ _ ?_
    | with_reducible refine State.steady_unitWrite _ _ _ _ ?_
    | (intro _ _; try dsimp only)
    | dsimp only
    | split

theorem State.steady_pumpQueue (a0 : Bool) (a1 : Nat) (n : Nat) (h : s.steady t) : s.steady (t.pumpQueue a0 a1 n) := by
  induction n generalizing t with
  | zero => exact h
  | succ n ih =>
    unfold State.pumpQueue
    repeat' first
      | with_reducible assumption
      | with_reducible refine ih ?_
      | with_reducible refine State.steady_onQueue _ _ _ ?_
      | with_reducible refine State.steady_issueRecord _ _ _ ?_
      | with_reducible refine State.steady_dropRecord _ _ _ ?_
      | (intro _ _; try dsimp only)
      | dsimp only
      | split

theorem State.steady_pump (a0 : Bool) (a1 : Nat) (h : s.steady t) : s.steady (t.pump a0 a1) := by
  unfold State.pump
  repeat' first
    | with_reducible assumption
    | with_reducible refine State.steady_pumpQueue _ _ _ ?_
    | dsimp only
    | split

theorem State.steady_addRecord (a0 : Bool) (a1 : Nat) (a2 : Record) (h : s.steady t) : s.steady (t.addRecord a0 a1 a2) := by
  unfold State.addRecord
  repeat' first
    | with_reducible assumption
    | with_reducible refine State.steady_onQueue _ _ _ ?_
    | with_reducible refine State.steady_pump _ _ ?_
    | with_reducible refine State.steady_dropRecord _ _ _ ?_
    | (intro _ _; try dsimp only)
    | dsimp only
    | split

theorem State.steady_fault (a0 : Nat) (a1 : Code) (a2 : Nat) (a3 : Nat) (a4 : Nat) (a5 : BitVec 32) (a6 : List Word) (h : s.steady t) : s.steady (t.fault a0 a1 a2 a3 a4 a5 a6) := by
  unfold State.fault
  repeat' first
    | with_reducible assumption
    | with_reducible refine State.steady_addRecord _ _ _ ?_
    | dsimp only
    | split

theorem State.steady_notice (a0 : Nat) (a1 : Nat) (a2 : Nat) (a3 : Nat) (a4 : Nat) (a5 : Code) (a6 : Word) (a7 : Word) (a8 : Word) (a9 : BitVec 16) (h : s.steady t) : s.steady (t.notice a0 a1 a2 a3 a4 a5 a6 a7 a8 a9) := by
  unfold State.notice
  repeat' first
    | with_reducible assumption
    | with_reducible refine State.steady_addRecord _ _ _ ?_
    | dsimp only
    | split

theorem State.steady_recordObserved (a0 : Bool) (a1 : Nat) (h : s.steady t) : s.steady (t.recordObserved a0 a1) := by
  unfold State.recordObserved
  repeat' first
    | with_reducible assumption
    | with_reducible refine State.steady_takeAns _ ?_
    | with_reducible refine State.steady_onQueue _ _ _ ?_
    | with_reducible refine State.steady_dropRecord _ _ _ ?_
    | with_reducible refine State.steady_edge _ ?_
    | with_reducible refine State.steady_pump _ _ ?_
    | (intro _ _; try dsimp only)
    | dsimp only
    | split

theorem State.steady_recordFailed (a0 : Bool) (a1 : Nat) (h : s.steady t) : s.steady (t.recordFailed a0 a1) := by
  unfold State.recordFailed
  repeat' first
    | with_reducible assumption
    | with_reducible refine State.steady_takeAns _ ?_
    | with_reducible refine State.steady_onQueue _ _ _ ?_
    | with_reducible refine State.steady_flag _ _ _ _ _ ?_
    | with_reducible refine State.steady_dropRecord _ _ _ ?_
    | with_reducible refine State.steady_pump _ _ ?_
    | (intro _ _; try dsimp only)
    | dsimp only
    | split

theorem State.steady_writeHead (a0 : Bool) (a1 : Nat) (a2 : Word) (h : s.steady t) : s.steady (t.writeHead a0 a1 a2) := by
  unfold State.writeHead
  repeat' first
    | with_reducible assumption
    | with_reducible refine State.steady_onQueue _ _ _ ?_
    | with_reducible refine State.steady_pump _ _ ?_
    | with_reducible refine State.steady_flag _ _ _ _ _ ?_
    | (intro _ _; try dsimp only)
    | dsimp only
    | split

theorem State.steady_judgeQueue (a0 : Bool) (a1 : Nat) (h : s.steady t) : s.steady (t.judgeQueue a0 a1) := by
  unfold State.judgeQueue
  repeat' first
    | with_reducible assumption
    | with_reducible refine State.steady_onQueue _ _ _ ?_
    | with_reducible refine State.steady_flag _ _ _ _ _ ?_
    | (intro _ _; try dsimp only)
    | dsimp only
    | split

theorem State.steady_writeBase (a0 : Bool) (a1 : Nat) (a2 : Bool) (a3 : Word) (h : s.steady t) : s.steady (t.writeBase a0 a1 a2 a3) := by
  unfold State.writeBase
  repeat' first
    | with_reducible assumption
    | with_reducible refine State.steady_onQueue _ _ _ ?_
    | with_reducible refine State.steady_judgeQueue _ _ ?_
    | with_reducible refine State.steady_pump _ _ ?_
    | (intro _ _; try dsimp only)
    | dsimp only
    | split

theorem State.steady_closeQueue (a0 : Bool) (a1 : Nat) (h : s.steady t) : s.steady (t.closeQueue a0 a1) := by
  unfold State.closeQueue
  repeat' first
    | with_reducible assumption
    | with_reducible refine State.steady_onQueue _ _ _ ?_
    | with_reducible refine State.steady_pump _ _ ?_
    | (intro _ _; try dsimp only)
    | dsimp only
    | split

theorem State.steady_transmit (a0 : Nat) (a1 : Packet) (h : s.steady t) : s.steady (t.transmit a0 a1) := by
  unfold State.transmit
  repeat' first
    | with_reducible assumption
    | ((with_reducible show State.steady _ (State.onPeer _ _)); refine State.steady_onPeer _ ?_)
    | with_reducible refine State.steady_ops _ _ ?_
    | with_reducible refine State.steady_onFlow _ _ ?_
    | with_reducible refine State.steady_emit _ ?_
    | with_reducible refine State.steady_bytes _ _ ?_
    | (intro _ _; try dsimp only)
    | dsimp only
    | split

theorem State.steady_sendNow (a0 : Nat) (a1 : Unacked) (h : s.steady t) : s.steady (t.sendNow a0 a1) := by
  unfold State.sendNow
  repeat' first
    | with_reducible assumption
    | with_reducible refine State.steady_onFlow _ _ ?_
    | with_reducible refine State.steady_transmit _ _ ?_
    | (intro _ _; try dsimp only)
    | dsimp only
    | split

theorem State.steady_sendPkt (a0 : Nat) (a1 : PktHdr) (a2 : List (Nat × List Byte)) (a3 : PktFor) (a4 : Nat) (h : s.steady t) : s.steady (t.sendPkt a0 a1 a2 a3 a4).2 := by
  unfold State.sendPkt
  repeat' first
    | with_reducible assumption
    | with_reducible refine State.steady_onFlow _ _ ?_
    | with_reducible refine State.steady_sendNow _ _ ?_
    | (intro _ _; try dsimp only)
    | dsimp only
    | split

theorem State.steady_flowRoom (a0 : Nat) (n : Nat) (h : s.steady t) : s.steady (t.flowRoom a0 n) := by
  induction n generalizing t with
  | zero => exact h
  | succ n ih =>
    unfold State.flowRoom
    repeat' first
      | with_reducible assumption
      | with_reducible refine ih ?_
      | with_reducible refine State.steady_onFlow _ _ ?_
      | with_reducible refine State.steady_sendNow _ _ ?_
      | (intro _ _; try dsimp only)
      | dsimp only
      | split

theorem State.steady_allRoom (h : s.steady t) : s.steady (t.allRoom) := by
  unfold State.allRoom
  repeat' first
    | with_reducible assumption
    | with_reducible refine State.steady_foldl _ _ ?_ ?_
    | with_reducible refine State.steady_flowRoom _ _ ?_
    | with_reducible refine State.steady_foldl _ _ ?_ ?_
    | (intro _ _ _; try dsimp only)
    | (intro _ _; try dsimp only)
    | dsimp only
    | split

theorem State.steady_sendSignal (a0 : WinEntry) (a1 : BitVec 32) (a2 : Nat) (a3 : Nat) (a4 : PktFor) (h : s.steady t) : s.steady (t.sendSignal a0 a1 a2 a3 a4) := by
  unfold State.sendSignal
  repeat' first
    | with_reducible assumption
    | with_reducible refine State.steady_sendPkt _ _ _ _ _ ?_
    | dsimp only
    | split

theorem State.steady_dblFlag (a0 : Nat) (a1 : Nat) (a2 : Nat) (a3 : Code) (h : s.steady t) : s.steady (t.dblFlag a0 a1 a2 a3) := by
  unfold State.dblFlag
  repeat' first
    | with_reducible assumption
    | with_reducible refine State.steady_flag _ _ _ _ _ ?_
    | dsimp only
    | split

theorem State.steady_mirror (h : s.steady t) : s.steady (t.mirror) := by
  unfold State.mirror
  repeat' first
    | with_reducible assumption
    | with_reducible refine State.steady_ops _ _ ?_
    | dsimp only
    | split

theorem State.steady_checkpoint (a0 : Nat) (h : s.steady t) : s.steady (t.checkpoint a0) := by
  unfold State.checkpoint
  repeat' first
    | with_reducible assumption
    | with_reducible refine State.steady_mirror ?_
    | with_reducible refine State.steady_storeBlock _ ?_
    | dsimp only
    | split

theorem State.steady_setChan (a0 : Nat) (a1 : Chan → Chan) (h : s.steady t) : s.steady (t.setChan a0 a1) := by
  unfold State.setChan
  repeat' first
    | with_reducible assumption
    | with_reducible refine State.steady_onChan _ _ ?_
    | with_reducible refine State.steady_mirror ?_
    | dsimp only
    | split

/-- A table of options keeps its form when what its entries hold is changed, or taken out. -/
theorem tabWf_bindSome {α : Type} [DecidableEq α] (f : α → Option α) (l : Tab (Option α)) (h : tabWf (fun _ => none) l = true) :
    tabWf (fun _ => none) ((l.map fun e => (e.1, e.2.bind f)).filter fun e => e.2.isSome) = true := by
  induction l with
  | nil => rfl
  | cons e r ih =>
    obtain ⟨i, a⟩ := e
    have hr := ih (tabWf_tail _ h)
    simp only [List.map_cons, List.filter_cons]
    split
    · next hn =>
      refine tabWf_cons _ (by intro hc; simp [hc] at hn) (fun e he => ?_) hr
      obtain ⟨x, hx, rfl⟩ := List.mem_map.1 (List.mem_of_mem_filter he)
      exact tabWf_above _ h x hx
    · exact hr

theorem State.steady_withdraw (a0 : Who → Bool) (h : s.steady t) : s.steady (t.withdraw a0) := by
  unfold State.withdraw
  refine State.steady_onXlt _ h (h2 := fun hw => ?_)
  simp only [Xlt.wf, Bool.and_eq_true] at hw ⊢
  exact ⟨hw.1, tabWf_bindSome _ _ hw.2⟩

theorem State.steady_unlink (a0 : Nat) (h : s.steady t) : s.steady (t.unlink a0) := by
  unfold State.unlink
  repeat' first
    | with_reducible assumption
    | with_reducible refine State.steady_onObj _ _ ?_
    | with_reducible refine State.steady_setWrec _ _ ?_
    | (intro _ _; try dsimp only)
    | dsimp only
    | split

theorem State.steady_withdrawWaits (a0 : Waiter → Bool) (h : s.steady t) : s.steady (t.withdrawWaits a0) := by
  unfold State.withdrawWaits
  repeat' first
    | with_reducible assumption
    | with_reducible refine State.steady_foldl _ _ ?_ ?_
    | with_reducible refine State.steady_unlink _ ?_
    | ((with_reducible show State.steady _ (State.onSyn _ _)); refine State.steady_onSyn _ ?_)
    | with_reducible refine State.steady_foldl _ _ ?_ ?_
    | (intro _ _ _; try dsimp only)
    | (intro _ _; try dsimp only)
    | dsimp only
    | split

theorem State.steady_resumeBulk (a0 : Nat) (h : s.steady t) : s.steady (t.resumeBulk a0) := by
  unfold State.resumeBulk
  repeat' first
    | with_reducible assumption
    | with_reducible refine State.steady_onJob _ _ _ ?_
    | (intro _ _; try dsimp only)
    | dsimp only
    | split

theorem State.steady_stopJob (a0 : Nat) (a1 : Bool) (h : s.steady t) : s.steady (t.stopJob a0 a1) := by
  unfold State.stopJob
  repeat' first
    | with_reducible assumption
    | ((with_reducible show State.steady _ (State.onMov _ _)); refine State.steady_onMov _ ?_)
    | with_reducible refine State.steady_onJob _ _ _ ?_
    | with_reducible refine State.steady_withdraw _ ?_
    | (intro _ _; try dsimp only)
    | dsimp only
    | split

theorem State.steady_stopJobs (a0 : Work → Bool) (h : s.steady t) : s.steady (t.stopJobs a0) := by
  unfold State.stopJobs
  repeat' first
    | with_reducible assumption
    | with_reducible refine State.steady_foldl _ _ ?_ ?_
    | with_reducible refine State.steady_stopJob _ _ ?_
    | with_reducible refine State.steady_resumeBulk _ ?_
    | with_reducible refine State.steady_foldl _ _ ?_ ?_
    | (intro _ _ _; try dsimp only)
    | (intro _ _; try dsimp only)
    | dsimp only
    | split

theorem State.steady_endCmds (a0 : Nat) (a1 : Cmd → Bool) (h : s.steady t) : s.steady (t.endCmds a0 a1) := by
  unfold State.endCmds
  repeat' first
    | with_reducible assumption
    | with_reducible refine State.steady_stopJobs _ ?_
    | with_reducible refine State.steady_onChan _ _ ?_
    | (intro _ _; try dsimp only)
    | dsimp only
    | split

theorem State.steady_lateInline (a0 : Nat) (h : s.steady t) : s.steady (t.lateInline a0) := by
  unfold State.lateInline
  repeat' first
    | with_reducible assumption
    | with_reducible refine State.steady_onChan _ _ ?_
    | with_reducible refine State.steady_dblFlag _ _ _ _ ?_
    | (intro _ _; try dsimp only)
    | dsimp only
    | split

theorem State.steady_haltError (a0 : Nat) (a1 : Code) (a2 : BitVec 16) (a3 : Bool) (h : s.steady t) : s.steady (t.haltError a0 a1 a2 a3) := by
  unfold State.haltError
  repeat' first
    | with_reducible assumption
    | with_reducible refine State.steady_lateInline _ ?_
    | with_reducible refine State.steady_setChan _ _ ?_
    | with_reducible refine State.steady_withdraw _ ?_
    | with_reducible refine State.steady_captureOnly _ _ _ _ ?_
    | (intro _ _; try dsimp only)
    | dsimp only
    | split

theorem State.steady_touch (a0 : Nat) (h : s.steady t) : s.steady (t.touch a0) := by
  unfold State.touch
  repeat' first
    | with_reducible assumption
    | ((with_reducible show State.steady _ (State.onDbl _ _)); refine State.steady_onDbl _ ?_)
    | with_reducible refine State.steady_onChan _ _ ?_
    | (intro _ _; try dsimp only)
    | dsimp only
    | split

theorem State.steady_writeContext (a0 : Nat) (h : s.steady t) : s.steady (t.writeContext a0) := by
  unfold State.writeContext
  repeat' first
    | with_reducible assumption
    | with_reducible refine State.steady_foldl _ _ ?_ ?_
    | with_reducible refine State.steady_storeBlock _ ?_
    | ((with_reducible show State.steady _ (State.onGlb _ _)); refine State.steady_onGlb _ ?_)
    | with_reducible refine State.steady_foldl _ _ ?_ ?_
    | (intro _ _ _; try dsimp only)
    | (intro _ _; try dsimp only)
    | dsimp only
    | split

theorem State.steady_evictContext (h : s.steady t) : s.steady (t.evictContext) := by
  unfold State.evictContext
  repeat' first
    | with_reducible assumption
    | with_reducible refine State.steady_foldl _ _ ?_ ?_
    | with_reducible refine State.steady_onChan _ _ ?_
    | ((with_reducible show State.steady _ (State.onGlb _ _)); refine State.steady_onGlb _ ?_)
    | with_reducible refine State.steady_writeContext _ ?_
    | with_reducible refine State.steady_foldl _ _ ?_ ?_
    | (intro _ _ _; try dsimp only)
    | (intro _ _; try dsimp only)
    | dsimp only
    | split

theorem State.steady_evictTo (a0 : Nat) (n : Nat) (h : s.steady t) : s.steady (t.evictTo a0 n) := by
  induction n generalizing t with
  | zero => exact h
  | succ n ih =>
    unfold State.evictTo
    repeat' first
      | with_reducible assumption
      | with_reducible refine ih ?_
      | with_reducible refine State.steady_evictContext ?_
      | dsimp only
      | split

theorem State.steady_placeContext (a0 : Nat) (h : s.steady t) : s.steady (t.placeContext a0) := by
  unfold State.placeContext
  repeat' first
    | with_reducible assumption
    | with_reducible refine State.steady_evictTo _ _ ?_
    | with_reducible refine State.steady_onChan _ _ ?_
    | with_reducible refine State.steady_touch _ ?_
    | (intro _ _; try dsimp only)
    | dsimp only
    | split

theorem State.steady_ask (a0 : XReq) (h : s.steady t) : s.steady (t.ask a0) := by
  unfold State.ask
  repeat' first
    | with_reducible assumption
    | ((with_reducible show State.steady _ (State.onXlt _ _)); refine State.steady_onXlt _ ?_)
    | (intro _ _; try dsimp only)
    | dsimp only
    | split

theorem State.steady_readSlot (a0 : Nat) (a1 : BitVec 32) (h : s.steady t) : s.steady (t.readSlot a0 a1) := by
  unfold State.readSlot
  repeat' first
    | with_reducible assumption
    | with_reducible refine State.steady_onChan _ _ ?_
    | with_reducible refine State.steady_ask _ ?_
    | (intro _ _; try dsimp only)
    | dsimp only
    | split

theorem State.steady_fetchAhead (a0 : Nat) (h : s.steady t) : s.steady (t.fetchAhead a0) := by
  unfold State.fetchAhead
  repeat' first
    | with_reducible assumption
    | with_reducible refine State.steady_foldl _ _ ?_ ?_
    | with_reducible refine State.steady_readSlot _ _ ?_
    | with_reducible refine State.steady_foldl _ _ ?_ ?_
    | (intro _ _ _; try dsimp only)
    | (intro _ _; try dsimp only)
    | dsimp only
    | split

theorem State.steady_park (a0 : Nat) (a1 : Code) (h : s.steady t) : s.steady (t.park a0 a1) := by
  unfold State.park
  repeat' first
    | with_reducible assumption
    | with_reducible refine State.steady_setChan _ _ ?_
    | with_reducible refine State.steady_dblFlag _ _ _ _ ?_
    | (intro _ _; try dsimp only)
    | dsimp only
    | split

theorem State.steady_goStale (a0 : Nat) (a1 : BitVec 32) (h : s.steady t) : s.steady (t.goStale a0 a1) := by
  unfold State.goStale
  repeat' first
    | with_reducible assumption
    | with_reducible refine State.steady_onChan _ _ ?_
    | with_reducible refine State.steady_park _ _ ?_
    | (intro _ _; try dsimp only)
    | dsimp only
    | split

theorem State.steady_acceptCmd (a0 : Nat) (a1 : Bool) (a2 : BitVec 32) (a3 : List Granule) (h : s.steady t) : s.steady (t.acceptCmd a0 a1 a2 a3) := by
  unfold State.acceptCmd
  repeat' first
    | with_reducible assumption
    | with_reducible refine State.steady_setChan _ _ ?_
    | (intro _ _; try dsimp only)
    | dsimp only
    | split

theorem State.steady_haltFetch (a0 : Nat) (h : s.steady t) : s.steady (t.haltFetch a0) := by
  unfold State.haltFetch
  repeat' first
    | with_reducible assumption
    | with_reducible refine State.steady_haltError _ _ _ _ ?_
    | dsimp only
    | split

theorem State.steady_haltReject (a0 : Nat) (a1 : Reject) (h : s.steady t) : s.steady (t.haltReject a0 a1) := by
  unfold State.haltReject
  repeat' first
    | with_reducible assumption
    | with_reducible refine State.steady_onChan _ _ ?_
    | with_reducible refine State.steady_haltError _ _ _ _ ?_
    | (intro _ _; try dsimp only)
    | dsimp only
    | split

theorem State.steady_reject (a0 : Nat) (a1 : Code) (a2 : BitVec 16) (a3 : Bool) (h : s.steady t) : s.steady (t.reject a0 a1 a2 a3) := by
  unfold State.reject
  repeat' first
    | with_reducible assumption
    | with_reducible refine State.steady_onChan _ _ ?_
    | with_reducible refine State.steady_haltReject _ _ ?_
    | (intro _ _; try dsimp only)
    | dsimp only
    | split

theorem State.steady_judge (a0 : Nat) (n : Nat) (h : s.steady t) : s.steady (t.judge a0 n) := by
  induction n generalizing t with
  | zero => exact h
  | succ n ih =>
    unfold State.judge
    repeat' first
      | with_reducible assumption
      | with_reducible refine ih ?_
      | with_reducible refine State.steady_reject _ _ _ _ ?_
      | with_reducible refine State.steady_park _ _ ?_
      | with_reducible refine State.steady_haltFetch _ ?_
      | with_reducible refine State.steady_goStale _ _ ?_
      | with_reducible refine State.steady_onChan _ _ ?_
      | with_reducible refine State.steady_acceptCmd _ _ _ _ ?_
      | (intro _ _; try dsimp only)
      | dsimp only
      | split

theorem State.steady_awaitContext (a0 : Nat) (h : s.steady t) : s.steady (t.awaitContext a0) := by
  unfold State.awaitContext
  repeat' first
    | with_reducible assumption
    | with_reducible refine State.steady_onChan _ _ ?_
    | ((with_reducible show State.steady _ (State.onGlb _ _)); refine State.steady_onGlb _ ?_)
    | (intro _ _; try dsimp only)
    | dsimp only
    | split

theorem State.steady_runFetch (a0 : Nat) (h : s.steady t) : s.steady (t.runFetch a0) := by
  unfold State.runFetch
  repeat' first
    | with_reducible assumption
    | with_reducible refine State.steady_awaitContext _ ?_
    | with_reducible refine State.steady_fetchAhead _ ?_
    | with_reducible refine State.steady_judge _ _ ?_
    | dsimp only
    | split

theorem State.steady_startFetch (a0 : Nat) (h : s.steady t) : s.steady (t.startFetch a0) := by
  unfold State.startFetch
  repeat' first
    | with_reducible assumption
    | with_reducible refine State.steady_touch _ ?_
    | with_reducible refine State.steady_runFetch _ ?_
    | dsimp only
    | split

theorem State.steady_activate (a0 : Nat) (h : s.steady t) : s.steady (t.activate a0) := by
  unfold State.activate
  repeat' first
    | with_reducible assumption
    | with_reducible refine State.steady_setChan _ _ ?_
    | with_reducible refine State.steady_startFetch _ ?_
    | (intro _ _; try dsimp only)
    | dsimp only
    | split

theorem State.steady_resumeNow (a0 : Nat) (h : s.steady t) : s.steady (t.resumeNow a0) := by
  unfold State.resumeNow
  repeat' first
    | with_reducible assumption
    | with_reducible refine State.steady_setChan _ _ ?_
    | with_reducible refine State.steady_activate _ ?_
    | with_reducible refine State.steady_onChan _ _ ?_
    | (intro _ _; try dsimp only)
    | dsimp only
    | split

theorem State.steady_afterInflight (a0 : Nat) (h : s.steady t) : s.steady (t.afterInflight a0) := by
  unfold State.afterInflight
  repeat' first
    | with_reducible assumption
    | with_reducible refine State.steady_resumeNow _ ?_
    | dsimp only
    | split

theorem State.steady_failCmd (a0 : Nat) (a1 : Cmd) (a2 : Code) (h : s.steady t) : s.steady (t.failCmd a0 a1 a2) := by
  unfold State.failCmd
  repeat' first
    | with_reducible assumption
    | with_reducible refine State.steady_onChan _ _ ?_
    | with_reducible refine State.steady_haltError _ _ _ _ ?_
    | with_reducible refine State.steady_afterInflight _ ?_
    | (intro _ _; try dsimp only)
    | dsimp only
    | split

theorem State.steady_tailWrite (a0 : Nat) (a1 : Nat) (h : s.steady t) : s.steady (t.tailWrite a0 a1).2 := by
  unfold State.tailWrite
  repeat' first
    | with_reducible assumption
    | with_reducible refine State.steady_dblFlag _ _ _ _ ?_
    | with_reducible refine State.steady_ops _ _ ?_
    | with_reducible refine State.steady_activate _ ?_
    | with_reducible refine State.steady_setChan _ _ ?_
    | with_reducible refine State.steady_startFetch _ ?_
    | (intro _ _; try dsimp only)
    | dsimp only
    | split

theorem State.steady_slotArrived (a0 : Nat) (a1 : BitVec 32) (a2 : Granule) (a3 : Code) (a4 : Option XFault) (h : s.steady t) : s.steady (t.slotArrived a0 a1 a2 a3 a4) := by
  unfold State.slotArrived
  repeat' first
    | with_reducible assumption
    | with_reducible refine State.steady_onChan _ _ ?_
    | with_reducible refine State.steady_runFetch _ ?_
    | with_reducible refine State.steady_snd (by with_reducible assumption) ?_
    | (intro _ _; try dsimp only)
    | dsimp only
    | split

theorem State.steady_chtFlag (a0 : Nat) (a1 : Nat) (a2 : Nat) (a3 : Code) (h : s.steady t) : s.steady (t.chtFlag a0 a1 a2 a3) := by
  unfold State.chtFlag
  repeat' first
    | with_reducible assumption
    | with_reducible refine State.steady_flag _ _ _ _ _ ?_
    | dsimp only
    | split

theorem State.steady_addAct (a0 : Nat) (a1 : SAct) (h : s.steady t) : s.steady (t.addAct a0 a1) := by
  unfold State.addAct
  repeat' first
    | with_reducible assumption
    | ((with_reducible show State.steady _ (State.onSyn _ _)); refine State.steady_onSyn _ ?_)
    | (intro _ _; try dsimp only)
    | dsimp only
    | split

theorem State.steady_planFault (a0 : Nat) (a1 : Code) (a2 : Word) (a3 : Nat) (a4 : BitVec 32) (a5 : BitVec 32) (h : s.steady t) : s.steady (t.planFault a0 a1 a2 a3 a4 a5) := by
  unfold State.planFault
  repeat' first
    | with_reducible assumption
    | with_reducible refine State.steady_fault _ _ _ _ _ _ _ ?_
    | dsimp only
    | split

theorem State.steady_setRow (a0 : Nat) (a1 : Bool) (h : s.steady t) : s.steady (t.setRow a0 a1) := by
  unfold State.setRow
  repeat' first
    | with_reducible assumption
    | ((with_reducible show State.steady _ (State.onCht _ _)); refine State.steady_onCht _ ?_)
    | (intro _ _; try dsimp only)
    | dsimp only
    | split

theorem State.steady_endOccurrence (a0 : Nat) (h : s.steady t) : s.steady (t.endOccurrence a0) := by
  unfold State.endOccurrence
  repeat' first
    | with_reducible assumption
    | with_reducible refine State.steady_withdrawWaits _ ?_
    | with_reducible refine State.steady_setRow _ _ ?_
    | with_reducible refine State.steady_onEntry _ _ ?_
    | (intro _ _; try dsimp only)
    | dsimp only
    | split

theorem State.steady_disarm (a0 : Nat) (h : s.steady t) : s.steady (t.disarm a0) := by
  unfold State.disarm
  repeat' first
    | with_reducible assumption
    | with_reducible refine State.steady_endOccurrence _ ?_
    | with_reducible refine State.steady_onEntry _ _ ?_
    | with_reducible refine State.steady_chtFlag _ _ _ _ ?_
    | (intro _ _; try dsimp only)
    | dsimp only
    | split

theorem State.steady_planFail (a0 : Nat) (a1 : Code) (h : s.steady t) : s.steady (t.planFail a0 a1) := by
  unfold State.planFail
  repeat' first
    | with_reducible assumption
    | with_reducible refine State.steady_onEntry _ _ ?_
    | with_reducible refine State.steady_disarm _ ?_
    | (intro _ _; try dsimp only)
    | dsimp only
    | split

theorem State.steady_onBody (a0 : Nat) (a1 : Granule → Granule) (h : s.steady t) : s.steady (t.onBody a0 a1) := by
  unfold State.onBody
  repeat' first
    | with_reducible assumption
    | with_reducible refine State.steady_onEntry _ _ ?_
    | (intro _ _; try dsimp only)
    | dsimp only
    | split

theorem State.steady_dropResolve (a0 : Nat) (h : s.steady t) : s.steady (t.dropResolve a0) := by
  unfold State.dropResolve
  repeat' first
    | with_reducible assumption
    | with_reducible refine State.steady_withdraw _ ?_
    | with_reducible refine State.steady_onEntry _ _ ?_
    | (intro _ _; try dsimp only)
    | dsimp only
    | split

theorem State.steady_resolve (a0 : Nat) (h : s.steady t) : s.steady (t.resolve a0) := by
  unfold State.resolve
  repeat' first
    | with_reducible assumption
    | with_reducible refine State.steady_dropResolve _ ?_
    | with_reducible refine State.steady_onBody _ _ ?_
    | with_reducible refine State.steady_ask _ ?_
    | (intro _ _; try dsimp only)
    | dsimp only
    | split

theorem State.steady_startDesc (a0 : Nat) (h : s.steady t) : s.steady (t.startDesc a0) := by
  unfold State.startDesc
  repeat' first
    | with_reducible assumption
    | with_reducible refine State.steady_ops _ _ ?_
    | with_reducible refine State.steady_onEntry _ _ ?_
    | with_reducible refine State.steady_onChtView _ _ ?_
    | with_reducible refine State.steady_planFault _ _ _ _ _ _ ?_
    | with_reducible refine State.steady_chtFlag _ _ _ _ ?_
    | with_reducible refine State.steady_resolve _ ?_
    | with_reducible refine State.steady_planFail _ _ ?_
    | with_reducible refine State.steady_snd (by with_reducible assumption) ?_
    | (intro _ _; try dsimp only)
    | dsimp only
    | split

theorem State.steady_planDone (a0 : Nat) (h : s.steady t) : s.steady (t.planDone a0) := by
  unfold State.planDone
  repeat' first
    | with_reducible assumption
    | with_reducible refine State.steady_onEntry _ _ ?_
    | (intro _ _; try dsimp only)
    | dsimp only
    | split

theorem State.steady_planSignalled (a0 : Nat) (a1 : Nat) (h : s.steady t) : s.steady (t.planSignalled a0 a1) := by
  unfold State.planSignalled
  repeat' first
    | with_reducible assumption
    | with_reducible refine State.steady_planDone _ ?_
    | dsimp only
    | split

theorem State.steady_actionRefused (a0 : Nat) (h : s.steady t) : s.steady (t.actionRefused a0) := by
  unfold State.actionRefused
  repeat' first
    | with_reducible assumption
    | with_reducible refine State.steady_endOccurrence _ ?_
    | with_reducible refine State.steady_onEntry _ _ ?_
    | with_reducible refine State.steady_chtFlag _ _ _ _ ?_
    | (intro _ _; try dsimp only)
    | dsimp only
    | split

theorem State.steady_fireRing (a0 : Nat) (h : s.steady t) : s.steady (t.fireRing a0) := by
  unfold State.fireRing
  repeat' first
    | with_reducible assumption
    | with_reducible refine State.steady_actionRefused _ ?_
    | with_reducible refine State.steady_tailWrite _ _ ?_
    | with_reducible refine State.steady_planDone _ ?_
    | dsimp only
    | split

theorem State.steady_fireSignal (a0 : Nat) (h : s.steady t) : s.steady (t.fireSignal a0) := by
  unfold State.fireSignal
  repeat' first
    | with_reducible assumption
    | with_reducible refine State.steady_ops _ _ ?_
    | with_reducible refine State.steady_onEntry _ _ ?_
    | with_reducible refine State.steady_sendSignal _ _ _ _ _ ?_
    | with_reducible refine State.steady_addAct _ _ ?_
    | with_reducible refine State.steady_actionRefused _ ?_
    | (intro _ _; try dsimp only)
    | dsimp only
    | split

theorem State.steady_fire (a0 : Nat) (h : s.steady t) : s.steady (t.fire a0) := by
  unfold State.fire
  repeat' first
    | with_reducible assumption
    | with_reducible refine State.steady_onEntry _ _ ?_
    | with_reducible refine State.steady_onChtView _ _ ?_
    | with_reducible refine State.steady_startDesc _ ?_
    | with_reducible refine State.steady_fireRing _ ?_
    | with_reducible refine State.steady_fireSignal _ ?_
    | with_reducible refine State.steady_planDone _ ?_
    | (intro _ _; try dsimp only)
    | dsimp only
    | split

theorem State.steady_tryFire (a0 : Nat) (h : s.steady t) : s.steady (t.tryFire a0) := by
  unfold State.tryFire
  repeat' first
    | with_reducible assumption
    | with_reducible refine State.steady_fire _ ?_
    | dsimp only
    | split

theorem State.steady_planRunDone (a0 : Nat) (h : s.steady t) : s.steady (t.planRunDone a0) := by
  unfold State.planRunDone
  repeat' first
    | with_reducible assumption
    | with_reducible refine State.steady_onEntry _ _ ?_
    | with_reducible refine State.steady_tryFire _ ?_
    | (intro _ _; try dsimp only)
    | dsimp only
    | split

theorem State.steady_stopRun (a0 : Nat) (h : s.steady t) : s.steady (t.stopRun a0) := by
  unfold State.stopRun
  repeat' first
    | with_reducible assumption
    | with_reducible refine State.steady_stopJobs _ ?_
    | with_reducible refine State.steady_onEntry _ _ ?_
    | (intro _ _; try dsimp only)
    | dsimp only
    | split

theorem State.steady_disownEntries (a0 : Nat) (h : s.steady t) : s.steady (t.disownEntries a0) := by
  unfold State.disownEntries
  repeat' first
    | with_reducible assumption
    | with_reducible refine State.steady_foldl _ _ ?_ ?_
    | with_reducible refine State.steady_disarm _ ?_
    | with_reducible refine State.steady_stopRun _ ?_
    | with_reducible refine State.steady_foldl _ _ ?_ ?_
    | (intro _ _ _; try dsimp only)
    | (intro _ _; try dsimp only)
    | dsimp only
    | split

theorem State.steady_pulse (a0 : Engine) (a1 : Word) (a2 : Dest) (h : s.steady t) : s.steady (t.pulse a0 a1 a2) := by
  unfold State.pulse
  repeat' first
    | with_reducible assumption
    | with_reducible refine State.steady_send _ ?_
    | with_reducible refine State.steady_addAct _ _ ?_
    | ((with_reducible show State.steady _ (State.onCht _ _)); refine State.steady_onCht _ ?_)
    | (intro _ _; try dsimp only)
    | dsimp only
    | split

theorem State.steady_completeCmd (a0 : Nat) (a1 : Nat) (h : s.steady t) : s.steady (t.completeCmd a0 a1) := by
  unfold State.completeCmd
  repeat' first
    | with_reducible assumption
    | with_reducible refine State.steady_onChan _ _ ?_
    | with_reducible refine State.steady_pulse _ _ _ ?_
    | with_reducible refine State.steady_afterInflight _ ?_
    | (intro _ _; try dsimp only)
    | dsimp only
    | split

theorem State.steady_failNum (a0 : Nat) (a1 : Nat) (a2 : Code) (h : s.steady t) : s.steady (t.failNum a0 a1 a2) := by
  unfold State.failNum
  repeat' first
    | with_reducible assumption
    | with_reducible refine State.steady_failCmd _ _ _ ?_
    | dsimp only
    | split

theorem State.steady_synFlag (a0 : Nat) (a1 : Nat) (a2 : Nat) (a3 : Code) (h : s.steady t) : s.steady (t.synFlag a0 a1 a2 a3) := by
  unfold State.synFlag
  repeat' first
    | with_reducible assumption
    | with_reducible refine State.steady_flag _ _ _ _ _ ?_
    | dsimp only
    | split

theorem State.steady_released (a0 : Waiter) (a1 : BitVec 32) (h : s.steady t) : s.steady (t.released a0 a1) := by
  unfold State.released
  repeat' first
    | with_reducible assumption
    | with_reducible refine State.steady_completeCmd _ _ ?_
    | with_reducible refine State.steady_send _ ?_
    | with_reducible refine State.steady_onEntry _ _ ?_
    | with_reducible refine State.steady_tryFire _ ?_
    | (intro _ _; try dsimp only)
    | dsimp only
    | split

theorem State.steady_waitEnds (a0 : Waiter) (a1 : BitVec 32) (a2 : Code) (h : s.steady t) : s.steady (t.waitEnds a0 a1 a2) := by
  unfold State.waitEnds
  repeat' first
    | with_reducible assumption
    | with_reducible refine State.steady_failNum _ _ _ ?_
    | with_reducible refine State.steady_send _ ?_
    | with_reducible refine State.steady_onEntry _ _ ?_
    | with_reducible refine State.steady_disarm _ ?_
    | with_reducible refine State.steady_actionRefused _ ?_
    | with_reducible refine State.steady_endOccurrence _ ?_
    | (intro _ _; try dsimp only)
    | dsimp only
    | split

theorem State.steady_linkRec (a0 : Nat) (a1 : Waiter) (a2 : BitVec 32) (a3 : BitVec 2) (a4 : BitVec 32) (h : s.steady t) : s.steady (t.linkRec a0 a1 a2 a3 a4) := by
  unfold State.linkRec
  repeat' first
    | with_reducible assumption
    | with_reducible refine State.steady_setWrec _ _ ?_
    | with_reducible refine State.steady_onObj _ _ ?_
    | (intro _ _; try dsimp only)
    | dsimp only
    | split

theorem State.steady_noRecord (a0 : Waiter) (a1 : Engine) (a2 : BitVec 32) (h : s.steady t) : s.steady (t.noRecord a0 a1 a2) := by
  unfold State.noRecord
  repeat' first
    | with_reducible assumption
    | ((with_reducible show State.steady _ (State.onSyn _ _)); refine State.steady_onSyn _ ?_)
    | with_reducible refine State.steady_onSynView _ _ ?_
    | with_reducible refine State.steady_synFlag _ _ _ _ ?_
    | with_reducible refine State.steady_send _ ?_
    | (intro _ _; try dsimp only)
    | dsimp only
    | split

theorem State.steady_actDone (a0 : ActFrom) (h : s.steady t) : s.steady (t.actDone a0) := by
  unfold State.actDone
  repeat' first
    | with_reducible assumption
    | with_reducible refine State.steady_completeCmd _ _ ?_
    | with_reducible refine State.steady_pulse _ _ _ ?_
    | with_reducible refine State.steady_planSignalled _ _ ?_
    | with_reducible refine State.steady_send _ ?_
    | with_reducible refine State.steady_onRx _ _ ?_
    | (intro _ _; try dsimp only)
    | dsimp only
    | split

theorem State.steady_respond (a0 : PktHdr) (a1 : Nat) (a2 : BitVec 16) (a3 : Nat) (h : s.steady t) : s.steady (t.respond a0 a1 a2 a3) := by
  unfold State.respond
  repeat' first
    | with_reducible assumption
    | with_reducible refine State.steady_transmit _ _ ?_
    | dsimp only
    | split

theorem State.steady_peerRecord (a0 : PktHdr) (a1 : Nat) (a2 : Code) (a3 : Nat) (h : s.steady t) : s.steady (t.peerRecord a0 a1 a2 a3) := by
  unfold State.peerRecord
  repeat' first
    | with_reducible assumption
    | with_reducible refine State.steady_fault _ _ _ _ _ _ _ ?_
    | dsimp only
    | split

theorem State.steady_refuse (a0 : PktHdr) (a1 : BitVec 16) (a2 : Nat) (a3 : Code) (a4 : Nat) (h : s.steady t) : s.steady (t.refuse a0 a1 a2 a3 a4) := by
  unfold State.refuse
  repeat' first
    | with_reducible assumption
    | ((with_reducible show State.steady _ (State.onPeer _ _)); refine State.steady_onPeer _ ?_)
    | with_reducible refine State.steady_respond _ _ _ _ ?_
    | with_reducible refine State.steady_peerRecord _ _ _ _ ?_
    | (intro _ _; try dsimp only)
    | dsimp only
    | split

theorem State.steady_refuseSignal (a0 : Nat) (a1 : Nat) (h : s.steady t) : s.steady (t.refuseSignal a0 a1) := by
  unfold State.refuseSignal
  repeat' first
    | with_reducible assumption
    | with_reducible refine State.steady_onRx _ _ ?_
    | with_reducible refine State.steady_refuse _ _ _ _ _ ?_
    | (intro _ _; try dsimp only)
    | dsimp only
    | split

theorem State.steady_actRefused (a0 : ActFrom) (h : s.steady t) : s.steady (t.actRefused a0) := by
  unfold State.actRefused
  repeat' first
    | with_reducible assumption
    | with_reducible refine State.steady_failNum _ _ _ ?_
    | with_reducible refine State.steady_actionRefused _ ?_
    | with_reducible refine State.steady_send _ ?_
    | with_reducible refine State.steady_refuseSignal _ _ ?_
    | with_reducible refine State.steady_actDone _ ?_
    | dsimp only
    | split

theorem State.steady_releaseOldest (a0 : Nat) (a1 : Nat) (h : s.steady t) : s.steady (t.releaseOldest a0 a1) := by
  unfold State.releaseOldest
  repeat' first
    | with_reducible assumption
    | with_reducible refine State.steady_foldl _ _ ?_ ?_
    | with_reducible refine State.steady_unlink _ ?_
    | with_reducible refine State.steady_released _ _ ?_
    | with_reducible refine State.steady_foldl _ _ ?_ ?_
    | (intro _ _ _; try dsimp only)
    | (intro _ _; try dsimp only)
    | dsimp only
    | split

theorem State.steady_addCounter (a0 : Nat) (a1 : Nat) (h : s.steady t) : s.steady (t.addCounter a0 a1) := by
  unfold State.addCounter
  repeat' first
    | with_reducible assumption
    | with_reducible refine State.steady_onObj _ _ ?_
    | with_reducible refine State.steady_synFlag _ _ _ _ ?_
    | with_reducible refine State.steady_releaseOldest _ _ ?_
    | (intro _ _; try dsimp only)
    | dsimp only
    | split

theorem State.steady_setEvent (a0 : Nat) (a1 : Bool) (h : s.steady t) : s.steady (t.setEvent a0 a1) := by
  unfold State.setEvent
  repeat' first
    | with_reducible assumption
    | with_reducible refine State.steady_onObj _ _ ?_
    | with_reducible refine State.steady_releaseOldest _ _ ?_
    | (intro _ _; try dsimp only)
    | dsimp only
    | split

theorem State.steady_addBarrier (a0 : Nat) (a1 : Nat) (h : s.steady t) : s.steady (t.addBarrier a0 a1) := by
  unfold State.addBarrier
  repeat' first
    | with_reducible assumption
    | with_reducible refine State.steady_onObj _ _ ?_
    | with_reducible refine State.steady_synFlag _ _ _ _ ?_
    | with_reducible refine State.steady_releaseOldest _ _ ?_
    | (intro _ _; try dsimp only)
    | dsimp only
    | split

theorem State.steady_applyAct (a0 : SAct) (h : s.steady t) : s.steady (t.applyAct a0) := by
  unfold State.applyAct
  repeat' first
    | with_reducible assumption
    | with_reducible refine State.steady_actRefused _ ?_
    | with_reducible refine State.steady_ops _ _ ?_
    | with_reducible refine State.steady_onSynView _ _ ?_
    | with_reducible refine State.steady_synFlag _ _ _ _ ?_
    | with_reducible refine State.steady_actDone _ ?_
    | with_reducible refine State.steady_addCounter _ _ ?_
    | with_reducible refine State.steady_setEvent _ _ ?_
    | with_reducible refine State.steady_addBarrier _ _ ?_
    | (intro _ _; try dsimp only)
    | dsimp only
    | split

theorem State.steady_settleObj (a0 : Nat) (a1 : Nat) (h : s.steady t) : s.steady (t.settleObj a0 a1) := by
  unfold State.settleObj
  repeat' first
    | with_reducible assumption
    | with_reducible refine State.steady_foldl _ _ ?_ ?_
    | ((with_reducible show State.steady _ (State.onSyn _ _)); refine State.steady_onSyn _ ?_)
    | with_reducible refine State.steady_applyAct _ ?_
    | with_reducible refine State.steady_foldl _ _ ?_ ?_
    | (intro _ _ _; try dsimp only)
    | (intro _ _; try dsimp only)
    | dsimp only
    | split

theorem State.steady_beginWait (a0 : Waiter) (a1 : List Engine) (a2 : BitVec 32) (a3 : BitVec 2) (a4 : BitVec 32) (h : s.steady t) : s.steady (t.beginWait a0 a1 a2 a3 a4) := by
  unfold State.beginWait
  repeat' first
    | with_reducible assumption
    | with_reducible refine State.steady_settleObj _ _ ?_
    | with_reducible refine State.steady_waitEnds _ _ _ ?_
    | with_reducible refine State.steady_ops _ _ ?_
    | with_reducible refine State.steady_onObj _ _ ?_
    | with_reducible refine State.steady_released _ _ ?_
    | with_reducible refine State.steady_linkRec _ _ _ _ _ ?_
    | with_reducible refine State.steady_noRecord _ _ _ ?_
    | (intro _ _; try dsimp only)
    | dsimp only
    | split

theorem State.steady_applyFront (h : s.steady t) : s.steady (t.applyFront) := by
  unfold State.applyFront
  repeat' first
    | with_reducible assumption
    | ((with_reducible show State.steady _ (State.onSyn _ _)); refine State.steady_onSyn _ ?_)
    | with_reducible refine State.steady_applyAct _ ?_
    | (intro _ _; try dsimp only)
    | dsimp only
    | split

theorem State.steady_applyDue (a0 : Nat) (h : s.steady t) : s.steady (t.applyDue a0) := by
  unfold State.applyDue
  repeat' first
    | with_reducible assumption
    | with_reducible refine State.steady_foldl _ _ ?_ ?_
    | ((with_reducible show State.steady _ (State.onSyn _ _)); refine State.steady_onSyn _ ?_)
    | with_reducible refine State.steady_applyAct _ ?_
    | with_reducible refine State.steady_foldl _ _ ?_ ?_
    | (intro _ _ _; try dsimp only)
    | (intro _ _; try dsimp only)
    | dsimp only
    | split

theorem State.steady_expire (a0 : Nat) (h : s.steady t) : s.steady (t.expire a0) := by
  unfold State.expire
  repeat' first
    | with_reducible assumption
    | with_reducible refine State.steady_applyDue _ ?_
    | with_reducible refine State.steady_ops _ _ ?_
    | with_reducible refine State.steady_unlink _ ?_
    | with_reducible refine State.steady_waitEnds _ _ _ ?_
    | with_reducible refine State.steady_fault _ _ _ _ _ _ _ ?_
    | with_reducible refine State.steady_onSynView _ _ ?_
    | with_reducible refine State.steady_synFlag _ _ _ _ ?_
    | with_reducible refine State.steady_snd (by with_reducible assumption) ?_
    | (intro _ _; try dsimp only)
    | dsimp only
    | split

theorem State.steady_abandon (a0 : Nat) (a1 : Nat) (h : s.steady t) : s.steady (t.abandon a0 a1) := by
  unfold State.abandon
  repeat' first
    | with_reducible assumption
    | with_reducible refine State.steady_settleObj _ _ ?_
    | with_reducible refine State.steady_ops _ _ ?_
    | with_reducible refine State.steady_onObj _ _ ?_
    | with_reducible refine State.steady_foldl _ _ ?_ ?_
    | with_reducible refine State.steady_unlink _ ?_
    | with_reducible refine State.steady_waitEnds _ _ _ ?_
    | with_reducible refine State.steady_fault _ _ _ _ _ _ _ ?_
    | with_reducible refine State.steady_synFlag _ _ _ _ ?_
    | with_reducible refine State.steady_foldl _ _ ?_ ?_
    | (intro _ _ _; try dsimp only)
    | (intro _ _; try dsimp only)
    | dsimp only
    | split

theorem State.steady_abandonOwned (a0 : Nat) (h : s.steady t) : s.steady (t.abandonOwned a0) := by
  unfold State.abandonOwned
  repeat' first
    | with_reducible assumption
    | with_reducible refine State.steady_foldl _ _ ?_ ?_
    | with_reducible refine State.steady_abandon _ _ ?_
    | with_reducible refine State.steady_foldl _ _ ?_ ?_
    | (intro _ _ _; try dsimp only)
    | (intro _ _; try dsimp only)
    | dsimp only
    | split

theorem State.steady_destroyObj (a0 : Nat) (h : s.steady t) : s.steady (t.destroyObj a0) := by
  unfold State.destroyObj
  repeat' first
    | with_reducible assumption
    | with_reducible refine State.steady_settleObj _ _ ?_
    | with_reducible refine State.steady_abandon _ _ ?_
    | with_reducible refine State.steady_ops _ _ ?_
    | with_reducible refine State.steady_onObj _ _ ?_
    | ((with_reducible show State.steady _ (State.onPrt _ _)); refine State.steady_onPrt _ ?_)
    | (intro _ _; try dsimp only)
    | dsimp only
    | split

theorem State.steady_objOp (a0 : Nat) (a1 : Nat) (a2 : State → State) (h : s.steady t) (ha2 : ∀ t, s.steady t → s.steady (a2 t )) : s.steady (t.objOp a0 a1 a2) := by
  unfold State.objOp
  repeat' first
    | with_reducible assumption
    | (with_reducible refine ha2 _ ?_)
    | with_reducible refine State.steady_flag _ _ _ _ _ ?_
    | with_reducible refine State.steady_draw ?_
    | with_reducible refine State.steady_onSynView _ _ ?_
    | with_reducible refine State.steady_snd (by with_reducible assumption) ?_
    | (intro _ _; try dsimp only)
    | dsimp only
    | split

theorem State.steady_objResult (a0 : Nat) (a1 : BitVec 3) (a2 : Option (BitVec 32)) (h : s.steady t) : s.steady (t.objResult a0 a1 a2) := by
  unfold State.objResult
  repeat' first
    | with_reducible assumption
    | with_reducible refine State.steady_onSynView _ _ ?_
    | (intro _ _; try dsimp only)
    | dsimp only
    | split

theorem State.steady_createObj (a0 : Nat) (a1 : BitVec 2) (a2 : Bool) (h : s.steady t) : s.steady (t.createObj a0 a1 a2) := by
  unfold State.createObj
  repeat' first
    | with_reducible assumption
    | with_reducible refine State.steady_objResult _ _ _ ?_
    | with_reducible refine State.steady_ops _ _ ?_
    | with_reducible refine State.steady_onObj _ _ ?_
    | ((with_reducible show State.steady _ (State.onPrt _ _)); refine State.steady_onPrt _ ?_)
    | with_reducible refine State.steady_snd (by with_reducible assumption) ?_
    | (intro _ _; try dsimp only)
    | dsimp only
    | split

theorem State.steady_objCreate (a0 : Nat) (a1 : BitVec 2) (a2 : Bool) (h : s.steady t) : s.steady (t.objCreate a0 a1 a2) := by
  unfold State.objCreate
  repeat' first
    | with_reducible assumption
    | with_reducible refine State.steady_objOp _ _ _ ?_ ?_
    | with_reducible refine State.steady_createObj _ _ _ ?_
    | (intro _ _; try dsimp only)
    | dsimp only
    | split

theorem State.steady_objDestroy (a0 : Nat) (a1 : BitVec 32) (h : s.steady t) : s.steady (t.objDestroy a0 a1) := by
  unfold State.objDestroy
  repeat' first
    | with_reducible assumption
    | with_reducible refine State.steady_objOp _ _ _ ?_ ?_
    | with_reducible refine State.steady_destroyObj _ ?_
    | with_reducible refine State.steady_objResult _ _ _ ?_
    | (intro _ _; try dsimp only)
    | dsimp only
    | split

theorem State.steady_readObj (a0 : Nat) (a1 : BitVec 32) (h : s.steady t) : s.steady (t.readObj a0 a1) := by
  unfold State.readObj
  repeat' first
    | with_reducible assumption
    | with_reducible refine State.steady_objResult _ _ _ ?_
    | with_reducible refine State.steady_ops _ _ ?_
    | with_reducible refine State.steady_onSynView _ _ ?_
    | (intro _ _; try dsimp only)
    | dsimp only
    | split

theorem State.steady_objRead (a0 : Nat) (a1 : BitVec 32) (h : s.steady t) : s.steady (t.objRead a0 a1) := by
  unfold State.objRead
  repeat' first
    | with_reducible assumption
    | with_reducible refine State.steady_objOp _ _ _ ?_ ?_
    | with_reducible refine State.steady_readObj _ _ ?_
    | (intro _ _; try dsimp only)
    | dsimp only
    | split

theorem State.steady_coreSignal (a0 : Nat) (a1 : Nat) (a2 : Nat) (a3 : BitVec 32) (a4 : BitVec 2) (a5 : BitVec 16) (h : s.steady t) : s.steady (t.coreSignal a0 a1 a2 a3 a4 a5) := by
  unfold State.coreSignal
  repeat' first
    | with_reducible assumption
    | with_reducible refine State.steady_send _ ?_
    | with_reducible refine State.steady_portProtocol _ ?_
    | with_reducible refine State.steady_addAct _ _ ?_
    | dsimp only
    | split

theorem State.steady_waitReq (a0 : Nat) (a1 : Nat) (a2 : BitVec 2) (a3 : BitVec 2) (a4 : BitVec 32) (a5 : BitVec 32) (h : s.steady t) : s.steady (t.waitReq a0 a1 a2 a3 a4 a5) := by
  unfold State.waitReq
  repeat' first
    | with_reducible assumption
    | with_reducible refine State.steady_send _ ?_
    | with_reducible refine State.steady_beginWait _ _ _ _ _ ?_
    | dsimp only
    | split

theorem State.steady_recordLink (a0 : Engine) (h : s.steady t) : s.steady (t.recordLink a0) := by
  unfold State.recordLink
  repeat' first
    | with_reducible assumption
    | ((with_reducible show State.steady _ (State.onSyn _ _)); refine State.steady_onSyn _ ?_)
    | with_reducible refine State.steady_beginWait _ _ _ _ _ ?_
    | (intro _ _; try dsimp only)
    | dsimp only
    | split

theorem State.steady_mgmtAsk (a0 : Nat) (a1 : Nat) (h : s.steady t) : s.steady (t.mgmtAsk a0 a1) := by
  unfold State.mgmtAsk
  repeat' first
    | with_reducible assumption
    | with_reducible refine State.steady_onMgmt _ _ ?_
    | with_reducible refine State.steady_ask _ ?_
    | (intro _ _; try dsimp only)
    | dsimp only
    | split

theorem State.steady_mgmtTake (a0 : Nat) (n : Nat) (h : s.steady t) : s.steady (t.mgmtTake a0 n) := by
  induction n generalizing t with
  | zero => exact h
  | succ n ih =>
    unfold State.mgmtTake
    repeat' first
      | with_reducible assumption
      | with_reducible refine ih ?_
      | with_reducible refine State.steady_onMgmt _ _ ?_
      | with_reducible refine State.steady_mgmtAsk _ _ ?_
      | with_reducible refine State.steady_flag _ _ _ _ _ ?_
      | (intro _ _; try dsimp only)
      | dsimp only
      | split

theorem State.steady_mgmtNext (a0 : Nat) (h : s.steady t) : s.steady (t.mgmtNext a0) := by
  unfold State.mgmtNext
  repeat' first
    | with_reducible assumption
    | with_reducible refine State.steady_mgmtTake _ _ ?_
    | dsimp only
    | split

theorem State.steady_mgmtModified (a0 : Nat) (h : s.steady t) : s.steady (t.mgmtModified a0) := by
  unfold State.mgmtModified
  repeat' first
    | with_reducible assumption
    | with_reducible refine State.steady_onMgmt _ _ ?_
    | with_reducible refine State.steady_setChan _ _ ?_
    | (intro _ _; try dsimp only)
    | dsimp only
    | split

theorem State.steady_mgmtLost (a0 : Nat) (h : s.steady t) : s.steady (t.mgmtLost a0) := by
  unfold State.mgmtLost
  repeat' first
    | with_reducible assumption
    | with_reducible refine State.steady_mgmtModified _ ?_
    | with_reducible refine State.steady_onMgmt _ _ ?_
    | with_reducible refine State.steady_flag _ _ _ _ _ ?_
    | with_reducible refine State.steady_mgmtNext _ ?_
    | (intro _ _; try dsimp only)
    | dsimp only
    | split

theorem State.steady_mgmtResult (a0 : Nat) (a1 : Bool) (a2 : Word) (h : s.steady t) : s.steady (t.mgmtResult a0 a1 a2) := by
  unfold State.mgmtResult
  repeat' first
    | with_reducible assumption
    | with_reducible refine State.steady_onMgmt _ _ ?_
    | with_reducible refine State.steady_mgmtAsk _ _ ?_
    | with_reducible refine State.steady_mgmtLost _ ?_
    | (intro _ _; try dsimp only)
    | dsimp only
    | split

theorem State.steady_payOwed (a0 : Nat) (a1 : Bool) (a2 : Code) (h : s.steady t) : s.steady (t.payOwed a0 a1 a2) := by
  unfold State.payOwed
  repeat' first
    | with_reducible assumption
    | with_reducible refine State.steady_onChan _ _ ?_
    | with_reducible refine State.steady_mgmtResult _ _ _ ?_
    | (intro _ _; try dsimp only)
    | dsimp only
    | split

theorem State.steady_endWork (a0 : Nat) (h : s.steady t) : s.steady (t.endWork a0) := by
  unfold State.endWork
  repeat' first
    | with_reducible assumption
    | with_reducible refine State.steady_withdrawWaits _ ?_
    | with_reducible refine State.steady_endCmds _ _ ?_
    | ((with_reducible show State.steady _ (State.onSyn _ _)); refine State.steady_onSyn _ ?_)
    | with_reducible refine State.steady_onChan _ _ ?_
    | with_reducible refine State.steady_withdraw _ ?_
    | (intro _ _; try dsimp only)
    | dsimp only
    | split

theorem State.steady_deadDoorbell (a0 : Nat) (h : s.steady t) : s.steady (t.deadDoorbell a0) := by
  unfold State.deadDoorbell
  repeat' first
    | with_reducible assumption
    | with_reducible refine State.steady_setChan _ _ ?_
    | with_reducible refine State.steady_dblFlag _ _ _ _ ?_
    | (intro _ _; try dsimp only)
    | dsimp only
    | split

theorem State.steady_killChannel (a0 : Nat) (a1 : Code) (a2 : BitVec 16) (a3 : Bool) (h : s.steady t) : s.steady (t.killChannel a0 a1 a2 a3) := by
  unfold State.killChannel
  repeat' first
    | with_reducible assumption
    | with_reducible refine State.steady_captureOnly _ _ _ _ ?_
    | with_reducible refine State.steady_endWork _ ?_
    | with_reducible refine State.steady_setChan _ _ ?_
    | with_reducible refine State.steady_abandonOwned _ ?_
    | with_reducible refine State.steady_disownEntries _ ?_
    | with_reducible refine State.steady_deadDoorbell _ ?_
    | (intro _ _; try dsimp only)
    | dsimp only
    | split

theorem State.steady_resetChannel (a0 : Nat) (h : s.steady t) : s.steady (t.resetChannel a0) := by
  unfold State.resetChannel
  repeat' first
    | with_reducible assumption
    | with_reducible refine State.steady_endWork _ ?_
    | with_reducible refine State.steady_setChan _ _ ?_
    | with_reducible refine State.steady_abandonOwned _ ?_
    | with_reducible refine State.steady_disownEntries _ ?_
    | with_reducible refine State.steady_tailWrite _ _ ?_
    | (intro _ _; try dsimp only)
    | dsimp only
    | split

theorem State.steady_retireChannel (a0 : Nat) (h : s.steady t) : s.steady (t.retireChannel a0) := by
  unfold State.retireChannel
  repeat' first
    | with_reducible assumption
    | with_reducible refine State.steady_captureOnly _ _ _ _ ?_
    | with_reducible refine State.steady_withdrawWaits _ ?_
    | with_reducible refine State.steady_withdraw _ ?_
    | with_reducible refine State.steady_setChan _ _ ?_
    | with_reducible refine State.steady_abandonOwned _ ?_
    | with_reducible refine State.steady_disownEntries _ ?_
    | with_reducible refine State.steady_deadDoorbell _ ?_
    | with_reducible refine State.steady_snd (by with_reducible assumption) ?_
    | (intro _ _; try dsimp only)
    | dsimp only
    | split

theorem State.steady_freeChannel (a0 : Nat) (h : s.steady t) : s.steady (t.freeChannel a0) := by
  unfold State.freeChannel
  repeat' first
    | with_reducible assumption
    | with_reducible refine State.steady_endWork _ ?_
    | with_reducible refine State.steady_setChan _ _ ?_
    | ((with_reducible show State.steady _ (State.onMov _ _)); refine State.steady_onMov _ ?_)
    | with_reducible refine State.steady_payOwed _ _ _ ?_
    | (intro _ _; try dsimp only)
    | dsimp only
    | split

theorem State.steady_retireDrained (a0 : Nat) (h : s.steady t) : s.steady (t.retireDrained a0) := by
  unfold State.retireDrained
  repeat' first
    | with_reducible assumption
    | with_reducible refine State.steady_freeChannel _ ?_
    | dsimp only
    | split

theorem State.steady_retireExpired (a0 : Nat) (h : s.steady t) : s.steady (t.retireExpired a0) := by
  unfold State.retireExpired
  repeat' first
    | with_reducible assumption
    | with_reducible refine State.steady_freeChannel _ ?_
    | dsimp only
    | split

theorem State.steady_skkFlag (a0 : Nat) (a1 : Nat) (h : s.steady t) : s.steady (t.skkFlag a0 a1) := by
  unfold State.skkFlag
  repeat' first
    | with_reducible assumption
    | with_reducible refine State.steady_flag _ _ _ _ _ ?_
    | dsimp only
    | split

theorem State.steady_skipRegion (a0 : Nat) (a1 : Nat) (a2 : Word) (a3 : Nat) (h : s.steady t) : s.steady (t.skipRegion a0 a1 a2 a3) := by
  unfold State.skipRegion
  repeat' first
    | with_reducible assumption
    | with_reducible refine State.steady_setCounter _ _ _ ?_
    | with_reducible refine State.steady_onSkkPart _ _ ?_
    | (intro _ _; try dsimp only)
    | dsimp only
    | split

theorem State.steady_evaluate (a0 : Nat) (a1 : Nat) (a2 : Word) (a3 : Bool) (h : s.steady t) : s.steady (t.evaluate a0 a1 a2 a3) := by
  unfold State.evaluate
  repeat' first
    | with_reducible assumption
    | with_reducible refine State.steady_skipRegion _ _ _ _ ?_
    | with_reducible refine State.steady_skkFlag _ _ ?_
    | ((with_reducible show State.steady _ (State.onSkk _ _)); refine State.steady_onSkk _ ?_)
    | with_reducible refine State.steady_ask _ ?_
    | with_reducible refine State.steady_snd (by with_reducible assumption) ?_
    | (intro _ _; try dsimp only)
    | dsimp only
    | split

theorem State.steady_onPend (a0 : Nat) (a1 : Pending → Pending) (h : s.steady t) : s.steady (t.onPend a0 a1) := by
  unfold State.onPend
  repeat' first
    | with_reducible assumption
    | ((with_reducible show State.steady _ (State.onSkk _ _)); refine State.steady_onSkk _ ?_)
    | (intro _ _; try dsimp only)
    | dsimp only
    | split

theorem State.steady_dropPend (a0 : Nat) (h : s.steady t) : s.steady (t.dropPend a0) := by
  unfold State.dropPend
  repeat' first
    | with_reducible assumption
    | ((with_reducible show State.steady _ (State.onSkk _ _)); refine State.steady_onSkk _ ?_)
    | (intro _ _; try dsimp only)
    | dsimp only
    | split

theorem State.steady_hintLost (a0 : Nat) (h : s.steady t) : s.steady (t.hintLost a0) := by
  unfold State.hintLost
  repeat' first
    | with_reducible assumption
    | with_reducible refine State.steady_onSkkPart _ _ ?_
    | (intro _ _; try dsimp only)
    | dsimp only
    | split

theorem State.steady_lookEnds (a0 : Look) (a1 : Bool) (h : s.steady t) : s.steady (t.lookEnds a0 a1) := by
  unfold State.lookEnds
  repeat' first
    | with_reducible assumption
    | ((with_reducible show State.steady _ (State.onSkk _ _)); refine State.steady_onSkk _ ?_)
    | with_reducible refine State.steady_setCounter _ _ _ ?_
    | with_reducible refine State.steady_hintLost _ ?_
    | (intro _ _; try dsimp only)
    | dsimp only
    | split

theorem State.steady_evalFailed (a0 : Nat) (h : s.steady t) : s.steady (t.evalFailed a0) := by
  unfold State.evalFailed
  repeat' first
    | with_reducible assumption
    | with_reducible refine State.steady_dropPend _ ?_
    | with_reducible refine State.steady_skipRegion _ _ _ _ ?_
    | with_reducible refine State.steady_hintLost _ ?_
    | with_reducible refine State.steady_lookEnds _ _ ?_
    | dsimp only
    | split

theorem State.steady_skinkLeaf (a0 : Nat) (a1 : Bool) (h : s.steady t) : s.steady (t.skinkLeaf a0 a1) := by
  unfold State.skinkLeaf
  repeat' first
    | with_reducible assumption
    | with_reducible refine State.steady_lookEnds _ _ ?_
    | with_reducible refine State.steady_evalFailed _ ?_
    | dsimp only
    | split

theorem State.steady_readEntries (a0 : Nat) (a1 : Nat → UnitFor) (a2 : Word) (h : s.steady t) : s.steady (t.readEntries a0 a1 a2) := by
  unfold State.readEntries
  repeat' first
    | with_reducible assumption
    | with_reducible refine State.steady_forPart _ _ _ ?_ ?_
    | with_reducible refine State.steady_unitRead _ _ _ ?_
    | (intro _ _; try dsimp only)
    | dsimp only
    | split

theorem State.steady_skinkFound (a0 : Nat) (a1 : Word) (h : s.steady t) : s.steady (t.skinkFound a0 a1) := by
  unfold State.skinkFound
  repeat' first
    | with_reducible assumption
    | with_reducible refine State.steady_onPend _ _ ?_
    | with_reducible refine State.steady_readEntries _ _ _ ?_
    | (intro _ _; try dsimp only)
    | dsimp only
    | split

theorem State.steady_skkAdd (a0 : Nat) (a1 : Page) (a2 : Word) (a3 : Nat) (h : s.steady t) : s.steady (t.skkAdd a0 a1 a2 a3) := by
  unfold State.skkAdd
  repeat' first
    | with_reducible assumption
    | with_reducible refine State.steady_setCounter _ _ _ ?_
    | with_reducible refine State.steady_evaluate _ _ _ _ ?_
    | (intro _ _; try dsimp only)
    | dsimp only
    | split

theorem State.steady_markWritten (a0 : Page) (h : s.steady t) : s.steady (t.markWritten a0) := by
  unfold State.markWritten
  repeat' first
    | with_reducible assumption
    | ((with_reducible show State.steady _ (State.onSkk _ _)); refine State.steady_onSkk _ ?_)
    | (intro _ _; try dsimp only)
    | dsimp only
    | split

end Sys2Proof.Machine
end

