-- ==== Sys2Proof/Laws/SteadyMove.lean ====
section
/-! SUPPORT. What the hub's own work leaves alone, function by function. -/

-- One proof at a time: hundreds of proofs started together would each wait on the same lemma on a thread of its own.
set_option Elab.async false

namespace Sys2Proof.Machine

set_option linter.unusedTactic false
set_option linter.unreachableTactic false

variable {s t u : State}

theorem State.steady_setEft (a0 : Nat) (a1 : Nat) (a2 : EftEntry) (h : s.steady t) : s.steady (t.setEft a0 a1 a2) := by
  unfold State.setEft
  repeat' first
    | with_reducible assumption
    | ((with_reducible show State.steady _ (State.onXlt _ _)); refine State.steady_onXlt _ ?_)
    | (intro _ _; try dsimp only)
    | dsimp only
    | split

theorem State.steady_eftUse (a0 : Nat) (a1 : Nat) (h : s.steady t) : s.steady (t.eftUse a0 a1) := by
  unfold State.eftUse
  repeat' first
    | with_reducible assumption
    | with_reducible refine State.steady_setEft _ _ _ ?_
    | with_reducible refine State.steady_foldl _ _ ?_ ?_
    | with_reducible refine State.steady_foldl _ _ ?_ ?_
    | (intro _ _ _; try dsimp only)
    | (intro _ _; try dsimp only)
    | dsimp only
    | split

theorem State.steady_flushTally (a0 : Nat) (a1 : Nat) (h : s.steady t) : s.steady (t.flushTally a0 a1) := by
  unfold State.flushTally
  repeat' first
    | with_reducible assumption
    | with_reducible refine State.steady_setEft _ _ _ ?_
    | with_reducible refine State.steady_skkAdd _ _ _ _ ?_
    | dsimp only
    | split

theorem State.steady_eftHit (a0 : Nat) (a1 : Nat) (h : s.steady t) : s.steady (t.eftHit a0 a1) := by
  unfold State.eftHit
  repeat' first
    | with_reducible assumption
    | with_reducible refine State.steady_eftUse _ _ ?_
    | with_reducible refine State.steady_setEft _ _ _ ?_
    | with_reducible refine State.steady_flushTally _ _ ?_
    | dsimp only
    | split

theorem State.steady_eftDrop (a0 : Nat) (a1 : Nat) (h : s.steady t) : s.steady (t.eftDrop a0 a1) := by
  unfold State.eftDrop
  repeat' first
    | with_reducible assumption
    | with_reducible refine State.steady_flushTally _ _ ?_
    | with_reducible refine State.steady_setEft _ _ _ ?_
    | dsimp only
    | split

theorem State.steady_eftInstall (a0 : Nat) (a1 : Page) (h : s.steady t) : s.steady (t.eftInstall a0 a1) := by
  unfold State.eftInstall
  repeat' first
    | with_reducible assumption
    | with_reducible refine State.steady_eftDrop _ _ ?_
    | with_reducible refine State.steady_setEft _ _ _ ?_
    | with_reducible refine State.steady_eftUse _ _ ?_
    | (intro _ _; try dsimp only)
    | dsimp only
    | split

theorem State.steady_plruUse (a0 : Nat) (a1 : Nat) (h : s.steady t) : s.steady (t.plruUse a0 a1) := by
  unfold State.plruUse
  repeat' first
    | with_reducible assumption
    | ((with_reducible show State.steady _ (State.onXlt _ _)); refine State.steady_onXlt _ ?_)
    | (intro _ _; try dsimp only)
    | dsimp only
    | split

theorem State.steady_l2tInstall (a0 : Nat) (a1 : Page) (a2 : Word) (h : s.steady t) : s.steady (t.l2tInstall a0 a1 a2) := by
  unfold State.l2tInstall
  repeat' first
    | with_reducible assumption
    | ((with_reducible show State.steady _ (State.onXlt _ _)); refine State.steady_onXlt _ ?_)
    | with_reducible refine State.steady_plruUse _ _ ?_
    | (intro _ _; try dsimp only)
    | dsimp only
    | split

theorem State.steady_walkInstall (a0 : WalkEntry) (h : s.steady t) : s.steady (t.walkInstall a0) := by
  unfold State.walkInstall
  repeat' first
    | with_reducible assumption
    | with_reducible refine State.steady_foldl _ _ ?_ ?_
    | ((with_reducible show State.steady _ (State.onXlt _ _)); refine State.steady_onXlt _ ?_)
    | with_reducible refine State.steady_foldl _ _ ?_ ?_
    | (intro _ _ _; try dsimp only)
    | (intro _ _; try dsimp only)
    | dsimp only
    | split

theorem State.steady_walkUse (a0 : WalkEntry) (h : s.steady t) : s.steady (t.walkUse a0) := by
  unfold State.walkUse
  repeat' first
    | with_reducible assumption
    | ((with_reducible show State.steady _ (State.onXlt _ _)); refine State.steady_onXlt _ ?_)
    | (intro _ _; try dsimp only)
    | dsimp only
    | split

theorem State.steady_failWork (a0 : Work) (a1 : Code) (h : s.steady t) : s.steady (t.failWork a0 a1) := by
  unfold State.failWork
  repeat' first
    | with_reducible assumption
    | with_reducible refine State.steady_killChannel _ _ _ _ ?_
    | with_reducible refine State.steady_endCmds _ _ ?_
    | with_reducible refine State.steady_haltError _ _ _ _ ?_
    | with_reducible refine State.steady_afterInflight _ ?_
    | with_reducible refine State.steady_stopRun _ ?_
    | with_reducible refine State.steady_onEntry _ _ ?_
    | with_reducible refine State.steady_disarm _ ?_
    | (intro _ _; try dsimp only)
    | dsimp only
    | split

theorem State.steady_suppress (a0 : Nat) (h : s.steady t) : s.steady (t.suppress a0) := by
  unfold State.suppress
  repeat' first
    | with_reducible assumption
    | ((with_reducible show State.steady _ (State.onXlt _ _)); refine State.steady_onXlt _ ?_)
    | (intro _ _; try dsimp only)
    | dsimp only
    | split

theorem State.steady_xltRecord (a0 : XReq) (a1 : XFault) (a2 : Nat) (a3 : Nat) (a4 : BitVec 32) (a5 : Word) (h : s.steady t) : s.steady (t.xltRecord a0 a1 a2 a3 a4 a5) := by
  unfold State.xltRecord
  repeat' first
    | with_reducible assumption
    | with_reducible refine State.steady_fault _ _ _ _ _ _ _ ?_
    | dsimp only
    | split

theorem State.steady_xltKill (a0 : XReq) (a1 : XFault) (a2 : Nat) (a3 : BitVec 16) (a4 : Bool) (a5 : Nat) (h : s.steady t) : s.steady (t.xltKill a0 a1 a2 a3 a4 a5) := by
  unfold State.xltKill
  repeat' first
    | with_reducible assumption
    | with_reducible refine State.steady_suppress _ ?_
    | with_reducible refine State.steady_xltRecord _ _ _ _ _ _ ?_
    | with_reducible refine State.steady_onChan _ _ ?_
    | with_reducible refine State.steady_killChannel _ _ _ _ ?_
    | (intro _ _; try dsimp only)
    | dsimp only
    | split

theorem State.steady_xltFail (a0 : XReq) (a1 : XFault) (h : s.steady t) : s.steady (t.xltFail a0 a1) := by
  unfold State.xltFail
  repeat' first
    | with_reducible assumption
    | with_reducible refine State.steady_suppress _ ?_
    | with_reducible refine State.steady_slotArrived _ _ _ _ _ ?_
    | with_reducible refine State.steady_xltKill _ _ _ _ _ _ ?_
    | with_reducible refine State.steady_endCmds _ _ ?_
    | with_reducible refine State.steady_xltRecord _ _ _ _ _ _ ?_
    | with_reducible refine State.steady_failWork _ _ ?_
    | with_reducible refine State.steady_send _ ?_
    | with_reducible refine State.steady_resolve _ ?_
    | ((with_reducible show State.steady _ (State.onXlt _ _)); refine State.steady_onXlt _ ?_)
    | with_reducible refine State.steady_mgmtLost _ ?_
    | with_reducible refine State.steady_evalFailed _ ?_
    | (intro _ _; try dsimp only)
    | dsimp only
    | split

theorem State.steady_xltBlocked (a0 : XReq) (a1 : Code) (h : s.steady t) : s.steady (t.xltBlocked a0 a1) := by
  unfold State.xltBlocked
  repeat' first
    | with_reducible assumption
    | with_reducible refine State.steady_slotArrived _ _ _ _ _ ?_
    | with_reducible refine State.steady_failWork _ _ ?_
    | with_reducible refine State.steady_send _ ?_
    | with_reducible refine State.steady_resolve _ ?_
    | ((with_reducible show State.steady _ (State.onXlt _ _)); refine State.steady_onXlt _ ?_)
    | with_reducible refine State.steady_mgmtLost _ ?_
    | with_reducible refine State.steady_evalFailed _ ?_
    | (intro _ _; try dsimp only)
    | dsimp only
    | split

theorem State.steady_resolved (a0 : Nat) (a1 : Bool) (a2 : Page) (a3 : Word) (h : s.steady t) : s.steady (t.resolved a0 a1 a2 a3) := by
  unfold State.resolved
  repeat' first
    | with_reducible assumption
    | with_reducible refine State.steady_resolve _ ?_
    | with_reducible refine State.steady_onBody _ _ ?_
    | with_reducible refine State.steady_ask _ ?_
    | (intro _ _; try dsimp only)
    | dsimp only
    | split

theorem State.steady_mgmtPage (a0 : Nat) (a1 : Nat) (a2 : Page) (a3 : Word) (h : s.steady t) : s.steady (t.mgmtPage a0 a1 a2 a3) := by
  unfold State.mgmtPage
  repeat' first
    | with_reducible assumption
    | with_reducible refine State.steady_mgmtLost _ ?_
    | with_reducible refine State.steady_mgmtAsk _ _ ?_
    | with_reducible refine State.steady_onMgmt _ _ ?_
    | with_reducible refine State.steady_unitRead _ _ _ ?_
    | with_reducible refine State.steady_unitWrite _ _ _ _ ?_
    | with_reducible refine State.steady_mgmtResult _ _ _ ?_
    | (intro _ _; try dsimp only)
    | dsimp only
    | split

theorem State.steady_xltServe (a0 : XReq) (a1 : Page) (h : s.steady t) : s.steady (t.xltServe a0 a1) := by
  unfold State.xltServe
  repeat' first
    | with_reducible assumption
    | with_reducible refine State.steady_xltBlocked _ _ ?_
    | with_reducible refine State.steady_markWritten _ ?_
    | with_reducible refine State.steady_slotArrived _ _ _ _ _ ?_
    | with_reducible refine State.steady_onChan _ _ ?_
    | with_reducible refine State.steady_unitRead _ _ _ ?_
    | with_reducible refine State.steady_eftInstall _ _ ?_
    | with_reducible refine State.steady_onJob _ _ _ ?_
    | with_reducible refine State.steady_skkAdd _ _ _ _ ?_
    | with_reducible refine State.steady_send _ ?_
    | with_reducible refine State.steady_resolve _ ?_
    | with_reducible refine State.steady_resolved _ _ _ _ ?_
    | ((with_reducible show State.steady _ (State.onXlt _ _)); refine State.steady_onXlt _ ?_)
    | with_reducible refine State.steady_mgmtPage _ _ _ _ ?_
    | with_reducible refine State.steady_evalFailed _ ?_
    | (intro _ _; try dsimp only)
    | dsimp only
    | split

theorem State.steady_onMissQ (a0 : Engine) (a1 : List XReq → List XReq) (h : s.steady t) : s.steady (t.onMissQ a0 a1) := by
  cases a0 <;> exact State.steady_onXlt _ h

theorem State.steady_answerJoiners (a0 : List XReq) (a1 : List Page) (h : s.steady t) : s.steady (t.answerJoiners a0 a1) := by
  unfold State.answerJoiners
  repeat' first
    | with_reducible assumption
    | with_reducible refine State.steady_foldl _ _ ?_ ?_
    | with_reducible refine State.steady_xltServe _ _ ?_
    | with_reducible refine State.steady_ask _ ?_
    | with_reducible refine State.steady_foldl _ _ ?_ ?_
    | (intro _ _ _; try dsimp only)
    | (intro _ _; try dsimp only)
    | dsimp only
    | split

theorem State.steady_walkFault (a0 : Nat) (a1 : Walk) (a2 : XFault) (h : s.steady t) : s.steady (t.walkFault a0 a1 a2) := by
  unfold State.walkFault
  repeat' first
    | with_reducible assumption
    | with_reducible refine State.steady_setWalker _ _ ?_
    | with_reducible refine State.steady_xltFail _ _ ?_
    | with_reducible refine State.steady_answerJoiners _ _ ?_
    | dsimp only
    | split

theorem State.steady_walkBlocked (a0 : Nat) (a1 : Walk) (a2 : Code) (h : s.steady t) : s.steady (t.walkBlocked a0 a1 a2) := by
  unfold State.walkBlocked
  repeat' first
    | with_reducible assumption
    | with_reducible refine State.steady_setWalker _ _ ?_
    | with_reducible refine State.steady_xltBlocked _ _ ?_
    | with_reducible refine State.steady_answerJoiners _ _ ?_
    | dsimp only
    | split

theorem State.steady_walkRead (a0 : Nat) (a1 : Walk) (h : s.steady t) : s.steady (t.walkRead a0 a1) := by
  unfold State.walkRead
  repeat' first
    | with_reducible assumption
    | with_reducible refine State.steady_walkFault _ _ _ ?_
    | with_reducible refine State.steady_fault _ _ _ _ _ _ _ ?_
    | with_reducible refine State.steady_walkBlocked _ _ _ ?_
    | ((with_reducible show State.steady _ (State.onXlt _ _)); refine State.steady_onXlt _ ?_)
    | with_reducible refine State.steady_setWalker _ _ ?_
    | with_reducible refine State.steady_unitAsk _ _ _ _ _ _ _ ?_
    | (intro _ _; try dsimp only)
    | dsimp only
    | split

theorem State.steady_walkEnds (a0 : Nat) (a1 : Walk) (a2 : Page) (a3 : List (Page × Word)) (h : s.steady t) : s.steady (t.walkEnds a0 a1 a2 a3) := by
  unfold State.walkEnds
  repeat' first
    | with_reducible assumption
    | with_reducible refine State.steady_setWalker _ _ ?_
    | with_reducible refine State.steady_l2tInstall _ _ _ ?_
    | with_reducible refine State.steady_foldl _ _ ?_ ?_
    | with_reducible refine State.steady_xltServe _ _ ?_
    | with_reducible refine State.steady_answerJoiners _ _ ?_
    | with_reducible refine State.steady_foldl _ _ ?_ ?_
    | (intro _ _ _; try dsimp only)
    | (intro _ _; try dsimp only)
    | dsimp only
    | split

theorem State.steady_walkBegin (a0 : Nat) (a1 : Walk) (h : s.steady t) : s.steady (t.walkBegin a0 a1) := by
  unfold State.walkBegin
  repeat' first
    | with_reducible assumption
    | with_reducible refine State.steady_walkFault _ _ _ ?_
    | with_reducible refine State.steady_walkRead _ _ ?_
    | with_reducible refine State.steady_walkUse _ ?_
    | with_reducible refine State.steady_walkEnds _ _ _ _ ?_
    | dsimp only
    | split

theorem State.steady_leafCached (a0 : Walk) (a1 : Page) (a2 : Word) (h : s.steady t) : s.steady (t.leafCached a0 a1 a2) := by
  unfold State.leafCached
  repeat' first
    | with_reducible assumption
    | with_reducible refine State.steady_walkInstall _ ?_
    | dsimp only
    | split

theorem State.steady_walkLocked (a0 : Nat) (a1 : Walk) (a2 : Word) (h : s.steady t) : s.steady (t.walkLocked a0 a1 a2) := by
  unfold State.walkLocked
  repeat' first
    | with_reducible assumption
    | with_reducible refine State.steady_setWalker _ _ ?_
    | ((with_reducible show State.steady _ (State.onXlt _ _)); refine State.steady_onXlt _ ?_)
    | (intro _ _; try dsimp only)
    | dsimp only
    | split

theorem State.steady_walkLeaf (a0 : Nat) (a1 : Walk) (a2 : Binding) (a3 : Profile) (a4 : Word) (a5 : Page) (a6 : Granule) (h : s.steady t) : s.steady (t.walkLeaf a0 a1 a2 a3 a4 a5 a6) := by
  unfold State.walkLeaf
  repeat' first
    | with_reducible assumption
    | with_reducible refine State.steady_walkFault _ _ _ ?_
    | with_reducible refine State.steady_fault _ _ _ _ _ _ _ ?_
    | ((with_reducible show State.steady _ (State.onXlt _ _)); refine State.steady_onXlt _ ?_)
    | with_reducible refine State.steady_setWalker _ _ ?_
    | with_reducible refine State.steady_unitCas _ _ _ _ _ ?_
    | with_reducible refine State.steady_foldl _ _ ?_ ?_
    | with_reducible refine State.steady_leafCached _ _ _ ?_
    | with_reducible refine State.steady_walkEnds _ _ _ _ ?_
    | with_reducible refine State.steady_foldl _ _ ?_ ?_
    | (intro _ _ _; try dsimp only)
    | (intro _ _; try dsimp only)
    | dsimp only
    | split

theorem State.steady_walkJudge (a0 : Nat) (a1 : Walk) (a2 : Word) (a3 : Granule) (h : s.steady t) : s.steady (t.walkJudge a0 a1 a2 a3) := by
  unfold State.walkJudge
  repeat' first
    | with_reducible assumption
    | with_reducible refine State.steady_walkFault _ _ _ ?_
    | with_reducible refine State.steady_setWalker _ _ ?_
    | with_reducible refine State.steady_skinkFound _ _ ?_
    | with_reducible refine State.steady_answerJoiners _ _ ?_
    | with_reducible refine State.steady_judge _ _ ?_
    | with_reducible refine State.steady_fault _ _ _ _ _ _ _ ?_
    | with_reducible refine State.steady_walkLocked _ _ _ ?_
    | with_reducible refine State.steady_walkInstall _ ?_
    | with_reducible refine State.steady_walkRead _ _ ?_
    | with_reducible refine State.steady_skinkLeaf _ _ ?_
    | with_reducible refine State.steady_walkLeaf _ _ _ _ _ _ _ ?_
    | dsimp only
    | split

theorem State.steady_walkAgain (a0 : Nat) (a1 : Walk) (h : s.steady t) : s.steady (t.walkAgain a0 a1) := by
  unfold State.walkAgain
  repeat' first
    | with_reducible assumption
    | with_reducible refine State.steady_walkBegin _ _ ?_
    | dsimp only
    | split

theorem State.steady_walkReadFailed (a0 : Nat) (a1 : Walk) (a2 : Code) (h : s.steady t) : s.steady (t.walkReadFailed a0 a1 a2) := by
  unfold State.walkReadFailed
  repeat' first
    | with_reducible assumption
    | with_reducible refine State.steady_walkFault _ _ _ ?_
    | with_reducible refine State.steady_fault _ _ _ _ _ _ _ ?_
    | with_reducible refine State.steady_walkBlocked _ _ _ ?_
    | dsimp only
    | split

theorem State.steady_lineReturn (a0 : Nat) (h : s.steady t) : s.steady (t.lineReturn a0) := by
  unfold State.lineReturn
  repeat' first
    | with_reducible assumption
    | with_reducible refine State.steady_takeFor _ _ ?_
    | with_reducible refine State.steady_walkAgain _ _ ?_
    | with_reducible refine State.steady_walkReadFailed _ _ _ ?_
    | with_reducible refine State.steady_walkJudge _ _ _ _ ?_
    | dsimp only
    | split

theorem State.steady_walkUpdated (a0 : Nat) (a1 : Nat) (a2 : Code) (a3 : Word) (h : s.steady t) : s.steady (t.walkUpdated a0 a1 a2 a3) := by
  unfold State.walkUpdated
  repeat' first
    | with_reducible assumption
    | with_reducible refine State.steady_walkAgain _ _ ?_
    | with_reducible refine State.steady_walkReadFailed _ _ _ ?_
    | with_reducible refine State.steady_walkRead _ _ ?_
    | with_reducible refine State.steady_walkFault _ _ _ ?_
    | with_reducible refine State.steady_walkJudge _ _ _ _ ?_
    | dsimp only
    | split

theorem State.steady_joinWalk (a0 : Nat) (a1 : Walk) (a2 : XReq) (h : s.steady t) : s.steady (t.joinWalk a0 a1 a2) := by
  unfold State.joinWalk
  repeat' first
    | with_reducible assumption
    | with_reducible refine State.steady_setWalker _ _ ?_
    | dsimp only
    | split

theorem State.steady_miss (a0 : XReq) (h : s.steady t) : s.steady (t.miss a0) := by
  unfold State.miss
  repeat' first
    | with_reducible assumption
    | with_reducible refine State.steady_joinWalk _ _ _ ?_
    | with_reducible refine State.steady_ask _ ?_
    | with_reducible refine State.steady_onMissQ _ _ ?_
    | (intro _ _; try dsimp only)
    | dsimp only
    | split

theorem State.steady_probe (a0 : Nat) (a1 : XReq) (h : s.steady t) : s.steady (t.probe a0 a1) := by
  unfold State.probe
  repeat' first
    | with_reducible assumption
    | ((with_reducible show State.steady _ (State.onXlt _ _)); refine State.steady_onXlt _ ?_)
    | with_reducible refine State.steady_ops _ _ ?_
    | with_reducible refine State.steady_xltFail _ _ ?_
    | with_reducible refine State.steady_plruUse _ _ ?_
    | with_reducible refine State.steady_xltServe _ _ ?_
    | with_reducible refine State.steady_miss _ ?_
    | (intro _ _; try dsimp only)
    | dsimp only
    | split

theorem State.steady_lookup (a0 : Nat) (h : s.steady t) : s.steady (t.lookup a0) := by
  unfold State.lookup
  repeat' first
    | with_reducible assumption
    | with_reducible refine State.steady_probe _ _ ?_
    | with_reducible refine State.steady_arbCycle _ _ _ ?_
    | with_reducible refine State.steady_arbUse _ _ ?_
    | with_reducible refine State.steady_arbDecide _ _ _ ?_
    | dsimp only
    | split

theorem State.steady_walkerAllocate (a0 : Engine) (h : s.steady t) : s.steady (t.walkerAllocate a0) := by
  unfold State.walkerAllocate
  repeat' first
    | with_reducible assumption
    | with_reducible refine State.steady_onMissQ _ _ ?_
    | with_reducible refine State.steady_joinWalk _ _ _ ?_
    | with_reducible refine State.steady_walkBegin _ _ ?_
    | (intro _ _; try dsimp only)
    | dsimp only
    | split

theorem State.steady_unpark (a0 : LockWait) (h : s.steady t) : s.steady (t.unpark a0) := by
  unfold State.unpark
  repeat' first
    | with_reducible assumption
    | with_reducible refine State.steady_foldl _ _ ?_ ?_
    | with_reducible refine State.steady_ask _ ?_
    | ((with_reducible show State.steady _ (State.onXlt _ _)); refine State.steady_onXlt _ ?_)
    | with_reducible refine State.steady_foldl _ _ ?_ ?_
    | (intro _ _ _; try dsimp only)
    | (intro _ _; try dsimp only)
    | dsimp only
    | split

theorem State.steady_walkRetry (a0 : Nat × Walk) (h : s.steady t) : s.steady (t.walkRetry a0) := by
  unfold State.walkRetry
  repeat' first
    | with_reducible assumption
    | with_reducible refine State.steady_walkAgain _ _ ?_
    | with_reducible refine State.steady_walkRead _ _ ?_
    | dsimp only
    | split

theorem State.steady_lockRetry (a0 : Nat) (h : s.steady t) : s.steady (t.lockRetry a0) := by
  unfold State.lockRetry
  repeat' first
    | with_reducible assumption
    | with_reducible refine State.steady_unpark _ ?_
    | with_reducible refine State.steady_walkRetry _ ?_
    | dsimp only
    | split

theorem State.steady_lockLimit (a0 : Nat) (h : s.steady t) : s.steady (t.lockLimit a0) := by
  unfold State.lockLimit
  repeat' first
    | with_reducible assumption
    | with_reducible refine State.steady_foldl _ _ ?_ ?_
    | with_reducible refine State.steady_xltFail _ _ ?_
    | ((with_reducible show State.steady _ (State.onXlt _ _)); refine State.steady_onXlt _ ?_)
    | with_reducible refine State.steady_fault _ _ _ _ _ _ _ ?_
    | with_reducible refine State.steady_setWalker _ _ ?_
    | with_reducible refine State.steady_foldl _ _ ?_ ?_
    | (intro _ _ _; try dsimp only)
    | (intro _ _; try dsimp only)
    | dsimp only
    | split

theorem State.steady_wakeLocks (h : s.steady t) : s.steady (t.wakeLocks) := by
  unfold State.wakeLocks
  repeat' first
    | with_reducible assumption
    | ((with_reducible show State.steady _ (State.onHome _ _)); refine State.steady_onHome _ ?_)
    | with_reducible refine State.steady_foldl _ _ ?_ ?_
    | with_reducible refine State.steady_unpark _ ?_
    | with_reducible refine State.steady_walkRetry _ ?_
    | with_reducible refine State.steady_foldl _ _ ?_ ?_
    | (intro _ _ _; try dsimp only)
    | (intro _ _; try dsimp only)
    | dsimp only
    | split

theorem State.steady_xltRequest (a0 : Nat) (a1 : Nat) (a2 : Nat) (a3 : BitVec 2) (a4 : Word) (h : s.steady t) : s.steady (t.xltRequest a0 a1 a2 a3 a4) := by
  unfold State.xltRequest
  repeat' first
    | with_reducible assumption
    | with_reducible refine State.steady_portProtocol _ ?_
    | with_reducible refine State.steady_xltFail _ _ ?_
    | with_reducible refine State.steady_ask _ ?_
    | dsimp only
    | split

theorem State.steady_xltFlag (a0 : Nat) (a1 : Nat) (h : s.steady t) : s.steady (t.xltFlag a0 a1) := by
  unfold State.xltFlag
  repeat' first
    | with_reducible assumption
    | with_reducible refine State.steady_flag _ _ _ _ _ ?_
    | dsimp only
    | split

/-- A table of options keeps its form when what its entries hold is changed. -/
theorem tabWf_mapSome {α : Type} [DecidableEq α] (f : α → α) (l : Tab (Option α)) (h : tabWf (fun _ => none) l = true) :
    tabWf (fun _ => none) (l.map fun e => (e.1, e.2.map f)) = true := by
  induction l with
  | nil => rfl
  | cons e r ih =>
    obtain ⟨i, a⟩ := e
    refine tabWf_cons _ ?_ (fun e he => ?_) (ih (tabWf_tail _ h))
    · have := tabWf_head _ h
      cases a <;> simp_all
    · obtain ⟨x, hx, rfl⟩ := List.mem_map.1 he
      exact tabWf_above _ h x hx

theorem State.steady_withdrawPages (a0 : Inv) (h : s.steady t) : s.steady (t.withdrawPages a0) := by
  unfold State.withdrawPages
  dsimp only
  refine State.steady_foldl _ _ (State.steady_onXlt _ ?_ (h2 := fun hw => ?_)) fun _ _ h => State.steady_ask _ h
  · exact State.steady_foldl _ _ h fun _ _ h => State.steady_eftDrop _ _ h
  · simp only [Xlt.wf, Bool.and_eq_true] at hw ⊢
    refine ⟨⟨⟨?_, ?_⟩, ?_⟩, tabWf_mapSome _ _ hw.2⟩
    · exact hw.1.1.1
    · exact tabWf_filter _ hw.1.1.2 _
    · exact hw.1.2

theorem State.steady_startInv (a0 : Inv) (a1 : List Nat) (h : s.steady t) : s.steady (t.startInv a0 a1) := by
  unfold State.startInv
  repeat' first
    | with_reducible assumption
    | ((with_reducible show State.steady _ (State.onXlt _ _)); refine State.steady_onXlt _ ?_)
    | with_reducible refine State.steady_withdrawPages _ ?_
    | with_reducible refine State.steady_foldl _ _ ?_ ?_
    | with_reducible refine State.steady_send _ ?_
    | with_reducible refine State.steady_foldl _ _ ?_ ?_
    | (intro _ _ _; try dsimp only)
    | (intro _ _; try dsimp only)
    | dsimp only
    | split

theorem State.steady_internalInv (a0 : InvFrom) (a1 : Nat) (a2 : List Nat) (a3 : Word) (a4 : Nat) (h : s.steady t) : s.steady (t.internalInv a0 a1 a2 a3 a4) := by
  unfold State.internalInv
  repeat' first
    | with_reducible assumption
    | ((with_reducible show State.steady _ (State.onXlt _ _)); refine State.steady_onXlt _ ?_)
    | with_reducible refine State.steady_startInv _ _ ?_
    | (intro _ _; try dsimp only)
    | dsimp only
    | split

theorem State.steady_dropInv (a0 : Nat) (h : s.steady t) : s.steady (t.dropInv a0) := by
  unfold State.dropInv
  repeat' first
    | with_reducible assumption
    | ((with_reducible show State.steady _ (State.onXlt _ _)); refine State.steady_onXlt _ ?_)
    | (intro _ _; try dsimp only)
    | dsimp only
    | split

theorem State.steady_invSubmit (a0 : Nat) (a1 : Word) (h : s.steady t) : s.steady (t.invSubmit a0 a1) := by
  unfold State.invSubmit
  repeat' first
    | with_reducible assumption
    | with_reducible refine State.steady_xltFlag _ _ ?_
    | ((with_reducible show State.steady _ (State.onXlt _ _)); refine State.steady_onXlt _ ?_)
    | (intro _ _; try dsimp only)
    | dsimp only
    | split

theorem State.steady_invBegin (h : s.steady t) : s.steady (t.invBegin) := by
  unfold State.invBegin
  repeat' first
    | with_reducible assumption
    | ((with_reducible show State.steady _ (State.onXlt _ _)); refine State.steady_onXlt _ ?_)
    | with_reducible refine State.steady_xltFlag _ _ ?_
    | with_reducible refine State.steady_unitRead _ _ _ ?_
    | with_reducible refine State.steady_snd (by with_reducible assumption) ?_
    | (intro _ _; try dsimp only)
    | dsimp only
    | split

theorem State.steady_invResult (a0 : Nat) (a1 : Word) (a2 : Bool) (a3 : Bool) (a4 : Nat) (a5 : Nat) (a6 : Nat) (h : s.steady t) : s.steady (t.invResult a0 a1 a2 a3 a4 a5 a6) := by
  unfold State.invResult
  repeat' first
    | with_reducible assumption
    | with_reducible refine State.steady_unitWrite _ _ _ _ ?_
    | dsimp only
    | split

theorem State.steady_invResulted (a0 : Nat) (a1 : Bool) (a2 : Code) (h : s.steady t) : s.steady (t.invResulted a0 a1 a2) := by
  unfold State.invResulted
  repeat' first
    | with_reducible assumption
    | with_reducible refine State.steady_edge _ ?_
    | dsimp only
    | split

theorem State.steady_invJudge (a0 : Inv) (a1 : Nat) (a2 : Word) (a3 : Nat) (a4 : Granule) (h : s.steady t) : s.steady (t.invJudge a0 a1 a2 a3 a4) := by
  unfold State.invJudge
  repeat' first
    | with_reducible assumption
    | with_reducible refine State.steady_dropInv _ ?_
    | with_reducible refine State.steady_invResult _ _ _ _ _ _ _ ?_
    | with_reducible refine State.steady_startInv _ _ ?_
    | dsimp only
    | split

theorem State.steady_invDesc (a0 : Nat) (a1 : Nat) (h : s.steady t) : s.steady (t.invDesc a0 a1) := by
  unfold State.invDesc
  repeat' first
    | with_reducible assumption
    | with_reducible refine State.steady_takeFor _ _ ?_
    | with_reducible refine State.steady_dropInv _ ?_
    | with_reducible refine State.steady_xltFlag _ _ ?_
    | with_reducible refine State.steady_invJudge _ _ _ _ _ ?_
    | (intro _ _; try dsimp only)
    | dsimp only
    | split

theorem State.steady_invAck (a0 : Nat) (a1 : Nat) (h : s.steady t) : s.steady (t.invAck a0 a1) := by
  unfold State.invAck
  repeat' first
    | with_reducible assumption
    | with_reducible refine State.steady_portProtocol _ ?_
    | ((with_reducible show State.steady _ (State.onXlt _ _)); refine State.steady_onXlt _ ?_)
    | (intro _ _; try dsimp only)
    | dsimp only
    | split

theorem State.steady_bindResult (a0 : Nat) (a1 : Nat) (a2 : BitVec 3) (h : s.steady t) : s.steady (t.bindResult a0 a1 a2) := by
  unfold State.bindResult
  repeat' first
    | with_reducible assumption
    | with_reducible refine State.steady_onBind _ _ ?_
    | (intro _ _; try dsimp only)
    | dsimp only
    | split

theorem State.steady_bindAsid (a0 : Nat) (a1 : Nat) (h : s.steady t) : s.steady (t.bindAsid a0 a1) := by
  unfold State.bindAsid
  repeat' first
    | with_reducible assumption
    | with_reducible refine State.steady_xltFlag _ _ ?_
    | with_reducible refine State.steady_bindResult _ _ _ ?_
    | ((with_reducible show State.steady _ (State.onXlt _ _)); refine State.steady_onXlt _ ?_)
    | (intro _ _; try dsimp only)
    | dsimp only
    | split

theorem State.steady_closeBinding (a0 : Nat) (h : s.steady t) : s.steady (t.closeBinding a0) := by
  unfold State.closeBinding
  repeat' first
    | with_reducible assumption
    | ((with_reducible show State.steady _ (State.onXlt _ _)); refine State.steady_onXlt _ ?_)
    | (intro _ _; try dsimp only)
    | dsimp only
    | split

theorem State.steady_unbindAsid (a0 : Nat) (a1 : Nat) (h : s.steady t) : s.steady (t.unbindAsid a0 a1) := by
  unfold State.unbindAsid
  repeat' first
    | with_reducible assumption
    | with_reducible refine State.steady_xltFlag _ _ ?_
    | with_reducible refine State.steady_bindResult _ _ _ ?_
    | with_reducible refine State.steady_onBind _ _ ?_
    | with_reducible refine State.steady_closeBinding _ ?_
    | with_reducible refine State.steady_internalInv _ _ _ _ _ ?_
    | (intro _ _; try dsimp only)
    | dsimp only
    | split

theorem State.steady_unbindDone (a0 : Nat) (h : s.steady t) : s.steady (t.unbindDone a0) := by
  unfold State.unbindDone
  repeat' first
    | with_reducible assumption
    | with_reducible refine State.steady_dropInv _ ?_
    | ((with_reducible show State.steady _ (State.onXlt _ _)); refine State.steady_onXlt _ ?_)
    | with_reducible refine State.steady_onBind _ _ ?_
    | (intro _ _; try dsimp only)
    | dsimp only
    | split

theorem State.steady_judgePool (a0 : Nat) (h : s.steady t) : s.steady (t.judgePool a0) := by
  unfold State.judgePool
  repeat' first
    | with_reducible assumption
    | with_reducible refine State.steady_onSkkPart _ _ ?_
    | with_reducible refine State.steady_skkFlag _ _ ?_
    | (intro _ _; try dsimp only)
    | dsimp only
    | split

theorem State.steady_pendNotice (a0 : Pending) (a1 : Nat) (a2 : Nat) (a3 : Code) (a4 : BitVec 16) (h : s.steady t) : s.steady (t.pendNotice a0 a1 a2 a3 a4) := by
  unfold State.pendNotice
  repeat' first
    | with_reducible assumption
    | with_reducible refine State.steady_notice _ _ _ _ _ _ _ _ _ _ ?_
    | dsimp only
    | split

theorem State.steady_wakeRegion (a0 : Word) (h : s.steady t) : s.steady (t.wakeRegion a0) := by
  unfold State.wakeRegion
  repeat' first
    | with_reducible assumption
    | with_reducible refine State.steady_foldl _ _ ?_ ?_
    | with_reducible refine State.steady_unpark _ ?_
    | with_reducible refine State.steady_walkRetry _ ?_
    | with_reducible refine State.steady_foldl _ _ ?_ ?_
    | (intro _ _ _; try dsimp only)
    | (intro _ _; try dsimp only)
    | dsimp only
    | split

theorem State.steady_entriesRead (a0 : Nat) (h : s.steady t) : s.steady (t.entriesRead a0) := by
  unfold State.entriesRead
  repeat' first
    | with_reducible assumption
    | with_reducible refine State.steady_onPend _ _ ?_
    | with_reducible refine State.steady_setCounter _ _ _ ?_
    | with_reducible refine State.steady_pendNotice _ _ _ _ _ ?_
    | with_reducible refine State.steady_evalFailed _ ?_
    | (intro _ _; try dsimp only)
    | dsimp only
    | split

theorem State.steady_entryLine (a0 : Nat) (a1 : Nat) (a2 : Code) (a3 : Granule) (h : s.steady t) : s.steady (t.entryLine a0 a1 a2 a3) := by
  unfold State.entryLine
  repeat' first
    | with_reducible assumption
    | with_reducible refine State.steady_onPend _ _ ?_
    | with_reducible refine State.steady_lookEnds _ _ ?_
    | ((with_reducible show State.steady _ (State.onSkk _ _)); refine State.steady_onSkk _ ?_)
    | (intro _ _; try dsimp only)
    | dsimp only
    | split

theorem State.steady_accept (a0 : Nat) (a1 : Nat) (h : s.steady t) : s.steady (t.accept a0 a1) := by
  unfold State.accept
  repeat' first
    | with_reducible assumption
    | with_reducible refine State.steady_onPend _ _ ?_
    | with_reducible refine State.steady_internalInv _ _ _ _ _ ?_
    | with_reducible refine State.steady_skkFlag _ _ ?_
    | (intro _ _; try dsimp only)
    | dsimp only
    | split

theorem State.steady_decline (a0 : Nat) (a1 : Nat) (h : s.steady t) : s.steady (t.decline a0 a1) := by
  unfold State.decline
  repeat' first
    | with_reducible assumption
    | with_reducible refine State.steady_dropPend _ ?_
    | with_reducible refine State.steady_pendNotice _ _ _ _ _ ?_
    | with_reducible refine State.steady_skkFlag _ _ ?_
    | dsimp only
    | split

theorem State.steady_ackExpired (a0 : Nat) (h : s.steady t) : s.steady (t.ackExpired a0) := by
  unfold State.ackExpired
  repeat' first
    | with_reducible assumption
    | with_reducible refine State.steady_dropPend _ ?_
    | with_reducible refine State.steady_pendNotice _ _ _ _ _ ?_
    | dsimp only
    | split

theorem State.steady_placeFailed (a0 : Pending) (a1 : Nat) (a2 : Code) (a3 : BitVec 16) (h : s.steady t) : s.steady (t.placeFailed a0 a1 a2 a3) := by
  unfold State.placeFailed
  repeat' first
    | with_reducible assumption
    | with_reducible refine State.steady_dropPend _ ?_
    | with_reducible refine State.steady_pendNotice _ _ _ _ _ ?_
    | with_reducible refine State.steady_skkFlag _ _ ?_
    | with_reducible refine State.steady_wakeRegion _ ?_
    | dsimp only
    | split

theorem State.steady_skinkFault (a0 : Nat) (a1 : Nat) (a2 : Word) (a3 : Code) (h : s.steady t) : s.steady (t.skinkFault a0 a1 a2 a3) := by
  unfold State.skinkFault
  repeat' first
    | with_reducible assumption
    | with_reducible refine State.steady_fault _ _ _ _ _ _ _ ?_
    | dsimp only
    | split

theorem State.steady_placeCasNext (a0 : Nat) (h : s.steady t) : s.steady (t.placeCasNext a0) := by
  unfold State.placeCasNext
  repeat' first
    | with_reducible assumption
    | with_reducible refine State.steady_forPart _ _ _ ?_ ?_
    | with_reducible refine State.steady_unitCas _ _ _ _ _ ?_
    | with_reducible refine State.steady_snd (by with_reducible assumption) ?_
    | (intro _ _; try dsimp only)
    | dsimp only
    | split

theorem State.steady_placeEnd (a0 : Nat) (h : s.steady t) : s.steady (t.placeEnd a0) := by
  unfold State.placeEnd
  repeat' first
    | with_reducible assumption
    | with_reducible refine State.steady_placeFailed _ _ _ _ ?_
    | with_reducible refine State.steady_skinkFault _ _ _ _ ?_
    | with_reducible refine State.steady_dropPend _ ?_
    | dsimp only
    | split

theorem State.steady_placeUndo (a0 : Nat) (a1 : List (Nat × Word × Word)) (a2 : Nat × Code × BitVec 16) (h : s.steady t) : s.steady (t.placeUndo a0 a1 a2) := by
  unfold State.placeUndo
  repeat' first
    | with_reducible assumption
    | with_reducible refine State.steady_onPend _ _ ?_
    | with_reducible refine State.steady_placeCasNext _ ?_
    | with_reducible refine State.steady_placeEnd _ ?_
    | (intro _ _; try dsimp only)
    | dsimp only
    | split

theorem State.steady_migrationDrained (a0 : Nat) (h : s.steady t) : s.steady (t.migrationDrained a0) := by
  unfold State.migrationDrained
  repeat' first
    | with_reducible assumption
    | with_reducible refine State.steady_dropInv _ ?_
    | with_reducible refine State.steady_onPend _ _ ?_
    | with_reducible refine State.steady_readEntries _ _ _ ?_
    | (intro _ _; try dsimp only)
    | dsimp only
    | split

theorem State.steady_reframe (a0 : Pending) (h : s.steady t) : s.steady (t.reframe a0) := by
  unfold State.reframe
  repeat' first
    | with_reducible assumption
    | with_reducible refine State.steady_onPend _ _ ?_
    | with_reducible refine State.steady_skkFlag _ _ ?_
    | (intro _ _; try dsimp only)
    | dsimp only
    | split

theorem State.steady_recallPage (a0 : Word) (h : s.steady t) : s.steady (t.recallPage a0) := by
  unfold State.recallPage
  repeat' first
    | with_reducible assumption
    | with_reducible refine State.steady_foldl _ _ ?_ ?_
    | with_reducible refine State.steady_recallLine _ ?_
    | with_reducible refine State.steady_runHome ?_
    | with_reducible refine State.steady_foldl _ _ ?_ ?_
    | (intro _ _ _; try dsimp only)
    | (intro _ _; try dsimp only)
    | dsimp only
    | split

theorem State.steady_copyNext (a0 : Nat) (h : s.steady t) : s.steady (t.copyNext a0) := by
  unfold State.copyNext
  repeat' first
    | with_reducible assumption
    | with_reducible refine State.steady_onPend _ _ ?_
    | with_reducible refine State.steady_forPart _ _ _ ?_ ?_
    | with_reducible refine State.steady_unitRead _ _ _ ?_
    | (intro _ _; try dsimp only)
    | dsimp only
    | split

theorem State.steady_reread (a0 : Nat) (h : s.steady t) : s.steady (t.reread a0) := by
  unfold State.reread
  repeat' first
    | with_reducible assumption
    | with_reducible refine State.steady_foldl _ _ ?_ ?_
    | with_reducible refine State.steady_placeUndo _ _ _ ?_
    | with_reducible refine State.steady_placeFailed _ _ _ _ ?_
    | with_reducible refine State.steady_reframe _ ?_
    | with_reducible refine State.steady_recallPage _ ?_
    | with_reducible refine State.steady_onPend _ _ ?_
    | with_reducible refine State.steady_copyNext _ ?_
    | with_reducible refine State.steady_foldl _ _ ?_ ?_
    | (intro _ _ _; try dsimp only)
    | (intro _ _; try dsimp only)
    | dsimp only
    | split

theorem State.steady_copyFailed (a0 : Nat) (a1 : Nat) (a2 : Code) (h : s.steady t) : s.steady (t.copyFailed a0 a1 a2) := by
  unfold State.copyFailed
  repeat' first
    | with_reducible assumption
    | with_reducible refine State.steady_onPend _ _ ?_
    | (intro _ _; try dsimp only)
    | dsimp only
    | split

theorem State.steady_copyRead (a0 : Nat) (a1 : Code) (a2 : Granule) (h : s.steady t) : s.steady (t.copyRead a0 a1 a2) := by
  unfold State.copyRead
  repeat' first
    | with_reducible assumption
    | with_reducible refine State.steady_onPend _ _ ?_
    | with_reducible refine State.steady_placeEnd _ ?_
    | with_reducible refine State.steady_copyFailed _ _ _ ?_
    | with_reducible refine State.steady_nocRequest _ _ _ ?_
    | (intro _ _; try dsimp only)
    | dsimp only
    | split

theorem State.steady_copyWrote (a0 : Nat) (a1 : Code) (h : s.steady t) : s.steady (t.copyWrote a0 a1) := by
  unfold State.copyWrote
  repeat' first
    | with_reducible assumption
    | with_reducible refine State.steady_onPend _ _ ?_
    | with_reducible refine State.steady_placeEnd _ ?_
    | with_reducible refine State.steady_copyFailed _ _ _ ?_
    | with_reducible refine State.steady_copyNext _ ?_
    | (intro _ _; try dsimp only)
    | dsimp only
    | split

theorem State.steady_copyDone (a0 : Nat) (h : s.steady t) : s.steady (t.copyDone a0) := by
  unfold State.copyDone
  repeat' first
    | with_reducible assumption
    | with_reducible refine State.steady_placeUndo _ _ _ ?_
    | with_reducible refine State.steady_onPend _ _ ?_
    | with_reducible refine State.steady_placeCasNext _ ?_
    | (intro _ _; try dsimp only)
    | dsimp only
    | split

theorem State.steady_placeSwapped (a0 : Nat) (a1 : Nat) (a2 : Code) (a3 : Word) (h : s.steady t) : s.steady (t.placeSwapped a0 a1 a2 a3) := by
  unfold State.placeSwapped
  repeat' first
    | with_reducible assumption
    | with_reducible refine State.steady_onPend _ _ ?_
    | with_reducible refine State.steady_placeCasNext _ ?_
    | with_reducible refine State.steady_placeEnd _ ?_
    | with_reducible refine State.steady_snd (by with_reducible assumption) ?_
    | (intro _ _; try dsimp only)
    | dsimp only
    | split

theorem State.steady_onPlaced (a0 : Nat) (a1 : Placed → Placed) (h : s.steady t) : s.steady (t.onPlaced a0 a1) := by
  unfold State.onPlaced
  repeat' first
    | with_reducible assumption
    | ((with_reducible show State.steady _ (State.onSkk _ _)); refine State.steady_onSkk _ ?_)
    | (intro _ _; try dsimp only)
    | dsimp only
    | split

theorem State.steady_recallCasNext (a0 : Nat) (h : s.steady t) : s.steady (t.recallCasNext a0) := by
  unfold State.recallCasNext
  repeat' first
    | with_reducible assumption
    | with_reducible refine State.steady_forPart _ _ _ ?_ ?_
    | with_reducible refine State.steady_unitCas _ _ _ _ _ ?_
    | with_reducible refine State.steady_snd (by with_reducible assumption) ?_
    | (intro _ _; try dsimp only)
    | dsimp only
    | split

theorem State.steady_beginRecall (a0 : Nat) (h : s.steady t) : s.steady (t.beginRecall a0) := by
  unfold State.beginRecall
  repeat' first
    | with_reducible assumption
    | with_reducible refine State.steady_onPlaced _ _ ?_
    | with_reducible refine State.steady_recallCasNext _ ?_
    | (intro _ _; try dsimp only)
    | dsimp only
    | split

theorem State.steady_storePlacement (a0 : Nat) (h : s.steady t) : s.steady (t.storePlacement a0) := by
  unfold State.storePlacement
  repeat' first
    | with_reducible assumption
    | with_reducible refine State.steady_storeBlock _ ?_
    | dsimp only
    | split

theorem State.steady_swapDone (a0 : Nat) (h : s.steady t) : s.steady (t.swapDone a0) := by
  unfold State.swapDone
  repeat' first
    | with_reducible assumption
    | with_reducible refine State.steady_placeUndo _ _ _ ?_
    | with_reducible refine State.steady_dropPend _ ?_
    | ((with_reducible show State.steady _ (State.onSkk _ _)); refine State.steady_onSkk _ ?_)
    | with_reducible refine State.steady_wakeRegion _ ?_
    | with_reducible refine State.steady_ops _ _ ?_
    | with_reducible refine State.steady_pendNotice _ _ _ _ _ ?_
    | with_reducible refine State.steady_storePlacement _ ?_
    | with_reducible refine State.steady_beginRecall _ ?_
    | (intro _ _; try dsimp only)
    | dsimp only
    | split

theorem State.steady_dropPlaced (a0 : Nat) (h : s.steady t) : s.steady (t.dropPlaced a0) := by
  unfold State.dropPlaced
  repeat' first
    | with_reducible assumption
    | ((with_reducible show State.steady _ (State.onSkk _ _)); refine State.steady_onSkk _ ?_)
    | (intro _ _; try dsimp only)
    | dsimp only
    | split

theorem State.steady_placedNotice (a0 : Placed) (a1 : Nat) (a2 : Nat) (a3 : Code) (a4 : BitVec 16) (h : s.steady t) : s.steady (t.placedNotice a0 a1 a2 a3 a4) := by
  unfold State.placedNotice
  repeat' first
    | with_reducible assumption
    | with_reducible refine State.steady_notice _ _ _ _ _ _ _ _ _ _ ?_
    | dsimp only
    | split

theorem State.steady_recallUnknown (a0 : Nat) (a1 : Nat) (h : s.steady t) : s.steady (t.recallUnknown a0 a1) := by
  unfold State.recallUnknown
  repeat' first
    | with_reducible assumption
    | with_reducible refine State.steady_notice _ _ _ _ _ _ _ _ _ _ ?_
    | with_reducible refine State.steady_skkFlag _ _ ?_
    | dsimp only
    | split

theorem State.steady_recall (a0 : Nat) (a1 : Nat) (h : s.steady t) : s.steady (t.recall a0 a1) := by
  unfold State.recall
  repeat' first
    | with_reducible assumption
    | with_reducible refine State.steady_beginRecall _ ?_
    | with_reducible refine State.steady_recallUnknown _ _ ?_
    | dsimp only
    | split

theorem State.steady_release (a0 : Nat) (a1 : Nat) (h : s.steady t) : s.steady (t.release a0 a1) := by
  unfold State.release
  repeat' first
    | with_reducible assumption
    | with_reducible refine State.steady_recallUnknown _ _ ?_
    | with_reducible refine State.steady_onPlaced _ _ ?_
    | with_reducible refine State.steady_readEntries _ _ _ ?_
    | (intro _ _; try dsimp only)
    | dsimp only
    | split

theorem State.steady_releaseEnds (a0 : Placed) (a1 : Code) (a2 : List Word) (h : s.steady t) : s.steady (t.releaseEnds a0 a1 a2) := by
  unfold State.releaseEnds
  repeat' first
    | with_reducible assumption
    | with_reducible refine State.steady_onPlaced _ _ ?_
    | with_reducible refine State.steady_foldl _ _ ?_ ?_
    | with_reducible refine State.steady_placedNotice _ _ _ _ _ ?_
    | with_reducible refine State.steady_recallUnknown _ _ ?_
    | with_reducible refine State.steady_dropPlaced _ ?_
    | with_reducible refine State.steady_foldl _ _ ?_ ?_
    | (intro _ _ _; try dsimp only)
    | (intro _ _; try dsimp only)
    | dsimp only
    | split

theorem State.steady_releaseLine (a0 : Nat) (a1 : Nat) (a2 : Code) (a3 : Granule) (h : s.steady t) : s.steady (t.releaseLine a0 a1 a2 a3) := by
  unfold State.releaseLine
  repeat' first
    | with_reducible assumption
    | with_reducible refine State.steady_releaseEnds _ _ _ ?_
    | with_reducible refine State.steady_onPlaced _ _ ?_
    | (intro _ _; try dsimp only)
    | dsimp only
    | split

theorem State.steady_recallSwapped (a0 : Nat) (a1 : Nat) (a2 : Code) (a3 : Word) (h : s.steady t) : s.steady (t.recallSwapped a0 a1 a2 a3) := by
  unfold State.recallSwapped
  repeat' first
    | with_reducible assumption
    | with_reducible refine State.steady_onPlaced _ _ ?_
    | with_reducible refine State.steady_recallCasNext _ ?_
    | with_reducible refine State.steady_snd (by with_reducible assumption) ?_
    | (intro _ _; try dsimp only)
    | dsimp only
    | split

theorem State.steady_recallFails (a0 : Placed) (a1 : Nat) (a2 : Code) (h : s.steady t) : s.steady (t.recallFails a0 a1 a2) := by
  unfold State.recallFails
  repeat' first
    | with_reducible assumption
    | with_reducible refine State.steady_onPlaced _ _ ?_
    | with_reducible refine State.steady_placedNotice _ _ _ _ _ ?_
    | with_reducible refine State.steady_skinkFault _ _ _ _ ?_
    | (intro _ _; try dsimp only)
    | dsimp only
    | split

theorem State.steady_recallLocked (a0 : Nat) (h : s.steady t) : s.steady (t.recallLocked a0) := by
  unfold State.recallLocked
  repeat' first
    | with_reducible assumption
    | with_reducible refine State.steady_recallFails _ _ _ ?_
    | with_reducible refine State.steady_onPlaced _ _ ?_
    | with_reducible refine State.steady_internalInv _ _ _ _ _ ?_
    | with_reducible refine State.steady_recall _ _ ?_
    | (intro _ _; try dsimp only)
    | dsimp only
    | split

theorem State.steady_recallNext (a0 : Nat) (h : s.steady t) : s.steady (t.recallNext a0) := by
  unfold State.recallNext
  repeat' first
    | with_reducible assumption
    | with_reducible refine State.steady_onPlaced _ _ ?_
    | with_reducible refine State.steady_nocRequest _ _ _ ?_
    | (intro _ _; try dsimp only)
    | dsimp only
    | split

theorem State.steady_recallDrained (a0 : Nat) (h : s.steady t) : s.steady (t.recallDrained a0) := by
  unfold State.recallDrained
  repeat' first
    | with_reducible assumption
    | with_reducible refine State.steady_recall _ _ ?_
    | with_reducible refine State.steady_dropInv _ ?_
    | with_reducible refine State.steady_onPlaced _ _ ?_
    | with_reducible refine State.steady_recallNext _ ?_
    | (intro _ _; try dsimp only)
    | dsimp only
    | split

theorem State.steady_recallTrouble (a0 : Nat) (a1 : Nat) (a2 : Code) (h : s.steady t) : s.steady (t.recallTrouble a0 a1 a2) := by
  unfold State.recallTrouble
  repeat' first
    | with_reducible assumption
    | with_reducible refine State.steady_onPlaced _ _ ?_
    | (intro _ _; try dsimp only)
    | dsimp only
    | split

theorem State.steady_recallRead (a0 : Nat) (a1 : Code) (a2 : Granule) (h : s.steady t) : s.steady (t.recallRead a0 a1 a2) := by
  unfold State.recallRead
  repeat' first
    | with_reducible assumption
    | with_reducible refine State.steady_onPlaced _ _ ?_
    | with_reducible refine State.steady_recallTrouble _ _ _ ?_
    | with_reducible refine State.steady_forPart _ _ _ ?_ ?_
    | with_reducible refine State.steady_unitAsk _ _ _ _ _ _ _ ?_
    | (intro _ _; try dsimp only)
    | dsimp only
    | split

theorem State.steady_recallWrote (a0 : Nat) (a1 : Code) (h : s.steady t) : s.steady (t.recallWrote a0 a1) := by
  unfold State.recallWrote
  repeat' first
    | with_reducible assumption
    | with_reducible refine State.steady_onPlaced _ _ ?_
    | with_reducible refine State.steady_recallTrouble _ _ _ ?_
    | with_reducible refine State.steady_recallNext _ ?_
    | (intro _ _; try dsimp only)
    | dsimp only
    | split

theorem State.steady_recallCopied (a0 : Nat) (h : s.steady t) : s.steady (t.recallCopied a0) := by
  unfold State.recallCopied
  repeat' first
    | with_reducible assumption
    | with_reducible refine State.steady_recallFails _ _ _ ?_
    | with_reducible refine State.steady_onPlaced _ _ ?_
    | with_reducible refine State.steady_recallCasNext _ ?_
    | (intro _ _; try dsimp only)
    | dsimp only
    | split

theorem State.steady_recallRestored (a0 : Nat) (h : s.steady t) : s.steady (t.recallRestored a0) := by
  unfold State.recallRestored
  repeat' first
    | with_reducible assumption
    | with_reducible refine State.steady_recallFails _ _ _ ?_
    | with_reducible refine State.steady_dropPlaced _ ?_
    | with_reducible refine State.steady_wakeRegion _ ?_
    | with_reducible refine State.steady_placedNotice _ _ _ _ _ ?_
    | dsimp only
    | split

theorem State.steady_cool (a0 : Hint) (h : s.steady t) : s.steady (t.cool a0) := by
  unfold State.cool
  repeat' first
    | with_reducible assumption
    | ((with_reducible show State.steady _ (State.onSkk _ _)); refine State.steady_onSkk _ ?_)
    | with_reducible refine State.steady_ask _ ?_
    | (intro _ _; try dsimp only)
    | dsimp only
    | split

theorem State.steady_hintNext (h : s.steady t) : s.steady (t.hintNext) := by
  unfold State.hintNext
  repeat' first
    | with_reducible assumption
    | ((with_reducible show State.steady _ (State.onSkk _ _)); refine State.steady_onSkk _ ?_)
    | with_reducible refine State.steady_evaluate _ _ _ _ ?_
    | with_reducible refine State.steady_beginRecall _ ?_
    | with_reducible refine State.steady_hintLost _ ?_
    | with_reducible refine State.steady_cool _ ?_
    | (intro _ _; try dsimp only)
    | dsimp only
    | split

theorem State.steady_hintRegions (a0 : Nat) (a1 : Nat) (a2 : BitVec 2) (a3 : Word) (a4 : Nat) (h : s.steady t) : s.steady (t.hintRegions a0 a1 a2 a3 a4) := by
  unfold State.hintRegions
  repeat' first
    | with_reducible assumption
    | ((with_reducible show State.steady _ (State.onSkk _ _)); refine State.steady_onSkk _ ?_)
    | with_reducible refine State.steady_onSkkPart _ _ ?_
    | (intro _ _; try dsimp only)
    | dsimp only
    | split

/-- A table of counts keeps its form when each count is changed and the zeros go. -/
theorem tabWf_mapFilter (f : BitVec 16 → BitVec 16) (l : Tab (BitVec 16)) (h : tabWf (fun _ => 0) l = true) :
    tabWf (fun _ => 0) ((l.map fun (e : Nat × BitVec 16) => (e.1, f e.2)).filter fun e => e.2 ≠ 0) = true := by
  induction l with
  | nil => rfl
  | cons e r ih =>
    obtain ⟨i, a⟩ := e
    have hr := ih (tabWf_tail _ h)
    simp only [List.map_cons, List.filter_cons]
    split
    · next hn =>
      refine tabWf_cons _ (by simpa using hn) (fun e he => ?_) hr
      obtain ⟨x, hx, rfl⟩ := List.mem_map.1 (List.mem_of_mem_filter he)
      exact tabWf_above _ h x hx
    · exact hr

theorem State.steady_halve (h : s.steady t) : s.steady (t.halve) := by
  unfold State.halve
  split
  · exact h
  · refine State.steady_onSkk _ h (h2 := fun hw => ?_)
    simp only [Skk.wf, Bool.and_eq_true] at hw ⊢
    exact ⟨⟨hw.1.1, tabWf_mapFilter (· >>> 1) _ hw.1.2⟩, hw.2⟩

theorem State.steady_thermalFrames (a0 : Nat) (h : s.steady t) : s.steady (t.thermalFrames a0) := by
  unfold State.thermalFrames
  repeat' first
    | with_reducible assumption
    | with_reducible refine State.steady_foldl _ _ ?_ ?_
    | with_reducible refine State.steady_reframe _ ?_
    | with_reducible refine State.steady_foldl _ _ ?_ ?_
    | (intro _ _ _; try dsimp only)
    | (intro _ _; try dsimp only)
    | dsimp only
    | split

theorem State.steady_recallChannel (a0 : Nat) (a1 : Nat) (h : s.steady t) : s.steady (t.recallChannel a0 a1) := by
  unfold State.recallChannel
  repeat' first
    | with_reducible assumption
    | with_reducible refine State.steady_foldl _ _ ?_ ?_
    | with_reducible refine State.steady_beginRecall _ ?_
    | with_reducible refine State.steady_foldl _ _ ?_ ?_
    | (intro _ _ _; try dsimp only)
    | (intro _ _; try dsimp only)
    | dsimp only
    | split

theorem State.steady_drainRecord (a0 : Inv) (a1 : Code) (a2 : Nat) (a3 : Nat) (a4 : BitVec 32) (a5 : Nat) (h : s.steady t) : s.steady (t.drainRecord a0 a1 a2 a3 a4 a5) := by
  unfold State.drainRecord
  repeat' first
    | with_reducible assumption
    | with_reducible refine State.steady_fault _ _ _ _ _ _ _ ?_
    | dsimp only
    | split

theorem State.steady_endHolder (a0 : Inv) (a1 : Holder) (h : s.steady t) : s.steady (t.endHolder a0 a1) := by
  unfold State.endHolder
  repeat' first
    | with_reducible assumption
    | with_reducible refine State.steady_drainRecord _ _ _ _ _ _ ?_
    | with_reducible refine State.steady_endCmds _ _ ?_
    | with_reducible refine State.steady_killChannel _ _ _ _ ?_
    | with_reducible refine State.steady_failWork _ _ ?_
    | ((with_reducible show State.steady _ (State.onXlt _ _)); refine State.steady_onXlt _ ?_)
    | with_reducible refine State.steady_onRx _ _ ?_
    | with_reducible refine State.steady_placeUndo _ _ _ ?_
    | with_reducible refine State.steady_recall _ _ ?_
    | with_reducible refine State.steady_recallFails _ _ _ ?_
    | (intro _ _; try dsimp only)
    | dsimp only
    | split

theorem State.steady_disableClient (a0 : Inv) (a1 : Nat) (h : s.steady t) : s.steady (t.disableClient a0 a1) := by
  unfold State.disableClient
  repeat' first
    | with_reducible assumption
    | with_reducible refine State.steady_drainRecord _ _ _ _ _ _ ?_
    | ((with_reducible show State.steady _ (State.onXlt _ _)); refine State.steady_onXlt _ ?_)
    | (intro _ _; try dsimp only)
    | dsimp only
    | split

theorem State.steady_drainExpired (a0 : Nat) (h : s.steady t) : s.steady (t.drainExpired a0) := by
  unfold State.drainExpired
  repeat' first
    | with_reducible assumption
    | with_reducible refine State.steady_foldl _ _ ?_ ?_
    | with_reducible refine State.steady_endHolder _ _ ?_
    | with_reducible refine State.steady_disableClient _ _ ?_
    | ((with_reducible show State.steady _ (State.onXlt _ _)); refine State.steady_onXlt _ ?_)
    | with_reducible refine State.steady_foldl _ _ ?_ ?_
    | (intro _ _ _; try dsimp only)
    | (intro _ _; try dsimp only)
    | dsimp only
    | split

theorem State.steady_invComplete (a0 : Nat) (h : s.steady t) : s.steady (t.invComplete a0) := by
  unfold State.invComplete
  repeat' first
    | with_reducible assumption
    | with_reducible refine State.steady_dropInv _ ?_
    | with_reducible refine State.steady_invResult _ _ _ _ _ _ _ ?_
    | (intro _ _; try dsimp only)
    | dsimp only
    | split

theorem State.steady_stagingWrite (a : Nat) (l : List Byte) (h : s.steady t) : s.steady (t.stagingWrite a l) := by
  induction l generalizing t a with
  | nil => exact h
  | cons b r ih =>
    unfold State.stagingWrite
    refine ih _ (State.steady_onMov _ h (h2 := fun hw => ?_))
    simp only [Mov.wf, Memory.wf, Bool.and_eq_true] at hw ⊢
    simp_all

theorem State.steady_onWork (a0 : Work) (a1 : Cmd → Cmd) (h : s.steady t) : s.steady (t.onWork a0 a1) := by
  unfold State.onWork
  repeat' first
    | with_reducible assumption
    | with_reducible refine State.steady_onChan _ _ ?_
    | with_reducible refine State.steady_onEntry _ _ ?_
    | (intro _ _; try dsimp only)
    | dsimp only
    | split

theorem State.steady_wantPage (a0 : Nat) (a1 : Bool) (a2 : Work) (a3 : Ask) (h : s.steady t) : s.steady (t.wantPage a0 a1 a2 a3) := by
  unfold State.wantPage
  repeat' first
    | with_reducible assumption
    | with_reducible refine State.steady_onJob _ _ _ ?_
    | with_reducible refine State.steady_ask _ ?_
    | (intro _ _; try dsimp only)
    | dsimp only
    | split

theorem State.steady_locateAll (a0 : Nat) (a1 : Bool) (a2 : Work) (a3 : Cmd) (a4 : List Ask) (h : s.steady t) : s.steady (t.locateAll a0 a1 a2 a3 a4).2 := by
  unfold State.locateAll
  repeat' first
    | with_reducible assumption
    | with_reducible refine State.steady_foldl _ _ ?_ ?_
    | with_reducible refine State.steady_wantPage _ _ _ _ ?_
    | with_reducible refine State.steady_foldl _ _ ?_ ?_
    | (intro _ _ _; try dsimp only)
    | (intro _ _; try dsimp only)
    | dsimp only
    | split

theorem State.steady_hitPages (a0 : Nat) (a1 : Work) (a2 : Cmd) (a3 : List Ask) (h : s.steady t) : s.steady (t.hitPages a0 a1 a2 a3) := by
  unfold State.hitPages
  repeat' first
    | with_reducible assumption
    | with_reducible refine State.steady_foldl _ _ ?_ ?_
    | with_reducible refine State.steady_eftHit _ _ ?_
    | with_reducible refine State.steady_markWritten _ ?_
    | with_reducible refine State.steady_foldl _ _ ?_ ?_
    | (intro _ _ _; try dsimp only)
    | (intro _ _; try dsimp only)
    | dsimp only
    | split

theorem State.steady_awaitWrite (a0 : Nat) (a1 : Bool) (a2 : Bool) (a3 : BitVec 32) (h : s.steady t) : s.steady (t.awaitWrite a0 a1 a2 a3) := by
  unfold State.awaitWrite
  repeat' first
    | with_reducible assumption
    | with_reducible refine State.steady_onJob _ _ _ ?_
    | (intro _ _; try dsimp only)
    | dsimp only
    | split

theorem State.steady_writeLocal (a0 : Nat) (a1 : Bool) (a2 : Work) (a3 : Cmd) (a4 : Loc) (a5 : Wr) (h : s.steady t) : s.steady (t.writeLocal a0 a1 a2 a3 a4 a5) := by
  unfold State.writeLocal
  repeat' first
    | with_reducible assumption
    | with_reducible refine State.steady_bytes _ _ ?_
    | with_reducible refine State.steady_onJob _ _ _ ?_
    | with_reducible refine State.steady_awaitWrite _ _ _ _ ?_
    | with_reducible refine State.steady_nocRequest _ _ _ ?_
    | with_reducible refine State.steady_failWork _ _ ?_
    | with_reducible refine State.steady_onChan _ _ ?_
    | with_reducible refine State.steady_emit _ ?_
    | with_reducible refine State.steady_homeAsk _ _ ?_
    | (intro _ _; try dsimp only)
    | dsimp only
    | split

theorem State.steady_flushPeer (a0 : Nat) (a1 : Bool) (a2 : Cmd) (a3 : Bool) (h : s.steady t) : s.steady (t.flushPeer a0 a1 a2 a3) := by
  unfold State.flushPeer
  repeat' first
    | with_reducible assumption
    | with_reducible refine State.steady_sendPkt _ _ _ _ _ ?_
    | with_reducible refine State.steady_onJob _ _ _ ?_
    | with_reducible refine State.steady_snd (by with_reducible assumption) ?_
    | (intro _ _; try dsimp only)
    | dsimp only
    | split

theorem State.steady_writePeer (a0 : Nat) (a1 : Bool) (a2 : Cmd) (a3 : Wr) (h : s.steady t) : s.steady (t.writePeer a0 a1 a2 a3) := by
  unfold State.writePeer
  repeat' first
    | with_reducible assumption
    | with_reducible refine State.steady_onJob _ _ _ ?_
    | with_reducible refine State.steady_bytes _ _ ?_
    | with_reducible refine State.steady_flushPeer _ _ _ _ ?_
    | (intro _ _; try dsimp only)
    | dsimp only
    | split

theorem State.steady_queueWrite (a0 : Nat) (a1 : Bool) (a2 : Wr) (h : s.steady t) : s.steady (t.queueWrite a0 a1 a2) := by
  unfold State.queueWrite
  repeat' first
    | with_reducible assumption
    | with_reducible refine State.steady_onJob _ _ _ ?_
    | (intro _ _; try dsimp only)
    | dsimp only
    | split

theorem State.steady_sendAtomic (a0 : Nat) (a1 : Bool) (a2 : Cmd) (a3 : Loc) (h : s.steady t) : s.steady (t.sendAtomic a0 a1 a2 a3) := by
  unfold State.sendAtomic
  repeat' first
    | with_reducible assumption
    | with_reducible refine State.steady_awaitWrite _ _ _ _ ?_
    | with_reducible refine State.steady_nocRequest _ _ _ ?_
    | dsimp only
    | split

theorem State.steady_sendWrite (a0 : Nat) (a1 : Bool) (a2 : Work) (a3 : Cmd) (a4 : Wr) (h : s.steady t) : s.steady (t.sendWrite a0 a1 a2 a3 a4) := by
  unfold State.sendWrite
  repeat' first
    | with_reducible assumption
    | with_reducible refine State.steady_onJob _ _ _ ?_
    | with_reducible refine State.steady_sendAtomic _ _ _ _ ?_
    | with_reducible refine State.steady_writeLocal _ _ _ _ _ _ ?_
    | with_reducible refine State.steady_writePeer _ _ _ _ ?_
    | (intro _ _; try dsimp only)
    | dsimp only
    | split

theorem State.steady_sendRead (a0 : Nat) (a1 : Bool) (a2 : Work) (a3 : Rd) (h : s.steady t) : s.steady (t.sendRead a0 a1 a2 a3) := by
  unfold State.sendRead
  repeat' first
    | with_reducible assumption
    | with_reducible refine State.steady_onJob _ _ _ ?_
    | with_reducible refine State.steady_nocRequest _ _ _ ?_
    | with_reducible refine State.steady_failWork _ _ ?_
    | with_reducible refine State.steady_homeAsk _ _ ?_
    | (intro _ _; try dsimp only)
    | dsimp only
    | split

theorem State.steady_afterWrite (a0 : Nat) (a1 : Bool) (h : s.steady t) : s.steady (t.afterWrite a0 a1) := by
  unfold State.afterWrite
  repeat' first
    | with_reducible assumption
    | with_reducible refine State.steady_onJob _ _ _ ?_
    | with_reducible refine State.steady_resumeBulk _ ?_
    | (intro _ _; try dsimp only)
    | dsimp only
    | split

theorem State.steady_convertGroup (a0 : Nat) (a1 : Bool) (a2 : Work) (a3 : Cmd) (h : s.steady t) : s.steady (t.convertGroup a0 a1 a2 a3).2 := by
  unfold State.convertGroup
  repeat' first
    | with_reducible assumption
    | with_reducible refine State.steady_queueWrite _ _ _ ?_
    | with_reducible refine State.steady_onJob _ _ _ ?_
    | with_reducible refine State.steady_convert _ _ _ _ _ _ ?_
    | with_reducible refine State.steady_locateAll _ _ _ _ _ ?_
    | with_reducible refine State.steady_foldl _ _ ?_ ?_
    | with_reducible refine State.steady_foldl _ _ ?_ ?_
    | with_reducible refine State.steady_snd (by with_reducible assumption) ?_
    | (intro _ _ _; try dsimp only)
    | (intro _ _; try dsimp only)
    | dsimp only
    | split

theorem State.steady_writeScales (a0 : Nat) (a1 : Bool) (a2 : Work) (a3 : Cmd) (h : s.steady t) : s.steady (t.writeScales a0 a1 a2 a3).2 := by
  unfold State.writeScales
  repeat' first
    | with_reducible assumption
    | with_reducible refine State.steady_locateAll _ _ _ _ _ ?_
    | with_reducible refine State.steady_onJob _ _ _ ?_
    | with_reducible refine State.steady_queueWrite _ _ _ ?_
    | with_reducible refine State.steady_snd (by with_reducible assumption) ?_
    | (intro _ _; try dsimp only)
    | dsimp only
    | split

theorem State.steady_writeFixed (a0 : Nat) (a1 : Bool) (a2 : Work) (a3 : Cmd) (h : s.steady t) : s.steady (t.writeFixed a0 a1 a2 a3).2 := by
  unfold State.writeFixed
  repeat' first
    | with_reducible assumption
    | with_reducible refine State.steady_onJob _ _ _ ?_
    | with_reducible refine State.steady_queueWrite _ _ _ ?_
    | with_reducible refine State.steady_locateAll _ _ _ _ _ ?_
    | with_reducible refine State.steady_snd (by with_reducible assumption) ?_
    | dsimp only
    | split

theorem State.steady_checkCrc (a0 : Nat) (a1 : Bool) (a2 : Work) (a3 : Cmd) (a4 : Granule) (h : s.steady t) : s.steady (t.checkCrc a0 a1 a2 a3 a4) := by
  unfold State.checkCrc
  repeat' first
    | with_reducible assumption
    | with_reducible refine State.steady_onJob _ _ _ ?_
    | with_reducible refine State.steady_failWork _ _ ?_
    | (intro _ _; try dsimp only)
    | dsimp only
    | split

theorem State.steady_useRead (a0 : Nat) (a1 : Bool) (a2 : Work) (a3 : Cmd) (h : s.steady t) : s.steady (t.useRead a0 a1 a2 a3).2 := by
  unfold State.useRead
  repeat' first
    | with_reducible assumption
    | with_reducible refine State.steady_onJob _ _ _ ?_
    | with_reducible refine State.steady_checkCrc _ _ _ _ _ ?_
    | with_reducible refine State.steady_snd (by with_reducible assumption) ?_
    | (intro _ _; try dsimp only)
    | dsimp only
    | split

theorem State.steady_pumpStep (a0 : Nat) (a1 : Bool) (a2 : Work) (a3 : Cmd) (h : s.steady t) : s.steady (t.pumpStep a0 a1 a2 a3).2 := by
  unfold State.pumpStep
  repeat' first
    | with_reducible assumption
    | with_reducible refine State.steady_sent _ ?_
    | with_reducible refine State.steady_sendRead _ _ _ _ ?_
    | with_reducible refine State.steady_sendWrite _ _ _ _ _ ?_
    | with_reducible refine State.steady_writeScales _ _ _ _ ?_
    | with_reducible refine State.steady_writeFixed _ _ _ _ ?_
    | with_reducible refine State.steady_convertGroup _ _ _ _ ?_
    | with_reducible refine State.steady_useRead _ _ _ _ ?_
    | with_reducible refine State.steady_snd (by with_reducible assumption) ?_
    | (intro _ _; try dsimp only)
    | dsimp only
    | split

theorem State.steady_pumpData (a0 : Nat) (a1 : Bool) (n : Nat) (h : s.steady t) : s.steady (t.pumpData a0 a1 n) := by
  induction n generalizing t with
  | zero => exact h
  | succ n ih =>
    unfold State.pumpData
    repeat' first
      | with_reducible assumption
      | with_reducible refine ih ?_
      | with_reducible refine State.steady_pumpStep _ _ _ _ ?_
      | with_reducible refine State.steady_snd (by with_reducible assumption) ?_
      | dsimp only
      | split

theorem State.steady_zeroRead (k fn : Nat) (a : Word) (x : NpHolder) (h : s.steady t) : ∀ v, t.zeroRead k fn a x = some v → s.steady v := by
  intro v hv
  unfold State.zeroRead at hv
  split at hv
  · cases hv
  · injection hv with hv
    subst hv
    refine State.steady_emit _ (State.steady_onHlk _ h fun _ => ?_)
    exact Hlk.same_refl _

theorem State.steady_zeroReadD (k fn : Nat) (a : Word) (x : NpHolder) (h : s.steady t) : s.steady ((t.zeroRead k fn a x).getD t) := by
  cases hv : t.zeroRead k fn a x with
  | none => exact h
  | some v => exact State.steady_zeroRead _ _ _ _ h v hv

theorem State.steady_readBack (a0 : Nat) (a1 : Bool) (a2 : Work) (a3 : Cmd) (h : s.steady t) : s.steady (t.readBack a0 a1 a2 a3) := by
  unfold State.readBack
  repeat' first
    | with_reducible assumption
    | with_reducible refine State.steady_onJob _ _ _ ?_
    | with_reducible refine State.steady_foldl _ _ ?_ ?_
    | with_reducible refine State.steady_zeroRead _ _ _ _ ?_
    | with_reducible refine State.steady_zeroReadD _ _ _ _ ?_
    | with_reducible refine State.steady_zeroRead _ _ _ _ ?_ _ (by with_reducible assumption)
    | with_reducible refine State.steady_failWork _ _ ?_
    | with_reducible refine State.steady_nocRequest _ _ _ ?_
    | with_reducible refine State.steady_homeAsk _ _ ?_
    | with_reducible refine State.steady_foldl _ _ ?_ ?_
    | with_reducible refine State.steady_snd (by with_reducible assumption) ?_
    | (intro _ _ _; try dsimp only)
    | (intro _ _; try dsimp only)
    | (intro hx; cases hx)
    | dsimp only
    | split

theorem State.steady_settleJob (a0 : Nat) (a1 : Bool) (h : s.steady t) : s.steady (t.settleJob a0 a1) := by
  unfold State.settleJob
  repeat' first
    | with_reducible assumption
    | with_reducible refine State.steady_onWork _ _ ?_
    | with_reducible refine State.steady_readBack _ _ _ _ ?_
    | (intro _ _; try dsimp only)
    | dsimp only
    | split

theorem State.steady_pumpJob (a0 : Nat) (a1 : Bool) (h : s.steady t) : s.steady (t.pumpJob a0 a1) := by
  unfold State.pumpJob
  repeat' first
    | with_reducible assumption
    | with_reducible refine State.steady_pumpData _ _ _ ?_
    | with_reducible refine State.steady_afterWrite _ _ ?_
    | with_reducible refine State.steady_settleJob _ _ ?_
    | dsimp only
    | split

theorem State.steady_charge (a0 : Nat) (a1 : Nat) (a2 : List (Nat × Nat)) (h : s.steady t) : s.steady (t.charge a0 a1 a2) := by
  unfold State.charge
  repeat' first
    | with_reducible assumption
    | with_reducible refine State.steady_foldl _ _ ?_ ?_
    | ((with_reducible show State.steady _ (State.onMov _ _)); refine State.steady_onMov _ ?_)
    | with_reducible refine State.steady_foldl _ _ ?_ ?_
    | (intro _ _ _; try dsimp only)
    | (intro _ _; try dsimp only)
    | dsimp only
    | split

theorem State.steady_planCharge (a0 : Nat) (a1 : List (Nat × Nat)) (h : s.steady t) : s.steady (t.planCharge a0 a1) := by
  unfold State.planCharge
  repeat' first
    | with_reducible assumption
    | ((with_reducible show State.steady _ (State.onMov _ _)); refine State.steady_onMov _ ?_)
    | with_reducible refine State.steady_foldl _ _ ?_ ?_
    | with_reducible refine State.steady_chtFlag _ _ _ _ ?_
    | with_reducible refine State.steady_onChtView _ _ ?_
    | with_reducible refine State.steady_foldl _ _ ?_ ?_
    | (intro _ _ _; try dsimp only)
    | (intro _ _; try dsimp only)
    | dsimp only
    | split

theorem State.steady_holdJob (a0 : Nat) (a1 : Bool) (a2 : Nat) (a3 : Nat) (a4 : List (Nat × Nat)) (h : s.steady t) : s.steady (t.holdJob a0 a1 a2 a3 a4) := by
  unfold State.holdJob
  repeat' first
    | with_reducible assumption
    | with_reducible refine State.steady_onJob _ _ _ ?_
    | with_reducible refine State.steady_onMovView _ _ ?_
    | with_reducible refine State.steady_flag _ _ _ _ _ ?_
    | (intro _ _; try dsimp only)
    | dsimp only
    | split

theorem State.steady_slotBoundary (h : s.steady t) : s.steady (t.slotBoundary) := by
  unfold State.slotBoundary
  repeat' first
    | with_reducible assumption
    | with_reducible refine State.steady_foldl _ _ ?_ ?_
    | ((with_reducible show State.steady _ (State.onMov _ _)); refine State.steady_onMov _ ?_)
    | with_reducible refine State.steady_onChan _ _ ?_
    | with_reducible refine State.steady_foldl _ _ ?_ ?_
    | (intro _ _ _; try dsimp only)
    | (intro _ _; try dsimp only)
    | dsimp only
    | split

theorem State.steady_preempt (a0 : Nat) (h : s.steady t) : s.steady (t.preempt a0) := by
  unfold State.preempt
  repeat' first
    | with_reducible assumption
    | with_reducible refine State.steady_onJob _ _ _ ?_
    | with_reducible refine State.steady_onMovView _ _ ?_
    | (intro _ _; try dsimp only)
    | dsimp only
    | split

theorem State.steady_startJob (a0 : Nat) (a1 : Bool) (a2 : Work) (a3 : Cmd) (a4 : Nat) (a5 : Bool) (h : s.steady t) : s.steady (t.startJob a0 a1 a2 a3 a4 a5) := by
  unfold State.startJob
  repeat' first
    | with_reducible assumption
    | with_reducible refine State.steady_onWork _ _ ?_
    | with_reducible refine State.steady_onJob _ _ _ ?_
    | with_reducible refine State.steady_preempt _ ?_
    | (intro _ _; try dsimp only)
    | dsimp only
    | split

theorem State.steady_segmentDispatch (a0 : Engine) (a1 : Bool) (h : s.steady t) : s.steady (t.segmentDispatch a0 a1) := by
  unfold State.segmentDispatch
  repeat' first
    | with_reducible assumption
    | with_reducible refine State.steady_startJob _ _ _ _ _ _ ?_
    | with_reducible refine State.steady_arbCycle _ _ _ ?_
    | with_reducible refine State.steady_arbUse _ _ ?_
    | with_reducible refine State.steady_arbNext _ _ _ _ ?_
    | with_reducible refine State.steady_snd (by with_reducible assumption) ?_
    | dsimp only
    | split

theorem State.steady_queueRead (a0 : Nat) (a1 : Bool) (a2 : RdKind) (a3 : Nat) (a4 : Loc) (h : s.steady t) : s.steady (t.queueRead a0 a1 a2 a3 a4) := by
  unfold State.queueRead
  repeat' first
    | with_reducible assumption
    | with_reducible refine State.steady_onJob _ _ _ ?_
    | (intro _ _; try dsimp only)
    | dsimp only
    | split

theorem State.steady_readStaging (a0 : Nat) (a1 : Bool) (a2 : Work) (a3 : RdKind) (a4 : Nat) (a5 : Nat) (h : s.steady t) : s.steady (t.readStaging a0 a1 a2 a3 a4 a5) := by
  unfold State.readStaging
  repeat' first
    | with_reducible assumption
    | with_reducible refine State.steady_failWork _ _ ?_
    | with_reducible refine State.steady_onJob _ _ _ ?_
    | (intro _ _; try dsimp only)
    | dsimp only
    | split

theorem State.steady_reed (a0 : Nat) (a1 : Bool) (a2 : Work) (a3 : List (Nat × Nat)) (h : s.steady t) : s.steady (t.reed a0 a1 a2 a3).2 := by
  unfold State.reed
  repeat' first
    | with_reducible assumption
    | with_reducible refine State.steady_planCharge _ _ ?_
    | with_reducible refine State.steady_charge _ _ _ ?_
    | with_reducible refine State.steady_holdJob _ _ _ _ _ ?_
    | dsimp only
    | split

theorem State.steady_started (a0 : Nat) (a1 : Bool) (a2 : Nat) (h : s.steady t) : s.steady (t.started a0 a1 a2) := by
  unfold State.started
  repeat' first
    | with_reducible assumption
    | with_reducible refine State.steady_onJob _ _ _ ?_
    | with_reducible refine State.steady_ops _ _ ?_
    | with_reducible refine State.steady_bytes _ _ ?_
    | (intro _ _; try dsimp only)
    | dsimp only
    | split

theorem State.steady_startCopy (a0 : Nat) (a1 : Bool) (a2 : Work) (a3 : Cmd) (h : s.steady t) : s.steady (t.startCopy a0 a1 a2 a3) := by
  unfold State.startCopy
  repeat' first
    | with_reducible assumption
    | with_reducible refine State.steady_ask _ ?_
    | with_reducible refine State.steady_locateAll _ _ _ _ _ ?_
    | with_reducible refine State.steady_failWork _ _ ?_
    | with_reducible refine State.steady_reed _ _ _ _ ?_
    | with_reducible refine State.steady_started _ _ _ ?_
    | with_reducible refine State.steady_hitPages _ _ _ _ ?_
    | with_reducible refine State.steady_foldl _ _ ?_ ?_
    | with_reducible refine State.steady_readStaging _ _ _ _ _ _ ?_
    | with_reducible refine State.steady_queueRead _ _ _ _ _ ?_
    | with_reducible refine State.steady_pumpJob _ _ ?_
    | with_reducible refine State.steady_foldl _ _ ?_ ?_
    | with_reducible refine State.steady_snd (by with_reducible assumption) ?_
    | (intro _ _ _; try dsimp only)
    | (intro _ _; try dsimp only)
    | dsimp only
    | split

theorem State.steady_startWrite (a0 : Nat) (a1 : Bool) (a2 : Work) (a3 : Cmd) (h : s.steady t) : s.steady (t.startWrite a0 a1 a2 a3) := by
  unfold State.startWrite
  repeat' first
    | with_reducible assumption
    | with_reducible refine State.steady_started _ _ _ ?_
    | with_reducible refine State.steady_onJob _ _ _ ?_
    | with_reducible refine State.steady_reed _ _ _ _ ?_
    | with_reducible refine State.steady_foldl _ _ ?_ ?_
    | with_reducible refine State.steady_queueWrite _ _ _ ?_
    | with_reducible refine State.steady_pumpJob _ _ ?_
    | with_reducible refine State.steady_locateAll _ _ _ _ _ ?_
    | with_reducible refine State.steady_failWork _ _ ?_
    | with_reducible refine State.steady_hitPages _ _ _ _ ?_
    | with_reducible refine State.steady_foldl _ _ ?_ ?_
    | with_reducible refine State.steady_snd (by with_reducible assumption) ?_
    | (intro _ _ _; try dsimp only)
    | (intro _ _; try dsimp only)
    | dsimp only
    | split

theorem State.steady_writeOld (a0 : Nat) (a1 : Bool) (a2 : Work) (a3 : Cmd) (h : s.steady t) : s.steady (t.writeOld a0 a1 a2 a3) := by
  unfold State.writeOld
  repeat' first
    | with_reducible assumption
    | with_reducible refine State.steady_locateAll _ _ _ _ _ ?_
    | with_reducible refine State.steady_hitPages _ _ _ _ ?_
    | with_reducible refine State.steady_onJob _ _ _ ?_
    | with_reducible refine State.steady_queueWrite _ _ _ ?_
    | with_reducible refine State.steady_pumpJob _ _ ?_
    | with_reducible refine State.steady_snd (by with_reducible assumption) ?_
    | (intro _ _; try dsimp only)
    | dsimp only
    | split

theorem State.steady_startAtomicOp (a0 : Nat) (a1 : Bool) (a2 : Work) (a3 : Cmd) (h : s.steady t) : s.steady (t.startAtomicOp a0 a1 a2 a3) := by
  unfold State.startAtomicOp
  repeat' first
    | with_reducible assumption
    | with_reducible refine State.steady_failWork _ _ ?_
    | with_reducible refine State.steady_locateAll _ _ _ _ _ ?_
    | with_reducible refine State.steady_reed _ _ _ _ ?_
    | with_reducible refine State.steady_started _ _ _ ?_
    | with_reducible refine State.steady_hitPages _ _ _ _ ?_
    | with_reducible refine State.steady_queueWrite _ _ _ ?_
    | with_reducible refine State.steady_pumpJob _ _ ?_
    | with_reducible refine State.steady_awaitWrite _ _ _ _ ?_
    | with_reducible refine State.steady_homeAsk _ _ ?_
    | with_reducible refine State.steady_snd (by with_reducible assumption) ?_
    | (intro _ _; try dsimp only)
    | dsimp only
    | split

theorem State.steady_startCrc (a0 : Nat) (a1 : Bool) (a2 : Work) (a3 : Cmd) (h : s.steady t) : s.steady (t.startCrc a0 a1 a2 a3) := by
  unfold State.startCrc
  repeat' first
    | with_reducible assumption
    | with_reducible refine State.steady_locateAll _ _ _ _ _ ?_
    | with_reducible refine State.steady_failWork _ _ ?_
    | with_reducible refine State.steady_reed _ _ _ _ ?_
    | with_reducible refine State.steady_started _ _ _ ?_
    | with_reducible refine State.steady_hitPages _ _ _ _ ?_
    | with_reducible refine State.steady_onJob _ _ _ ?_
    | with_reducible refine State.steady_queueWrite _ _ _ ?_
    | with_reducible refine State.steady_queueRead _ _ _ _ _ ?_
    | with_reducible refine State.steady_pumpJob _ _ ?_
    | with_reducible refine State.steady_snd (by with_reducible assumption) ?_
    | (intro _ _; try dsimp only)
    | dsimp only
    | split

theorem State.steady_burstStart (a0 : Nat) (a1 : Bool) (h : s.steady t) : s.steady (t.burstStart a0 a1) := by
  unfold State.burstStart
  repeat' first
    | with_reducible assumption
    | with_reducible refine State.steady_pumpJob _ _ ?_
    | with_reducible refine State.steady_writeOld _ _ _ _ ?_
    | with_reducible refine State.steady_startCrc _ _ _ _ ?_
    | with_reducible refine State.steady_startAtomicOp _ _ _ _ ?_
    | with_reducible refine State.steady_startCopy _ _ _ _ ?_
    | with_reducible refine State.steady_startWrite _ _ _ _ ?_
    | with_reducible refine State.steady_snd (by with_reducible assumption) ?_
    | dsimp only
    | split

theorem State.steady_turn (a0 : Nat) (a1 : Bool) (a2 : Nat) (h : s.steady t) : s.steady (t.turn a0 a1 a2) := by
  unfold State.turn
  repeat' first
    | with_reducible assumption
    | with_reducible refine State.steady_sendRead _ _ _ _ ?_
    | with_reducible refine State.steady_pumpJob _ _ ?_
    | with_reducible refine State.steady_sendWrite _ _ _ _ _ ?_
    | with_reducible refine State.steady_convertGroup _ _ _ _ ?_
    | dsimp only
    | split

theorem State.steady_pathUse (a0 : Nat) (h : s.steady t) : s.steady (t.pathUse a0) := by
  unfold State.pathUse
  repeat' first
    | with_reducible assumption
    | with_reducible refine State.steady_arbUse _ _ ?_
    | with_reducible refine State.steady_turn _ _ _ ?_
    | with_reducible refine State.steady_arbWithdraw _ ?_
    | dsimp only
    | split

theorem State.steady_pathFresh (a0 : Nat) (a1 : List (Nat × Bool)) (h : s.steady t) : s.steady (t.pathFresh a0 a1) := by
  unfold State.pathFresh
  repeat' first
    | with_reducible assumption
    | with_reducible refine State.steady_arbDecide _ _ _ ?_
    | with_reducible refine State.steady_onArbiter _ _ ?_
    | (intro _ _; try dsimp only)
    | dsimp only
    | split

theorem State.steady_pathDecide (a0 : Nat) (h : s.steady t) : s.steady (t.pathDecide a0) := by
  unfold State.pathDecide
  repeat' first
    | with_reducible assumption
    | with_reducible refine State.steady_onArbiter _ _ ?_
    | with_reducible refine State.steady_arbDecide _ _ _ ?_
    | with_reducible refine State.steady_pathFresh _ _ ?_
    | (intro _ _; try dsimp only)
    | dsimp only
    | split

theorem State.steady_pathCycle (a0 : Nat) (h : s.steady t) : s.steady (t.pathCycle a0) := by
  unfold State.pathCycle
  repeat' first
    | with_reducible assumption
    | with_reducible refine State.steady_pathUse _ ?_
    | with_reducible refine State.steady_pathDecide _ ?_
    | dsimp only
    | split

theorem State.steady_settleArbs (h : s.steady t) : s.steady (t.settleArbs) := by
  unfold State.settleArbs
  repeat' first
    | with_reducible assumption
    | with_reducible refine State.steady_foldl _ _ ?_ ?_
    | with_reducible refine State.steady_dropRequests _ _ ?_
    | with_reducible refine State.steady_foldl _ _ ?_ ?_
    | (intro _ _ _; try dsimp only)
    | (intro _ _; try dsimp only)
    | dsimp only
    | split

theorem State.steady_arbiterRound (a0 : Nat) (h : s.steady t) : s.steady (t.arbiterRound a0) := by
  unfold State.arbiterRound
  repeat' first
    | with_reducible assumption
    | with_reducible refine State.steady_pathCycle _ ?_
    | with_reducible refine State.steady_arbCycle _ _ _ ?_
    | dsimp only
    | split

theorem State.steady_lateFor (a0 : Option Work) (a1 : Bool) (a2 : Code) (h : s.steady t) : s.steady (t.lateFor a0 a1 a2) := by
  unfold State.lateFor
  repeat' first
    | with_reducible assumption
    | ((with_reducible show State.steady _ (State.onHlk _ _)); refine State.steady_onHlk _ ?_)
    | (intro _ _; try dsimp only)
    | dsimp only
    | split

theorem State.steady_failJob (a0 : Nat) (a1 : Bool) (a2 : Code) (h : s.steady t) : s.steady (t.failJob a0 a1 a2) := by
  unfold State.failJob
  repeat' first
    | with_reducible assumption
    | with_reducible refine State.steady_failWork _ _ ?_
    | dsimp only
    | split

theorem State.steady_jobData (a0 : Nat) (a1 : Bool) (a2 : RdKind) (a3 : Nat) (a4 : Code) (a5 : Bool) (a6 : Granule) (h : s.steady t) : s.steady (t.jobData a0 a1 a2 a3 a4 a5 a6) := by
  unfold State.jobData
  repeat' first
    | with_reducible assumption
    | with_reducible refine State.steady_onJob _ _ _ ?_
    | with_reducible refine State.steady_lateFor _ _ _ ?_
    | with_reducible refine State.steady_failJob _ _ _ ?_
    | with_reducible refine State.steady_pumpJob _ _ ?_
    | (intro _ _; try dsimp only)
    | dsimp only
    | split

theorem State.steady_jobWrote (a0 : Nat) (a1 : Bool) (a2 : Bool) (a3 : BitVec 32) (a4 : Code) (h : s.steady t) : s.steady (t.jobWrote a0 a1 a2 a3 a4) := by
  unfold State.jobWrote
  repeat' first
    | with_reducible assumption
    | with_reducible refine State.steady_onJob _ _ _ ?_
    | with_reducible refine State.steady_lateFor _ _ _ ?_
    | with_reducible refine State.steady_failJob _ _ _ ?_
    | with_reducible refine State.steady_pumpJob _ _ ?_
    | (intro _ _; try dsimp only)
    | dsimp only
    | split

theorem State.steady_jobBack (a0 : Nat) (a1 : Bool) (a2 : Code) (a3 : Bool) (h : s.steady t) : s.steady (t.jobBack a0 a1 a2 a3) := by
  unfold State.jobBack
  repeat' first
    | with_reducible assumption
    | with_reducible refine State.steady_onJob _ _ _ ?_
    | with_reducible refine State.steady_failJob _ _ _ ?_
    | dsimp only
    | split

theorem State.steady_jobAtomic (a0 : Nat) (a1 : Bool) (a2 : Bool) (a3 : BitVec 32) (a4 : Code) (a5 : Word) (h : s.steady t) : s.steady (t.jobAtomic a0 a1 a2 a3 a4 a5) := by
  unfold State.jobAtomic
  repeat' first
    | with_reducible assumption
    | with_reducible refine State.steady_onJob _ _ _ ?_
    | with_reducible refine State.steady_lateFor _ _ _ ?_
    | with_reducible refine State.steady_failJob _ _ _ ?_
    | with_reducible refine State.steady_writeOld _ _ _ _ ?_
    | with_reducible refine State.steady_pumpJob _ _ ?_
    | (intro _ _; try dsimp only)
    | dsimp only
    | split

theorem State.steady_workDone (a0 : Work) (a1 : Cmd) (h : s.steady t) : s.steady (t.workDone a0 a1) := by
  unfold State.workDone
  repeat' first
    | with_reducible assumption
    | with_reducible refine State.steady_completeCmd _ _ ?_
    | with_reducible refine State.steady_pulse _ _ _ ?_
    | with_reducible refine State.steady_planRunDone _ ?_
    | dsimp only
    | split

theorem State.steady_segmentComplete (a0 : Nat) (a1 : Bool) (h : s.steady t) : s.steady (t.segmentComplete a0 a1) := by
  unfold State.segmentComplete
  repeat' first
    | with_reducible assumption
    | with_reducible refine State.steady_onWork _ _ ?_
    | with_reducible refine State.steady_onJob _ _ _ ?_
    | with_reducible refine State.steady_workDone _ _ ?_
    | with_reducible refine State.steady_checkpoint _ ?_
    | (intro _ _; try dsimp only)
    | dsimp only
    | split

theorem State.steady_jobTimeout (a0 : Nat) (a1 : Bool) (h : s.steady t) : s.steady (t.jobTimeout a0 a1) := by
  unfold State.jobTimeout
  repeat' first
    | with_reducible assumption
    | ((with_reducible show State.steady _ (State.onNoc _ _)); refine State.steady_onNoc _ ?_)
    | with_reducible refine State.steady_onJob _ _ _ ?_
    | (intro _ _; try dsimp only)
    | dsimp only
    | split

theorem State.steady_segmentFail (a0 : Nat) (a1 : Bool) (a2 : SegFail) (h : s.steady t) : s.steady (t.segmentFail a0 a1 a2) := by
  unfold State.segmentFail
  repeat' first
    | with_reducible assumption
    | with_reducible refine State.steady_jobTimeout _ _ ?_
    | with_reducible refine State.steady_failJob _ _ _ ?_
    | dsimp only
    | split

theorem State.steady_stoppedIdle (a0 : Nat) (a1 : Bool) (h : s.steady t) : s.steady (t.stoppedIdle a0 a1) := by
  unfold State.stoppedIdle
  repeat' first
    | with_reducible assumption
    | with_reducible refine State.steady_onJob _ _ _ ?_
    | with_reducible refine State.steady_onChan _ _ ?_
    | with_reducible refine State.steady_afterInflight _ ?_
    | with_reducible refine State.steady_onEntry _ _ ?_
    | with_reducible refine State.steady_tryFire _ ?_
    | (intro _ _; try dsimp only)
    | dsimp only
    | split

theorem State.steady_mgmtSubmit (a0 : Nat) (a1 : Word) (h : s.steady t) : s.steady (t.mgmtSubmit a0 a1) := by
  unfold State.mgmtSubmit
  repeat' first
    | with_reducible assumption
    | with_reducible refine State.steady_dblFlag _ _ _ _ ?_
    | with_reducible refine State.steady_onMgmt _ _ ?_
    | with_reducible refine State.steady_mgmtNext _ ?_
    | (intro _ _; try dsimp only)
    | dsimp only
    | split

theorem State.steady_mgmtRun (a0 : Nat) (a1 : Nat → Bool) (a2 : State → Bool → Desc → State) (h : s.steady t) (ha2 : ∀ t x0 x1, s.steady t → s.steady (a2 t x0 x1)) : s.steady (t.mgmtRun a0 a1 a2) := by
  unfold State.mgmtRun
  repeat' first
    | with_reducible assumption
    | (with_reducible refine ha2 _ _ _ ?_)
    | with_reducible refine State.steady_takeFor _ _ ?_
    | with_reducible refine State.steady_mgmtLost _ ?_
    | with_reducible refine State.steady_onMgmt _ _ ?_
    | (intro _ _; try dsimp only)
    | dsimp only
    | split

theorem State.steady_mgmtFail (a0 : Nat) (a1 : Bool) (a2 : Nat) (a3 : Code) (a4 : BitVec 32) (h : s.steady t) : s.steady (t.mgmtFail a0 a1 a2 a3 a4) := by
  unfold State.mgmtFail
  repeat' first
    | with_reducible assumption
    | with_reducible refine State.steady_mgmtResult _ _ _ ?_
    | dsimp only
    | split

theorem State.steady_mgmtAct (a0 : Nat) (a1 : Bool) (a2 : Desc) (a3 : Chan → Bool) (a4 : Nat → State) (h : s.steady t) (ha4 : ∀ x0, s.steady (a4 x0)) : s.steady (t.mgmtAct a0 a1 a2 a3 a4) := by
  unfold State.mgmtAct
  repeat' first
    | with_reducible assumption
    | (with_reducible refine ha4 _ )
    | with_reducible refine State.steady_mgmtFail _ _ _ _ _ ?_
    | (intro _ _; try dsimp only)
    | dsimp only
    | split

theorem State.steady_mgmtOk (a0 : Nat) (a1 : Bool) (a2 : Desc) (h : s.steady t) : s.steady (t.mgmtOk a0 a1 a2) := by
  unfold State.mgmtOk
  repeat' first
    | with_reducible assumption
    | with_reducible refine State.steady_mgmtResult _ _ _ ?_
    | dsimp only
    | split

theorem State.steady_mgmtCreate (a0 : Nat) (a1 : Bool) (a2 : Desc) (h : s.steady t) : s.steady (t.mgmtCreate a0 a1 a2) := by
  unfold State.mgmtCreate
  repeat' first
    | with_reducible assumption
    | with_reducible refine State.steady_mgmtFail _ _ _ _ _ ?_
    | ((with_reducible show State.steady _ (State.onDbl _ _)); refine State.steady_onDbl _ ?_)
    | with_reducible refine State.steady_setChan _ _ ?_
    | with_reducible refine State.steady_onMgmt _ _ ?_
    | with_reducible refine State.steady_placeContext _ ?_
    | with_reducible refine State.steady_writeContext _ ?_
    | (intro _ _; try dsimp only)
    | dsimp only
    | split

theorem State.steady_mgmtDestroy (a0 : Nat) (a1 : Bool) (a2 : Desc) (h : s.steady t) : s.steady (t.mgmtDestroy a0 a1 a2) := by
  unfold State.mgmtDestroy
  repeat' first
    | with_reducible assumption
    | with_reducible refine State.steady_mgmtAct _ _ _ _ _ ?_ ?_
    | with_reducible refine State.steady_retireChannel _ ?_
    | with_reducible refine State.steady_onChan _ _ ?_
    | with_reducible refine State.steady_onMgmt _ _ ?_
    | (intro _ _; try dsimp only)
    | (intro _; try dsimp only)
    | dsimp only
    | split

theorem State.steady_mgmtReset (a0 : Nat) (a1 : Bool) (a2 : Desc) (h : s.steady t) : s.steady (t.mgmtReset a0 a1 a2) := by
  unfold State.mgmtReset
  repeat' first
    | with_reducible assumption
    | with_reducible refine State.steady_mgmtAct _ _ _ _ _ ?_ ?_
    | with_reducible refine State.steady_resetChannel _ ?_
    | with_reducible refine State.steady_mgmtOk _ _ _ ?_
    | (intro _ _; try dsimp only)
    | (intro _; try dsimp only)
    | dsimp only
    | split

theorem State.steady_mgmtKill (a0 : Nat) (a1 : Bool) (a2 : Desc) (h : s.steady t) : s.steady (t.mgmtKill a0 a1 a2) := by
  unfold State.mgmtKill
  repeat' first
    | with_reducible assumption
    | with_reducible refine State.steady_mgmtAct _ _ _ _ _ ?_ ?_
    | with_reducible refine State.steady_killChannel _ _ _ _ ?_
    | with_reducible refine State.steady_mgmtOk _ _ _ ?_
    | (intro _ _; try dsimp only)
    | (intro _; try dsimp only)
    | dsimp only
    | split

theorem State.steady_mgmtModify (a0 : Nat) (a1 : Bool) (a2 : Desc) (h : s.steady t) : s.steady (t.mgmtModify a0 a1 a2) := by
  unfold State.mgmtModify
  repeat' first
    | with_reducible assumption
    | with_reducible refine State.steady_mgmtFail _ _ _ _ _ ?_
    | with_reducible refine State.steady_mgmtAct _ _ _ _ _ ?_ ?_
    | with_reducible refine State.steady_onMgmt _ _ ?_
    | with_reducible refine State.steady_mgmtOk _ _ _ ?_
    | (intro _ _; try dsimp only)
    | (intro _; try dsimp only)
    | dsimp only
    | split

theorem State.steady_mgmtObserved (a0 : Nat) (h : s.steady t) : s.steady (t.mgmtObserved a0) := by
  unfold State.mgmtObserved
  repeat' first
    | with_reducible assumption
    | with_reducible refine State.steady_mgmtResult _ _ _ ?_
    | with_reducible refine State.steady_takeFor _ _ ?_
    | with_reducible refine State.steady_mgmtLost _ ?_
    | with_reducible refine State.steady_mgmtModified _ ?_
    | with_reducible refine State.steady_onMgmt _ _ ?_
    | with_reducible refine State.steady_edge _ ?_
    | with_reducible refine State.steady_mgmtNext _ ?_
    | (intro _ _; try dsimp only)
    | dsimp only
    | split

theorem State.steady_contextWritten (a0 : Nat) (a1 : Bool) (h : s.steady t) : s.steady (t.contextWritten a0 a1) := by
  unfold State.contextWritten
  repeat' first
    | with_reducible assumption
    | with_reducible refine State.steady_setChan _ _ ?_
    | with_reducible refine State.steady_payOwed _ _ _ ?_
    | (intro _ _; try dsimp only)
    | dsimp only
    | split

theorem State.steady_doorbell (a0 : Nat) (a1 : Nat) (a2 : Byte) (a3 : State) (h : s.steady t) (ha3 : s.steady a3) : s.steady (t.doorbell a0 a1 a2 a3) := by
  unfold State.doorbell
  repeat' first
    | with_reducible assumption
    | with_reducible refine State.steady_dblFlag _ _ _ _ ?_
    | (intro _ _; try dsimp only)
    | dsimp only
    | split

theorem State.steady_dbCtl (a0 : Nat) (a1 : Nat) (a2 : Byte) (a3 : State) (h : s.steady t) (ha3 : s.steady a3) : s.steady (t.dbCtl a0 a1 a2 a3) := by
  unfold State.dbCtl
  repeat' first
    | with_reducible assumption
    | with_reducible refine State.steady_doorbell _ _ _ _ ?_ ?_
    | with_reducible refine State.steady_dblFlag _ _ _ _ ?_
    | (intro _ _; try dsimp only)
    | dsimp only
    | split

theorem State.steady_haltChan (a0 : Nat) (h : s.steady t) : s.steady (t.haltChan a0) := by
  unfold State.haltChan
  repeat' first
    | with_reducible assumption
    | with_reducible refine State.steady_lateInline _ ?_
    | with_reducible refine State.steady_setChan _ _ ?_
    | with_reducible refine State.steady_withdraw _ ?_
    | with_reducible refine State.steady_haltError _ _ _ _ ?_
    | (intro _ _; try dsimp only)
    | dsimp only
    | split

theorem State.steady_stopChan (a0 : Nat) (h : s.steady t) : s.steady (t.stopChan a0) := by
  unfold State.stopChan
  repeat' first
    | with_reducible assumption
    | with_reducible refine State.steady_lateInline _ ?_
    | with_reducible refine State.steady_setChan _ _ ?_
    | with_reducible refine State.steady_withdrawWaits _ ?_
    | with_reducible refine State.steady_endCmds _ _ ?_
    | ((with_reducible show State.steady _ (State.onSyn _ _)); refine State.steady_onSyn _ ?_)
    | with_reducible refine State.steady_withdraw _ ?_
    | with_reducible refine State.steady_haltError _ _ _ _ ?_
    | (intro _ _; try dsimp only)
    | dsimp only
    | split

theorem State.steady_resumeChan (a0 : Nat) (h : s.steady t) : s.steady (t.resumeChan a0) := by
  unfold State.resumeChan
  repeat' first
    | with_reducible assumption
    | with_reducible refine State.steady_onChan _ _ ?_
    | with_reducible refine State.steady_resumeNow _ ?_
    | (intro _ _; try dsimp only)
    | dsimp only
    | split

theorem State.steady_takeInline (slot : Nat) (pos : BitVec 32) (l : List (List Granule)) (h : s.steady t) :
    s.steady (t.takeInline slot pos l) := by
  induction l generalizing t with
  | nil => exact h
  | cons x r ih =>
    unfold State.takeInline
    dsimp only
    split
    · exact State.steady_reject _ _ _ _ h
    · exact ih (State.steady_acceptCmd _ _ _ _ h)

theorem State.steady_inlineWrite (a0 : Nat) (a1 : Nat) (a2 : Nat) (a3 : Nat) (a4 : Bool) (a5 : List Granule) (h : s.steady t) : s.steady (t.inlineWrite a0 a1 a2 a3 a4 a5) := by
  unfold State.inlineWrite
  repeat' first
    | with_reducible assumption
    | with_reducible refine State.steady_dblFlag _ _ _ _ ?_
    | with_reducible refine State.steady_haltError _ _ _ _ ?_
    | with_reducible refine State.steady_ops _ _ ?_
    | with_reducible refine State.steady_onChan _ _ ?_
    | with_reducible refine State.steady_takeInline _ _ _ ?_
    | with_reducible refine State.steady_activate _ ?_
    | (intro _ _; try dsimp only)
    | dsimp only
    | split

theorem State.steady_ringReread (a0 : Nat) (h : s.steady t) : s.steady (t.ringReread a0) := by
  unfold State.ringReread
  repeat' first
    | with_reducible assumption
    | with_reducible refine State.steady_awaitContext _ ?_
    | with_reducible refine State.steady_onChan _ _ ?_
    | with_reducible refine State.steady_readSlot _ _ ?_
    | with_reducible refine State.steady_runFetch _ ?_
    | (intro _ _; try dsimp only)
    | dsimp only
    | split

theorem State.steady_markDispatched (a0 : Nat) (a1 : Nat) (a2 : Cmd → Cmd) (h : s.steady t) : s.steady (t.markDispatched a0 a1 a2) := by
  unfold State.markDispatched
  repeat' first
    | with_reducible assumption
    | with_reducible refine State.steady_setChan _ _ ?_
    | (intro _ _; try dsimp only)
    | dsimp only
    | split

theorem State.steady_dispatchData (a0 : Nat) (a1 : Cmd) (h : s.steady t) : s.steady (t.dispatchData a0 a1) := by
  unfold State.dispatchData
  repeat' first
    | with_reducible assumption
    | with_reducible refine State.steady_ops _ _ ?_
    | with_reducible refine State.steady_failCmd _ _ _ ?_
    | with_reducible refine State.steady_markDispatched _ _ _ ?_
    | with_reducible refine State.steady_snd (by with_reducible assumption) ?_
    | (intro _ _; try dsimp only)
    | dsimp only
    | split

theorem State.steady_dispatchSignal (a0 : Nat) (a1 : Cmd) (h : s.steady t) : s.steady (t.dispatchSignal a0 a1) := by
  unfold State.dispatchSignal
  repeat' first
    | with_reducible assumption
    | with_reducible refine State.steady_markDispatched _ _ _ ?_
    | with_reducible refine State.steady_ops _ _ ?_
    | with_reducible refine State.steady_failCmd _ _ _ ?_
    | with_reducible refine State.steady_sendSignal _ _ _ _ _ ?_
    | with_reducible refine State.steady_addAct _ _ ?_
    | dsimp only
    | split

theorem State.steady_dispatchWait (a0 : Nat) (a1 : Cmd) (h : s.steady t) : s.steady (t.dispatchWait a0 a1) := by
  unfold State.dispatchWait
  repeat' first
    | with_reducible assumption
    | with_reducible refine State.steady_markDispatched _ _ _ ?_
    | with_reducible refine State.steady_beginWait _ _ _ _ _ ?_
    | dsimp only
    | split

theorem State.steady_dispatchHint (a0 : Nat) (a1 : Cmd) (h : s.steady t) : s.steady (t.dispatchHint a0 a1) := by
  unfold State.dispatchHint
  repeat' first
    | with_reducible assumption
    | with_reducible refine State.steady_markDispatched _ _ _ ?_
    | with_reducible refine State.steady_hintRegions _ _ _ _ _ ?_
    | with_reducible refine State.steady_completeCmd _ _ ?_
    | dsimp only
    | split

theorem State.steady_armEntry (a0 : Nat) (a1 : Nat) (a2 : Bool) (a3 : State → Nat → State) (h : s.steady t) (ha3 : ∀ t x0, s.steady t → s.steady (a3 t x0)) : s.steady (t.armEntry a0 a1 a2 a3) := by
  unfold State.armEntry
  repeat' first
    | with_reducible assumption
    | (with_reducible refine ha3 _ _ ?_)
    | with_reducible refine State.steady_onEntry _ _ ?_
    | with_reducible refine State.steady_endOccurrence _ ?_
    | (intro _ _; try dsimp only)
    | dsimp only
    | split

theorem State.steady_fenceReads (a0 : Nat) (a1 : Nat) (a2 : List Nat) (h : s.steady t) : s.steady (t.fenceReads a0 a1 a2) := by
  unfold State.fenceReads
  repeat' first
    | with_reducible assumption
    | with_reducible refine State.steady_onChan _ _ ?_
    | with_reducible refine State.steady_foldl _ _ ?_ ?_
    | with_reducible refine State.steady_zeroRead _ _ _ _ ?_
    | with_reducible refine State.steady_zeroReadD _ _ _ _ ?_
    | with_reducible refine State.steady_zeroRead _ _ _ _ ?_ _ (by with_reducible assumption)
    | with_reducible refine State.steady_foldl _ _ ?_ ?_
    | (intro _ _ _; try dsimp only)
    | (intro _ _; try dsimp only)
    | (intro hx; cases hx)
    | dsimp only
    | split

theorem State.steady_pumpFence (a0 : Nat) (h : s.steady t) : s.steady (t.pumpFence a0) := by
  unfold State.pumpFence
  repeat' first
    | with_reducible assumption
    | with_reducible refine State.steady_fenceReads _ _ _ ?_
    | with_reducible refine State.steady_haltError _ _ _ _ ?_
    | with_reducible refine State.steady_afterInflight _ ?_
    | (intro _ _; try dsimp only)
    | dsimp only
    | split

theorem State.steady_fenceHeld (a0 : Nat) (h : s.steady t) : s.steady (t.fenceHeld a0) := by
  unfold State.fenceHeld
  repeat' first
    | with_reducible assumption
    | with_reducible refine State.steady_pumpFence _ ?_
    | with_reducible refine State.steady_completeCmd _ _ ?_
    | (intro _ _; try dsimp only)
    | dsimp only
    | split

end Sys2Proof.Machine
end

