-- ==== Sys2Proof/Laws/SteadyPeer.lean ====
section
/-! SUPPORT. What the hub's own work leaves alone, function by function. -/

-- One proof at a time: hundreds of proofs started together would each wait on the same lemma on a thread of its own.
set_option Elab.async false

namespace Sys2Proof.Machine

set_option linter.unusedTactic false
set_option linter.unreachableTactic false

variable {s t u : State}

theorem State.steady_onRxPkt (a0 : Nat) (a1 : Nat) (a2 : RxPkt → RxPkt) (h : s.steady t) : s.steady (t.onRxPkt a0 a1 a2) := by
  unfold State.onRxPkt
  repeat' first
    | with_reducible assumption
    | with_reducible refine State.steady_onRx _ _ ?_
    | (intro _ _; try dsimp only)
    | dsimp only
    | split

theorem State.steady_rxOpen (a0 : PktHdr) (h : s.steady t) : s.steady (t.rxOpen a0) := by
  unfold State.rxOpen
  repeat' first
    | with_reducible assumption
    | with_reducible refine State.steady_onRx _ _ ?_
    | (intro _ _; try dsimp only)
    | dsimp only
    | split

theorem State.steady_holdBlk (a0 : RxPkt) (a1 : HeldBlk) (h : s.steady t) : s.steady (t.holdBlk a0 a1) := by
  unfold State.holdBlk
  repeat' first
    | with_reducible assumption
    | with_reducible refine State.steady_onRxPkt _ _ _ ?_
    | with_reducible refine State.steady_ask _ ?_
    | (intro _ _; try dsimp only)
    | dsimp only
    | split

theorem State.steady_blkReady (a0 : RxPkt) (a1 : Nat) (a2 : List Byte) (h : s.steady t) : s.steady (t.blkReady a0 a1 a2) := by
  unfold State.blkReady
  repeat' first
    | with_reducible assumption
    | with_reducible refine State.steady_convert _ _ _ _ _ _ ?_
    | with_reducible refine State.steady_holdBlk _ _ ?_
    | with_reducible refine State.steady_snd (by with_reducible assumption) ?_
    | dsimp only
    | split

theorem State.steady_admitBlk (a0 : PktHdr) (a1 : Nat) (a2 : List Byte) (h : s.steady t) : s.steady (t.admitBlk a0 a1 a2) := by
  unfold State.admitBlk
  repeat' first
    | with_reducible assumption
    | with_reducible refine State.steady_onRxPkt _ _ _ ?_
    | with_reducible refine State.steady_onIwin _ _ ?_
    | with_reducible refine State.steady_foldl _ _ ?_ ?_
    | with_reducible refine State.steady_blkReady _ _ _ ?_
    | with_reducible refine State.steady_foldl _ _ ?_ ?_
    | (intro _ _ _; try dsimp only)
    | (intro _ _; try dsimp only)
    | dsimp only
    | split

theorem State.steady_refuseBlk (a0 : RxPkt) (a1 : Nat) (a2 : Nat) (a3 : Code) (h : s.steady t) : s.steady (t.refuseBlk a0 a1 a2 a3) := by
  unfold State.refuseBlk
  repeat' first
    | with_reducible assumption
    | with_reducible refine State.steady_onRxPkt _ _ _ ?_
    | with_reducible refine State.steady_onIwin _ _ ?_
    | with_reducible refine State.steady_refuse _ _ _ _ _ ?_
    | (intro _ _; try dsimp only)
    | dsimp only
    | split

theorem State.steady_writeBlk (a0 : RxPkt) (a1 : Nat) (a2 : Word) (a3 : Word) (a4 : BitVec 32) (a5 : List Byte) (h : s.steady t) : s.steady (t.writeBlk a0 a1 a2 a3 a4 a5) := by
  unfold State.writeBlk
  repeat' first
    | with_reducible assumption
    | with_reducible refine State.steady_foldl _ _ ?_ ?_
    | with_reducible refine State.steady_onRxPkt _ _ _ ?_
    | with_reducible refine State.steady_nocRequest _ _ _ ?_
    | with_reducible refine State.steady_foldl _ _ ?_ ?_
    | (intro _ _ _; try dsimp only)
    | (intro _ _; try dsimp only)
    | dsimp only
    | split

theorem State.steady_askAgain (a0 : Nat) (a1 : Nat) (h : s.steady t) : s.steady (t.askAgain a0 a1) := by
  unfold State.askAgain
  repeat' first
    | with_reducible assumption
    | with_reducible refine State.steady_foldl _ _ ?_ ?_
    | with_reducible refine State.steady_ask _ ?_
    | with_reducible refine State.steady_onRxPkt _ _ _ ?_
    | with_reducible refine State.steady_foldl _ _ ?_ ?_
    | (intro _ _ _; try dsimp only)
    | (intro _ _; try dsimp only)
    | dsimp only
    | split

theorem State.steady_rxReadBack (a0 : Nat) (a1 : Nat) (h : s.steady t) : s.steady (t.rxReadBack a0 a1) := by
  unfold State.rxReadBack
  repeat' first
    | with_reducible assumption
    | with_reducible refine State.steady_onRxPkt _ _ _ ?_
    | with_reducible refine State.steady_nocRequest _ _ _ ?_
    | with_reducible refine State.steady_snd (by with_reducible assumption) ?_
    | (intro _ _; try dsimp only)
    | dsimp only
    | split

theorem State.steady_inboundXlt (a0 : XReq) (a1 : Code) (a2 : Option Page) (h : s.steady t) : s.steady (t.inboundXlt a0 a1 a2) := by
  unfold State.inboundXlt
  repeat' first
    | with_reducible assumption
    | with_reducible refine State.steady_refuseBlk _ _ _ _ ?_
    | with_reducible refine State.steady_rxReadBack _ _ ?_
    | with_reducible refine State.steady_onRxPkt _ _ _ ?_
    | with_reducible refine State.steady_bytes _ _ ?_
    | with_reducible refine State.steady_writeBlk _ _ _ _ _ _ ?_
    | with_reducible refine State.steady_holdBlk _ _ ?_
    | (intro _ _; try dsimp only)
    | dsimp only
    | split

theorem State.steady_blockWrote (a0 : Nat) (a1 : Nat) (a2 : Nat) (a3 : BitVec 32) (a4 : Code) (h : s.steady t) : s.steady (t.blockWrote a0 a1 a2 a3 a4) := by
  unfold State.blockWrote
  repeat' first
    | with_reducible assumption
    | with_reducible refine State.steady_onRxPkt _ _ _ ?_
    | with_reducible refine State.steady_refuseBlk _ _ _ _ ?_
    | with_reducible refine State.steady_askAgain _ _ ?_
    | with_reducible refine State.steady_rxReadBack _ _ ?_
    | (intro _ _; try dsimp only)
    | dsimp only
    | split

theorem State.steady_blockBack (a0 : Nat) (a1 : Nat) (h : s.steady t) : s.steady (t.blockBack a0 a1) := by
  unfold State.blockBack
  repeat' first
    | with_reducible assumption
    | with_reducible refine State.steady_onRxPkt _ _ _ ?_
    | (intro _ _; try dsimp only)
    | dsimp only
    | split

theorem State.steady_blockApplied (a0 : Nat) (a1 : Nat) (a2 : Nat) (h : s.steady t) : s.steady (t.blockApplied a0 a1 a2) := by
  unfold State.blockApplied
  repeat' first
    | with_reducible assumption
    | with_reducible refine State.steady_onRxPkt _ _ _ ?_
    | with_reducible refine State.steady_onIwin _ _ ?_
    | with_reducible refine State.steady_respond _ _ _ _ ?_
    | (intro _ _; try dsimp only)
    | dsimp only
    | split

theorem State.steady_pktHead (a0 : PktHdr) (a1 : Nat) (a2 : State → State) (h : s.steady t) (ha2 : ∀ t, s.steady t → s.steady (a2 t )) : s.steady (t.pktHead a0 a1 a2) := by
  unfold State.pktHead
  repeat' first
    | with_reducible assumption
    | (with_reducible refine ha2 _ ?_)
    | with_reducible refine State.steady_portProtocol _ ?_
    | with_reducible refine State.steady_flag _ _ _ _ _ ?_
    | (intro _ _; try dsimp only)
    | dsimp only
    | split

theorem State.steady_sequenced (a0 : PktHdr) (a1 : Nat) (a2 : State → State) (h : s.steady t) (ha2 : ∀ t, s.steady t → s.steady (a2 t )) : s.steady (t.sequenced a0 a1 a2) := by
  unfold State.sequenced
  repeat' first
    | with_reducible assumption
    | (with_reducible refine ha2 _ ?_)
    | ((with_reducible show State.steady _ (State.onPeer _ _)); refine State.steady_onPeer _ ?_)
    | with_reducible refine State.steady_respond _ _ _ _ ?_
    | (intro _ _; try dsimp only)
    | dsimp only
    | split

theorem State.steady_rxData (a0 : PktHdr) (a1 : List Block) (h : s.steady t) : s.steady (t.rxData a0 a1) := by
  unfold State.rxData
  refine State.steady_sequenced _ _ _ h fun t h => ?_
  split
  extract_lets carried s1 old bad good marked dup new maskOf s2 s3 ended
  have h1 : s.steady s1 := State.steady_rxOpen _ h
  clear_value s1
  have h2 : s.steady s2 := by
    clear_value bad dup
    exact State.steady_onPeer _ h1
  clear_value s2
  have h3 : s.steady s3 := State.steady_respond _ _ _ _ (State.steady_respond _ _ _ _ h2)
  clear_value s3 ended maskOf new carried
  split
  · exact State.steady_refuse _ _ _ _ _ h
  · split
    · exact h3
    · split
      · exact State.steady_refuse _ _ _ _ _ h3
      · exact State.steady_foldl _ _ h3 fun _ _ h => State.steady_admitBlk _ _ _ h

theorem State.steady_rxSignal (a0 : PktHdr) (h : s.steady t) : s.steady (t.rxSignal a0) := by
  unfold State.rxSignal
  repeat' first
    | with_reducible assumption
    | with_reducible refine State.steady_sequenced _ _ _ ?_ ?_
    | with_reducible refine State.steady_refuse _ _ _ _ _ ?_
    | with_reducible refine State.steady_rxOpen _ ?_
    | ((with_reducible show State.steady _ (State.onPeer _ _)); refine State.steady_onPeer _ ?_)
    | with_reducible refine State.steady_respond _ _ _ _ ?_
    | with_reducible refine State.steady_onRxPkt _ _ _ ?_
    | with_reducible refine State.steady_addAct _ _ ?_
    | with_reducible refine State.steady_snd (by with_reducible assumption) ?_
    | (intro _ _; try dsimp only)
    | dsimp only
    | split

theorem State.steady_pktGone (a0 : Nat) (a1 : Nat) (a2 : PktFor) (h : s.steady t) : s.steady (t.pktGone a0 a1 a2) := by
  unfold State.pktGone
  repeat' first
    | with_reducible assumption
    | with_reducible refine State.steady_onJob _ _ _ ?_
    | (intro _ _; try dsimp only)
    | dsimp only
    | split

theorem State.steady_pktDone (a0 : Nat) (a1 : Nat) (a2 : PktFor) (h : s.steady t) : s.steady (t.pktDone a0 a1 a2) := by
  unfold State.pktDone
  repeat' first
    | with_reducible assumption
    | with_reducible refine State.steady_pktGone _ _ _ ?_
    | with_reducible refine State.steady_pumpJob _ _ ?_
    | with_reducible refine State.steady_completeCmd _ _ ?_
    | with_reducible refine State.steady_planSignalled _ _ ?_
    | with_reducible refine State.steady_notice _ _ _ _ _ _ _ _ _ _ ?_
    | dsimp only
    | split

theorem State.steady_pktFail (a0 : Nat) (a1 : Nat) (a2 : PktFor) (a3 : Code) (h : s.steady t) : s.steady (t.pktFail a0 a1 a2 a3) := by
  unfold State.pktFail
  repeat' first
    | with_reducible assumption
    | with_reducible refine State.steady_pktGone _ _ _ ?_
    | with_reducible refine State.steady_failJob _ _ _ ?_
    | with_reducible refine State.steady_failNum _ _ _ ?_
    | with_reducible refine State.steady_onEntry _ _ ?_
    | with_reducible refine State.steady_notice _ _ _ _ _ _ _ _ _ _ ?_
    | (intro _ _; try dsimp only)
    | dsimp only
    | split

theorem State.steady_dropPkt (a0 : Nat) (a1 : Nat) (h : s.steady t) : s.steady (t.dropPkt a0 a1) := by
  unfold State.dropPkt
  repeat' first
    | with_reducible assumption
    | with_reducible refine State.steady_onFlow _ _ ?_
    | with_reducible refine State.steady_allRoom ?_
    | (intro _ _; try dsimp only)
    | dsimp only
    | split

theorem State.steady_rxAck (a0 : PktHdr) (h : s.steady t) : s.steady (t.rxAck a0) := by
  unfold State.rxAck
  repeat' first
    | with_reducible assumption
    | with_reducible refine State.steady_dropPkt _ _ ?_
    | with_reducible refine State.steady_pktDone _ _ _ ?_
    | with_reducible refine State.steady_onFlow _ _ ?_
    | (intro _ _; try dsimp only)
    | dsimp only
    | split

theorem State.steady_sendAgain (a0 : Nat) (a1 : Unacked) (a2 : BitVec 16) (h : s.steady t) : s.steady (t.sendAgain a0 a1 a2) := by
  unfold State.sendAgain
  repeat' first
    | with_reducible assumption
    | ((with_reducible show State.steady _ (State.onPeer _ _)); refine State.steady_onPeer _ ?_)
    | with_reducible refine State.steady_transmit _ _ ?_
    | (intro _ _; try dsimp only)
    | dsimp only
    | split

theorem State.steady_failFlow (a0 : Nat) (h : s.steady t) : s.steady (t.failFlow a0) := by
  unfold State.failFlow
  repeat' first
    | with_reducible assumption
    | with_reducible refine State.steady_onFlow _ _ ?_
    | with_reducible refine State.steady_flag _ _ _ _ _ ?_
    | with_reducible refine State.steady_fault _ _ _ _ _ _ _ ?_
    | with_reducible refine State.steady_foldl _ _ ?_ ?_
    | with_reducible refine State.steady_pktFail _ _ _ _ ?_
    | with_reducible refine State.steady_foldl _ _ ?_ ?_
    | (intro _ _ _; try dsimp only)
    | (intro _ _; try dsimp only)
    | dsimp only
    | split

theorem State.steady_failDead (a0 : Nat) (h : s.steady t) : s.steady (t.failDead a0) := by
  unfold State.failDead
  repeat' first
    | with_reducible assumption
    | with_reducible refine State.steady_foldl _ _ ?_ ?_
    | with_reducible refine State.steady_pktFail _ _ _ _ ?_
    | with_reducible refine State.steady_onFlow _ _ ?_
    | with_reducible refine State.steady_allRoom ?_
    | with_reducible refine State.steady_foldl _ _ ?_ ?_
    | (intro _ _ _; try dsimp only)
    | (intro _ _; try dsimp only)
    | dsimp only
    | split

theorem State.steady_pumpFlows (h : s.steady t) : s.steady (t.pumpFlows) := by
  unfold State.pumpFlows
  repeat' first
    | with_reducible assumption
    | with_reducible refine State.steady_foldl _ _ ?_ ?_
    | with_reducible refine State.steady_failDead _ ?_
    | with_reducible refine State.steady_foldl _ _ ?_ ?_
    | (intro _ _ _; try dsimp only)
    | (intro _ _; try dsimp only)
    | dsimp only
    | split

theorem State.steady_clearUp (a0 : Nat) (a1 : Nat) (h : s.steady t) : s.steady (t.clearUp a0 a1) := by
  unfold State.clearUp
  repeat' first
    | with_reducible assumption
    | ((with_reducible show State.steady _ (State.onPeer _ _)); refine State.steady_onPeer _ ?_)
    | (intro _ _; try dsimp only)
    | dsimp only
    | split

theorem State.steady_failRoute (a0 : Nat) (a1 : Nat) (h : s.steady t) : s.steady (t.failRoute a0 a1) := by
  unfold State.failRoute
  repeat' first
    | with_reducible assumption
    | with_reducible refine State.steady_clearUp _ _ ?_
    | with_reducible refine State.steady_flag _ _ _ _ _ ?_
    | with_reducible refine State.steady_failFlow _ ?_
    | with_reducible refine State.steady_onFlow _ _ ?_
    | with_reducible refine State.steady_foldl _ _ ?_ ?_
    | with_reducible refine State.steady_sendAgain _ _ _ ?_
    | with_reducible refine State.steady_foldl _ _ ?_ ?_
    | (intro _ _ _; try dsimp only)
    | (intro _ _; try dsimp only)
    | dsimp only
    | split

theorem State.steady_resendPkt (a0 : Nat) (a1 : Nat) (a2 : BitVec 16) (h : s.steady t) : s.steady (t.resendPkt a0 a1 a2) := by
  unfold State.resendPkt
  repeat' first
    | with_reducible assumption
    | with_reducible refine State.steady_failRoute _ _ ?_
    | with_reducible refine State.steady_onFlow _ _ ?_
    | with_reducible refine State.steady_sendAgain _ _ _ ?_
    | (intro _ _; try dsimp only)
    | dsimp only
    | split

theorem State.steady_rxNack (a0 : PktHdr) (h : s.steady t) : s.steady (t.rxNack a0) := by
  unfold State.rxNack
  repeat' first
    | with_reducible assumption
    | with_reducible refine State.steady_resendPkt _ _ _ ?_
    | with_reducible refine State.steady_dropPkt _ _ ?_
    | with_reducible refine State.steady_pktFail _ _ _ _ ?_
    | dsimp only
    | split

theorem State.steady_portFalls (a0 : Nat) (h : s.steady t) : s.steady (t.portFalls a0) := by
  unfold State.portFalls
  repeat' first
    | with_reducible assumption
    | with_reducible refine State.steady_foldl _ _ ?_ ?_
    | with_reducible refine State.steady_failRoute _ _ ?_
    | ((with_reducible show State.steady _ (State.onPeer _ _)); refine State.steady_onPeer _ ?_)
    | with_reducible refine State.steady_foldl _ _ ?_ ?_
    | (intro _ _ _; try dsimp only)
    | (intro _ _; try dsimp only)
    | dsimp only
    | split

theorem State.steady_writeRoute (a0 : Word) (h : s.steady t) : s.steady (t.writeRoute a0) := by
  unfold State.writeRoute
  repeat' first
    | with_reducible assumption
    | ((with_reducible show State.steady _ (State.onPeer _ _)); refine State.steady_onPeer _ ?_)
    | with_reducible refine State.steady_failFlow _ ?_
    | with_reducible refine State.steady_onFlow _ _ ?_
    | with_reducible refine State.steady_allRoom ?_
    | (intro _ _; try dsimp only)
    | dsimp only
    | split

theorem State.steady_pwnFlag (a0 : Nat) (a1 : Nat) (h : s.steady t) : s.steady (t.pwnFlag a0 a1) := by
  unfold State.pwnFlag
  repeat' first
    | with_reducible assumption
    | with_reducible refine State.steady_flag _ _ _ _ _ ?_
    | dsimp only
    | split

theorem State.steady_writeOwin (a0 : Nat) (a1 : Nat) (a2 : Word) (h : s.steady t) : s.steady (t.writeOwin a0 a1 a2) := by
  unfold State.writeOwin
  repeat' first
    | with_reducible assumption
    | ((with_reducible show State.steady _ (State.onPeer _ _)); refine State.steady_onPeer _ ?_)
    | with_reducible refine State.steady_pwnFlag _ _ ?_
    | (intro _ _; try dsimp only)
    | dsimp only
    | split

theorem State.steady_writeIwin (a0 : Nat) (a1 : Nat) (a2 : Word) (h : s.steady t) : s.steady (t.writeIwin a0 a1 a2) := by
  unfold State.writeIwin
  repeat' first
    | with_reducible assumption
    | with_reducible refine State.steady_onIwin _ _ ?_
    | with_reducible refine State.steady_pwnFlag _ _ ?_
    | (intro _ _; try dsimp only)
    | dsimp only
    | split

theorem State.steady_iwinDrained (a0 : Nat) (h : s.steady t) : s.steady (t.iwinDrained a0) := by
  unfold State.iwinDrained
  repeat' first
    | with_reducible assumption
    | with_reducible refine State.steady_onIwin _ _ ?_
    | (intro _ _; try dsimp only)
    | dsimp only
    | split

theorem State.steady_closeWindows (a0 : Nat) (h : s.steady t) : s.steady (t.closeWindows a0) := by
  unfold State.closeWindows
  repeat' first
    | with_reducible assumption
    | with_reducible refine State.steady_foldl _ _ ?_ ?_
    | ((with_reducible show State.steady _ (State.onPeer _ _)); refine State.steady_onPeer _ ?_)
    | with_reducible refine State.steady_onIwin _ _ ?_
    | with_reducible refine State.steady_foldl _ _ ?_ ?_
    | (intro _ _ _; try dsimp only)
    | (intro _ _; try dsimp only)
    | dsimp only
    | split

theorem State.steady_broadcast (h : s.steady t) : s.steady (t.broadcast) := by
  unfold State.broadcast
  repeat' first
    | with_reducible assumption
    | with_reducible refine State.steady_foldl _ _ ?_ ?_
    | with_reducible refine State.steady_transmit _ _ ?_
    | with_reducible refine State.steady_foldl _ _ ?_ ?_
    | (intro _ _ _; try dsimp only)
    | (intro _ _; try dsimp only)
    | dsimp only
    | split

theorem State.steady_dropLate (a0 : Nat) (h : s.steady t) : s.steady (t.dropLate a0) := by
  unfold State.dropLate
  repeat' first
    | with_reducible assumption
    | with_reducible refine State.steady_withdrawWaits _ ?_
    | with_reducible refine State.steady_onEntry _ _ ?_
    | with_reducible refine State.steady_planFault _ _ _ _ _ _ ?_
    | with_reducible refine State.steady_chtFlag _ _ _ _ ?_
    | (intro _ _; try dsimp only)
    | dsimp only
    | split

theorem State.steady_missDeadline (a0 : Nat) (h : s.steady t) : s.steady (t.missDeadline a0) := by
  unfold State.missDeadline
  repeat' first
    | with_reducible assumption
    | with_reducible refine State.steady_onEntry _ _ ?_
    | with_reducible refine State.steady_onChtView _ _ ?_
    | with_reducible refine State.steady_planFault _ _ _ _ _ _ ?_
    | with_reducible refine State.steady_chtFlag _ _ _ _ ?_
    | (intro _ _; try dsimp only)
    | dsimp only
    | split

theorem State.steady_skipWindow (a0 : Nat) (h : s.steady t) : s.steady (t.skipWindow a0) := by
  unfold State.skipWindow
  repeat' first
    | with_reducible assumption
    | with_reducible refine State.steady_chtFlag _ _ _ _ ?_
    | with_reducible refine State.steady_missDeadline _ ?_
    | dsimp only
    | split

theorem State.steady_openWindow (a0 : Nat) (a1 : Nat) (h : s.steady t) : s.steady (t.openWindow a0 a1) := by
  unfold State.openWindow
  repeat' first
    | with_reducible assumption
    | with_reducible refine State.steady_ops _ _ ?_
    | with_reducible refine State.steady_dropLate _ ?_
    | with_reducible refine State.steady_onEntry _ _ ?_
    | with_reducible refine State.steady_setRow _ _ ?_
    | with_reducible refine State.steady_beginWait _ _ _ _ _ ?_
    | with_reducible refine State.steady_tryFire _ ?_
    | (intro _ _; try dsimp only)
    | dsimp only
    | split

theorem State.steady_closeWindow (a0 : Nat) (a1 : Nat) (a2 : Bool) (h : s.steady t) : s.steady (t.closeWindow a0 a1 a2) := by
  unfold State.closeWindow
  repeat' first
    | with_reducible assumption
    | with_reducible refine State.steady_ops _ _ ?_
    | with_reducible refine State.steady_setRow _ _ ?_
    | with_reducible refine State.steady_onEntry _ _ ?_
    | with_reducible refine State.steady_missDeadline _ ?_
    | (intro _ _; try dsimp only)
    | dsimp only
    | split

theorem State.steady_takeEvent (a0 : WinEvt) (h : s.steady t) : s.steady (t.takeEvent a0) := by
  unfold State.takeEvent
  repeat' first
    | with_reducible assumption
    | with_reducible refine State.steady_closeWindow _ _ _ ?_
    | with_reducible refine State.steady_skipWindow _ ?_
    | with_reducible refine State.steady_openWindow _ _ ?_
    | dsimp only
    | split

theorem State.steady_windowEvent (a0 : WinEvt) (h : s.steady t) : s.steady (t.windowEvent a0) := by
  unfold State.windowEvent
  repeat' first
    | with_reducible assumption
    | ((with_reducible show State.steady _ (State.onCht _ _)); refine State.steady_onCht _ ?_)
    | with_reducible refine State.steady_takeEvent _ ?_
    | with_reducible refine State.steady_due _ ?_
    | (intro _ _; try dsimp only)
    | dsimp only
    | split

theorem State.steady_moveDrone (a0 : Word) (a1 : Bool) (h : s.steady t) : s.steady (t.moveDrone a0 a1) := by
  unfold State.moveDrone
  repeat' first
    | with_reducible assumption
    | with_reducible refine State.steady_foldl _ _ ?_ ?_
    | with_reducible refine State.steady_windowEvent _ ?_
    | ((with_reducible show State.steady _ (State.onCht _ _)); refine State.steady_onCht _ ?_)
    | with_reducible refine State.steady_broadcast ?_
    | with_reducible refine State.steady_foldl _ _ ?_ ?_
    | (intro _ _ _; try dsimp only)
    | (intro _ _; try dsimp only)
    | dsimp only
    | split

theorem State.steady_adoptEvents (a0 : List Nat) (h : s.steady t) : s.steady (t.adoptEvents a0) := by
  unfold State.adoptEvents
  repeat' first
    | with_reducible assumption
    | with_reducible refine State.steady_due _ ?_
    | with_reducible refine State.steady_foldl _ _ ?_ ?_
    | with_reducible refine State.steady_windowEvent _ ?_
    | ((with_reducible show State.steady _ (State.onCht _ _)); refine State.steady_onCht _ ?_)
    | with_reducible refine State.steady_tryFire _ ?_
    | with_reducible refine State.steady_foldl _ _ ?_ ?_
    | (intro _ _ _; try dsimp only)
    | (intro _ _; try dsimp only)
    | dsimp only
    | split

theorem State.steady_catchWindow (a0 : Nat) (h : s.steady t) : s.steady (t.catchWindow a0) := by
  unfold State.catchWindow
  repeat' first
    | with_reducible assumption
    | with_reducible refine State.steady_openWindow _ _ ?_
    | ((with_reducible show State.steady _ (State.onCht _ _)); refine State.steady_onCht _ ?_)
    | with_reducible refine State.steady_due _ ?_
    | (intro _ _; try dsimp only)
    | dsimp only
    | split

theorem State.steady_catchWindows (h : s.steady t) : s.steady (t.catchWindows) := by
  unfold State.catchWindows
  repeat' first
    | with_reducible assumption
    | with_reducible refine State.steady_foldl _ _ ?_ ?_
    | with_reducible refine State.steady_catchWindow _ ?_
    | with_reducible refine State.steady_foldl _ _ ?_ ?_
    | (intro _ _ _; try dsimp only)
    | (intro _ _; try dsimp only)
    | dsimp only
    | split

theorem State.steady_clearOccurrence (a0 : Nat) (h : s.steady t) : s.steady (t.clearOccurrence a0) := by
  unfold State.clearOccurrence
  repeat' first
    | with_reducible assumption
    | with_reducible refine State.steady_endOccurrence _ ?_
    | with_reducible refine State.steady_onEntry _ _ ?_
    | (intro _ _; try dsimp only)
    | dsimp only
    | split

theorem State.steady_planArm (a0 : Nat) (a1 : Nat) (a2 : Bool) (h : s.steady t) : s.steady (t.planArm a0 a1 a2) := by
  unfold State.planArm
  repeat' first
    | with_reducible assumption
    | with_reducible refine State.steady_clearOccurrence _ ?_
    | with_reducible refine State.steady_armEntry _ _ _ _ ?_ ?_
    | with_reducible refine State.steady_catchWindow _ ?_
    | (intro _ _ _; try dsimp only)
    | (intro _ _; try dsimp only)
    | dsimp only
    | split

theorem State.steady_droneCode (a0 : Nat) (a1 : Code) (a2 : Word) (h : s.steady t) : s.steady (t.droneCode a0 a1 a2) := by
  unfold State.droneCode
  repeat' first
    | with_reducible assumption
    | with_reducible refine State.steady_foldl _ _ ?_ ?_
    | with_reducible refine State.steady_fault _ _ _ _ _ _ _ ?_
    | with_reducible refine State.steady_flag _ _ _ _ _ ?_
    | with_reducible refine State.steady_foldl _ _ ?_ ?_
    | (intro _ _ _; try dsimp only)
    | (intro _ _; try dsimp only)
    | dsimp only
    | split

theorem State.steady_judgeUpdate (a0 : Word) (h : s.steady t) : s.steady (t.judgeUpdate a0) := by
  unfold State.judgeUpdate
  repeat' first
    | with_reducible assumption
    | ((with_reducible show State.steady _ (State.onCht _ _)); refine State.steady_onCht _ ?_)
    | with_reducible refine State.steady_droneCode _ _ _ ?_
    | with_reducible refine State.steady_catchWindows ?_
    | with_reducible refine State.steady_moveDrone _ _ ?_
    | (intro _ _; try dsimp only)
    | dsimp only
    | split

theorem State.steady_update (a0 : Word) (h : s.steady t) : s.steady (t.update a0) := by
  unfold State.update
  repeat' first
    | with_reducible assumption
    | ((with_reducible show State.steady _ (State.onCht _ _)); refine State.steady_onCht _ ?_)
    | with_reducible refine State.steady_judgeUpdate _ ?_
    | (intro _ _; try dsimp only)
    | dsimp only
    | split

theorem State.steady_droneSet (a0 : Word) (h : s.steady t) : s.steady (t.droneSet a0) := by
  unfold State.droneSet
  repeat' first
    | with_reducible assumption
    | with_reducible refine State.steady_update _ ?_
    | dsimp only
    | split

theorem State.steady_pinEdge (a0 : Bool) (a1 : State → State) (h : s.steady t) (ha1 : ∀ t, s.steady t → s.steady (a1 t )) : s.steady (t.pinEdge a0 a1) := by
  unfold State.pinEdge
  repeat' first
    | with_reducible assumption
    | (with_reducible refine ha1 _ ?_)
    | with_reducible refine State.steady_flag _ _ _ _ _ ?_
    | with_reducible refine State.steady_draw ?_
    | with_reducible refine State.steady_snd (by with_reducible assumption) ?_
    | (intro _ _; try dsimp only)
    | dsimp only
    | split

theorem State.steady_pinUpdate (a0 : PinCycle → PinCycle) (h : s.steady t) : s.steady (t.pinUpdate a0) := by
  unfold State.pinUpdate
  repeat' first
    | with_reducible assumption
    | ((with_reducible show State.steady _ (State.onCht _ _)); refine State.steady_onCht _ ?_)
    | with_reducible refine State.steady_update _ ?_
    | (intro _ _; try dsimp only)
    | dsimp only
    | split

theorem State.steady_stepPin (h : s.steady t) : s.steady (t.stepPin) := by
  unfold State.stepPin
  repeat' first
    | with_reducible assumption
    | with_reducible refine State.steady_pinUpdate _ ?_
    | (intro _ _; try dsimp only)
    | dsimp only
    | split

theorem State.steady_tickPin (h : s.steady t) : s.steady (t.tickPin) := by
  unfold State.tickPin
  repeat' first
    | with_reducible assumption
    | with_reducible refine State.steady_pinUpdate _ ?_
    | (intro _ _; try dsimp only)
    | dsimp only
    | split

theorem State.steady_interpolate (a0 : Nat) (h : s.steady t) : s.steady (t.interpolate a0) := by
  unfold State.interpolate
  repeat' first
    | with_reducible assumption
    | ((with_reducible show State.steady _ (State.onCht _ _)); refine State.steady_onCht _ ?_)
    | with_reducible refine State.steady_moveDrone _ _ ?_
    | (intro _ _; try dsimp only)
    | dsimp only
    | split

theorem State.steady_droneLoss (h : s.steady t) : s.steady (t.droneLoss) := by
  unfold State.droneLoss
  repeat' first
    | with_reducible assumption
    | ((with_reducible show State.steady _ (State.onCht _ _)); refine State.steady_onCht _ ?_)
    | with_reducible refine State.steady_droneCode _ _ _ ?_
    | (intro _ _; try dsimp only)
    | dsimp only
    | split

theorem State.steady_rebase (h : s.steady t) : s.steady (t.rebase) := by
  unfold State.rebase
  repeat' first
    | with_reducible assumption
    | with_reducible refine State.steady_foldl _ _ ?_ ?_
    | with_reducible refine State.steady_clearOccurrence _ ?_
    | ((with_reducible show State.steady _ (State.onCht _ _)); refine State.steady_onCht _ ?_)
    | with_reducible refine State.steady_catchWindows ?_
    | with_reducible refine State.steady_broadcast ?_
    | with_reducible refine State.steady_foldl _ _ ?_ ?_
    | (intro _ _ _; try dsimp only)
    | (intro _ _; try dsimp only)
    | dsimp only
    | split

theorem State.steady_onSlipWaits (a0 : WRec → WRec) (h : s.steady t) : s.steady (t.onSlipWaits a0) := by
  unfold State.onSlipWaits
  repeat' first
    | with_reducible assumption
    | with_reducible refine State.steady_foldl _ _ ?_ ?_
    | with_reducible refine State.steady_setWrec _ _ ?_
    | with_reducible refine State.steady_foldl _ _ ?_ ?_
    | (intro _ _ _; try dsimp only)
    | (intro _ _; try dsimp only)
    | dsimp only
    | split

theorem State.steady_extendWaits (h : s.steady t) : s.steady (t.extendWaits) := by
  unfold State.extendWaits
  repeat' first
    | with_reducible assumption
    | with_reducible refine State.steady_onSlipWaits _ ?_
    | (intro _ _; try dsimp only)
    | dsimp only
    | split

theorem State.steady_followSlip (h : s.steady t) : s.steady (t.followSlip) := by
  unfold State.followSlip
  repeat' first
    | with_reducible assumption
    | ((with_reducible show State.steady _ (State.onSyn _ _)); refine State.steady_onSyn _ ?_)
    | with_reducible refine State.steady_onSlipWaits _ ?_
    | with_reducible refine State.steady_extendWaits ?_
    | (intro _ _; try dsimp only)
    | dsimp only
    | split

theorem State.steady_slipExpire (h : s.steady t) : s.steady (t.slipExpire) := by
  unfold State.slipExpire
  repeat' first
    | with_reducible assumption
    | with_reducible refine State.steady_extendWaits ?_
    | ((with_reducible show State.steady _ (State.onSyn _ _)); refine State.steady_onSyn _ ?_)
    | with_reducible refine State.steady_flag _ _ _ _ _ ?_
    | (intro _ _; try dsimp only)
    | dsimp only
    | split

theorem State.steady_endHold (h : s.steady t) : s.steady (t.endHold) := by
  unfold State.endHold
  repeat' first
    | with_reducible assumption
    | ((with_reducible show State.steady _ (State.onCht _ _)); refine State.steady_onCht _ ?_)
    | with_reducible refine State.steady_judgeUpdate _ ?_
    | with_reducible refine State.steady_followSlip ?_
    | (intro _ _; try dsimp only)
    | dsimp only
    | split

theorem State.steady_slipFrom (a0 : Nat) (h : s.steady t) : s.steady (t.slipFrom a0) := by
  unfold State.slipFrom
  repeat' first
    | with_reducible assumption
    | ((with_reducible show State.steady _ (State.onCht _ _)); refine State.steady_onCht _ ?_)
    | with_reducible refine State.steady_followSlip ?_
    | (intro _ _; try dsimp only)
    | dsimp only
    | split

theorem State.steady_slipEndFrom (a0 : Nat) (h : s.steady t) : s.steady (t.slipEndFrom a0) := by
  unfold State.slipEndFrom
  repeat' first
    | with_reducible assumption
    | ((with_reducible show State.steady _ (State.onCht _ _)); refine State.steady_onCht _ ?_)
    | with_reducible refine State.steady_endHold ?_
    | (intro _ _; try dsimp only)
    | dsimp only
    | split

theorem State.steady_slipLimit (h : s.steady t) : s.steady (t.slipLimit) := by
  unfold State.slipLimit
  repeat' first
    | with_reducible assumption
    | ((with_reducible show State.steady _ (State.onCht _ _)); refine State.steady_onCht _ ?_)
    | with_reducible refine State.steady_endHold ?_
    | (intro _ _; try dsimp only)
    | dsimp only
    | split

theorem State.steady_rxSlip (a0 : PktHdr) (a1 : State → State) (h : s.steady t) (ha1 : ∀ (x0 : State), s.steady x0 → s.steady (a1 x0)) :
    s.steady (t.rxSlip a0 a1) := by
  unfold State.rxSlip
  refine State.steady_sequenced _ _ _ h fun x hx => ?_
  have key := State.steady_rxOpen a0 hx
  dsimp only
  generalize x.rxOpen a0 = y at key ⊢
  have hd : s.steady ((y.onPeer fun q => { q with dup := satInc q.dup }).respond a0 4 1 0) := by
    refine State.steady_respond _ _ _ _ ?_
    exact State.steady_onPeer _ key
  have hf : s.steady (a1 ((y.onRxPkt a0.srcChip.toNat a0.psn.toNat fun p => { p with mask := 1 }).respond a0 4 1 0)) :=
    ha1 _ (State.steady_respond _ _ _ _ (State.steady_onRxPkt _ _ _ key))
  split <;> split <;> assumption

theorem State.steady_sendSlip (a0 : Bool) (h : s.steady t) : s.steady (t.sendSlip a0) := by
  unfold State.sendSlip
  repeat' first
    | with_reducible assumption
    | ((with_reducible show State.steady _ (State.onPeer _ _)); refine State.steady_onPeer _ ?_)
    | with_reducible refine State.steady_slipEndFrom _ ?_
    | with_reducible refine State.steady_slipFrom _ ?_
    | with_reducible refine State.steady_sendPkt _ _ _ _ _ ?_
    | with_reducible refine State.steady_notice _ _ _ _ _ _ _ _ _ _ ?_
    | (intro _ _; try dsimp only)
    | dsimp only
    | split

theorem State.steady_thermalOn (a0 : Nat) (h : s.steady t) : s.steady (t.thermalOn a0) := by
  unfold State.thermalOn
  repeat' first
    | with_reducible assumption
    | ((with_reducible show State.steady _ (State.onSkk _ _)); refine State.steady_onSkk _ ?_)
    | with_reducible refine State.steady_flag _ _ _ _ _ ?_
    | with_reducible refine State.steady_thermalFrames _ ?_
    | with_reducible refine State.steady_sendSlip _ ?_
    | with_reducible refine State.steady_followSlip ?_
    | (intro _ _; try dsimp only)
    | dsimp only
    | split

theorem State.steady_thermalOff (a0 : Nat) (h : s.steady t) : s.steady (t.thermalOff a0) := by
  unfold State.thermalOff
  repeat' first
    | with_reducible assumption
    | ((with_reducible show State.steady _ (State.onSkk _ _)); refine State.steady_onSkk _ ?_)
    | with_reducible refine State.steady_sendSlip _ ?_
    | with_reducible refine State.steady_followSlip ?_
    | (intro _ _; try dsimp only)
    | dsimp only
    | split

theorem State.steady_rxDrone (a0 : PktHdr) (h : s.steady t) : s.steady (t.rxDrone a0) := by
  unfold State.rxDrone
  repeat' first
    | with_reducible assumption
    | with_reducible refine State.steady_flag _ _ _ _ _ ?_
    | with_reducible refine State.steady_foldl _ _ ?_ ?_
    | with_reducible refine State.steady_transmit _ _ ?_
    | ((with_reducible show State.steady _ (State.onCht _ _)); refine State.steady_onCht _ ?_)
    | with_reducible refine State.steady_followSlip ?_
    | with_reducible refine State.steady_update _ ?_
    | with_reducible refine State.steady_foldl _ _ ?_ ?_
    | (intro _ _ _; try dsimp only)
    | (intro _ _; try dsimp only)
    | dsimp only
    | split

theorem State.steady_planPulse (a0 : BitVec 32) (h : s.steady t) : s.steady (t.planPulse a0) := by
  unfold State.planPulse
  repeat' first
    | with_reducible assumption
    | ((with_reducible show State.steady _ (State.onCht _ _)); refine State.steady_onCht _ ?_)
    | with_reducible refine State.steady_onEntry _ _ ?_
    | with_reducible refine State.steady_tryFire _ ?_
    | with_reducible refine State.steady_onChtView _ _ ?_
    | (intro _ _; try dsimp only)
    | dsimp only
    | split

theorem State.steady_loadResult (a0 : Nat) (a1 : BitVec 3) (a2 : Option (BitVec 32)) (h : s.steady t) : s.steady (t.loadResult a0 a1 a2) := by
  unfold State.loadResult
  repeat' first
    | with_reducible assumption
    | with_reducible refine State.steady_onChtView _ _ ?_
    | (intro _ _; try dsimp only)
    | dsimp only
    | split

theorem State.steady_placeImage (a0 : Nat) (a1 : PlanImage) (a2 : Nat) (h : s.steady t) : s.steady (t.placeImage a0 a1 a2) := by
  unfold State.placeImage
  repeat' first
    | with_reducible assumption
    | with_reducible refine State.steady_foldl _ _ ?_ ?_
    | with_reducible refine State.steady_onEntry _ _ ?_
    | ((with_reducible show State.steady _ (State.onCht _ _)); refine State.steady_onCht _ ?_)
    | with_reducible refine State.steady_bytes _ _ ?_
    | with_reducible refine State.steady_resolve _ ?_
    | with_reducible refine State.steady_onChtView _ _ ?_
    | with_reducible refine State.steady_foldl _ _ ?_ ?_
    | (intro _ _ _; try dsimp only)
    | (intro _ _; try dsimp only)
    | dsimp only
    | split

theorem State.steady_pumpLoad (a0 : Nat) (h : s.steady t) : s.steady (t.pumpLoad a0) := by
  unfold State.pumpLoad
  repeat' first
    | with_reducible assumption
    | with_reducible refine State.steady_loadResult _ _ _ ?_
    | dsimp only
    | split

theorem State.steady_pumpLoads (h : s.steady t) : s.steady (t.pumpLoads) := by
  unfold State.pumpLoads
  repeat' first
    | with_reducible assumption
    | with_reducible refine State.steady_view _ _ ?_ ?_
    | with_reducible refine State.steady_foldl _ _ ?_ ?_
    | with_reducible refine State.steady_pumpLoad _ ?_
    | with_reducible refine State.steady_foldl _ _ ?_ ?_
    | (intro _ _ _; try dsimp only)
    | (intro _ _; try dsimp only)
    | dsimp only
    | split

theorem State.steady_imageAsk (a0 : Nat) (a1 : Bool) (a2 : Nat) (a3 : Word) (h : s.steady t) : s.steady (t.imageAsk a0 a1 a2 a3) := by
  unfold State.imageAsk
  repeat' first
    | with_reducible assumption
    | with_reducible refine State.steady_forPart _ _ _ ?_ ?_
    | with_reducible refine State.steady_unitRead _ _ _ ?_
    | (intro _ _; try dsimp only)
    | dsimp only
    | split

theorem State.steady_imageEnd (a0 : Nat) (a1 : Bool) (h : s.steady t) : s.steady (t.imageEnd a0 a1) := by
  unfold State.imageEnd
  repeat' first
    | with_reducible assumption
    | with_reducible refine State.steady_onChtView _ _ ?_
    | (intro _ _; try dsimp only)
    | dsimp only
    | split

theorem State.steady_imageNext (a0 : Nat) (h : s.steady t) : s.steady (t.imageNext a0) := by
  unfold State.imageNext
  repeat' first
    | with_reducible assumption
    | with_reducible refine State.steady_imageAsk _ _ _ _ ?_
    | with_reducible refine State.steady_imageEnd _ _ ?_
    | dsimp only
    | split

theorem State.steady_imageLine (a0 : Nat) (a1 : Bool) (a2 : Nat) (a3 : Code) (a4 : Granule) (h : s.steady t) : s.steady (t.imageLine a0 a1 a2 a3 a4) := by
  unfold State.imageLine
  repeat' first
    | with_reducible assumption
    | with_reducible refine State.steady_imageEnd _ _ ?_
    | with_reducible refine State.steady_onChtView _ _ ?_
    | with_reducible refine State.steady_imageNext _ ?_
    | (intro _ _; try dsimp only)
    | dsimp only
    | split

theorem State.steady_imageRead (a0 : Nat) (h : s.steady t) : s.steady (t.imageRead a0) := by
  unfold State.imageRead
  repeat' first
    | with_reducible assumption
    | with_reducible refine State.steady_loadResult _ _ _ ?_
    | with_reducible refine State.steady_placeImage _ _ _ ?_
    | dsimp only
    | split

theorem State.steady_planLoad (a0 : Nat) (h : s.steady t) : s.steady (t.planLoad a0) := by
  unfold State.planLoad
  repeat' first
    | with_reducible assumption
    | with_reducible refine State.steady_flag _ _ _ _ _ ?_
    | with_reducible refine State.steady_loadResult _ _ _ ?_
    | with_reducible refine State.steady_onChtView _ _ ?_
    | with_reducible refine State.steady_imageNext _ ?_
    | (intro _ _; try dsimp only)
    | dsimp only
    | split

theorem State.steady_freePlan (a0 : Nat) (h : s.steady t) : s.steady (t.freePlan a0) := by
  unfold State.freePlan
  repeat' first
    | with_reducible assumption
    | with_reducible refine State.steady_endOccurrence _ ?_
    | with_reducible refine State.steady_dropResolve _ ?_
    | with_reducible refine State.steady_onEntry _ _ ?_
    | (intro _ _; try dsimp only)
    | dsimp only
    | split

theorem State.steady_freeImageRows (h : s.steady t) : s.steady (t.freeImageRows) := by
  unfold State.freeImageRows
  repeat' first
    | with_reducible assumption
    | ((with_reducible show State.steady _ (State.onCht _ _)); refine State.steady_onCht _ ?_)
    | (intro _ _; try dsimp only)
    | dsimp only
    | split

theorem State.steady_freeEntries (a0 : List Nat) (h : s.steady t) : s.steady (t.freeEntries a0) := by
  unfold State.freeEntries
  repeat' first
    | with_reducible assumption
    | with_reducible refine State.steady_foldl _ _ ?_ ?_
    | with_reducible refine State.steady_freePlan _ ?_
    | with_reducible refine State.steady_freeImageRows ?_
    | with_reducible refine State.steady_foldl _ _ ?_ ?_
    | (intro _ _ _; try dsimp only)
    | (intro _ _; try dsimp only)
    | dsimp only
    | split

theorem State.steady_planFree (a0 : Nat) (a1 : BitVec 32) (a2 : Nat) (h : s.steady t) : s.steady (t.planFree a0 a1 a2) := by
  unfold State.planFree
  repeat' first
    | with_reducible assumption
    | with_reducible refine State.steady_flag _ _ _ _ _ ?_
    | with_reducible refine State.steady_loadResult _ _ _ ?_
    | with_reducible refine State.steady_freeEntries _ ?_
    | (intro _ _; try dsimp only)
    | dsimp only
    | split

theorem State.steady_dispatch (a0 : Nat) (a1 : Nat) (a2 : State → Cmd → State) (h : s.steady t) (ha2 : ∀ t x0, s.steady t → s.steady (a2 t x0)) : s.steady (t.dispatch a0 a1 a2) := by
  unfold State.dispatch
  repeat' first
    | with_reducible assumption
    | (with_reducible refine ha2 _ _ ?_)
    | with_reducible refine State.steady_haltFetch _ ?_
    | (intro _ _; try dsimp only)
    | dsimp only
    | split

theorem State.steady_dispatchNop (a0 : Nat) (a1 : Cmd) (h : s.steady t) : s.steady (t.dispatchNop a0 a1) := by
  unfold State.dispatchNop
  repeat' first
    | with_reducible assumption
    | with_reducible refine State.steady_markDispatched _ _ _ ?_
    | with_reducible refine State.steady_completeCmd _ _ ?_
    | dsimp only
    | split

theorem State.steady_dispatchFence (a0 : Nat) (a1 : Cmd) (h : s.steady t) : s.steady (t.dispatchFence a0 a1) := by
  unfold State.dispatchFence
  repeat' first
    | with_reducible assumption
    | with_reducible refine State.steady_markDispatched _ _ _ ?_
    | dsimp only
    | split

theorem State.steady_dispatchAtomic (a0 : Nat) (a1 : Cmd) (h : s.steady t) : s.steady (t.dispatchAtomic a0 a1) := by
  unfold State.dispatchAtomic
  repeat' first
    | with_reducible assumption
    | with_reducible refine State.steady_markDispatched _ _ _ ?_
    | (intro _ _; try dsimp only)
    | dsimp only
    | split

theorem State.steady_dispatchArm (a0 : Nat) (a1 : Cmd) (h : s.steady t) : s.steady (t.dispatchArm a0 a1) := by
  unfold State.dispatchArm
  repeat' first
    | with_reducible assumption
    | with_reducible refine State.steady_foldl _ _ ?_ ?_
    | with_reducible refine State.steady_planArm _ _ _ ?_
    | with_reducible refine State.steady_markDispatched _ _ _ ?_
    | with_reducible refine State.steady_completeCmd _ _ ?_
    | with_reducible refine State.steady_foldl _ _ ?_ ?_
    | (intro _ _ _; try dsimp only)
    | (intro _ _; try dsimp only)
    | dsimp only
    | split

theorem State.steady_dispatchAs (a0 : Nat) (a1 : Cmd) (h : s.steady t) : s.steady (t.dispatchAs a0 a1) := by
  unfold State.dispatchAs
  repeat' first
    | with_reducible assumption
    | with_reducible refine State.steady_dispatchFence _ _ ?_
    | with_reducible refine State.steady_dispatchSignal _ _ ?_
    | with_reducible refine State.steady_dispatchWait _ _ ?_
    | with_reducible refine State.steady_dispatchAtomic _ _ ?_
    | with_reducible refine State.steady_dispatchNop _ _ ?_
    | with_reducible refine State.steady_dispatchHint _ _ ?_
    | with_reducible refine State.steady_dispatchArm _ _ ?_
    | with_reducible refine State.steady_dispatchData _ _ ?_
    | dsimp only
    | split

theorem State.steady_dispatchReady (a0 : Nat) (n : Nat) (h : s.steady t) : s.steady (t.dispatchReady a0 n) := by
  induction n generalizing t with
  | zero => exact h
  | succ n ih =>
    unfold State.dispatchReady
    repeat' first
      | with_reducible assumption
      | with_reducible refine ih ?_
      | with_reducible refine State.steady_dispatchAs _ _ ?_
      | dsimp only
      | split

theorem State.steady_settleReject (a0 : Nat) (h : s.steady t) : s.steady (t.settleReject a0) := by
  unfold State.settleReject
  repeat' first
    | with_reducible assumption
    | with_reducible refine State.steady_reject _ _ _ _ ?_
    | with_reducible refine State.steady_dispatchReady _ _ ?_
    | with_reducible refine State.steady_haltReject _ _ ?_
    | dsimp only
    | split

theorem State.steady_killFetch (a0 : Nat) (h : s.steady t) : s.steady (t.killFetch a0) := by
  unfold State.killFetch
  repeat' first
    | with_reducible assumption
    | with_reducible refine State.steady_xltKill _ _ _ _ _ _ ?_
    | dsimp only
    | split

theorem State.steady_settleFetches (h : s.steady t) : s.steady (t.settleFetches) := by
  unfold State.settleFetches
  repeat' first
    | with_reducible assumption
    | with_reducible refine State.steady_foldl _ _ ?_ ?_
    | with_reducible refine State.steady_settleReject _ ?_
    | with_reducible refine State.steady_killFetch _ ?_
    | with_reducible refine State.steady_foldl _ _ ?_ ?_
    | (intro _ _ _; try dsimp only)
    | (intro _ _; try dsimp only)
    | dsimp only
    | split

theorem State.steady_prtFlag (a0 : Nat) (h : s.steady t) : s.steady (t.prtFlag a0) := by
  unfold State.prtFlag
  repeat' first
    | with_reducible assumption
    | with_reducible refine State.steady_flag _ _ _ _ _ ?_
    | dsimp only
    | split

theorem State.steady_zeroUnits (us : List Nat) (h : s.steady t) : s.steady (t.zeroUnits us) := by
  refine State.steady_onMov _ h (h2 := fun hw => ?_)
  simp only [Mov.wf, Bool.and_eq_true] at hw ⊢
  have := tabWf_filter _ hw.1.2 (fun c => !us.contains (c.1 / 65536))
  simp_all [Memory.wf]

theorem State.steady_clearArea (a0 : Nat) (h : s.steady t) : s.steady (t.clearArea a0) := by
  unfold State.clearArea
  repeat' first
    | with_reducible assumption
    | with_reducible refine State.steady_zeroUnits _ ?_
    | with_reducible refine State.steady_onArea _ _ ?_
    | (intro _ _; try dsimp only)
    | dsimp only
    | split

theorem State.steady_resetEvents (a0 : Nat) (h : s.steady t) : s.steady (t.resetEvents a0) := by
  unfold State.resetEvents
  repeat' first
    | with_reducible assumption
    | with_reducible refine State.steady_foldl _ _ ?_ ?_
    | with_reducible refine State.steady_onSrc _ _ ?_
    | with_reducible refine State.steady_onTgt _ _ ?_
    | with_reducible refine State.steady_refresh _ ?_
    | with_reducible refine State.steady_foldl _ _ ?_ ?_
    | (intro _ _ _; try dsimp only)
    | (intro _ _; try dsimp only)
    | dsimp only
    | split

theorem State.steady_freshCredits (a0 : Nat) (h : s.steady t) : s.steady (t.freshCredits a0) := by
  unfold State.freshCredits
  repeat' first
    | with_reducible assumption
    | ((with_reducible show State.steady _ (State.onMov _ _)); refine State.steady_onMov _ ?_)
    | (intro _ _; try dsimp only)
    | dsimp only
    | split

theorem State.steady_abandonPending (a0 : Nat) (h : s.steady t) : s.steady (t.abandonPending a0) := by
  unfold State.abandonPending
  repeat' first
    | with_reducible assumption
    | ((with_reducible show State.steady _ (State.onXlt _ _)); refine State.steady_onXlt _ ?_)
    | ((with_reducible show State.steady _ (State.onSkk _ _)); refine State.steady_onSkk _ ?_)
    | (intro _ _; try dsimp only)
    | dsimp only
    | split

theorem State.steady_retireAll (a0 : Nat) (h : s.steady t) : s.steady (t.retireAll a0) := by
  unfold State.retireAll
  repeat' first
    | with_reducible assumption
    | with_reducible refine State.steady_foldl _ _ ?_ ?_
    | with_reducible refine State.steady_retireChannel _ ?_
    | with_reducible refine State.steady_foldl _ _ ?_ ?_
    | (intro _ _ _; try dsimp only)
    | (intro _ _; try dsimp only)
    | dsimp only
    | split

theorem State.steady_startClose (a0 : Nat) (h : s.steady t) : s.steady (t.startClose a0) := by
  unfold State.startClose
  repeat' first
    | with_reducible assumption
    | ((with_reducible show State.steady _ (State.onPart _ _ _)); refine State.steady_onPart _ _ ?_)
    | with_reducible refine State.steady_retireAll _ ?_
    | (intro _ _; try dsimp only)
    | dsimp only
    | split

theorem State.steady_recallAllOf (a0 : Nat) (h : s.steady t) : s.steady (t.recallAllOf a0) := by
  unfold State.recallAllOf
  repeat' first
    | with_reducible assumption
    | with_reducible refine State.steady_foldl _ _ ?_ ?_
    | with_reducible refine State.steady_beginRecall _ ?_
    | with_reducible refine State.steady_foldl _ _ ?_ ?_
    | (intro _ _ _; try dsimp only)
    | (intro _ _; try dsimp only)
    | dsimp only
    | split

theorem State.steady_dropResources (a0 : Nat) (h : s.steady t) : s.steady (t.dropResources a0) := by
  unfold State.dropResources
  repeat' first
    | with_reducible assumption
    | with_reducible refine State.steady_foldl _ _ ?_ ?_
    | with_reducible refine State.steady_destroyObj _ ?_
    | with_reducible refine State.steady_freeEntries _ ?_
    | with_reducible refine State.steady_closeWindows _ ?_
    | ((with_reducible show State.steady _ (State.onSkk _ _)); refine State.steady_onSkk _ ?_)
    | with_reducible refine State.steady_abandonPending _ ?_
    | with_reducible refine State.steady_foldl _ _ ?_ ?_
    | (intro _ _ _; try dsimp only)
    | (intro _ _; try dsimp only)
    | dsimp only
    | split

theorem State.steady_unbindAll (a0 : Nat) (h : s.steady t) : s.steady (t.unbindAll a0) := by
  unfold State.unbindAll
  repeat' first
    | with_reducible assumption
    | with_reducible refine State.steady_foldl _ _ ?_ ?_
    | with_reducible refine State.steady_closeBinding _ ?_
    | with_reducible refine State.steady_internalInv _ _ _ _ _ ?_
    | with_reducible refine State.steady_foldl _ _ ?_ ?_
    | (intro _ _ _; try dsimp only)
    | (intro _ _; try dsimp only)
    | dsimp only
    | split

theorem State.steady_lastSteps (a0 : Nat) (h : s.steady t) : s.steady (t.lastSteps a0) := by
  unfold State.lastSteps
  repeat' first
    | with_reducible assumption
    | with_reducible refine State.steady_clearArea _ ?_
    | with_reducible refine State.steady_freshCredits _ ?_
    | with_reducible refine State.steady_closeQueue _ _ ?_
    | with_reducible refine State.steady_resetEvents _ ?_
    | dsimp only
    | split

theorem State.steady_closeStep (a0 : Nat) (h : s.steady t) : s.steady (t.closeStep a0) := by
  unfold State.closeStep
  repeat' first
    | with_reducible assumption
    | ((with_reducible show State.steady _ (State.onPart _ _ _)); refine State.steady_onPart _ _ ?_)
    | with_reducible refine State.steady_dropResources _ ?_
    | with_reducible refine State.steady_retireAll _ ?_
    | with_reducible refine State.steady_unbindAll _ ?_
    | with_reducible refine State.steady_recallAllOf _ ?_
    | with_reducible refine State.steady_dropInv _ ?_
    | ((with_reducible show State.steady _ (State.onXlt _ _)); refine State.steady_onXlt _ ?_)
    | with_reducible refine State.steady_lastSteps _ ?_
    | (intro _ _; try dsimp only)
    | dsimp only
    | split

theorem State.steady_pumpParts (h : s.steady t) : s.steady (t.pumpParts) := by
  unfold State.pumpParts
  repeat' first
    | with_reducible assumption
    | with_reducible refine State.steady_foldl _ _ ?_ ?_
    | with_reducible refine State.steady_closeStep _ ?_
    | with_reducible refine State.steady_foldl _ _ ?_ ?_
    | (intro _ _ _; try dsimp only)
    | (intro _ _; try dsimp only)
    | dsimp only
    | split

theorem State.steady_trimWays (a0 : Nat) (h : s.steady t) : s.steady (t.trimWays a0) := by
  unfold State.trimWays
  repeat' first
    | with_reducible assumption
    | ((with_reducible show State.steady _ (State.onXlt _ _)); refine State.steady_onXlt _ ?_)
    | (intro _ _; try dsimp only)
    | dsimp only
    | split

theorem State.steady_capRecord (a0 : Nat) (a1 : Code) (a2 : Nat) (a3 : Nat) (a4 : BitVec 32) (a5 : Nat) (a6 : Nat) (a7 : Nat) (a8 : Word) (a9 : BitVec 32) (a10 : Word) (h : s.steady t) : s.steady (t.capRecord a0 a1 a2 a3 a4 a5 a6 a7 a8 a9 a10) := by
  unfold State.capRecord
  repeat' first
    | with_reducible assumption
    | with_reducible refine State.steady_fault _ _ _ _ _ _ _ ?_
    | dsimp only
    | split

theorem State.steady_reclaimChannels (a0 : Nat) (a1 : Word) (h : s.steady t) : s.steady (t.reclaimChannels a0 a1) := by
  unfold State.reclaimChannels
  repeat' first
    | with_reducible assumption
    | with_reducible refine State.steady_foldl _ _ ?_ ?_
    | with_reducible refine State.steady_killChannel _ _ _ _ ?_
    | with_reducible refine State.steady_capRecord _ _ _ _ _ _ _ _ _ _ _ ?_
    | with_reducible refine State.steady_foldl _ _ ?_ ?_
    | (intro _ _ _; try dsimp only)
    | (intro _ _; try dsimp only)
    | dsimp only
    | split

theorem State.steady_requeue (a0 : Nat) (a1 : Bool) (h : s.steady t) : s.steady (t.requeue a0 a1) := by
  unfold State.requeue
  repeat' first
    | with_reducible assumption
    | with_reducible refine State.steady_onWork _ _ ?_
    | with_reducible refine State.steady_stopJob _ _ ?_
    | with_reducible refine State.steady_resumeBulk _ ?_
    | (intro _ _; try dsimp only)
    | dsimp only
    | split

theorem State.steady_reclaimMovers (a0 : Nat) (a1 : Word) (h : s.steady t) : s.steady (t.reclaimMovers a0 a1) := by
  unfold State.reclaimMovers
  repeat' first
    | with_reducible assumption
    | with_reducible refine State.steady_foldl _ _ ?_ ?_
    | with_reducible refine State.steady_requeue _ _ ?_
    | with_reducible refine State.steady_capRecord _ _ _ _ _ _ _ _ _ _ _ ?_
    | with_reducible refine State.steady_foldl _ _ ?_ ?_
    | (intro _ _ _; try dsimp only)
    | (intro _ _; try dsimp only)
    | dsimp only
    | split

theorem State.steady_reclaimObjects (a0 : Nat) (a1 : Word) (h : s.steady t) : s.steady (t.reclaimObjects a0 a1) := by
  unfold State.reclaimObjects
  repeat' first
    | with_reducible assumption
    | with_reducible refine State.steady_foldl _ _ ?_ ?_
    | with_reducible refine State.steady_destroyObj _ ?_
    | with_reducible refine State.steady_capRecord _ _ _ _ _ _ _ _ _ _ _ ?_
    | with_reducible refine State.steady_foldl _ _ ?_ ?_
    | (intro _ _ _; try dsimp only)
    | (intro _ _; try dsimp only)
    | dsimp only
    | split

theorem State.steady_freeNewest (a0 : Nat) (a1 : Word) (h : s.steady t) : s.steady (t.freeNewest a0 a1) := by
  unfold State.freeNewest
  repeat' first
    | with_reducible assumption
    | with_reducible refine State.steady_foldl _ _ ?_ ?_
    | with_reducible refine State.steady_freeEntries _ ?_
    | with_reducible refine State.steady_capRecord _ _ _ _ _ _ _ _ _ _ _ ?_
    | with_reducible refine State.steady_foldl _ _ ?_ ?_
    | (intro _ _ _; try dsimp only)
    | (intro _ _; try dsimp only)
    | dsimp only
    | split

theorem State.steady_reclaimPlans (a0 : Nat) (a1 : Word) (n : Nat) (h : s.steady t) : s.steady (t.reclaimPlans a0 a1 n) := by
  induction n generalizing t with
  | zero => exact h
  | succ n ih =>
    unfold State.reclaimPlans
    repeat' first
      | with_reducible assumption
      | with_reducible refine ih ?_
      | with_reducible refine State.steady_freeNewest _ _ ?_
      | dsimp only
      | split

theorem State.steady_unassign (a0 : Nat) (h : s.steady t) : s.steady (t.unassign a0) := by
  unfold State.unassign
  repeat' first
    | with_reducible assumption
    | with_reducible refine State.steady_foldl _ _ ?_ ?_
    | with_reducible refine State.steady_onSrc _ _ ?_
    | with_reducible refine State.steady_onTgt _ _ ?_
    | with_reducible refine State.steady_refresh _ ?_
    | with_reducible refine State.steady_foldl _ _ ?_ ?_
    | (intro _ _ _; try dsimp only)
    | (intro _ _; try dsimp only)
    | dsimp only
    | split

theorem State.steady_reclaimTargets (a0 : Nat) (a1 : Word) (h : s.steady t) : s.steady (t.reclaimTargets a0 a1) := by
  unfold State.reclaimTargets
  repeat' first
    | with_reducible assumption
    | with_reducible refine State.steady_foldl _ _ ?_ ?_
    | with_reducible refine State.steady_unassign _ ?_
    | with_reducible refine State.steady_capRecord _ _ _ _ _ _ _ _ _ _ _ ?_
    | with_reducible refine State.steady_foldl _ _ ?_ ?_
    | (intro _ _ _; try dsimp only)
    | (intro _ _; try dsimp only)
    | dsimp only
    | split

theorem State.steady_twnFlag (a0 : Nat) (h : s.steady t) : s.steady (t.twnFlag a0) := by
  unfold State.twnFlag
  repeat' first
    | with_reducible assumption
    | with_reducible refine State.steady_flag _ _ _ _ _ ?_
    | dsimp only
    | split

theorem State.steady_setEngine (a0 : Engine) (a1 : EngineSt) (h : s.steady t) : s.steady (t.setEngine a0 a1) := by
  unfold State.setEngine
  repeat' first
    | with_reducible assumption
    | ((with_reducible show State.steady _ (State.onTwn _ _)); refine State.steady_onTwn _ ?_)
    | (intro _ _; try dsimp only)
    | dsimp only
    | split

theorem State.steady_fenceWalks (a0 : Engine) (h : s.steady t) : s.steady (t.fenceWalks a0) := by
  unfold State.fenceWalks
  repeat' first
    | with_reducible assumption
    | with_reducible refine State.steady_onMissQ _ _ ?_
    | ((with_reducible show State.steady _ (State.onXlt _ _)); refine State.steady_onXlt _ ?_)
    | with_reducible refine State.steady_foldl _ _ ?_ ?_
    | with_reducible refine State.steady_ask _ ?_
    | with_reducible refine State.steady_foldl _ _ ?_ ?_
    | (intro _ _ _; try dsimp only)
    | (intro _ _; try dsimp only)
    | dsimp only
    | split

theorem State.steady_stopAll (h : s.steady t) : s.steady (t.stopAll) := by
  unfold State.stopAll
  repeat' first
    | with_reducible assumption
    | with_reducible refine State.steady_foldl _ _ ?_ ?_
    | with_reducible refine State.steady_onJob _ _ _ ?_
    | with_reducible refine State.steady_foldl _ _ ?_ ?_
    | (intro _ _ _; try dsimp only)
    | (intro _ _; try dsimp only)
    | dsimp only
    | split

theorem State.steady_beginFailover (a0 : Engine) (a1 : Bool) (h : s.steady t) : s.steady (t.beginFailover a0 a1) := by
  unfold State.beginFailover
  repeat' first
    | with_reducible assumption
    | with_reducible refine State.steady_setEngine _ _ ?_
    | ((with_reducible show State.steady _ (State.onTwn _ _)); refine State.steady_onTwn _ ?_)
    | with_reducible refine State.steady_twnFlag _ ?_
    | with_reducible refine State.steady_fenceWalks _ ?_
    | (intro _ _; try dsimp only)
    | dsimp only
    | split

theorem State.steady_declareFailed (a0 : Engine) (a1 : Bool) (h : s.steady t) : s.steady (t.declareFailed a0 a1) := by
  unfold State.declareFailed
  repeat' first
    | with_reducible assumption
    | with_reducible refine State.steady_setEngine _ _ ?_
    | with_reducible refine State.steady_beginFailover _ _ ?_
    | ((with_reducible show State.steady _ (State.onTwn _ _)); refine State.steady_onTwn _ ?_)
    | with_reducible refine State.steady_twnFlag _ ?_
    | with_reducible refine State.steady_fenceWalks _ ?_
    | with_reducible refine State.steady_hubFatal ?_
    | with_reducible refine State.steady_stopAll ?_
    | (intro _ _; try dsimp only)
    | dsimp only
    | split

theorem State.steady_quiesceExpired (h : s.steady t) : s.steady (t.quiesceExpired) := by
  unfold State.quiesceExpired
  repeat' first
    | with_reducible assumption
    | ((with_reducible show State.steady _ (State.onTwn _ _)); refine State.steady_onTwn _ ?_)
    | (intro _ _; try dsimp only)
    | dsimp only
    | split

theorem State.steady_orphanJob (a0 : Nat) (a1 : Bool) (h : s.steady t) : s.steady (t.orphanJob a0 a1) := by
  unfold State.orphanJob
  repeat' first
    | with_reducible assumption
    | with_reducible refine State.steady_onWork _ _ ?_
    | with_reducible refine State.steady_stopJob _ _ ?_
    | (intro _ _; try dsimp only)
    | dsimp only
    | split

theorem State.steady_adoptPlan (a0 : Nat) (h : s.steady t) : s.steady (t.adoptPlan a0) := by
  unfold State.adoptPlan
  repeat' first
    | with_reducible assumption
    | with_reducible refine State.steady_onEntry _ _ ?_
    | (intro _ _; try dsimp only)
    | dsimp only
    | split

theorem State.steady_moveRec (a0 : Engine) (a1 : Nat) (h : s.steady t) : s.steady (t.moveRec a0 a1) := by
  unfold State.moveRec
  repeat' first
    | with_reducible assumption
    | with_reducible refine State.steady_setWrec _ _ ?_
    | with_reducible refine State.steady_onObj _ _ ?_
    | with_reducible refine State.steady_unlink _ ?_
    | with_reducible refine State.steady_waitEnds _ _ _ ?_
    | (intro _ _; try dsimp only)
    | dsimp only
    | split

theorem State.steady_moveRecs (a0 : Engine) (h : s.steady t) : s.steady (t.moveRecs a0) := by
  unfold State.moveRecs
  repeat' first
    | with_reducible assumption
    | with_reducible refine State.steady_foldl _ _ ?_ ?_
    | with_reducible refine State.steady_moveRec _ _ ?_
    | ((with_reducible show State.steady _ (State.onSyn _ _)); refine State.steady_onSyn _ ?_)
    | with_reducible refine State.steady_foldl _ _ ?_ ?_
    | (intro _ _ _; try dsimp only)
    | (intro _ _; try dsimp only)
    | dsimp only
    | split

theorem State.steady_clearEngine (a0 : Engine) (h : s.steady t) : s.steady (t.clearEngine a0) := by
  unfold State.clearEngine
  repeat' first
    | with_reducible assumption
    | ((with_reducible show State.steady _ (State.onMov _ _)); refine State.steady_onMov _ ?_)
    | with_reducible refine State.steady_setEngine _ _ ?_
    | (intro _ _; try dsimp only)
    | dsimp only
    | split

theorem State.steady_endFailover (h : s.steady t) : s.steady (t.endFailover) := by
  unfold State.endFailover
  repeat' first
    | with_reducible assumption
    | with_reducible refine State.steady_foldl _ _ ?_ ?_
    | with_reducible refine State.steady_capRecord _ _ _ _ _ _ _ _ _ _ _ ?_
    | with_reducible refine State.steady_clearEngine _ ?_
    | ((with_reducible show State.steady _ (State.onTwn _ _)); refine State.steady_onTwn _ ?_)
    | with_reducible refine State.steady_foldl _ _ ?_ ?_
    | (intro _ _ _; try dsimp only)
    | (intro _ _; try dsimp only)
    | dsimp only
    | split

theorem State.steady_quiesceDone (h : s.steady t) : s.steady (t.quiesceDone) := by
  unfold State.quiesceDone
  repeat' first
    | with_reducible assumption
    | with_reducible refine State.steady_foldl _ _ ?_ ?_
    | with_reducible refine State.steady_orphanJob _ _ ?_
    | ((with_reducible show State.steady _ (State.onXlt _ _)); refine State.steady_onXlt _ ?_)
    | with_reducible refine State.steady_onChan _ _ ?_
    | with_reducible refine State.steady_adoptPlan _ ?_
    | with_reducible refine State.steady_adoptEvents _ ?_
    | with_reducible refine State.steady_moveRecs _ ?_
    | ((with_reducible show State.steady _ (State.onTwn _ _)); refine State.steady_onTwn _ ?_)
    | with_reducible refine State.steady_endFailover ?_
    | with_reducible refine State.steady_foldl _ _ ?_ ?_
    | (intro _ _ _; try dsimp only)
    | (intro _ _; try dsimp only)
    | dsimp only
    | split

theorem State.steady_dropFences (a0 : Nat) (h : s.steady t) : s.steady (t.dropFences a0) := by
  unfold State.dropFences
  repeat' first
    | with_reducible assumption
    | ((with_reducible show State.steady _ (State.onHlk _ _)); refine State.steady_onHlk _ ?_)
    | (intro _ _; try dsimp only)
    | dsimp only
    | split

theorem State.steady_unsafeRecord (a0 : Nat) (a1 : Cmd) (h : s.steady t) : s.steady (t.unsafeRecord a0 a1) := by
  unfold State.unsafeRecord
  repeat' first
    | with_reducible assumption
    | with_reducible refine State.steady_capRecord _ _ _ _ _ _ _ _ _ _ _ ?_
    | dsimp only
    | split

theorem State.steady_adoptWork (a0 : Nat) (h : s.steady t) : s.steady (t.adoptWork a0) := by
  unfold State.adoptWork
  repeat' first
    | with_reducible assumption
    | with_reducible refine State.steady_dropFences _ ?_
    | with_reducible refine State.steady_withdraw _ ?_
    | with_reducible refine State.steady_setChan _ _ ?_
    | with_reducible refine State.steady_foldl _ _ ?_ ?_
    | with_reducible refine State.steady_unsafeRecord _ _ ?_
    | with_reducible refine State.steady_startFetch _ ?_
    | with_reducible refine State.steady_activate _ ?_
    | with_reducible refine State.steady_haltError _ _ _ _ ?_
    | with_reducible refine State.steady_afterInflight _ ?_
    | with_reducible refine State.steady_foldl _ _ ?_ ?_
    | (intro _ _ _; try dsimp only)
    | (intro _ _; try dsimp only)
    | dsimp only
    | split

theorem State.steady_haltLate (a0 : Nat) (h : s.steady t) : s.steady (t.haltLate a0) := by
  unfold State.haltLate
  repeat' first
    | with_reducible assumption
    | with_reducible refine State.steady_dropFences _ ?_
    | with_reducible refine State.steady_withdrawWaits _ ?_
    | with_reducible refine State.steady_endCmds _ _ ?_
    | with_reducible refine State.steady_haltError _ _ _ _ ?_
    | with_reducible refine State.steady_snd (by with_reducible assumption) ?_
    | (intro _ _; try dsimp only)
    | dsimp only
    | split

theorem State.steady_adoptNext (h : s.steady t) : s.steady (t.adoptNext) := by
  unfold State.adoptNext
  repeat' first
    | with_reducible assumption
    | ((with_reducible show State.steady _ (State.onTwn _ _)); refine State.steady_onTwn _ ?_)
    | with_reducible refine State.steady_onChan _ _ ?_
    | with_reducible refine State.steady_haltLate _ ?_
    | with_reducible refine State.steady_adoptWork _ ?_
    | with_reducible refine State.steady_endFailover ?_
    | (intro _ _; try dsimp only)
    | dsimp only
    | split

theorem State.steady_writeSolo (a0 : Engine) (h : s.steady t) : s.steady (t.writeSolo a0) := by
  unfold State.writeSolo
  repeat' first
    | with_reducible assumption
    | ((with_reducible show State.steady _ (State.onTwn _ _)); refine State.steady_onTwn _ ?_)
    | (intro _ _; try dsimp only)
    | dsimp only
    | split

theorem State.steady_withdrawn (h : s.steady t) : s.steady (t.withdrawn) := by
  unfold State.withdrawn
  repeat' first
    | with_reducible assumption
    | with_reducible refine State.steady_declareFailed _ _ ?_
    | dsimp only
    | split

theorem State.steady_writeShared (h : s.steady t) : s.steady (t.writeShared) := by
  unfold State.writeShared
  repeat' first
    | with_reducible assumption
    | with_reducible refine State.steady_setEngine _ _ ?_
    | ((with_reducible show State.steady _ (State.onTwn _ _)); refine State.steady_onTwn _ ?_)
    | with_reducible refine State.steady_twnFlag _ ?_
    | (intro _ _; try dsimp only)
    | dsimp only
    | split

theorem State.steady_resetEngine (a0 : Engine) (h : s.steady t) : s.steady (t.resetEngine a0) := by
  unfold State.resetEngine
  repeat' first
    | with_reducible assumption
    | with_reducible refine State.steady_declareFailed _ _ ?_
    | with_reducible refine State.steady_twnFlag _ ?_
    | ((with_reducible show State.steady _ (State.onTwn _ _)); refine State.steady_onTwn _ ?_)
    | with_reducible refine State.steady_clearEngine _ ?_
    | (intro _ _; try dsimp only)
    | dsimp only
    | split

theorem State.steady_engineReady (a0 : Engine) (a1 : Bool) (h : s.steady t) : s.steady (t.engineReady a0 a1) := by
  unfold State.engineReady
  repeat' first
    | with_reducible assumption
    | with_reducible refine State.steady_setEngine _ _ ?_
    | dsimp only
    | split

theorem State.steady_twinError (h : s.steady t) : s.steady (t.twinError) := by
  unfold State.twinError
  repeat' first
    | with_reducible assumption
    | with_reducible refine State.steady_mirror ?_
    | with_reducible refine State.steady_twnFlag _ ?_
    | dsimp only
    | split

theorem State.steady_hlkFlag (a0 : Nat) (a1 : Code) (h : s.steady t) : s.steady (t.hlkFlag a0 a1) := by
  unfold State.hlkFlag
  repeat' first
    | with_reducible assumption
    | with_reducible refine State.steady_flag _ _ _ _ _ ?_
    | dsimp only
    | split

theorem State.steady_fenceFails (a0 : Nat) (a1 : Nat) (a2 : Code) (h : s.steady t) : s.steady (t.fenceFails a0 a1 a2) := by
  unfold State.fenceFails
  repeat' first
    | with_reducible assumption
    | with_reducible refine State.steady_haltError _ _ _ _ ?_
    | with_reducible refine State.steady_afterInflight _ ?_
    | dsimp only
    | split

theorem State.steady_npAnswer (a0 : NpReq) (a1 : Code) (a2 : Bool) (h : s.steady t) : s.steady (t.npAnswer a0 a1 a2) := by
  unfold State.npAnswer
  repeat' first
    | with_reducible assumption
    | with_reducible refine State.steady_fenceFails _ _ _ ?_
    | with_reducible refine State.steady_onChan _ _ ?_
    | with_reducible refine State.steady_jobBack _ _ _ _ ?_
    | ((with_reducible show State.steady _ (State.onMov _ _)); refine State.steady_onMov _ ?_)
    | (intro _ _; try dsimp only)
    | dsimp only
    | split

theorem State.steady_npDrop (a0 : Nat) (a1 : Nat) (h : s.steady t) : s.steady (t.npDrop a0 a1) := by
  unfold State.npDrop
  repeat' first
    | with_reducible assumption
    | ((with_reducible show State.steady _ (State.onHlk _ _)); refine State.steady_onHlk _ ?_)
    | (intro _ _; try dsimp only)
    | dsimp only
    | split

theorem State.steady_completion (a0 : Nat) (a1 : Nat) (a2 : Bool) (a3 : Bool) (h : s.steady t) : s.steady (t.completion a0 a1 a2 a3) := by
  unfold State.completion
  repeat' first
    | with_reducible assumption
    | ((with_reducible show State.steady _ (State.onHlk _ _)); refine State.steady_onHlk _ ?_)
    | with_reducible refine State.steady_hlkFlag _ _ ?_
    | with_reducible refine State.steady_aerAt _ _ _ _ ?_
    | with_reducible refine State.steady_npDrop _ _ ?_
    | with_reducible refine State.steady_npAnswer _ _ _ ?_
    | (intro _ _; try dsimp only)
    | dsimp only
    | split

theorem State.steady_completionTimeout (a0 : Nat) (a1 : Nat) (h : s.steady t) : s.steady (t.completionTimeout a0 a1) := by
  unfold State.completionTimeout
  repeat' first
    | with_reducible assumption
    | with_reducible refine State.steady_npDrop _ _ ?_
    | ((with_reducible show State.steady _ (State.onHlk _ _)); refine State.steady_onHlk _ ?_)
    | with_reducible refine State.steady_hlkFlag _ _ ?_
    | with_reducible refine State.steady_aerAt _ _ _ _ ?_
    | with_reducible refine State.steady_npAnswer _ _ _ ?_
    | (intro _ _; try dsimp only)
    | dsimp only
    | split

theorem State.steady_silence (p : Nat) (h : s.steady t) : s.steady (t.silence p) := by
  unfold State.silence
  extract_lets s0 late fences s1 s2 jobs s3 rings s4 reading s5 read s6 s7
  have h0 : s.steady s0 := by
    refine State.steady_onMov _ (State.steady_onHome _ ?_)
    split
    · exact State.steady_hlkFlag _ _ h
    · exact h
  have h1 : s.steady s1 := by
    clear_value s0; refine State.steady_onHlk _ h0 fun _ => ?_
    exact Hlk.same_refl _
  clear_value fences s1
  have h2 : s.steady s2 := State.steady_foldl _ _ h1 fun x b hx => by
    split
    · exact State.steady_fenceFails _ _ _ hx
    · exact hx
  clear_value s2 jobs
  have h3 : s.steady s3 := State.steady_foldl _ _ h2 fun x b hx => by
    split
    · exact State.steady_failWork _ _ hx
    · exact hx
  clear_value s3 rings
  have h4 : s.steady s4 := State.steady_foldl _ _ h3 fun x b hx =>
    State.steady_foldl _ _ hx fun y c hy => State.steady_slotArrived _ _ _ _ _ hy
  clear_value s4 reading
  have h5 : s.steady s5 := State.steady_foldl _ _ h4 fun x b hx => by
    split
    · split
      · exact State.steady_walkBlocked _ _ _ hx
      · exact hx
    · exact hx
  clear_value s5 read
  have h6 : s.steady s6 := by
    unfold s6; split
    · exact State.steady_xltFlag _ _ (State.steady_onXlt _ h5)
    · exact h5
  clear_value s6
  have h7 : s.steady s7 := by
    unfold s7; split
    · exact State.steady_mgmtLost _ h6
    · exact State.steady_mgmtLost _ h6
    · exact h6
  clear_value s7
  split
  · exact State.steady_loadResult _ _ _ h7
  · exact h7

theorem State.steady_unsilence (a0 : Nat) (h : s.steady t) : s.steady (t.unsilence a0) := by
  unfold State.unsilence
  repeat' first
    | with_reducible assumption
    | with_reducible refine State.steady_msixRetry _ ?_
    | with_reducible refine State.steady_pump _ _ ?_
    | dsimp only
    | split

theorem State.steady_reconfig (a0 : State → State) (h : s.steady t) (ha0 : ∀ t, s.steady t → s.steady (a0 t )) : s.steady (t.reconfig a0) := by
  unfold State.reconfig
  repeat' first
    | with_reducible assumption
    | (with_reducible refine ha0 _ ?_)
    | with_reducible refine State.steady_foldl _ _ ?_ ?_
    | with_reducible refine State.steady_silence _ ?_
    | with_reducible refine State.steady_unsilence _ ?_
    | with_reducible refine State.steady_ltrSince _ ?_
    | with_reducible refine State.steady_foldl _ _ ?_ ?_
    | (intro _ _ _; try dsimp only)
    | (intro _ _; try dsimp only)
    | dsimp only
    | split

theorem State.steady_cacheWbInv (h : s.steady t) : s.steady (t.cacheWbInv) := by
  unfold State.cacheWbInv
  repeat' first
    | with_reducible assumption
    | ((with_reducible show State.steady _ (State.onHlk _ _)); refine State.steady_onHlk _ ?_)
    | with_reducible refine State.steady_recallAll ?_
    | (intro _ _; try dsimp only)
    | dsimp only
    | split

theorem State.steady_enter (a0 : PwrSt) (a1 : PwrSt) (a2 : State → State) (h : s.steady t) (ha2 : ∀ t, s.steady t → s.steady (a2 t )) : s.steady (t.enter a0 a1 a2) := by
  unfold State.enter
  repeat' first
    | with_reducible assumption
    | (with_reducible refine ha2 _ ?_)
    | ((with_reducible show State.steady _ (State.onPwr _ _)); refine State.steady_onPwr _ ?_)
    | with_reducible refine State.steady_ops _ _ ?_
    | (intro _ _; try dsimp only)
    | dsimp only
    | split

theorem State.steady_doze (h : s.steady t) : s.steady (t.doze) := State.steady_enter _ _ _ h fun _ h => h

theorem State.steady_flushEfts (h : s.steady t) : s.steady (t.flushEfts) := by
  unfold State.flushEfts
  repeat' first
    | with_reducible assumption
    | with_reducible refine State.steady_foldl _ _ ?_ ?_
    | with_reducible refine State.steady_eftDrop _ _ ?_
    | with_reducible refine State.steady_foldl _ _ ?_ ?_
    | (intro _ _ _; try dsimp only)
    | (intro _ _; try dsimp only)
    | dsimp only
    | split

theorem State.steady_nap (h : s.steady t) : s.steady (t.nap) := by
  unfold State.nap
  repeat' first
    | with_reducible assumption
    | with_reducible refine State.steady_enter _ _ _ ?_ ?_
    | with_reducible refine State.steady_doze ?_
    | with_reducible refine State.steady_flushEfts ?_
    | (intro _ _ _; try dsimp only)
    | (intro _ _; try dsimp only)
    | dsimp only
    | split

theorem State.steady_dropContexts (h : s.steady t) : s.steady (t.dropContexts) := by
  unfold State.dropContexts
  repeat' first
    | with_reducible assumption
    | with_reducible refine State.steady_foldl _ _ ?_ ?_
    | with_reducible refine State.steady_onChan _ _ ?_
    | with_reducible refine State.steady_writeContext _ ?_
    | with_reducible refine State.steady_foldl _ _ ?_ ?_
    | (intro _ _ _; try dsimp only)
    | (intro _ _; try dsimp only)
    | dsimp only
    | split

theorem State.steady_hibernate (h : s.steady t) : s.steady (t.hibernate) := by
  unfold State.hibernate
  repeat' first
    | with_reducible assumption
    | with_reducible refine State.steady_nap ?_
    | with_reducible refine State.steady_enter _ _ _ ?_ ?_
    | with_reducible refine State.steady_dropContexts ?_
    | ((with_reducible show State.steady _ (State.onPwr _ _)); refine State.steady_onPwr _ ?_)
    | with_reducible refine State.steady_recallAll ?_
    | (intro _ _ _; try dsimp only)
    | (intro _ _; try dsimp only)
    | dsimp only
    | split

theorem State.steady_pumpPower (h : s.steady t) : s.steady (t.pumpPower) := by
  unfold State.pumpPower
  repeat' first
    | with_reducible assumption
    | with_reducible refine State.steady_awake ?_
    | with_reducible refine State.steady_hibernate ?_
    | dsimp only
    | split

theorem State.steady_raiseWake (a0 : WakeCond) (h : s.steady t) : s.steady (t.raiseWake a0) := by
  unfold State.raiseWake
  repeat' first
    | with_reducible assumption
    | ((with_reducible show State.steady _ (State.onPwr _ _)); refine State.steady_onPwr _ ?_)
    | (intro _ _; try dsimp only)
    | dsimp only
    | split

theorem State.steady_bootSettle (h : s.steady t) : s.steady (t.bootSettle) := by
  unfold State.bootSettle
  repeat' first
    | with_reducible assumption
    | with_reducible refine State.steady_foldl _ _ ?_ ?_
    | with_reducible refine State.steady_emit _ ?_
    | ((with_reducible show State.steady _ (State.onPwr _ _)); refine State.steady_onPwr _ ?_)
    | with_reducible refine State.steady_foldl _ _ ?_ ?_
    | (intro _ _ _; try dsimp only)
    | (intro _ _; try dsimp only)
    | dsimp only
    | split

theorem State.steady_bootWrote (h : s.steady t) : s.steady (t.bootWrote) := by
  unfold State.bootWrote
  repeat' first
    | with_reducible assumption
    | ((with_reducible show State.steady _ (State.onPwr _ _)); refine State.steady_onPwr _ ?_)
    | with_reducible refine State.steady_bootSettle ?_
    | (intro _ _; try dsimp only)
    | dsimp only
    | split

theorem State.steady_bootClose (h : s.steady t) : s.steady (t.bootClose) := by
  unfold State.bootClose
  repeat' first
    | with_reducible assumption
    | ((with_reducible show State.steady _ (State.onPwr _ _)); refine State.steady_onPwr _ ?_)
    | with_reducible refine State.steady_bootSettle ?_
    | (intro _ _; try dsimp only)
    | dsimp only
    | split

theorem State.steady_bootDoorbell (h : s.steady t) : s.steady (t.bootDoorbell) := by
  unfold State.bootDoorbell
  repeat' first
    | with_reducible assumption
    | ((with_reducible show State.steady _ (State.onPwr _ _)); refine State.steady_onPwr _ ?_)
    | with_reducible refine State.steady_bootSettle ?_
    | (intro _ _; try dsimp only)
    | dsimp only
    | split

theorem State.steady_unitRetired (a0 : Nat) (h : s.steady t) : s.steady (t.unitRetired a0) := by
  unfold State.unitRetired
  repeat' first
    | with_reducible assumption
    | with_reducible refine State.steady_retire _ ?_
    | with_reducible refine State.steady_flag _ _ _ _ _ ?_
    | dsimp only
    | split

theorem State.steady_redoJob (a0 : Nat) (a1 : Bool) (h : s.steady t) : s.steady (t.redoJob a0 a1) := by
  unfold State.redoJob
  repeat' first
    | with_reducible assumption
    | with_reducible refine State.steady_failWork _ _ ?_
    | with_reducible refine State.steady_requeue _ _ ?_
    | dsimp only
    | split

theorem State.steady_retireMover (m : Nat) (h : s.steady t) : s.steady (t.retireMover m) := by
  unfold State.retireMover
  split
  · exact h
  · extract_lets spare s1 s2
    have h1 : s.steady s1 := State.steady_redoJob _ _ (State.steady_redoJob _ _ h)
    clear_value s1
    have h2 : s.steady s2 := by
      unfold s2
      split
      · exact h1
      · exact State.steady_onRas _ h1
    clear_value s2
    refine State.steady_unitRetired _ (State.steady_onMov _ h2 (h1 := ?_) (h2 := ?_))
    · repeat' first
        | exact ⟨rfl, rfl, rfl, rfl⟩
        | split
    · repeat' first
        | exact id
        | split

theorem State.steady_reroot (a0 : Nat) (a1 : Option Nat) (h : s.steady t) : s.steady (t.reroot a0 a1) := by
  unfold State.reroot
  repeat' first
    | with_reducible assumption
    | with_reducible refine State.steady_foldl _ _ ?_ ?_
    | with_reducible refine State.steady_ask _ ?_
    | with_reducible refine State.steady_setWalker _ _ ?_
    | with_reducible refine State.steady_foldl _ _ ?_ ?_
    | (intro _ _ _; try dsimp only)
    | (intro _ _; try dsimp only)
    | dsimp only
    | split

theorem State.steady_retireWalker (w : Nat) (h : s.steady t) : s.steady (t.retireWalker w) := by
  unfold State.retireWalker
  split
  · exact h
  · refine State.steady_unitRetired _ (State.steady_onRas _ (State.steady_reroot _ _ h) (h1 := ?_) (h2 := ?_))
    · repeat' first
        | exact ⟨rfl, rfl, rfl, rfl, rfl, rfl, rfl, rfl, rfl⟩
        | split
    · repeat' first
        | exact id
        | split

theorem State.steady_repairAsk (a0 : Nat) (h : s.steady t) : s.steady (t.repairAsk a0) := by
  unfold State.repairAsk
  repeat' first
    | with_reducible assumption
    | with_reducible refine State.steady_forPart _ _ _ ?_ ?_
    | with_reducible refine State.steady_unitRead _ _ _ ?_
    | (intro _ _; try dsimp only)
    | dsimp only
    | split

theorem State.steady_repairLine (a0 : Nat) (a1 : Code) (a2 : Granule) (h : s.steady t) : s.steady (t.repairLine a0 a1 a2) := by
  unfold State.repairLine
  repeat' first
    | with_reducible assumption
    | ((with_reducible show State.steady _ (State.onRas _ _)); refine State.steady_onRas _ ?_)
    | with_reducible refine State.steady_repairAsk _ ?_
    | (intro _ _; try dsimp only)
    | dsimp only
    | split

theorem State.steady_unitAnswer (a0 : UnitFor) (a1 : Code) (a2 : Granule) (a3 : Bool) (h : s.steady t) : s.steady (t.unitAnswer a0 a1 a2 a3) := by
  unfold State.unitAnswer
  repeat' first
    | with_reducible assumption
    | with_reducible refine State.steady_jobData _ _ _ _ _ _ _ ?_
    | with_reducible refine State.steady_jobWrote _ _ _ _ _ ?_
    | with_reducible refine State.steady_jobBack _ _ _ _ ?_
    | with_reducible refine State.steady_jobAtomic _ _ _ _ _ _ ?_
    | with_reducible refine State.steady_walkUpdated _ _ _ _ ?_
    | with_reducible refine State.steady_invResult _ _ _ _ _ _ _ ?_
    | with_reducible refine State.steady_invResulted _ _ _ ?_
    | with_reducible refine State.steady_imageLine _ _ _ _ _ ?_
    | with_reducible refine State.steady_repairLine _ _ _ ?_
    | with_reducible refine State.steady_entryLine _ _ _ _ ?_
    | with_reducible refine State.steady_copyRead _ _ _ ?_
    | with_reducible refine State.steady_placeSwapped _ _ _ _ ?_
    | with_reducible refine State.steady_recallSwapped _ _ _ _ ?_
    | with_reducible refine State.steady_recallWrote _ _ ?_
    | with_reducible refine State.steady_releaseLine _ _ _ _ ?_
    | dsimp only
    | split

theorem State.steady_delivered (a0 : UnitFor × Code × Granule × Bool) (h : s.steady t) : s.steady (t.delivered a0) := by
  unfold State.delivered
  repeat' first
    | with_reducible assumption
    | ((with_reducible show State.steady _ (State.onHome _ _)); refine State.steady_onHome _ ?_)
    | ((with_reducible show State.steady _ (State.onHlk _ _)); refine State.steady_onHlk _ ?_)
    | with_reducible refine State.steady_unitAnswer _ _ _ _ ?_
    | (intro _ _; try dsimp only)
    | dsimp only
    | split

theorem State.steady_rxPacket (a0 : Packet) (h : s.steady t) : s.steady (t.rxPacket a0) := by
  unfold State.rxPacket
  repeat' first
    | with_reducible assumption
    | with_reducible refine State.steady_pktHead _ _ _ ?_ ?_
    | with_reducible refine State.steady_rxData _ _ ?_
    | with_reducible refine State.steady_rxSignal _ ?_
    | with_reducible refine State.steady_rxAck _ ?_
    | with_reducible refine State.steady_rxNack _ ?_
    | with_reducible refine State.steady_rxDrone _ ?_
    | with_reducible refine State.steady_rxSlip _ _ ?_ ?_
    | with_reducible refine State.steady_slipFrom _ ?_
    | with_reducible refine State.steady_slipEndFrom _ ?_
    | (intro _ _; try dsimp only)
    | dsimp only
    | split

theorem State.steady_flowOnce (h : s.steady t) : ∀ v, t.flowOnce = some v → s.steady v := by
  intro v hv
  unfold State.flowOnce at hv
  split at hv
  · injection hv with hv; subst hv
    exact State.steady_delivered _ h
  · split at hv
    · injection hv with hv; subst hv; exact State.steady_wakeLocks h
    · split at hv
      · injection hv with hv; subst hv; exact State.steady_inboundXlt _ _ _ (State.steady_onXlt _ h)
      · split at hv
        · injection hv with hv; subst hv; exact State.steady_rxPacket _ (State.steady_onPeer _ h)
        · cases hv

theorem State.steady_flowFor (n : Nat) (h : s.steady t) : s.steady (t.flowFor n) := by
  induction n generalizing t with
  | zero => exact h
  | succ n ih =>
    unfold State.flowFor
    split
    · exact h
    · next v hv => exact ih (State.steady_flowOnce h v hv)

theorem State.steady_pumpFences (h : s.steady t) : s.steady (t.pumpFences) := by
  unfold State.pumpFences
  repeat' first
    | with_reducible assumption
    | with_reducible refine State.steady_foldl _ _ ?_ ?_
    | with_reducible refine State.steady_pumpFence _ ?_
    | with_reducible refine State.steady_foldl _ _ ?_ ?_
    | (intro _ _ _; try dsimp only)
    | (intro _ _; try dsimp only)
    | dsimp only
    | split

theorem State.steady_pumpStrays (h : s.steady t) : s.steady (t.pumpStrays) := by
  unfold State.pumpStrays
  repeat' first
    | with_reducible assumption
    | with_reducible refine State.steady_foldl _ _ ?_ ?_
    | with_reducible refine State.steady_zeroRead _ _ _ _ ?_
    | with_reducible refine State.steady_zeroReadD _ _ _ _ ?_
    | with_reducible refine State.steady_zeroRead _ _ _ _ ?_ _ (by with_reducible assumption)
    | ((with_reducible show State.steady _ (State.onMov _ _)); refine State.steady_onMov _ ?_)
    | with_reducible refine State.steady_foldl _ _ ?_ ?_
    | (intro _ _ _; try dsimp only)
    | (intro _ _; try dsimp only)
    | (intro hx; cases hx)
    | dsimp only
    | split

theorem State.steady_runOn (h : s.steady t) : s.steady (t.runOn) := by
  unfold State.runOn
  repeat' first
    | with_reducible assumption
    | with_reducible refine State.steady_flowFor _ ?_
    | with_reducible refine State.steady_settleFetches ?_
    | with_reducible refine State.steady_pumpFlows ?_
    | with_reducible refine State.steady_pumpFences ?_
    | with_reducible refine State.steady_pumpLoads ?_
    | with_reducible refine State.steady_pumpStrays ?_
    | with_reducible refine State.steady_pumpParts ?_
    | with_reducible refine State.steady_pumpDrain ?_
    | with_reducible refine State.steady_pumpPower ?_
    | with_reducible refine State.steady_settleArbs ?_
    | dsimp only
    | split

/-- A credit of the hub is spent. -/
theorem State.steady_spend (k : Nat) (h : s.steady t) : s.steady (t.onNoc fun n => n.spend t.glb.time k) := by
  refine State.steady_onNoc _ h (h2 := fun hw => ?_)
  simp only [Noc.wf, Noc.spend, Bool.and_eq_true] at hw ⊢
  refine ⟨hw.1, tabWf_tabMod _ ?_ _ _⟩
  split
  · exact hw.2
  · rfl

theorem State.steady_nocIn (a0 : Nat) (a1 : NocClass) (a2 : State → State) (h : s.steady t) (ha2 : ∀ t, s.steady t → s.steady (a2 t )) : s.steady (t.nocIn a0 a1 a2) := by
  unfold State.nocIn
  split
  · exact ha2 _ (State.steady_spend _ h)
  · exact State.steady_portProtocol _ h

theorem State.steady_arrives (a0 : State → State) (h : s.steady t) (ha0 : ∀ t, s.steady t → s.steady (a0 t )) : s.steady (t.arrives a0) := by
  unfold State.arrives
  repeat' first
    | with_reducible assumption
    | (with_reducible refine ha0 _ ?_)
    | with_reducible refine State.steady_act _ ?_ ?_
    | with_reducible refine State.steady_runOn ?_
    | (intro _ _; try dsimp only)
    | dsimp only
    | split

theorem State.steady_answered (a0 : State → State) (h : s.steady t) (ha0 : ∀ t, s.steady t → s.steady (a0 t )) : s.steady (t.answered a0) := by
  unfold State.answered
  repeat' first
    | with_reducible assumption
    | (with_reducible refine ha0 _ ?_)
    | with_reducible refine State.steady_actAnswer _ ?_ ?_
    | with_reducible refine State.steady_runOn ?_
    | (intro _ _; try dsimp only)
    | dsimp only
    | split

theorem State.steady_onPage (a0 : Nat) (a1 : State → State) (h : s.steady t) (ha1 : ∀ t, s.steady t → s.steady (a1 t )) : s.steady (t.onPage a0 a1) := by
  unfold State.onPage
  repeat' first
    | with_reducible assumption
    | (with_reducible refine ha1 _ ?_)
    | with_reducible refine State.steady_paged _ _ ?_ ?_
    | with_reducible refine State.steady_runOn ?_
    | (intro _ _; try dsimp only)
    | dsimp only
    | split

theorem State.steady_readPage (a0 : Nat) (a1 : State → Word × State) (h : s.steady t) (ha1 : ∀ t, s.steady t → s.steady (a1 t ).2) : s.steady (t.readPage a0 a1) := by
  unfold State.readPage
  repeat' first
    | with_reducible assumption
    | (with_reducible refine ha1 _ ?_)
    | with_reducible refine State.steady_act _ ?_ ?_
    | with_reducible refine State.steady_tlp ?_
    | with_reducible refine State.steady_emit _ ?_
    | with_reducible refine State.steady_runOn ?_
    | (intro _ _; try dsimp only)
    | dsimp only
    | split

theorem State.steady_configured (a0 : Nat) (a1 : Option Nat) (a2 : State → State) (h : s.steady t) (ha2 : ∀ t, s.steady t → s.steady (a2 t )) : s.steady (t.configured a0 a1 a2) := by
  unfold State.configured
  repeat' first
    | with_reducible assumption
    | (with_reducible refine ha2 _ ?_)
    | with_reducible refine State.steady_act _ ?_ ?_
    | with_reducible refine State.steady_tlp ?_
    | with_reducible refine State.steady_emit _ ?_
    | with_reducible refine State.steady_retry _ _ ?_
    | with_reducible refine State.steady_ops _ _ ?_
    | with_reducible refine State.steady_runOn ?_
    | (intro _ _; try dsimp only)
    | dsimp only
    | split

theorem State.steady_viewed (a0 : Nat) (a1 : State → State) (h : s.steady t) (ha1 : ∀ t, s.steady t → s.steady (a1 t )) : s.steady (t.viewed a0 a1) := by
  unfold State.viewed
  repeat' first
    | with_reducible assumption
    | (with_reducible refine ha1 _ ?_)
    | with_reducible refine State.steady_view _ _ ?_ ?_
    | with_reducible refine State.steady_runOn ?_
    | (intro _ _; try dsimp only)
    | dsimp only
    | split

theorem State.steady_within (a0 : State → State) (h : s.steady t) (ha0 : ∀ t, s.steady t → s.steady (a0 t )) : s.steady (t.within a0) := by
  unfold State.within
  repeat' first
    | with_reducible assumption
    | (with_reducible refine ha0 _ ?_)
    | with_reducible refine State.steady_inner _ ?_ ?_
    | with_reducible refine State.steady_runOn ?_
    | (intro _ _; try dsimp only)
    | dsimp only
    | split

end Sys2Proof.Machine
end

