-- ==== Sys2Proof/Laws/SteadyRuns.lean ====
section
/-! SUPPORT. What the hub's own work leaves alone, function by function. -/

-- One proof at a time: hundreds of proofs started together would each wait on the same lemma on a thread of its own.
set_option Elab.async false

namespace Sys2Proof.Machine

set_option linter.unusedTactic false
set_option linter.unreachableTactic false

variable {s t u : State}

theorem State.steady_movFlag (a0 : Nat) (a1 : Nat) (h : s.steady t) : s.steady (t.movFlag a0 a1) := by
  unfold State.movFlag
  repeat' first
    | with_reducible assumption
    | with_reducible refine State.steady_flag _ _ _ _ _ ?_
    | dsimp only
    | split

theorem State.steady_writeArea (a0 : Word) (h : s.steady t) : s.steady (t.writeArea a0) := by
  unfold State.writeArea
  repeat' first
    | with_reducible assumption
    | with_reducible refine State.steady_movFlag _ _ ?_
    | with_reducible refine State.steady_foldl _ _ ?_ ?_
    | ((with_reducible show State.steady _ (State.onMov _ _)); refine State.steady_onMov _ ?_)
    | with_reducible refine State.steady_zeroUnits _ ?_
    | with_reducible refine State.steady_onArea _ _ ?_
    | with_reducible refine State.steady_foldl _ _ ?_ ?_
    | (intro _ _ _; try dsimp only)
    | (intro _ _; try dsimp only)
    | dsimp only
    | split

theorem State.steady_clearDone (a0 : Nat) (h : s.steady t) : s.steady (t.clearDone a0) := by
  unfold State.clearDone
  repeat' first
    | with_reducible assumption
    | with_reducible refine State.steady_onArea _ _ ?_
    | (intro _ _; try dsimp only)
    | dsimp only
    | split

theorem State.steady_bootWrite (a0 : Nat) (a1 : Nat) (a2 : List (Option Byte)) (h : s.steady t) : s.steady (t.bootWrite a0 a1 a2) := by
  unfold State.bootWrite
  repeat' first
    | with_reducible assumption
    | with_reducible refine State.steady_foldl _ _ ?_ ?_
    | ((with_reducible show State.steady _ (State.onPwr _ _)); refine State.steady_onPwr _ ?_)
    | with_reducible refine State.steady_nocRequest _ _ _ ?_
    | with_reducible refine State.steady_foldl _ _ ?_ ?_
    | (intro _ _ _; try dsimp only)
    | (intro _ _; try dsimp only)
    | dsimp only
    | split

theorem State.steady_bar4Write (a0 : Nat) (a1 : Nat) (a2 : Nat) (a3 : List (Option Byte)) (h : s.steady t) : s.steady (t.bar4Write a0 a1 a2 a3) := by
  unfold State.bar4Write
  repeat' first
    | with_reducible assumption
    | with_reducible refine State.steady_bootWrite _ _ _ ?_
    | with_reducible refine State.steady_movFlag _ _ ?_
    | with_reducible refine State.steady_foldl _ _ ?_ ?_
    | with_reducible refine State.steady_stagingWrite _ _ ?_
    | with_reducible refine State.steady_foldl _ _ ?_ ?_
    | (intro _ _ _; try dsimp only)
    | (intro _ _; try dsimp only)
    | dsimp only
    | split

theorem State.steady_bar4Read (a0 : Nat) (h : s.steady t) : s.steady (t.bar4Read a0) := by
  unfold State.bar4Read
  repeat' first
    | with_reducible assumption
    | with_reducible refine State.steady_movFlag _ _ ?_
    | dsimp only
    | split

theorem State.steady_retireLane (a0 : Nat) (h : s.steady t) : s.steady (t.retireLane a0) := by
  unfold State.retireLane
  repeat' first
    | with_reducible assumption
    | ((with_reducible show State.steady _ (State.onCcu _ _)); refine State.steady_onCcu _ ?_)
    | with_reducible refine State.steady_unitRetired _ ?_
    | (intro _ _; try dsimp only)
    | dsimp only
    | split

theorem State.steady_storedRecord (a0 : Nat) (a1 : Code) (a2 : Nat) (a3 : Nat) (a4 : Nat) (a5 : Nat) (a6 : Nat) (a7 : Nat) (a8 : Nat) (a9 : Nat) (h : s.steady t) : s.steady (t.storedRecord a0 a1 a2 a3 a4 a5 a6 a7 a8 a9) := by
  unfold State.storedRecord
  repeat' first
    | with_reducible assumption
    | with_reducible refine State.steady_fault _ _ _ _ _ _ _ ?_
    | dsimp only
    | split

theorem State.steady_rasFlag (a0 : Nat) (a1 : Code) (h : s.steady t) : s.steady (t.rasFlag a0 a1) := by
  unfold State.rasFlag
  repeat' first
    | with_reducible assumption
    | with_reducible refine State.steady_flag _ _ _ _ _ ?_
    | dsimp only
    | split

theorem State.steady_countCe (a0 : Nat) (h : s.steady t) : s.steady (t.countCe a0) := by
  unfold State.countCe
  repeat' first
    | with_reducible assumption
    | ((with_reducible show State.steady _ (State.onRas _ _)); refine State.steady_onRas _ ?_)
    | with_reducible refine State.steady_onCount _ _ ?_
    | with_reducible refine State.steady_rasFlag _ _ ?_
    | with_reducible refine State.steady_aer _ _ ?_
    | (intro _ _; try dsimp only)
    | dsimp only
    | split

theorem State.steady_countUe (a0 : ScrubHit) (a1 : Nat) (a2 : Nat) (a3 : Code) (h : s.steady t) : s.steady (t.countUe a0 a1 a2 a3) := by
  unfold State.countUe
  repeat' first
    | with_reducible assumption
    | ((with_reducible show State.steady _ (State.onRas _ _)); refine State.steady_onRas _ ?_)
    | with_reducible refine State.steady_onCount _ _ ?_
    | with_reducible refine State.steady_rasFlag _ _ ?_
    | with_reducible refine State.steady_storedRecord _ _ _ _ _ _ _ _ _ _ ?_
    | (intro _ _; try dsimp only)
    | dsimp only
    | split

theorem State.steady_loseBlock (a0 : Nat) (h : s.steady t) : s.steady (t.loseBlock a0) := by
  unfold State.loseBlock
  repeat' first
    | with_reducible assumption
    | with_reducible refine State.steady_onFlow _ _ ?_
    | with_reducible refine State.steady_failJob _ _ _ ?_
    | with_reducible refine State.steady_dropPkt _ _ ?_
    | (intro _ _; try dsimp only)
    | dsimp only
    | split

theorem State.steady_disableTable (a0 : Nat) (a1 : Nat) (h : s.steady t) : s.steady (t.disableTable a0 a1) := by
  unfold State.disableTable
  repeat' first
    | with_reducible assumption
    | ((with_reducible show State.steady _ (State.onXlt _ _)); refine State.steady_onXlt _ ?_)
    | ((with_reducible show State.steady _ (State.onPeer _ _)); refine State.steady_onPeer _ ?_)
    | with_reducible refine State.steady_onIwin _ _ ?_
    | ((with_reducible show State.steady _ (State.onCht _ _)); refine State.steady_onCht _ ?_)
    | ((with_reducible show State.steady _ (State.onMov _ _)); refine State.steady_onMov _ ?_)
    | with_reducible refine State.steady_snd (by with_reducible assumption) ?_
    | (intro _ _; try dsimp only)
    | dsimp only
    | split

theorem State.steady_loseWord (a0 : Nat) (a1 : Nat) (a2 : Nat) (a3 : Nat) (h : s.steady t) : s.steady (t.loseWord a0 a1 a2 a3) := by
  unfold State.loseWord
  repeat' first
    | with_reducible assumption
    | with_reducible refine State.steady_setEft _ _ _ ?_
    | with_reducible refine State.steady_failJob _ _ _ ?_
    | with_reducible refine State.steady_reroot _ _ ?_
    | ((with_reducible show State.steady _ (State.onXlt _ _)); refine State.steady_onXlt _ ?_)
    | with_reducible refine State.steady_onLine _ _ ?_
    | with_reducible refine State.steady_flushSet _ ?_
    | ((with_reducible show State.steady _ (State.onMov _ _)); refine State.steady_onMov _ ?_)
    | with_reducible refine State.steady_loseBlock _ ?_
    | with_reducible refine State.steady_onChan _ _ ?_
    | with_reducible refine State.steady_abandon _ _ ?_
    | with_reducible refine State.steady_disarm _ ?_
    | ((with_reducible show State.steady _ (State.onSkk _ _)); refine State.steady_onSkk _ ?_)
    | with_reducible refine State.steady_foldl _ _ ?_ ?_
    | with_reducible refine State.steady_onSrc _ _ ?_
    | with_reducible refine State.steady_refresh _ ?_
    | with_reducible refine State.steady_disableTable _ _ ?_
    | ((with_reducible show State.steady _ (State.onRas _ _)); refine State.steady_onRas _ ?_)
    | with_reducible refine State.steady_foldl _ _ ?_ ?_
    | with_reducible refine State.steady_snd (by with_reducible assumption) ?_
    | (intro _ _ _; try dsimp only)
    | (intro _ _; try dsimp only)
    | dsimp only
    | split

theorem State.steady_remapInto (a0 : RowName) (h : s.steady t) : s.steady (t.remapInto a0) := by
  unfold State.remapInto
  repeat' first
    | with_reducible assumption
    | ((with_reducible show State.steady _ (State.onRas _ _)); refine State.steady_onRas _ ?_)
    | with_reducible refine State.steady_rasFlag _ _ ?_
    | (intro _ _; try dsimp only)
    | dsimp only
    | split

theorem State.steady_recallWays (a0 : Nat) (a1 : Nat) (a2 : Bool) (h : s.steady t) : s.steady (t.recallWays a0 a1 a2) := by
  unfold State.recallWays
  repeat' first
    | with_reducible assumption
    | with_reducible refine State.steady_foldl _ _ ?_ ?_
    | with_reducible refine State.steady_recallLine _ ?_
    | with_reducible refine State.steady_onLine _ _ ?_
    | with_reducible refine State.steady_runHome ?_
    | with_reducible refine State.steady_foldl _ _ ?_ ?_
    | (intro _ _ _; try dsimp only)
    | (intro _ _; try dsimp only)
    | dsimp only
    | split

theorem State.steady_emptyBank (a0 : Nat) (a1 : Nat) (a2 : Bool) (h : s.steady t) : s.steady (t.emptyBank a0 a1 a2) := by
  unfold State.emptyBank
  repeat' first
    | with_reducible assumption
    | ((with_reducible show State.steady _ (State.onXlt _ _)); refine State.steady_onXlt _ ?_)
    | with_reducible refine State.steady_recallWays _ _ _ ?_
    | with_reducible refine State.steady_snd (by with_reducible assumption) ?_
    | (intro _ _; try dsimp only)
    | dsimp only
    | split

theorem State.steady_shrink (a0 : RowName) (h : s.steady t) : s.steady (t.shrink a0) := by
  unfold State.shrink
  repeat' first
    | with_reducible assumption
    | with_reducible refine State.steady_emptyBank _ _ _ ?_
    | with_reducible refine State.steady_foldl _ _ ?_ ?_
    | with_reducible refine State.steady_onArea _ _ ?_
    | with_reducible refine State.steady_evictTo _ _ ?_
    | with_reducible refine State.steady_abandon _ _ ?_
    | with_reducible refine State.steady_disarm _ ?_
    | ((with_reducible show State.steady _ (State.onSkk _ _)); refine State.steady_onSkk _ ?_)
    | with_reducible refine State.steady_onSrc _ _ ?_
    | with_reducible refine State.steady_refresh _ ?_
    | with_reducible refine State.steady_disableTable _ _ ?_
    | ((with_reducible show State.steady _ (State.onXlt _ _)); refine State.steady_onXlt _ ?_)
    | with_reducible refine State.steady_foldl _ _ ?_ ?_
    | (intro _ _ _; try dsimp only)
    | (intro _ _; try dsimp only)
    | dsimp only
    | split

theorem State.steady_exhaust (a0 : RowName) (a1 : Nat) (a2 : Nat) (h : s.steady t) : s.steady (t.exhaust a0 a1 a2) := by
  unfold State.exhaust
  repeat' first
    | with_reducible assumption
    | with_reducible refine State.steady_storedRecord _ _ _ _ _ _ _ _ _ _ ?_
    | with_reducible refine State.steady_retireMover _ ?_
    | with_reducible refine State.steady_retireWalker _ ?_
    | with_reducible refine State.steady_emptyBank _ _ _ ?_
    | ((with_reducible show State.steady _ (State.onRas _ _)); refine State.steady_onRas _ ?_)
    | with_reducible refine State.steady_unitRetired _ ?_
    | with_reducible refine State.steady_shrink _ ?_
    | with_reducible refine State.steady_rasFlag _ _ ?_
    | (intro _ _; try dsimp only)
    | dsimp only
    | split

theorem State.steady_remapRow (a0 : RowName) (a1 : Nat) (a2 : Nat) (h : s.steady t) : s.steady (t.remapRow a0 a1 a2) := by
  unfold State.remapRow
  repeat' first
    | with_reducible assumption
    | ((with_reducible show State.steady _ (State.onRas _ _)); refine State.steady_onRas _ ?_)
    | with_reducible refine State.steady_remapInto _ ?_
    | with_reducible refine State.steady_storedRecord _ _ _ _ _ _ _ _ _ _ ?_
    | with_reducible refine State.steady_exhaust _ _ _ ?_
    | (intro _ _; try dsimp only)
    | dsimp only
    | split

theorem State.steady_trackRow (a0 : ScrubHit) (h : s.steady t) : s.steady (t.trackRow a0) := by
  unfold State.trackRow
  repeat' first
    | with_reducible assumption
    | with_reducible refine State.steady_remapRow _ _ _ ?_
    | ((with_reducible show State.steady _ (State.onRas _ _)); refine State.steady_onRas _ ?_)
    | with_reducible refine State.steady_snd (by with_reducible assumption) ?_
    | (intro _ _; try dsimp only)
    | dsimp only
    | split

theorem State.steady_bankCopyDone (a0 : Nat) (h : s.steady t) : s.steady (t.bankCopyDone a0) := by
  unfold State.bankCopyDone
  repeat' first
    | with_reducible assumption
    | ((with_reducible show State.steady _ (State.onRas _ _)); refine State.steady_onRas _ ?_)
    | with_reducible refine State.steady_foldl _ _ ?_ ?_
    | with_reducible refine State.steady_runFetch _ ?_
    | with_reducible refine State.steady_foldl _ _ ?_ ?_
    | (intro _ _ _; try dsimp only)
    | (intro _ _; try dsimp only)
    | dsimp only
    | split

theorem State.steady_startRebuild (a0 : Nat) (h : s.steady t) : s.steady (t.startRebuild a0) := by
  unfold State.startRebuild
  repeat' first
    | with_reducible assumption
    | ((with_reducible show State.steady _ (State.onRas _ _)); refine State.steady_onRas _ ?_)
    | (intro _ _; try dsimp only)
    | dsimp only
    | split

theorem State.steady_declareLost (a0 : Nat) (h : s.steady t) : s.steady (t.declareLost a0) := by
  unfold State.declareLost
  repeat' first
    | with_reducible assumption
    | ((with_reducible show State.steady _ (State.onRas _ _)); refine State.steady_onRas _ ?_)
    | with_reducible refine State.steady_rasFlag _ _ ?_
    | with_reducible refine State.steady_storedRecord _ _ _ _ _ _ _ _ _ _ ?_
    | with_reducible refine State.steady_startRebuild _ ?_
    | (intro _ _; try dsimp only)
    | dsimp only
    | split

theorem tabWf_foldPut (f : Nat → Nat) (l : List Nat) (r : Tab Nat) (h : tabWf (fun _ => 0) r = true) :
    tabWf (fun _ => 0) (l.foldl (fun (t : Tab Nat) k => tabPut (fun _ => 0) t k (f k)) r) = true := by
  induction l generalizing r with
  | nil => exact h
  | cons k l ih => exact ih _ (tabWf_tabPut _ h k _)

theorem State.steady_slotRuns (a0 : List Nat) (h : s.steady t) : s.steady (t.slotRuns a0) := by
  unfold State.slotRuns
  exact State.steady_foldl _ _ (State.steady_onRas _ h (h2 := fun _ => tabWf_foldPut _ _ _ rfl)) fun _ _ h => State.steady_declareLost _ h

theorem State.steady_chargeZero (a0 : Nat) (a1 : Nat) (h : s.steady t) : s.steady (t.chargeZero a0 a1) := by
  unfold State.chargeZero
  repeat' first
    | with_reducible assumption
    | ((with_reducible show State.steady _ (State.onMov _ _)); refine State.steady_onMov _ ?_)
    | (intro _ _; try dsimp only)
    | dsimp only
    | split

theorem State.steady_rebuildBlock (h : s.steady t) : s.steady (t.rebuildBlock) := by
  unfold State.rebuildBlock
  repeat' first
    | with_reducible assumption
    | ((with_reducible show State.steady _ (State.onRas _ _)); refine State.steady_onRas _ ?_)
    | with_reducible refine State.steady_chargeZero _ _ ?_
    | with_reducible refine State.steady_emit _ ?_
    | with_reducible refine State.steady_releaseStores _ ?_
    | (intro _ _; try dsimp only)
    | dsimp only
    | split

theorem State.steady_nextRebuild (n : Nat) (h : s.steady t) : s.steady (t.nextRebuild n) := by
  induction n generalizing t with
  | zero => exact h
  | succ n ih =>
    unfold State.nextRebuild
    repeat' first
      | with_reducible assumption
      | with_reducible refine ih ?_
      | ((with_reducible show State.steady _ (State.onRas _ _)); refine State.steady_onRas _ ?_)
      | with_reducible refine State.steady_startRebuild _ ?_
      | with_reducible refine State.steady_declareLost _ ?_
      | (intro _ _; try dsimp only)
      | dsimp only
      | split

theorem State.steady_rebuildDone (h : s.steady t) : s.steady (t.rebuildDone) := by
  unfold State.rebuildDone
  repeat' first
    | with_reducible assumption
    | ((with_reducible show State.steady _ (State.onRas _ _)); refine State.steady_onRas _ ?_)
    | with_reducible refine State.steady_rasFlag _ _ ?_
    | with_reducible refine State.steady_storedRecord _ _ _ _ _ _ _ _ _ _ ?_
    | with_reducible refine State.steady_nextRebuild _ ?_
    | (intro _ _; try dsimp only)
    | dsimp only
    | split

theorem State.steady_wordWritten (a0 : ScrubHit) (h : s.steady t) : s.steady (t.wordWritten a0) := by
  unfold State.wordWritten
  repeat' first
    | with_reducible assumption
    | ((with_reducible show State.steady _ (State.onRas _ _)); refine State.steady_onRas _ ?_)
    | (intro _ _; try dsimp only)
    | dsimp only
    | split

theorem State.steady_markLost (a0 : ScrubHit) (h : s.steady t) : s.steady (t.markLost a0) := by
  unfold State.markLost
  repeat' first
    | with_reducible assumption
    | ((with_reducible show State.steady _ (State.onRas _ _)); refine State.steady_onRas _ ?_)
    | (intro _ _; try dsimp only)
    | dsimp only
    | split

theorem State.steady_loseStored (a0 : Nat) (h : s.steady t) : s.steady (t.loseStored a0).2 := by
  unfold State.loseStored
  repeat' first
    | with_reducible assumption
    | with_reducible refine State.steady_disarm _ ?_
    | ((with_reducible show State.steady _ (State.onSkk _ _)); refine State.steady_onSkk _ ?_)
    | with_reducible refine State.steady_snd (by with_reducible assumption) ?_
    | (intro _ _; try dsimp only)
    | dsimp only
    | split

theorem State.steady_storeMend (a0 : Nat) (a1 : Pieces) (h : s.steady t) : s.steady (t.storeMend a0 a1) := by
  unfold State.storeMend
  repeat' first
    | with_reducible assumption
    | with_reducible refine State.steady_foldl _ _ ?_ ?_
    | with_reducible refine State.steady_emit _ ?_
    | with_reducible refine State.steady_foldl _ _ ?_ ?_
    | (intro _ _ _; try dsimp only)
    | (intro _ _; try dsimp only)
    | dsimp only
    | split

theorem State.steady_wordRead (a0 : ScrubOut) (h : s.steady t) : s.steady (t.wordRead a0) := by
  unfold State.wordRead
  repeat' first
    | with_reducible assumption
    | with_reducible refine State.steady_countCe _ ?_
    | with_reducible refine State.steady_trackRow _ ?_
    | with_reducible refine State.steady_countUe _ _ _ _ ?_
    | with_reducible refine State.steady_markLost _ ?_
    | with_reducible refine State.steady_loseWord _ _ _ _ ?_
    | with_reducible refine State.steady_remapRow _ _ _ ?_
    | dsimp only
    | split

theorem State.steady_storeRead (a0 : Nat) (a1 : ScrubOut) (h : s.steady t) : s.steady (t.storeRead a0 a1) := by
  unfold State.storeRead
  repeat' first
    | with_reducible assumption
    | with_reducible refine State.steady_slotRuns _ ?_
    | with_reducible refine State.steady_countCe _ ?_
    | with_reducible refine State.steady_loseStored _ ?_
    | with_reducible refine State.steady_countUe _ _ _ _ ?_
    | with_reducible refine State.steady_snd (by with_reducible assumption) ?_
    | dsimp only
    | split

theorem State.steady_readBlock (a0 : Nat) (a1 : Pieces) (h : s.steady t) : s.steady (t.readBlock a0 a1) := by
  unfold State.readBlock
  repeat' first
    | with_reducible assumption
    | with_reducible refine State.steady_emit _ ?_
    | with_reducible refine State.steady_storeMend _ _ ?_
    | with_reducible refine State.steady_storeRead _ _ ?_
    | dsimp only
    | split

theorem State.steady_contextLoad (a0 : Nat) (a1 : List Pieces) (h : s.steady t) : s.steady (t.contextLoad a0 a1) := by
  unfold State.contextLoad
  repeat' first
    | with_reducible assumption
    | with_reducible refine State.steady_foldl _ _ ?_ ?_
    | with_reducible refine State.steady_readBlock _ _ ?_
    | with_reducible refine State.steady_ops _ _ ?_
    | with_reducible refine State.steady_placeContext _ ?_
    | with_reducible refine State.steady_runFetch _ ?_
    | with_reducible refine State.steady_onChan _ _ ?_
    | with_reducible refine State.steady_flag _ _ _ _ _ ?_
    | with_reducible refine State.steady_haltError _ _ _ _ ?_
    | with_reducible refine State.steady_foldl _ _ ?_ ?_
    | with_reducible refine State.steady_snd (by with_reducible assumption) ?_
    | (intro _ _ _; try dsimp only)
    | (intro _ _; try dsimp only)
    | dsimp only
    | split

theorem State.steady_scrubRead (a0 : ScrubIn) (a1 : Nat) (h : s.steady t) : s.steady (t.scrubRead a0 a1).2 := by
  unfold State.scrubRead
  repeat' first
    | with_reducible assumption
    | with_reducible refine State.steady_wordWritten _ ?_
    | with_reducible refine State.steady_wordRead _ ?_
    | with_reducible refine State.steady_readBlock _ _ ?_
    | dsimp only
    | split

theorem State.steady_scrubStart (a0 : Word) (h : s.steady t) : s.steady (t.scrubStart a0) := by
  unfold State.scrubStart
  repeat' first
    | with_reducible assumption
    | with_reducible refine State.steady_rasFlag _ _ ?_
    | ((with_reducible show State.steady _ (State.onRas _ _)); refine State.steady_onRas _ ?_)
    | (intro _ _; try dsimp only)
    | dsimp only
    | split

theorem State.steady_scrubBlock (a0 : ScrubIn) (h : s.steady t) : s.steady (t.scrubBlock a0) := by
  unfold State.scrubBlock
  repeat' first
    | with_reducible assumption
    | with_reducible refine State.steady_scrubRead _ _ ?_
    | ((with_reducible show State.steady _ (State.onRas _ _)); refine State.steady_onRas _ ?_)
    | with_reducible refine State.steady_foldl _ _ ?_ ?_
    | with_reducible refine State.steady_chargeZero _ _ ?_
    | with_reducible refine State.steady_ops _ _ ?_
    | with_reducible refine State.steady_foldl _ _ ?_ ?_
    | (intro _ _ _; try dsimp only)
    | (intro _ _; try dsimp only)
    | dsimp only
    | split

theorem State.steady_scrubDone (h : s.steady t) : s.steady (t.scrubDone) := by
  unfold State.scrubDone
  repeat' first
    | with_reducible assumption
    | ((with_reducible show State.steady _ (State.onRas _ _)); refine State.steady_onRas _ ?_)
    | with_reducible refine State.steady_rasFlag _ _ ?_
    | (intro _ _; try dsimp only)
    | dsimp only
    | split

theorem State.steady_bgScrub (a0 : ScrubIn) (h : s.steady t) : s.steady (t.bgScrub a0) := by
  unfold State.bgScrub
  repeat' first
    | with_reducible assumption
    | with_reducible refine State.steady_scrubRead _ _ ?_
    | ((with_reducible show State.steady _ (State.onRas _ _)); refine State.steady_onRas _ ?_)
    | with_reducible refine State.steady_ops _ _ ?_
    | (intro _ _; try dsimp only)
    | dsimp only
    | split

theorem State.steady_repairLoad (a0 : Word) (h : s.steady t) : s.steady (t.repairLoad a0) := by
  unfold State.repairLoad
  repeat' first
    | with_reducible assumption
    | ((with_reducible show State.steady _ (State.onRas _ _)); refine State.steady_onRas _ ?_)
    | with_reducible refine State.steady_repairAsk _ ?_
    | (intro _ _; try dsimp only)
    | dsimp only
    | split

theorem State.steady_repairEntry (a0 : Word) (h : s.steady t) : s.steady (t.repairEntry a0) := by
  unfold State.repairEntry
  repeat' first
    | with_reducible assumption
    | ((with_reducible show State.steady _ (State.onRas _ _)); refine State.steady_onRas _ ?_)
    | with_reducible refine State.steady_rasFlag _ _ ?_
    | with_reducible refine State.steady_remapInto _ ?_
    | (intro _ _; try dsimp only)
    | dsimp only
    | split

theorem State.steady_repairRead (h : s.steady t) : s.steady (t.repairRead) := by
  unfold State.repairRead
  repeat' first
    | with_reducible assumption
    | ((with_reducible show State.steady _ (State.onRas _ _)); refine State.steady_onRas _ ?_)
    | with_reducible refine State.steady_foldl _ _ ?_ ?_
    | with_reducible refine State.steady_repairEntry _ ?_
    | with_reducible refine State.steady_foldl _ _ ?_ ?_
    | (intro _ _ _; try dsimp only)
    | (intro _ _; try dsimp only)
    | dsimp only
    | split

theorem State.steady_leaveFrame (a0 : Pending) (h : s.steady t) : s.steady (t.leaveFrame a0) := by
  unfold State.leaveFrame
  repeat' first
    | with_reducible assumption
    | with_reducible refine State.steady_onPend _ _ ?_
    | (intro _ _; try dsimp only)
    | dsimp only
    | split

theorem State.steady_mapoutRequest (a0 : Nat) (a1 : Nat) (h : s.steady t) : s.steady (t.mapoutRequest a0 a1) := by
  unfold State.mapoutRequest
  repeat' first
    | with_reducible assumption
    | ((with_reducible show State.steady _ (State.onSkk _ _)); refine State.steady_onSkk _ ?_)
    | with_reducible refine State.steady_recallChannel _ _ ?_
    | with_reducible refine State.steady_foldl _ _ ?_ ?_
    | with_reducible refine State.steady_leaveFrame _ ?_
    | with_reducible refine State.steady_declareLost _ ?_
    | with_reducible refine State.steady_startRebuild _ ?_
    | with_reducible refine State.steady_foldl _ _ ?_ ?_
    | (intro _ _ _; try dsimp only)
    | (intro _ _; try dsimp only)
    | dsimp only
    | split

theorem State.steady_mapoutAck (h : s.steady t) : s.steady (t.mapoutAck) := by
  unfold State.mapoutAck
  repeat' first
    | with_reducible assumption
    | ((with_reducible show State.steady _ (State.onSkk _ _)); refine State.steady_onSkk _ ?_)
    | with_reducible refine State.steady_emit _ ?_
    | (intro _ _; try dsimp only)
    | dsimp only
    | split

theorem State.steady_mapoutFall (h : s.steady t) : s.steady (t.mapoutFall) := by
  unfold State.mapoutFall
  repeat' first
    | with_reducible assumption
    | ((with_reducible show State.steady _ (State.onSkk _ _)); refine State.steady_onSkk _ ?_)
    | with_reducible refine State.steady_emit _ ?_
    | with_reducible refine State.steady_mapoutAck ?_
    | with_reducible refine State.steady_flag _ _ _ _ _ ?_
    | (intro _ _; try dsimp only)
    | dsimp only
    | split

theorem State.steady_storeCommand (a0 : Word) (h : s.steady t) : s.steady (t.storeCommand a0) := by
  unfold State.storeCommand
  repeat' first
    | with_reducible assumption
    | with_reducible refine State.steady_declareLost _ ?_
    | with_reducible refine State.steady_startRebuild _ ?_
    | dsimp only
    | split

theorem State.steady_evcFlag (a0 : Nat) (a1 : Nat) (h : s.steady t) : s.steady (t.evcFlag a0 a1) := by
  unfold State.evcFlag
  repeat' first
    | with_reducible assumption
    | with_reducible refine State.steady_flag _ _ _ _ _ ?_
    | dsimp only
    | split

theorem State.steady_raiseSource (a0 : Nat) (a1 : Nat) (h : s.steady t) : s.steady (t.raiseSource a0 a1) := by
  unfold State.raiseSource
  repeat' first
    | with_reducible assumption
    | with_reducible refine State.steady_edge _ ?_
    | with_reducible refine State.steady_evcFlag _ _ ?_
    | dsimp only
    | split

theorem State.steady_clearSource (a0 : Nat) (a1 : Nat) (h : s.steady t) : s.steady (t.clearSource a0 a1) := by
  unfold State.clearSource
  repeat' first
    | with_reducible assumption
    | with_reducible refine State.steady_onSrc _ _ ?_
    | with_reducible refine State.steady_refresh _ ?_
    | with_reducible refine State.steady_evcFlag _ _ ?_
    | (intro _ _; try dsimp only)
    | dsimp only
    | split

theorem State.steady_routeSource (a0 : Nat) (a1 : Bool) (a2 : Byte) (a3 : BitVec 5) (h : s.steady t) : s.steady (t.routeSource a0 a1 a2 a3) := by
  unfold State.routeSource
  repeat' first
    | with_reducible assumption
    | with_reducible refine State.steady_onSrc _ _ ?_
    | with_reducible refine State.steady_refresh _ ?_
    | (intro _ _; try dsimp only)
    | dsimp only
    | split

theorem State.steady_writeSrcCfg (a0 : Nat) (a1 : Word) (h : s.steady t) : s.steady (t.writeSrcCfg a0 a1) := by
  unfold State.writeSrcCfg
  repeat' first
    | with_reducible assumption
    | with_reducible refine State.steady_evcFlag _ _ ?_
    | with_reducible refine State.steady_routeSource _ _ _ _ ?_
    | dsimp only
    | split

theorem State.steady_assignTarget (a0 : Word) (h : s.steady t) : s.steady (t.assignTarget a0) := by
  unfold State.assignTarget
  repeat' first
    | with_reducible assumption
    | with_reducible refine State.steady_evcFlag _ _ ?_
    | with_reducible refine State.steady_unassign _ ?_
    | ((with_reducible show State.steady _ (State.onEvc _ _)); refine State.steady_onEvc _ ?_)
    | with_reducible refine State.steady_onTgt _ _ ?_
    | with_reducible refine State.steady_refresh _ ?_
    | (intro _ _; try dsimp only)
    | dsimp only
    | split

theorem State.steady_onHeld (a0 : Nat) (a1 : Nat) (a2 : State → State) (h : s.steady t) (ha2 : ∀ t, s.steady t → s.steady (a2 t )) : s.steady (t.onHeld a0 a1 a2) := by
  unfold State.onHeld
  repeat' first
    | with_reducible assumption
    | (with_reducible refine ha2 _ ?_)
    | with_reducible refine State.steady_evcFlag _ _ ?_
    | (intro _ _; try dsimp only)
    | dsimp only
    | split

theorem State.steady_claimRead (a0 : Nat) (a1 : Nat) (h : s.steady t) : s.steady (t.claimRead a0 a1).2 := by
  unfold State.claimRead
  repeat' first
    | with_reducible assumption
    | with_reducible refine State.steady_claim _ ?_
    | with_reducible refine State.steady_evcFlag _ _ ?_
    | dsimp only
    | split

theorem State.steady_completeWrite (a0 : Nat) (a1 : Nat) (a2 : Nat) (h : s.steady t) : s.steady (t.completeWrite a0 a1 a2) := by
  unfold State.completeWrite
  repeat' first
    | with_reducible assumption
    | with_reducible refine State.steady_onHeld _ _ _ ?_ ?_
    | with_reducible refine State.steady_onTgt _ _ ?_
    | with_reducible refine State.steady_refresh _ ?_
    | with_reducible refine State.steady_evcFlag _ _ ?_
    | (intro _ _; try dsimp only)
    | dsimp only
    | split

theorem State.steady_writeThresh (a0 : Nat) (a1 : Nat) (a2 : BitVec 5) (h : s.steady t) : s.steady (t.writeThresh a0 a1 a2) := by
  unfold State.writeThresh
  repeat' first
    | with_reducible assumption
    | with_reducible refine State.steady_onHeld _ _ _ ?_ ?_
    | with_reducible refine State.steady_onTgt _ _ ?_
    | with_reducible refine State.steady_refresh _ ?_
    | (intro _ _; try dsimp only)
    | dsimp only
    | split

theorem State.steady_countGates (h : s.steady t) : s.steady (t.countGates) := by
  unfold State.countGates
  repeat' first
    | with_reducible assumption
    | with_reducible refine State.steady_foldl _ _ ?_ ?_
    | with_reducible refine State.steady_onChtView _ _ ?_
    | with_reducible refine State.steady_foldl _ _ ?_ ?_
    | (intro _ _ _; try dsimp only)
    | (intro _ _; try dsimp only)
    | dsimp only
    | split

theorem State.steady_cycleOf (a0 : State) (a1 : Nat) (h : s.steady t) (_h : s.steady a0) : s.steady (t.cycleOf a0 a1) := by
  unfold State.cycleOf
  repeat' first
    | with_reducible assumption
    | with_reducible refine State.steady_onCount _ _ ?_
    | (intro _ _; try dsimp only)
    | dsimp only
    | split

theorem State.steady_countCycle (h : s.steady t) : s.steady (t.countCycle) := by
  unfold State.countCycle
  repeat' first
    | with_reducible assumption
    | with_reducible refine State.steady_foldl _ _ ?_ ?_
    | with_reducible refine State.steady_cycleOf _ _ ?_ ?_
    | with_reducible refine State.steady_foldl _ _ ?_ ?_
    | (intro _ _ _; try dsimp only)
    | dsimp only
    | split

theorem State.steady_ringAnswer (a0 : Nat) (a1 : BitVec 32) (a2 : Bool) (h : s.steady t) : s.steady (t.ringAnswer a0 a1 a2) := by
  unfold State.ringAnswer
  repeat' first
    | with_reducible assumption
    | with_reducible refine State.steady_takeFor _ _ ?_
    | with_reducible refine State.steady_slotArrived _ _ _ _ _ ?_
    | (intro _ _; try dsimp only)
    | dsimp only
    | split

theorem State.steady_atomicRequest (a0 : HReq) (a1 : Nat) (a2 : Nat) (a3 : Word) (a4 : Word) (h : s.steady t) : s.steady (t.atomicRequest a0 a1 a2 a3 a4) := by
  unfold State.atomicRequest
  repeat' first
    | with_reducible assumption
    | with_reducible refine State.steady_err _ _ ?_
    | with_reducible refine State.steady_agentReq _ _ _ _ ?_
    | dsimp only
    | split

theorem State.steady_hostSnoop (a0 : Nat) (a1 : Word) (a2 : Nat) (h : s.steady t) : s.steady (t.hostSnoop a0 a1 a2) := by
  unfold State.hostSnoop
  repeat' first
    | with_reducible assumption
    | with_reducible refine State.steady_hibernate ?_
    | with_reducible refine State.steady_within _ ?_ ?_
    | with_reducible refine State.steady_onHostSnoop _ _ _ ?_
    | with_reducible refine State.steady_arrives _ ?_ ?_
    | (intro _ _; try dsimp only)
    | dsimp only
    | split

theorem State.steady_nocResponse (a0 a1 a2 : Nat) (f : State → NocFor → Option State) (h : s.steady t)
    (hf : ∀ x r v, s.steady x → f x r = some v → s.steady v) : s.steady (t.nocResponse a0 a1 a2 f) := by
  unfold State.nocResponse
  split
  · exact State.steady_portProtocol _ h
  · dsimp only
    split
    · exact State.steady_portProtocol _ h
    · next v hv => exact hf _ _ v (State.steady_onNoc _ h) hv

theorem State.steady_memRdData (a0 : Nat) (a1 : Nat) (a2 : Nat) (a3 : Bool) (a4 : Granule) (h : s.steady t) : s.steady (t.memRdData a0 a1 a2 a3 a4) := by
  unfold State.memRdData
  repeat' first
    | with_reducible assumption
    | with_reducible refine State.steady_nocResponse _ _ _ _ ?_ ?_
    | with_reducible refine State.steady_jobData _ _ _ _ _ _ _ ?_
    | with_reducible refine State.steady_jobBack _ _ _ _ ?_
    | with_reducible refine State.steady_blockBack _ _ ?_
    | with_reducible refine State.steady_recallRead _ _ _ ?_
    | (intro _ _; try dsimp only)
    | (intro hx; cases hx)
    | dsimp only
    | split

theorem State.steady_memWrAck (a0 : Nat) (a1 : Nat) (a2 : Nat) (a3 : Code) (h : s.steady t) : s.steady (t.memWrAck a0 a1 a2 a3) := by
  unfold State.memWrAck
  repeat' first
    | with_reducible assumption
    | with_reducible refine State.steady_nocResponse _ _ _ _ ?_ ?_
    | with_reducible refine State.steady_jobWrote _ _ _ _ _ ?_
    | with_reducible refine State.steady_blockWrote _ _ _ _ _ ?_
    | with_reducible refine State.steady_copyWrote _ _ ?_
    | with_reducible refine State.steady_bootWrote ?_
    | (intro _ _; try dsimp only)
    | (intro hx; cases hx)
    | dsimp only
    | split

theorem State.steady_memAtomicAck (a0 : Nat) (a1 : Nat) (a2 : Nat) (a3 : Code) (a4 : Word) (h : s.steady t) : s.steady (t.memAtomicAck a0 a1 a2 a3 a4) := by
  unfold State.memAtomicAck
  repeat' first
    | with_reducible assumption
    | with_reducible refine State.steady_nocResponse _ _ _ _ ?_ ?_
    | with_reducible refine State.steady_jobAtomic _ _ _ _ _ _ ?_
    | (intro _ _; try dsimp only)
    | (intro hx; cases hx)
    | dsimp only
    | split

theorem State.steady_creditReturn (a0 : Nat) (a1 : NocClass) (a2 : Nat) (h : s.steady t) : s.steady (t.creditReturn a0 a1 a2) := by
  unfold State.creditReturn
  repeat' first
    | with_reducible assumption
    | ((with_reducible show State.steady _ (State.onNoc _ _)); refine State.steady_onNoc _ ?_)
    | with_reducible refine State.steady_nocDrain ?_
    | with_reducible refine State.steady_portProtocol _ ?_
    | (intro _ _; try dsimp only)
    | dsimp only
    | split

end Sys2Proof.Machine
end

