-- ==== Sys2Proof/Laws/Orderly.lean ====
section
/-! SUPPORT. What register writes, configuration and a warm reset leave alone too: GLB_TIME, the queue and the form of the tables. -/

-- One proof at a time: hundreds of proofs started together would each wait on the same lemma on a thread of its own.
set_option Elab.async false

namespace Sys2Proof.Machine

set_option linter.unusedTactic false
set_option linter.unreachableTactic false
set_option linter.unusedVariables false

variable {s t u : State}

/-- The second state has the first's time and queue, and its tables are in canonical form if the first's are. -/
def State.orderly (s t : State) : Prop :=
  t.glb.time = s.glb.time ∧ t.pending = s.pending ∧ (s.wf = true → t.wf = true)

theorem State.orderly_refl (s : State) : s.orderly s := ⟨rfl, rfl, id⟩
theorem State.orderly_trans (h1 : s.orderly t) (h2 : t.orderly u) : s.orderly u :=
  ⟨h2.1.trans h1.1, h2.2.1.trans h1.2.1, fun w => h2.2.2 (h1.2.2 w)⟩
theorem State.orderly_of_steady (h : s.steady t) : s.orderly t := ⟨h.1.1, h.1.2.2.2.1, fun w => (h.2 w).1⟩
theorem State.orderly_steady (h1 : s.orderly t) (h2 : t.steady u) : s.orderly u := State.orderly_trans h1 (State.orderly_of_steady h2)
theorem State.orderly_foldl {β : Type} (f : State → β → State) (l : List β) (h : s.orderly t)
    (hf : ∀ (t : State) (b : β), s.orderly t → s.orderly (f t b)) : s.orderly (l.foldl f t) := by
  induction l generalizing t with
  | nil => exact h
  | cons b r ih => exact ih (hf _ b h)
theorem State.orderly_snd {α : Type} {p : α × State} {a : α} (e : p = (a, u)) (h : s.orderly p.2) : s.orderly u := by subst e; exact h

/-! ## The updaters -/

theorem State.orderly_onGlb (f : Glb → Glb) (h : s.orderly t)
    (h0 : (f t.glb).time = t.glb.time := by first | rfl | (split <;> rfl))
    (h2 : t.glb.wf = true → (f t.glb).wf = true := by
      first | exact id | (intro hw; simp only [Glb.wf, Bool.and_eq_true] at hw ⊢; simp_all) | (intro hw; simp only [Glb.wf] at hw ⊢; simp_all)) :
    s.orderly (t.onGlb f) := by
  refine State.orderly_trans h ⟨h0, rfl, fun w => ?_⟩
  simp only [State.wf, Bool.and_eq_true] at w ⊢; simp_all [State.onGlb]

theorem State.orderly_onEvc (f : Evc → Evc) (h : s.orderly t)
    (h2 : t.evc.wf = true → (f t.evc).wf = true := by
      first | exact id | (intro hw; simp only [Evc.wf, Bool.and_eq_true] at hw ⊢; simp_all) | (intro hw; simp only [Evc.wf] at hw ⊢; simp_all)) :
    s.orderly (t.onEvc f) := by
  refine State.orderly_trans h ⟨rfl, rfl, fun w => ?_⟩
  simp only [State.wf, Bool.and_eq_true] at w ⊢; simp_all [State.onEvc]

theorem State.orderly_onHlk (f : Hlk → Hlk) (h : s.orderly t)
    (h2 : t.hlk.wf = true → (f t.hlk).wf = true := by
      first | exact id | (intro hw; simp only [Hlk.wf, Bool.and_eq_true] at hw ⊢; simp_all) | (intro hw; simp only [Hlk.wf] at hw ⊢; simp_all)) :
    s.orderly (t.onHlk f) := by
  refine State.orderly_trans h ⟨rfl, rfl, fun w => ?_⟩
  simp only [State.wf, Bool.and_eq_true] at w ⊢; simp_all [State.onHlk]

theorem State.orderly_onNoc (f : Noc → Noc) (h : s.orderly t)
    (h2 : t.noc.wf = true → (f t.noc).wf = true := by
      first | exact id | (intro hw; simp only [Noc.wf, Bool.and_eq_true] at hw ⊢; simp_all) | (intro hw; simp only [Noc.wf] at hw ⊢; simp_all)) :
    s.orderly (t.onNoc f) := by
  refine State.orderly_trans h ⟨rfl, rfl, fun w => ?_⟩
  simp only [State.wf, Bool.and_eq_true] at w ⊢; simp_all [State.onNoc]

theorem State.orderly_onDbl (f : Dbl → Dbl) (h : s.orderly t)
    (h2 : t.dbl.wf = true → (f t.dbl).wf = true := by
      first | exact id | (intro hw; simp only [Dbl.wf, Bool.and_eq_true] at hw ⊢; simp_all) | (intro hw; simp only [Dbl.wf] at hw ⊢; simp_all)) :
    s.orderly (t.onDbl f) := by
  refine State.orderly_trans h ⟨rfl, rfl, fun w => ?_⟩
  simp only [State.wf, Bool.and_eq_true] at w ⊢; simp_all [State.onDbl]

theorem State.orderly_onXlt (f : Xlt → Xlt) (h : s.orderly t)
    (h2 : t.xlt.wf = true → (f t.xlt).wf = true := by
      first | exact id | (intro hw; simp only [Xlt.wf, Bool.and_eq_true] at hw ⊢; simp_all) | (intro hw; simp only [Xlt.wf] at hw ⊢; simp_all)) :
    s.orderly (t.onXlt f) := by
  refine State.orderly_trans h ⟨rfl, rfl, fun w => ?_⟩
  simp only [State.wf, Bool.and_eq_true] at w ⊢; simp_all [State.onXlt]

theorem State.orderly_onSkk (f : Skk → Skk) (h : s.orderly t)
    (h2 : t.skk.wf = true → (f t.skk).wf = true := by
      first | exact id | (intro hw; simp only [Skk.wf, Bool.and_eq_true] at hw ⊢; simp_all) | (intro hw; simp only [Skk.wf] at hw ⊢; simp_all)) :
    s.orderly (t.onSkk f) := by
  refine State.orderly_trans h ⟨rfl, rfl, fun w => ?_⟩
  simp only [State.wf, Bool.and_eq_true] at w ⊢; simp_all [State.onSkk]

theorem State.orderly_onMov (f : Mov → Mov) (h : s.orderly t)
    (h2 : t.mov.wf = true → (f t.mov).wf = true := by
      first | exact id | (intro hw; simp only [Mov.wf, Bool.and_eq_true] at hw ⊢; simp_all) | (intro hw; simp only [Mov.wf] at hw ⊢; simp_all)) :
    s.orderly (t.onMov f) := by
  refine State.orderly_trans h ⟨rfl, rfl, fun w => ?_⟩
  simp only [State.wf, Bool.and_eq_true] at w ⊢; simp_all [State.onMov]

theorem State.orderly_onCcu (f : Ccu → Ccu) (h : s.orderly t)
    (h2 : t.ccu.wf = true → (f t.ccu).wf = true := by
      first | exact id | (intro hw; simp only [Ccu.wf, Bool.and_eq_true] at hw ⊢; simp_all) | (intro hw; simp only [Ccu.wf] at hw ⊢; simp_all)) :
    s.orderly (t.onCcu f) := by
  refine State.orderly_trans h ⟨rfl, rfl, fun w => ?_⟩
  simp only [State.wf, Bool.and_eq_true] at w ⊢; simp_all [State.onCcu]

theorem State.orderly_onSyn (f : Syn → Syn) (h : s.orderly t)
    (h2 : t.syn.wf = true → (f t.syn).wf = true := by
      first | exact id | (intro hw; simp only [Syn.wf, Bool.and_eq_true] at hw ⊢; simp_all) | (intro hw; simp only [Syn.wf] at hw ⊢; simp_all)) :
    s.orderly (t.onSyn f) := by
  refine State.orderly_trans h ⟨rfl, rfl, fun w => ?_⟩
  simp only [State.wf, Bool.and_eq_true] at w ⊢; simp_all [State.onSyn]

theorem State.orderly_onCht (f : Cht → Cht) (h : s.orderly t)
    (h2 : t.cht.wf = true → (f t.cht).wf = true := by
      first | exact id | (intro hw; simp only [Cht.wf, Bool.and_eq_true] at hw ⊢; simp_all) | (intro hw; simp only [Cht.wf] at hw ⊢; simp_all)) :
    s.orderly (t.onCht f) := by
  refine State.orderly_trans h ⟨rfl, rfl, fun w => ?_⟩
  simp only [State.wf, Bool.and_eq_true] at w ⊢; simp_all [State.onCht]

theorem State.orderly_onHome (f : Home → Home) (h : s.orderly t)
    (h2 : t.home.wf = true → (f t.home).wf = true := by
      first | exact id | (intro hw; simp only [Home.wf, Bool.and_eq_true] at hw ⊢; simp_all) | (intro hw; simp only [Home.wf] at hw ⊢; simp_all)) :
    s.orderly (t.onHome f) := by
  refine State.orderly_trans h ⟨rfl, rfl, fun w => ?_⟩
  simp only [State.wf, Bool.and_eq_true] at w ⊢; simp_all [State.onHome]

theorem State.orderly_onPeer (f : Peer → Peer) (h : s.orderly t)
    (h2 : t.peer.wf = true → (f t.peer).wf = true := by
      first | exact id | (intro hw; simp only [Peer.wf, Bool.and_eq_true] at hw ⊢; simp_all) | (intro hw; simp only [Peer.wf] at hw ⊢; simp_all)) :
    s.orderly (t.onPeer f) := by
  refine State.orderly_trans h ⟨rfl, rfl, fun w => ?_⟩
  simp only [State.wf, Bool.and_eq_true] at w ⊢; simp_all [State.onPeer]

theorem State.orderly_onPrt (f : Prt → Prt) (h : s.orderly t)
    (h2 : t.prt.wf = true → (f t.prt).wf = true := by
      first | exact id | (intro hw; simp only [Prt.wf, Bool.and_eq_true] at hw ⊢; simp_all) | (intro hw; simp only [Prt.wf] at hw ⊢; simp_all)) :
    s.orderly (t.onPrt f) := by
  refine State.orderly_trans h ⟨rfl, rfl, fun w => ?_⟩
  simp only [State.wf, Bool.and_eq_true] at w ⊢; simp_all [State.onPrt]

theorem State.orderly_onArb (f : Arb → Arb) (h : s.orderly t)
    (h2 : t.arb.wf = true → (f t.arb).wf = true := by
      first | exact id | (intro hw; simp only [Arb.wf, Bool.and_eq_true] at hw ⊢; simp_all) | (intro hw; simp only [Arb.wf] at hw ⊢; simp_all)) :
    s.orderly (t.onArb f) := by
  refine State.orderly_trans h ⟨rfl, rfl, fun w => ?_⟩
  simp only [State.wf, Bool.and_eq_true] at w ⊢; simp_all [State.onArb]

theorem State.orderly_onPwr (f : Pwr → Pwr) (h : s.orderly t)
    (h2 : t.pwr.wf = true → (f t.pwr).wf = true := by
      first | exact id | (intro hw; simp only [Pwr.wf, Bool.and_eq_true] at hw ⊢; simp_all) | (intro hw; simp only [Pwr.wf] at hw ⊢; simp_all)) :
    s.orderly (t.onPwr f) := by
  refine State.orderly_trans h ⟨rfl, rfl, fun w => ?_⟩
  simp only [State.wf, Bool.and_eq_true] at w ⊢; simp_all [State.onPwr]

theorem State.orderly_onTwn (f : Twn → Twn) (h : s.orderly t) : s.orderly (t.onTwn f) := State.orderly_trans h ⟨rfl, rfl, id⟩

theorem State.orderly_onRas (f : Ras → Ras) (h : s.orderly t)
    (h2 : t.ras.wf = true → (f t.ras).wf = true := by
      first | (intro hw; simp only [Ras.wf] at hw ⊢; with_reducible exact hw) | exact id | (intro hw; simp only [Ras.wf] at hw ⊢; simp_all)) :
    s.orderly (t.onRas f) := by
  refine State.orderly_trans h ⟨rfl, rfl, fun w => ?_⟩
  simp only [State.wf, Bool.and_eq_true] at w ⊢; simp_all [State.onRas]

theorem State.orderly_onLink (k : Nat) (f : Link → Link) (h : s.orderly t) : s.orderly (t.onLink k f) := State.orderly_onHlk _ h

theorem State.orderly_onInst (a b : Nat) (f : Inst → Inst) (h : s.orderly t) : s.orderly (t.onInst a b f) := State.orderly_onHlk _ h

theorem State.orderly_onAer (a b : Nat) (f : Aer → Aer) (h : s.orderly t) : s.orderly (t.onAer a b f) := State.orderly_onHlk _ h

theorem State.orderly_resetInst (a b : Nat) (i : Inst) (h : s.orderly t) : s.orderly (t.resetInst a b i) :=
  State.orderly_onAer _ _ _ (State.orderly_onInst _ _ _ h)

theorem State.orderly_onPart (k : Nat) (f : Part → Part) (h : s.orderly t) : s.orderly (t.onPart k f) := State.orderly_onPrt _ h

/-- A view's sticky registers change. -/
theorem State.orderly_setView (pg view : Nat) (k : Sticky) (h : s.orderly t) : s.orderly (t.setView pg view k) := by
  have key : s.orderly (t.onGlb fun g => { g with sticky := tabPut stickyDflt g.sticky (view * 32 + pg) k }) := State.orderly_onGlb _ h
  unfold State.setView
  dsimp only
  split
  · exact State.orderly_steady key (State.steady_edge _ (State.steady_refl _))
  · exact key

/-! ## The small updaters of the hub's own work -/

theorem State.orderly_onSrc (n : Nat) (f : Source → Source) (h : s.orderly t) : s.orderly (t.onSrc n f) := State.orderly_steady h (State.steady_onSrc _ _ (State.steady_refl _))
theorem State.orderly_onTgt (n : Nat) (f : Target → Target) (h : s.orderly t) : s.orderly (t.onTgt n f) := State.orderly_steady h (State.steady_onTgt _ _ (State.steady_refl _))
theorem State.orderly_onChan (k : Nat) (f : Chan → Chan) (h : s.orderly t) : s.orderly (t.onChan k f) := State.orderly_steady h (State.steady_onChan _ _ (State.steady_refl _))
theorem State.orderly_onMgmt (k : Nat) (f : Mgmt → Mgmt) (h : s.orderly t) : s.orderly (t.onMgmt k f) := State.orderly_steady h (State.steady_onMgmt _ _ (State.steady_refl _))
theorem State.orderly_onBind (k : Nat) (f : Bind → Bind) (h : s.orderly t) : s.orderly (t.onBind k f) := State.orderly_steady h (State.steady_onBind _ _ (State.steady_refl _))
theorem State.orderly_onSkkPart (k : Nat) (f : SkkPart → SkkPart) (h : s.orderly t) : s.orderly (t.onSkkPart k f) := State.orderly_steady h (State.steady_onSkkPart _ _ (State.steady_refl _))
theorem State.orderly_onJob (k : Nat) (g : Bool) (f : Job → Job) (h : s.orderly t) : s.orderly (t.onJob k g f) := State.orderly_steady h (State.steady_onJob _ _ _ (State.steady_refl _))
theorem State.orderly_onArea (k : Nat) (f : Area → Area) (h : s.orderly t) : s.orderly (t.onArea k f) := State.orderly_steady h (State.steady_onArea _ _ (State.steady_refl _))
theorem State.orderly_onMovView (k : Nat) (f : MovView → MovView) (h : s.orderly t) : s.orderly (t.onMovView k f) := State.orderly_steady h (State.steady_onMovView _ _ (State.steady_refl _))
theorem State.orderly_onCcuCount (k : Nat) (f : CcuCount → CcuCount) (h : s.orderly t) : s.orderly (t.onCcuCount k f) := State.orderly_steady h (State.steady_onCcuCount _ _ (State.steady_refl _))
theorem State.orderly_onObj (k : Nat) (f : Obj → Obj) (h : s.orderly t) : s.orderly (t.onObj k f) := State.orderly_steady h (State.steady_onObj _ _ (State.steady_refl _))
theorem State.orderly_onSynView (k : Nat) (f : SynView → SynView) (h : s.orderly t) : s.orderly (t.onSynView k f) := State.orderly_steady h (State.steady_onSynView _ _ (State.steady_refl _))
theorem State.orderly_onEntry (k : Nat) (f : Entry → Entry) (h : s.orderly t) : s.orderly (t.onEntry k f) := State.orderly_steady h (State.steady_onEntry _ _ (State.steady_refl _))
theorem State.orderly_onChtView (k : Nat) (f : ChtView → ChtView) (h : s.orderly t) : s.orderly (t.onChtView k f) := State.orderly_steady h (State.steady_onChtView _ _ (State.steady_refl _))
theorem State.orderly_onLine (k : Nat) (f : Line → Line) (h : s.orderly t) : s.orderly (t.onLine k f) := State.orderly_steady h (State.steady_onLine _ _ (State.steady_refl _))
theorem State.orderly_onIwin (k : Nat) (f : WinEntry → WinEntry) (h : s.orderly t) : s.orderly (t.onIwin k f) := State.orderly_steady h (State.steady_onIwin _ _ (State.steady_refl _))
theorem State.orderly_onFlow (k : Nat) (f : Flow → Flow) (h : s.orderly t) : s.orderly (t.onFlow k f) := State.orderly_steady h (State.steady_onFlow _ _ (State.steady_refl _))
theorem State.orderly_onRx (k : Nat) (f : RxFlow → RxFlow) (h : s.orderly t) : s.orderly (t.onRx k f) := State.orderly_steady h (State.steady_onRx _ _ (State.steady_refl _))
theorem State.orderly_onArbiter (k : Nat) (f : Arbiter → Arbiter) (h : s.orderly t) : s.orderly (t.onArbiter k f) := State.orderly_steady h (State.steady_onArbiter _ _ (State.steady_refl _))
theorem State.orderly_onAreq (k i : Nat) (f : ArbReq → ArbReq) (h : s.orderly t) : s.orderly (t.onAreq k i f) := State.orderly_steady h (State.steady_onAreq _ _ _ (State.steady_refl _))
theorem State.orderly_setWalker (k : Nat) (x : Option Walk) (h : s.orderly t) : s.orderly (t.setWalker k x) := State.orderly_steady h (State.steady_setWalker _ _ (State.steady_refl _))
theorem State.orderly_setWrec (k : Nat) (x : Option WRec) (h : s.orderly t) : s.orderly (t.setWrec k x) := State.orderly_steady h (State.steady_setWrec _ _ (State.steady_refl _))
theorem State.orderly_onCount (pg : Nat) (f : PageCounters → PageCounters) (h : s.orderly t) : s.orderly (t.onCount pg f) := State.orderly_steady h (State.steady_onCount _ _ (State.steady_refl _))
theorem State.orderly_ops (pg n : Nat) (h : s.orderly t) : s.orderly (t.ops pg n) := State.orderly_steady h (State.steady_ops _ _ (State.steady_refl _))
theorem State.orderly_bytes (pg n : Nat) (h : s.orderly t) : s.orderly (t.bytes pg n) := State.orderly_steady h (State.steady_bytes _ _ (State.steady_refl _))
theorem State.orderly_emit (o : Out) (h : s.orderly t) : s.orderly (t.emit o) := State.orderly_steady h (State.steady_emit _ (State.steady_refl _))
theorem State.orderly_ltrSince (a : State) (h : s.orderly t) : s.orderly (t.ltrSince a) := State.orderly_steady h (State.steady_ltrSince _ (State.steady_refl _))

theorem State.orderly_draw (h : s.orderly t) : s.orderly t.draw.2 := State.orderly_steady h (State.steady_draw (State.steady_refl _))
theorem State.orderly_onHeldId (fn k : Nat) (h : s.orderly t) : s.orderly (t.onHeld fn k id) :=
  State.orderly_steady h (State.steady_onHeld _ _ _ (State.steady_refl _) fun _ h => h)

theorem State.orderly_flag (a0 : Nat) (a1 : Nat) (a2 : Nat) (a3 : Code) (a4 : Nat) (h : s.orderly t) : s.orderly (t.flag a0 a1 a2 a3 a4) := State.orderly_steady h (State.steady_flag _ _ _ _ _ (State.steady_refl _))

theorem State.orderly_awake  (h : s.orderly t) : s.orderly (t.awake ) := State.orderly_steady h (State.steady_awake (State.steady_refl _))

theorem State.orderly_tlp  (h : s.orderly t) : s.orderly (t.tlp ) := State.orderly_steady h (State.steady_tlp (State.steady_refl _))

theorem State.orderly_recallLine (a0 : Nat) (h : s.orderly t) : s.orderly (t.recallLine a0) := State.orderly_steady h (State.steady_recallLine _ (State.steady_refl _))

theorem State.orderly_runHome  (h : s.orderly t) : s.orderly (t.runHome ) := State.orderly_steady h (State.steady_runHome (State.steady_refl _))

theorem State.orderly_recallAll  (h : s.orderly t) : s.orderly (t.recallAll ) := State.orderly_steady h (State.steady_recallAll (State.steady_refl _))

theorem State.orderly_homeResume  (h : s.orderly t) : s.orderly (t.homeResume ) := State.orderly_steady h (State.steady_homeResume (State.steady_refl _))

theorem State.orderly_homeLinkDown (a0 : Nat) (h : s.orderly t) : s.orderly (t.homeLinkDown a0) := State.orderly_steady h (State.steady_homeLinkDown _ (State.steady_refl _))

theorem State.orderly_judgeQueue (a0 : Bool) (a1 : Nat) (h : s.orderly t) : s.orderly (t.judgeQueue a0 a1) := State.orderly_steady h (State.steady_judgeQueue _ _ (State.steady_refl _))

theorem State.orderly_dblFlag (a0 : Nat) (a1 : Nat) (a2 : Nat) (a3 : Code) (h : s.orderly t) : s.orderly (t.dblFlag a0 a1 a2 a3) := State.orderly_steady h (State.steady_dblFlag _ _ _ _ (State.steady_refl _))

theorem State.orderly_judgePool (a0 : Nat) (h : s.orderly t) : s.orderly (t.judgePool a0) := State.orderly_steady h (State.steady_judgePool _ (State.steady_refl _))

theorem State.orderly_pwnFlag (a0 : Nat) (a1 : Nat) (h : s.orderly t) : s.orderly (t.pwnFlag a0 a1) := State.orderly_steady h (State.steady_pwnFlag _ _ (State.steady_refl _))

theorem State.orderly_followSlip  (h : s.orderly t) : s.orderly (t.followSlip ) := State.orderly_steady h (State.steady_followSlip (State.steady_refl _))

theorem State.orderly_prtFlag (a0 : Nat) (h : s.orderly t) : s.orderly (t.prtFlag a0) := State.orderly_steady h (State.steady_prtFlag _ (State.steady_refl _))

theorem State.orderly_startClose (a0 : Nat) (h : s.orderly t) : s.orderly (t.startClose a0) := State.orderly_steady h (State.steady_startClose _ (State.steady_refl _))

theorem State.orderly_trimWays (a0 : Nat) (h : s.orderly t) : s.orderly (t.trimWays a0) := State.orderly_steady h (State.steady_trimWays _ (State.steady_refl _))

theorem State.orderly_reclaimChannels (a0 : Nat) (a1 : Word) (h : s.orderly t) : s.orderly (t.reclaimChannels a0 a1) := State.orderly_steady h (State.steady_reclaimChannels _ _ (State.steady_refl _))

theorem State.orderly_reclaimMovers (a0 : Nat) (a1 : Word) (h : s.orderly t) : s.orderly (t.reclaimMovers a0 a1) := State.orderly_steady h (State.steady_reclaimMovers _ _ (State.steady_refl _))

theorem State.orderly_reclaimObjects (a0 : Nat) (a1 : Word) (h : s.orderly t) : s.orderly (t.reclaimObjects a0 a1) := State.orderly_steady h (State.steady_reclaimObjects _ _ (State.steady_refl _))

theorem State.orderly_reclaimPlans (a0 : Nat) (a1 : Word) (n : Nat) (h : s.orderly t) : s.orderly (t.reclaimPlans a0 a1 n) := State.orderly_steady h (State.steady_reclaimPlans _ _ _ (State.steady_refl _))

theorem State.orderly_reclaimTargets (a0 : Nat) (a1 : Word) (h : s.orderly t) : s.orderly (t.reclaimTargets a0 a1) := State.orderly_steady h (State.steady_reclaimTargets _ _ (State.steady_refl _))

theorem State.orderly_hlkFlag (a0 : Nat) (a1 : Code) (h : s.orderly t) : s.orderly (t.hlkFlag a0 a1) := State.orderly_steady h (State.steady_hlkFlag _ _ (State.steady_refl _))

theorem State.orderly_npAnswer (a0 : NpReq) (a1 : Code) (a2 : Bool) (h : s.orderly t) : s.orderly (t.npAnswer a0 a1 a2) := State.orderly_steady h (State.steady_npAnswer _ _ _ (State.steady_refl _))

theorem State.orderly_silence (a0 : Nat) (h : s.orderly t) : s.orderly (t.silence a0) := State.orderly_steady h (State.steady_silence _ (State.steady_refl _))

theorem State.orderly_unsilence (a0 : Nat) (h : s.orderly t) : s.orderly (t.unsilence a0) := State.orderly_steady h (State.steady_unsilence _ (State.steady_refl _))

theorem State.orderly_freshCredits (a0 : Nat) (h : s.orderly t) : s.orderly (t.freshCredits a0) := State.orderly_steady h (State.steady_freshCredits _ (State.steady_refl _))

theorem State.orderly_runOn  (h : s.orderly t) : s.orderly (t.runOn ) := State.orderly_steady h (State.steady_runOn (State.steady_refl _))

theorem State.orderly_evcFlag (a0 : Nat) (a1 : Nat) (h : s.orderly t) : s.orderly (t.evcFlag a0 a1) := State.orderly_steady h (State.steady_evcFlag _ _ (State.steady_refl _))

theorem State.orderly_rasFlag (a0 : Nat) (a1 : Code) (h : s.orderly t) : s.orderly (t.rasFlag a0 a1) := State.orderly_steady h (State.steady_rasFlag _ _ (State.steady_refl _))

theorem State.orderly_inner (a0 : State → State) (h : s.orderly t) (ha0 : ∀ (x0 : State), s.orderly x0 → s.orderly (a0 x0)) : s.orderly (t.inner a0) := by
  unfold State.inner
  repeat' first
    | with_reducible assumption
    | (with_reducible refine ha0 _ ?_)
    | split

theorem State.orderly_act (a0 : State → State) (h : s.orderly t) (ha0 : ∀ (x0 : State), s.orderly x0 → s.orderly (a0 x0)) : s.orderly (t.act a0) := by
  unfold State.act
  repeat' first
    | with_reducible assumption
    | (with_reducible refine ha0 _ ?_)
    | with_reducible refine State.orderly_inner _ ?_ ?_
    | with_reducible refine State.orderly_awake ?_
    | (intro _ _; try dsimp only)

theorem State.orderly_actAnswer (a0 : State → State) (h : s.orderly t) (ha0 : ∀ (x0 : State), s.orderly x0 → s.orderly (a0 x0)) : s.orderly (t.actAnswer a0) := by
  unfold State.actAnswer
  repeat' first
    | with_reducible assumption
    | with_reducible refine State.orderly_inner _ ?_ ?_
    | with_reducible refine State.orderly_act _ ?_ ?_
    | split

theorem State.orderly_paged (a0 : Nat) (a1 : State → State) (h : s.orderly t) (ha1 : ∀ (x0 : State), s.orderly x0 → s.orderly (a1 x0)) : s.orderly (t.paged a0 a1) := by
  unfold State.paged
  repeat' first
    | with_reducible assumption
    | (with_reducible refine ha1 _ ?_)
    | with_reducible refine State.orderly_act _ ?_ ?_
    | with_reducible refine State.orderly_tlp ?_
    | (intro _ _; try dsimp only)
    | split

theorem State.orderly_view (a0 : Nat) (a1 : State → State) (h : s.orderly t) (ha1 : ∀ (x0 : State), s.orderly x0 → s.orderly (a1 x0)) : s.orderly (t.view a0 a1) := by
  unfold State.view
  repeat' first
    | with_reducible assumption
    | (with_reducible refine ha1 _ ?_)
    | with_reducible refine State.orderly_paged _ _ ?_ ?_
    | (intro _ _; try dsimp only)
    | split

theorem State.orderly_writePrange (a0 : Bool) (a1 : Word) (h : s.orderly t) : s.orderly (t.writePrange a0 a1) := by
  unfold State.writePrange
  repeat' first
    | with_reducible assumption
    | with_reducible refine State.orderly_judgeQueue _ _ ?_
    | with_reducible refine State.orderly_judgePool _ ?_
    | ((with_reducible show State.orderly _ (State.onXlt _ _)); refine State.orderly_onXlt _ ?_)
    | dsimp only
    | split

theorem State.orderly_doorbell (a0 : Nat) (a1 : Nat) (a2 : Byte) (a3 : State) (h : s.orderly t) (ha3 : s.orderly a3) : s.orderly (t.doorbell a0 a1 a2 a3) := by
  unfold State.doorbell
  repeat' first
    | with_reducible assumption
    | with_reducible refine State.orderly_dblFlag _ _ _ _ ?_
    | dsimp only
    | split

theorem State.orderly_dbCtl (a0 : Nat) (a1 : Nat) (a2 : Byte) (a3 : State) (h : s.orderly t) (ha3 : s.orderly a3) : s.orderly (t.dbCtl a0 a1 a2 a3) := by
  unfold State.dbCtl
  repeat' first
    | with_reducible assumption
    | with_reducible refine State.orderly_doorbell _ _ _ _ ?_ ?_
    | with_reducible refine State.orderly_dblFlag _ _ _ _ ?_
    | split

theorem State.orderly_writeAllot (a0 : Bool) (a1 : Word) (h : s.orderly t) : s.orderly (t.writeAllot a0 a1) := by
  unfold State.writeAllot
  repeat' first
    | with_reducible assumption
    | with_reducible refine State.orderly_pwnFlag _ _ ?_
    | ((with_reducible show State.orderly _ (State.onPeer _ _)); refine State.orderly_onPeer _ ?_)
    | dsimp only
    | split

theorem State.orderly_writeDroneCfg (a0 : Word) (h : s.orderly t) : s.orderly (t.writeDroneCfg a0) := by
  unfold State.writeDroneCfg
  repeat' first
    | with_reducible assumption
    | with_reducible refine State.orderly_flag _ _ _ _ _ ?_
    | with_reducible refine State.orderly_followSlip ?_
    | ((with_reducible show State.orderly _ (State.onCht _ _)); refine State.orderly_onCht _ ?_)
    | split

theorem State.orderly_writeRsvMax (a0 : Word) (h : s.orderly t) : s.orderly (t.writeRsvMax a0) := by
  unfold State.writeRsvMax
  repeat' first
    | with_reducible assumption
    | with_reducible refine State.orderly_flag _ _ _ _ _ ?_
    | ((with_reducible show State.orderly _ (State.onCht _ _)); refine State.orderly_onCht _ ?_)
    | dsimp only
    | split

theorem State.orderly_enablePart  (h : s.orderly t) : s.orderly (t.enablePart) := by
  unfold State.enablePart
  repeat' first
    | with_reducible assumption
    | with_reducible refine State.orderly_prtFlag _ ?_
    | with_reducible refine State.orderly_ltrSince _ ?_
    | with_reducible refine State.orderly_freshCredits _ ?_
    | with_reducible refine State.orderly_ops _ _ ?_
    | ((with_reducible show State.orderly _ (State.onPart _ _ _)); refine State.orderly_onPart _ _ ?_)
    | dsimp only
    | split

theorem State.orderly_disablePart  (h : s.orderly t) : s.orderly (t.disablePart) := by
  unfold State.disablePart
  repeat' first
    | with_reducible assumption
    | with_reducible refine State.orderly_prtFlag _ ?_
    | with_reducible refine State.orderly_ltrSince _ ?_
    | with_reducible refine State.orderly_ops _ _ ?_
    | with_reducible refine State.orderly_startClose _ ?_
    | ((with_reducible show State.orderly _ (State.onPart _ _ _)); refine State.orderly_onPart _ _ ?_)
    | dsimp only
    | split

theorem State.orderly_disableDone (a0 : Nat) (h : s.orderly t) : s.orderly (t.disableDone a0) := by
  unfold State.disableDone
  repeat' first
    | with_reducible assumption
    | with_reducible refine State.orderly_ltrSince _ ?_
    | with_reducible refine State.orderly_freshCredits _ ?_
    | with_reducible refine State.orderly_ops _ _ ?_
    | ((with_reducible show State.orderly _ (State.onPart _ _ _)); refine State.orderly_onPart _ _ ?_)
    | dsimp only
    | split

theorem State.orderly_applyQuota (a0 : Nat) (a1 : Quota) (a2 : Word) (h : s.orderly t) : s.orderly (t.applyQuota a0 a1 a2) := by
  unfold State.applyQuota
  repeat' first
    | with_reducible assumption
    | with_reducible refine State.orderly_trimWays _ ?_
    | ((with_reducible show State.orderly _ (State.onPart _ _ _)); refine State.orderly_onPart _ _ ?_)
    | dsimp only
    | split

theorem State.orderly_writeQuota (a0 : Quota) (a1 : Word) (h : s.orderly t) : s.orderly (t.writeQuota a0 a1) := by
  unfold State.writeQuota
  dsimp only
  split
  · exact State.orderly_onPart _ _ h
  · exact State.orderly_applyQuota _ _ _ h

theorem State.orderly_drainEnds (a0 : Nat) (a1 : Drained) (h : s.orderly t) : s.orderly (t.drainEnds a0 a1) := by
  unfold State.drainEnds
  repeat' first
    | with_reducible assumption
    | with_reducible refine State.orderly_reclaimChannels _ _ ?_
    | with_reducible refine State.orderly_reclaimMovers _ _ ?_
    | with_reducible refine State.orderly_reclaimObjects _ _ ?_
    | with_reducible refine State.orderly_reclaimPlans _ _ _ ?_
    | with_reducible refine State.orderly_reclaimTargets _ _ ?_
    | with_reducible refine State.orderly_prtFlag _ ?_
    | ((with_reducible show State.orderly _ (State.onPart _ _ _)); refine State.orderly_onPart _ _ ?_)
    | dsimp only
    | split

theorem State.orderly_reconfig (a0 : State → State) (h : s.orderly t) (ha0 : ∀ (x0 : State), s.orderly x0 → s.orderly (a0 x0)) : s.orderly (t.reconfig a0) := by
  unfold State.reconfig
  repeat' first
    | with_reducible assumption
    | (with_reducible refine ha0 _ ?_)
    | with_reducible refine State.orderly_silence _ ?_
    | with_reducible refine State.orderly_unsilence _ ?_
    | with_reducible refine State.orderly_ltrSince _ ?_
    | with_reducible refine State.orderly_foldl _ _ ?_ ?_
    | (intro _ _ _; try dsimp only)
    | split

theorem State.orderly_startFlr (p : Nat) (h : s.orderly t) : s.orderly (t.startFlr p) := by
  unfold State.startFlr
  split
  · exact h
  · have h1 : s.orderly (t.reconfig fun t => t.onHlk fun h => { h with flr := h.flr ++ [p] }) :=
      State.orderly_reconfig _ h fun x hx => State.orderly_onHlk _ hx
    extract_lets s1
    change s.orderly s1 at h1
    clear_value s1
    exact State.orderly_startClose _ (State.orderly_onMgmt _ _ (State.orderly_onHlk _ h1))

theorem State.orderly_startPfFlr (h : s.orderly t) : s.orderly t.startPfFlr := by
  unfold State.startPfFlr
  split
  · exact h
  · have h1 : s.orderly (t.reconfig fun t => t.onHlk fun h => { h with flr := [0] }) :=
      State.orderly_reconfig _ h fun x hx => State.orderly_onHlk _ hx
    extract_lets s1
    change s.orderly s1 at h1
    clear_value s1
    exact State.orderly_foldl _ _ (State.orderly_onHlk _ h1) fun _ _ hx =>
      State.orderly_startClose _ (State.orderly_onMgmt _ _ hx)

theorem State.orderly_lostFunctions (a0 : State → State) (h : s.orderly t) (ha0 : ∀ (x0 : State), s.orderly x0 → s.orderly (a0 x0)) : s.orderly (t.lostFunctions a0) := by
  unfold State.lostFunctions
  repeat' first
    | with_reducible assumption
    | with_reducible refine State.orderly_reconfig _ ?_ ?_
    | with_reducible refine State.orderly_startPfFlr ?_
    | with_reducible refine State.orderly_startFlr _ ?_
    | with_reducible refine State.orderly_foldl _ _ ?_ ?_
    | (intro _ _ _; try dsimp only)
    | dsimp only
    | split

theorem State.orderly_setBme (a0 : Nat) (a1 : Nat) (a2 : Option FnCtl) (h : s.orderly t) : s.orderly (t.setBme a0 a1 a2) := by
  unfold State.setBme
  repeat' first
    | with_reducible assumption
    | with_reducible refine State.orderly_reconfig _ ?_ ?_
    | ((with_reducible show State.orderly _ (State.onInst _ _ _ _)); refine State.orderly_onInst _ _ _ ?_)
    | (intro _ _; try dsimp only)

theorem State.orderly_vfFlr (a0 : Nat) (a1 : Nat) (h : s.orderly t) : s.orderly (t.vfFlr a0 a1) := by
  unfold State.vfFlr
  repeat' first
    | with_reducible assumption
    | with_reducible refine State.orderly_startFlr _ ?_
    | with_reducible refine State.orderly_ltrSince _ ?_
    | with_reducible refine State.orderly_resetInst _ _ _ ?_
    | split

theorem State.orderly_pfFlr (link : Nat) (h : s.orderly t) : s.orderly (t.pfFlr link) := by
  unfold State.pfFlr
  extract_lets s1 s2
  have h1 : s.orderly s1 := State.orderly_startPfFlr h
  clear_value s1
  have h2 : s.orderly s2 := State.orderly_foldl _ _ (State.orderly_resetInst _ _ _ h1) fun _ _ hx => by
    split
    · exact hx
    · exact State.orderly_resetInst _ _ _ hx
  clear_value s2
  exact State.orderly_ltrSince _ (State.orderly_onLink _ _ h2)

theorem State.orderly_vfFlrDone (a0 : Nat) (h : s.orderly t) : s.orderly (t.vfFlrDone a0) := by
  unfold State.vfFlrDone
  repeat' first
    | with_reducible assumption
    | with_reducible refine State.orderly_reconfig _ ?_ ?_
    | ((with_reducible show State.orderly _ (State.onPart _ _ _)); refine State.orderly_onPart _ _ ?_)
    | ((with_reducible show State.orderly _ (State.onInst _ _ _ _)); refine State.orderly_onInst _ _ _ ?_)
    | ((with_reducible show State.orderly _ (State.onHlk _ _)); refine State.orderly_onHlk _ ?_)
    | with_reducible refine State.orderly_foldl _ _ ?_ ?_
    | (intro _ _ _; try dsimp only)
    | (intro _ _; try dsimp only)
    | dsimp only
    | split

theorem State.orderly_vfEnable (a0 : Nat) (a1 : Nat) (h : s.orderly t) : s.orderly (t.vfEnable a0 a1) := by
  unfold State.vfEnable
  repeat' first
    | with_reducible assumption
    | with_reducible refine State.orderly_reconfig _ ?_ ?_
    | ((with_reducible show State.orderly _ (State.onHlk _ _)); refine State.orderly_onHlk _ ?_)
    | ((with_reducible show State.orderly _ (State.onInst _ _ _ _)); refine State.orderly_onInst _ _ _ ?_)
    | (intro _ _; try dsimp only)
    | split

theorem State.orderly_vfDisable (a0 : Nat) (a1 : Nat) (h : s.orderly t) : s.orderly (t.vfDisable a0 a1) := by
  unfold State.vfDisable
  repeat' first
    | with_reducible assumption
    | with_reducible refine State.orderly_lostFunctions _ ?_ ?_
    | ((with_reducible show State.orderly _ (State.onHlk _ _)); refine State.orderly_onHlk _ ?_)
    | with_reducible refine State.orderly_resetInst _ _ _ ?_
    | (intro _ _; try dsimp only)
    | split

theorem State.orderly_linkUp (a0 : Nat) (a1 : Bool) (a2 : BitVec 4) (a3 : BitVec 5) (h : s.orderly t) : s.orderly (t.linkUp a0 a1 a2 a3) := by
  unfold State.linkUp
  repeat' first
    | with_reducible assumption
    | with_reducible refine State.orderly_reconfig _ ?_ ?_
    | ((with_reducible show State.orderly _ (State.onLink _ _ _)); refine State.orderly_onLink _ _ ?_)
    | (intro _ _; try dsimp only)

theorem State.orderly_linkFalls (a0 : Nat) (h : s.orderly t) : s.orderly (t.linkFalls a0) := by
  unfold State.linkFalls
  repeat' first
    | with_reducible assumption
    | with_reducible refine State.orderly_npAnswer _ _ _ ?_
    | with_reducible refine State.orderly_walksDown _ ?_
    | with_reducible refine State.orderly_homeLinkDown _ ?_
    | with_reducible refine State.orderly_hlkFlag _ _ ?_
    | with_reducible refine State.orderly_lostFunctions _ ?_ ?_
    | ((with_reducible show State.orderly _ (State.onHlk _ _)); refine State.orderly_onHlk _ ?_)
    | with_reducible refine State.orderly_resetInst _ _ _ ?_
    | ((with_reducible show State.orderly _ (State.onLink _ _ _)); refine State.orderly_onLink _ _ ?_)
    | with_reducible refine State.orderly_foldl _ _ ?_ ?_
    | (intro _ _ _; try dsimp only)
    | (intro _ _; try dsimp only)
    | split

theorem State.orderly_linkDown (a0 : Nat) (h : s.orderly t) : s.orderly (t.linkDown a0) := by
  unfold State.linkDown
  repeat' first
    | with_reducible assumption
    | with_reducible refine State.orderly_linkFalls _ ?_
    | split

theorem State.orderly_perstLink (a0 : Nat) (h : s.orderly t) : s.orderly (t.perstLink a0) := by
  unfold State.perstLink
  repeat' first
    | with_reducible assumption
    | with_reducible refine State.orderly_linkFalls _ ?_

theorem State.orderly_cacheOff (a0 : Nat) (h : s.orderly t) : s.orderly (t.cacheOff a0) := by
  unfold State.cacheOff
  repeat' first
    | with_reducible assumption
    | with_reducible refine State.orderly_recallLine _ ?_
    | with_reducible refine State.orderly_runHome ?_
    | ((with_reducible show State.orderly _ (State.onLink _ _ _)); refine State.orderly_onLink _ _ ?_)
    | with_reducible refine State.orderly_foldl _ _ ?_ ?_
    | (intro _ _ _; try dsimp only)
    | split

theorem State.orderly_cacheOn (a0 : Nat) (h : s.orderly t) : s.orderly (t.cacheOn a0) := by
  unfold State.cacheOn
  repeat' first
    | with_reducible assumption
    | ((with_reducible show State.orderly _ (State.onLink _ _ _)); refine State.orderly_onLink _ _ ?_)

theorem State.orderly_setMap (a0 : RemapReg) (a1 : Nat) (a2 : Word) (h : s.orderly t) : s.orderly (t.setMap a0 a1 a2) := by
  unfold State.setMap
  repeat' first
    | with_reducible assumption
    | ((with_reducible show State.orderly _ (State.onHlk _ _)); refine State.orderly_onHlk _ ?_)
    | split

theorem State.orderly_hlkRemap (a0 : RemapReg) (a1 : Word) (h : s.orderly t) : s.orderly (t.hlkRemap a0 a1) := by
  unfold State.hlkRemap
  repeat' first
    | with_reducible assumption
    | with_reducible refine State.orderly_setMap _ _ _ ?_
    | with_reducible refine State.orderly_hlkFlag _ _ ?_
    | with_reducible refine State.orderly_recallAll ?_
    | ((with_reducible show State.orderly _ (State.onHlk _ _)); refine State.orderly_onHlk _ ?_)
    | dsimp only
    | split

theorem State.orderly_remapDone  (h : s.orderly t) : s.orderly (t.remapDone) := by
  unfold State.remapDone
  repeat' first
    | with_reducible assumption
    | with_reducible refine State.orderly_setMap _ _ _ ?_
    | with_reducible refine State.orderly_homeResume ?_
    | ((with_reducible show State.orderly _ (State.onHlk _ _)); refine State.orderly_onHlk _ ?_)
    | split

theorem State.orderly_writePm (a0 : Nat) (a1 : BitVec 2) (a2 : Bool) (a3 : Bool) (h : s.orderly t) : s.orderly (t.writePm a0 a1 a2 a3) := by
  unfold State.writePm
  repeat' first
    | with_reducible assumption
    | ((with_reducible show State.orderly _ (State.onInst _ _ _ _)); refine State.orderly_onInst _ _ _ ?_)
    | with_reducible refine State.orderly_foldl _ _ ?_ ?_
    | (intro _ _ _; try dsimp only)

theorem State.orderly_d3hot (a0 : Nat) (a1 : Bool) (a2 : Bool) (h : s.orderly t) : s.orderly (t.d3hot a0 a1 a2) := by
  unfold State.d3hot
  repeat' first
    | with_reducible assumption
    | with_reducible refine State.orderly_flag _ _ _ _ _ ?_
    | with_reducible refine State.orderly_reconfig _ ?_ ?_
    | with_reducible refine State.orderly_writePm _ _ _ _ ?_
    | with_reducible refine State.orderly_foldl _ _ ?_ ?_
    | (intro _ _ _; try dsimp only)
    | (intro _ _; try dsimp only)

theorem State.orderly_d0Return (a0 : Nat) (a1 : Bool) (a2 : Bool) (h : s.orderly t) : s.orderly (t.d0Return a0 a1 a2) := by
  unfold State.d0Return
  repeat' first
    | with_reducible assumption
    | with_reducible refine State.orderly_reconfig _ ?_ ?_
    | with_reducible refine State.orderly_writePm _ _ _ _ ?_
    | ((with_reducible show State.orderly _ (State.onPwr _ _)); refine State.orderly_onPwr _ ?_)
    | (intro _ _; try dsimp only)

theorem State.orderly_enter (a0 : PwrSt) (a1 : PwrSt) (a2 : State → State) (h : s.orderly t) (ha2 : ∀ (x0 : State), s.orderly x0 → s.orderly (a2 x0)) : s.orderly (t.enter a0 a1 a2) := by
  unfold State.enter
  repeat' first
    | with_reducible assumption
    | (with_reducible refine ha2 _ ?_)
    | with_reducible refine State.orderly_ops _ _ ?_
    | ((with_reducible show State.orderly _ (State.onPwr _ _)); refine State.orderly_onPwr _ ?_)
    | split

theorem State.orderly_writeWlb (a0 : Nat) (a1 : BitVec 32) (h : s.orderly t) : s.orderly (t.writeWlb a0 a1) := by
  unfold State.writeWlb
  repeat' first
    | with_reducible assumption
    | with_reducible refine State.orderly_ltrSince _ ?_
    | ((with_reducible show State.orderly _ (State.onPwr _ _)); refine State.orderly_onPwr _ ?_)

/-- A warm reset keeps GLB_TIME, the queue and the form of the tables (R401). -/
theorem State.orderly_warmState (h : s.orderly t) : s.orderly t.warmState := by
  refine ⟨h.1, h.2.1, fun w => ?_⟩
  have w := h.2.2 w
  have hh : t.hlk.wf = true := by simp only [State.wf, Bool.and_eq_true] at w; simp_all
  have hk : t.warmState.hlk.wf = true := by
    simp only [Hlk.wf, Bool.and_eq_true] at hh ⊢
    exact ⟨⟨⟨⟨⟨rfl, hh.1.1.1.1.2⟩, hh.1.1.1.2⟩, rfl⟩, rfl⟩, hh.2⟩
  simp only [State.wf, hk]
  rfl

theorem State.orderly_warmReset (a0 : Word) (h : s.orderly t) : s.orderly (t.warmReset a0) := by
  unfold State.warmReset
  repeat' first
    | with_reducible assumption
    | with_reducible refine State.orderly_warmState ?_
    | split

theorem tabWf_regen {α : Type} [DecidableEq α] (d : Nat → α) (f : Nat × α → α) (l : Tab α) (r : Tab α) (h : tabWf d r = true) :
    tabWf d (l.foldl (fun t e => tabPut d t e.1 (f e)) r) = true := by
  induction l generalizing r with
  | nil => exact h
  | cons e l ih => exact ih _ (tabWf_tabPut _ h _ _)

theorem tabWf_degraded (l : Tab PageCounters) (h : tabWf (fun _ => {}) l = true) :
    tabWf (fun _ => {}) ((l.filter fun (e : Nat × PageCounters) => e.2.degraded).map
      fun (e : Nat × PageCounters) => (e.1, { degraded := true : PageCounters })) = true := by
  induction l with
  | nil => rfl
  | cons e r ih =>
    have hr := ih (tabWf_tail _ h)
    rw [List.filter_cons]
    split
    · refine tabWf_cons _ (by decide) (fun x hx => ?_) hr
      obtain ⟨y, hy, rfl⟩ := List.mem_map.1 hx
      exact tabWf_above _ h y (List.mem_of_mem_filter hy)
    · exact hr

theorem State.orderly_restored (h : s.orderly t) : s.orderly t.restored := by
  refine State.orderly_trans h ?_
  unfold State.restored
  refine State.orderly_foldl _ _ ?_ fun x e hx => ?_
  · refine ⟨rfl, rfl, fun w => ?_⟩
    have wh : t.hlk.wf = true := by simp only [State.wf, Bool.and_eq_true] at w; simp_all
    have wg : t.glb.wf = true := by simp only [State.wf, Bool.and_eq_true] at w; simp_all
    have wn : t.noc.wf = true := by simp only [State.wf, Bool.and_eq_true] at w; simp_all
    have wo : t.home.wf = true := by simp only [State.wf, Bool.and_eq_true] at w; simp_all
    have wp : t.peer.wf = true := by simp only [State.wf, Bool.and_eq_true] at w; simp_all
    clear w
    have hg : tabWf stickyDflt (if t.glb.fatal = true then [(0, { en := 0xFE, bits := 0x10 })] else []) = true := by
      split <;> decide
    have hc := tabWf_regen (fun _ => ({} : Chan)) (fun e => { gen := e.2.gen, fetchNo := e.2.fetchNo + 1 }) t.dbl.chan [] rfl
    have ho := tabWf_regen (fun _ => ({} : Obj)) (fun e => { gen := e.2.gen }) t.syn.obj [] rfl
    have he := tabWf_regen (fun _ => ({} : Entry)) (fun e => { gen := e.2.gen, occ := e.2.occ + 1, resNo := e.2.resNo + 1 }) t.cht.entry [] rfl
    have hb := tabWf_degraded t.glb.blocks (by simp only [Glb.wf, Bool.and_eq_true] at wg; simp_all)
    simp only [Hlk.wf, Home.wf, Peer.wf, Bool.and_eq_true] at wh wo wp
    simp only [State.wf, Bool.and_eq_true, Hlk.wf, Glb.wf, Home.wf, Peer.wf, Dbl.wf, Syn.wf, Cht.wf]
    refine ⟨⟨⟨⟨⟨⟨⟨⟨⟨⟨⟨⟨⟨⟨⟨⟨?_, rfl⟩, ?_⟩, wn⟩, ?_⟩, rfl⟩, rfl⟩, rfl⟩, rfl⟩, ?_⟩, ?_⟩, ?_⟩, ?_⟩, rfl⟩, rfl⟩, rfl⟩, rfl⟩
    · exact ⟨⟨hg, hb⟩, rfl⟩
    · simp_all
    · exact ⟨hc, rfl⟩
    · exact ⟨⟨ho, rfl⟩, rfl⟩
    · exact ⟨⟨⟨rfl, he⟩, rfl⟩, rfl⟩
    · simp_all
    · simp_all
  · split
    · exact State.orderly_onInst _ _ _ hx
    · exact hx

theorem State.orderly_flrDone (a0 : Nat) (h : s.orderly t) : s.orderly (t.flrDone a0) := by
  unfold State.flrDone
  repeat' first
    | with_reducible assumption
    | with_reducible refine State.orderly_vfFlrDone _ ?_
    | with_reducible refine State.orderly_restored ?_
    | with_reducible refine State.orderly_ltrSince _ ?_
    | split

theorem State.orderly_arrives (a0 : State → State) (h : s.orderly t) (ha0 : ∀ (x0 : State), s.orderly x0 → s.orderly (a0 x0)) : s.orderly (t.arrives a0) := by
  unfold State.arrives
  repeat' first
    | with_reducible assumption
    | (with_reducible refine ha0 _ ?_)
    | with_reducible refine State.orderly_act _ ?_ ?_
    | with_reducible refine State.orderly_runOn ?_
    | (intro _ _; try dsimp only)

theorem State.orderly_answered (a0 : State → State) (h : s.orderly t) (ha0 : ∀ (x0 : State), s.orderly x0 → s.orderly (a0 x0)) : s.orderly (t.answered a0) := by
  unfold State.answered
  repeat' first
    | with_reducible assumption
    | (with_reducible refine ha0 _ ?_)
    | with_reducible refine State.orderly_actAnswer _ ?_ ?_
    | with_reducible refine State.orderly_runOn ?_
    | (intro _ _; try dsimp only)

theorem State.orderly_onPage (a0 : Nat) (a1 : State → State) (h : s.orderly t) (ha1 : ∀ (x0 : State), s.orderly x0 → s.orderly (a1 x0)) : s.orderly (t.onPage a0 a1) := by
  unfold State.onPage
  repeat' first
    | with_reducible assumption
    | (with_reducible refine ha1 _ ?_)
    | with_reducible refine State.orderly_paged _ _ ?_ ?_
    | with_reducible refine State.orderly_runOn ?_
    | (intro _ _; try dsimp only)

theorem State.orderly_configured (a0 : Nat) (link : Option Nat) (a1 : State → State) (h : s.orderly t) (ha1 : ∀ (x0 : State), s.orderly x0 → s.orderly (a1 x0)) : s.orderly (t.configured a0 link a1) := by
  unfold State.configured
  repeat' first
    | with_reducible assumption
    | (with_reducible refine ha1 _ ?_)
    | with_reducible refine State.orderly_act _ ?_ ?_
    | with_reducible refine State.orderly_emit _ ?_
    | with_reducible refine State.orderly_tlp ?_
    | with_reducible refine State.orderly_runOn ?_
    | with_reducible refine State.orderly_ops _ _ ?_
    | (intro _ _; try dsimp only)
    | split

theorem State.orderly_viewed (a0 : Nat) (a1 : State → State) (h : s.orderly t) (ha1 : ∀ (x0 : State), s.orderly x0 → s.orderly (a1 x0)) : s.orderly (t.viewed a0 a1) := by
  unfold State.viewed
  repeat' first
    | with_reducible assumption
    | (with_reducible refine ha1 _ ?_)
    | with_reducible refine State.orderly_view _ _ ?_ ?_
    | with_reducible refine State.orderly_runOn ?_
    | (intro _ _; try dsimp only)

theorem State.orderly_within (a0 : State → State) (h : s.orderly t) (ha0 : ∀ (x0 : State), s.orderly x0 → s.orderly (a0 x0)) : s.orderly (t.within a0) := by
  unfold State.within
  repeat' first
    | with_reducible assumption
    | (with_reducible refine ha0 _ ?_)
    | with_reducible refine State.orderly_inner _ ?_ ?_
    | with_reducible refine State.orderly_runOn ?_
    | (intro _ _; try dsimp only)

theorem State.orderly_writeSrcSel (a0 : Nat) (a1 : Nat) (h : s.orderly t) : s.orderly (t.writeSrcSel a0 a1) := by
  unfold State.writeSrcSel
  repeat' first
    | with_reducible assumption
    | with_reducible refine State.orderly_evcFlag _ _ ?_
    | ((with_reducible show State.orderly _ (State.onEvc _ _)); refine State.orderly_onEvc _ ?_)
    | split

theorem State.orderly_seed (a0 : Word) (h : s.orderly t) : s.orderly (t.seed a0) :=
  State.orderly_onCcu _ h (Ccu.reseed_wf _ _)

theorem State.orderly_writeStore (a0 : Ras → Ras) (h : s.orderly t)
    (hf : ∀ r : Ras, (a0 r).run = r.run := by exact fun _ => rfl) : s.orderly (t.writeStore a0) := by
  unfold State.writeStore
  split
  · refine State.orderly_onRas _ h (h2 := fun hw => ?_)
    unfold Ras.wf at hw ⊢
    rw [hf]; exact hw
  · exact State.orderly_rasFlag _ _ h

end Sys2Proof.Machine
end

