-- ==== Sys2Proof/Laws/OrderlyRegs.lean ====
section
/-! SUPPORT. Every register of the map, read or written, keeps GLB_TIME, the queue and the form of the tables. -/

-- One proof at a time: hundreds of proofs started together would each wait on the same lemma on a thread of its own.
set_option Elab.async false

namespace Sys2Proof.Machine

set_option linter.unusedTactic false
set_option linter.unreachableTactic false
set_option linter.unusedVariables false

variable {s t u : State}

/-- A register's read and write keep the order. -/
def Reg.orderly (r : Reg) : Prop :=
  (∀ (s t : State) (fn : Nat) (v m : Word), s.orderly t → s.orderly (r.put t fn v m)) ∧
  ∀ (s t : State) (fn : Nat) (m : Word), s.orderly t → s.orderly (r.take t fn m)

theorem Reg.orderly_mk {g : State → Nat → Word} {p : State → Nat → Word → Word → State} {k : State → Nat → Word → State}
    (hp : ∀ (s t : State) (fn : Nat) (v m : Word), s.orderly t → s.orderly (p t fn v m))
    (hk : ∀ (s t : State) (fn : Nat) (m : Word), s.orderly t → s.orderly (k t fn m)) : Reg.orderly { get := g, put := p, take := k } := ⟨hp, hk⟩
theorem ro_orderly (f : State → Nat → Word) : (ro f).orderly := ⟨fun _ _ _ _ _ h => h, fun _ _ _ _ h => h⟩
theorem rw_orderly (mask : Word) (f : State → Nat → Word) (g : State → Nat → Word → State)
    (hg : ∀ (s t : State) (fn : Nat) (v : Word), s.orderly t → s.orderly (g t fn v)) : (rw mask f g).orderly := by
  refine ⟨fun s t fn v m h => ?_, fun _ _ _ _ h => h⟩
  simp only [rw]
  split
  · exact h
  · exact hg _ _ _ _ h
theorem rc_orderly (f : State → Nat → Word) (g : State → Nat → Word → State)
    (hg : ∀ (s t : State) (fn : Nat) (v : Word), s.orderly t → s.orderly (g t fn v)) : (rc f g).orderly :=
  ⟨fun _ _ _ _ _ h => h, fun _ _ _ _ h => hg _ _ _ _ h⟩
theorem w1c_orderly (f : State → Nat → Word) (g : State → Nat → Word → State)
    (hg : ∀ (s t : State) (fn : Nat) (v : Word), s.orderly t → s.orderly (g t fn v)) : (w1c f g).orderly :=
  ⟨fun _ _ _ _ _ h => hg _ _ _ _ h, fun _ _ _ _ h => h⟩
theorem wo_orderly (key : Word) (g : State → Nat → Word → State)
    (hg : ∀ (s t : State) (fn : Nat) (v : Word), s.orderly t → s.orderly (g t fn v)) : (wo key g).orderly := by
  refine ⟨fun s t fn v m h => ?_, fun _ _ _ _ h => h⟩
  simp only [wo]
  split
  · exact h
  · exact hg _ _ _ _ h

theorem State.orderly_merge (a0 : Nat) (h : s.orderly t) : s.orderly (t.merge a0) := State.orderly_steady h (State.steady_merge _ (State.steady_refl _))

theorem State.orderly_trace (a0 : Nat) (a1 : Nat) (a2 : Nat) (a3 : Code) (a4 : Nat) (h : s.orderly t) : s.orderly (t.trace a0 a1 a2 a3 a4) := State.orderly_steady h (State.steady_trace _ _ _ _ _ (State.steady_refl _))

theorem State.orderly_chanPrio (a0 : Nat) (a1 : Word) (h : s.orderly t) : s.orderly (t.chanPrio a0 a1) := State.orderly_steady h (State.steady_chanPrio _ _ (State.steady_refl _))

theorem State.orderly_writeHead (a0 : Bool) (a1 : Nat) (a2 : Word) (h : s.orderly t) : s.orderly (t.writeHead a0 a1 a2) := State.orderly_steady h (State.steady_writeHead _ _ _ (State.steady_refl _))

theorem State.orderly_writeBase (a0 : Bool) (a1 : Nat) (a2 : Bool) (a3 : Word) (h : s.orderly t) : s.orderly (t.writeBase a0 a1 a2 a3) := State.orderly_steady h (State.steady_writeBase _ _ _ _ (State.steady_refl _))

theorem State.orderly_touch (a0 : Nat) (h : s.orderly t) : s.orderly (t.touch a0) := State.orderly_steady h (State.steady_touch _ (State.steady_refl _))

theorem State.orderly_chtFlag (a0 : Nat) (a1 : Nat) (a2 : Nat) (a3 : Code) (h : s.orderly t) : s.orderly (t.chtFlag a0 a1 a2 a3) := State.orderly_steady h (State.steady_chtFlag _ _ _ _ (State.steady_refl _))

theorem State.orderly_objCreate (a0 : Nat) (a1 : BitVec 2) (a2 : Bool) (h : s.orderly t) : s.orderly (t.objCreate a0 a1 a2) := State.orderly_steady h (State.steady_objCreate _ _ _ (State.steady_refl _))

theorem State.orderly_objDestroy (a0 : Nat) (a1 : BitVec 32) (h : s.orderly t) : s.orderly (t.objDestroy a0 a1) := State.orderly_steady h (State.steady_objDestroy _ _ (State.steady_refl _))

theorem State.orderly_objRead (a0 : Nat) (a1 : BitVec 32) (h : s.orderly t) : s.orderly (t.objRead a0 a1) := State.orderly_steady h (State.steady_objRead _ _ (State.steady_refl _))

theorem State.orderly_xltFlag (a0 : Nat) (a1 : Nat) (h : s.orderly t) : s.orderly (t.xltFlag a0 a1) := State.orderly_steady h (State.steady_xltFlag _ _ (State.steady_refl _))

theorem State.orderly_invSubmit (a0 : Nat) (a1 : Word) (h : s.orderly t) : s.orderly (t.invSubmit a0 a1) := State.orderly_steady h (State.steady_invSubmit _ _ (State.steady_refl _))

theorem State.orderly_bindAsid (a0 : Nat) (a1 : Nat) (h : s.orderly t) : s.orderly (t.bindAsid a0 a1) := State.orderly_steady h (State.steady_bindAsid _ _ (State.steady_refl _))

theorem State.orderly_unbindAsid (a0 : Nat) (a1 : Nat) (h : s.orderly t) : s.orderly (t.unbindAsid a0 a1) := State.orderly_steady h (State.steady_unbindAsid _ _ (State.steady_refl _))

theorem State.orderly_accept (a0 : Nat) (a1 : Nat) (h : s.orderly t) : s.orderly (t.accept a0 a1) := State.orderly_steady h (State.steady_accept _ _ (State.steady_refl _))

theorem State.orderly_decline (a0 : Nat) (a1 : Nat) (h : s.orderly t) : s.orderly (t.decline a0 a1) := State.orderly_steady h (State.steady_decline _ _ (State.steady_refl _))

theorem State.orderly_recall (a0 : Nat) (a1 : Nat) (h : s.orderly t) : s.orderly (t.recall a0 a1) := State.orderly_steady h (State.steady_recall _ _ (State.steady_refl _))

theorem State.orderly_preempt (a0 : Nat) (h : s.orderly t) : s.orderly (t.preempt a0) := State.orderly_steady h (State.steady_preempt _ (State.steady_refl _))

theorem State.orderly_mgmtSubmit (a0 : Nat) (a1 : Word) (h : s.orderly t) : s.orderly (t.mgmtSubmit a0 a1) := State.orderly_steady h (State.steady_mgmtSubmit _ _ (State.steady_refl _))

theorem State.orderly_writeRoute (a0 : Word) (h : s.orderly t) : s.orderly (t.writeRoute a0) := State.orderly_steady h (State.steady_writeRoute _ (State.steady_refl _))

theorem State.orderly_writeOwin (a0 : Nat) (a1 : Nat) (a2 : Word) (h : s.orderly t) : s.orderly (t.writeOwin a0 a1 a2) := State.orderly_steady h (State.steady_writeOwin _ _ _ (State.steady_refl _))

theorem State.orderly_writeIwin (a0 : Nat) (a1 : Nat) (a2 : Word) (h : s.orderly t) : s.orderly (t.writeIwin a0 a1 a2) := State.orderly_steady h (State.steady_writeIwin _ _ _ (State.steady_refl _))

theorem State.orderly_droneSet (a0 : Word) (h : s.orderly t) : s.orderly (t.droneSet a0) := State.orderly_steady h (State.steady_droneSet _ (State.steady_refl _))

theorem State.orderly_rebase  (h : s.orderly t) : s.orderly (t.rebase ) := State.orderly_steady h (State.steady_rebase (State.steady_refl _))

theorem State.orderly_planLoad (a0 : Nat) (h : s.orderly t) : s.orderly (t.planLoad a0) := State.orderly_steady h (State.steady_planLoad _ (State.steady_refl _))

theorem State.orderly_planFree (a0 : Nat) (a1 : BitVec 32) (a2 : Nat) (h : s.orderly t) : s.orderly (t.planFree a0 a1 a2) := State.orderly_steady h (State.steady_planFree _ _ _ (State.steady_refl _))

theorem State.orderly_writeSolo (a0 : Engine) (h : s.orderly t) : s.orderly (t.writeSolo a0) := State.orderly_steady h (State.steady_writeSolo _ (State.steady_refl _))

theorem State.orderly_writeShared  (h : s.orderly t) : s.orderly (t.writeShared ) := State.orderly_steady h (State.steady_writeShared (State.steady_refl _))

theorem State.orderly_resetEngine (a0 : Engine) (h : s.orderly t) : s.orderly (t.resetEngine a0) := State.orderly_steady h (State.steady_resetEngine _ (State.steady_refl _))

theorem State.orderly_bootClose  (h : s.orderly t) : s.orderly (t.bootClose ) := State.orderly_steady h (State.steady_bootClose (State.steady_refl _))

theorem State.orderly_bootDoorbell  (h : s.orderly t) : s.orderly (t.bootDoorbell ) := State.orderly_steady h (State.steady_bootDoorbell (State.steady_refl _))

theorem State.orderly_raiseSource (a0 : Nat) (a1 : Nat) (h : s.orderly t) : s.orderly (t.raiseSource a0 a1) := State.orderly_steady h (State.steady_raiseSource _ _ (State.steady_refl _))

theorem State.orderly_clearSource (a0 : Nat) (a1 : Nat) (h : s.orderly t) : s.orderly (t.clearSource a0 a1) := State.orderly_steady h (State.steady_clearSource _ _ (State.steady_refl _))

theorem State.orderly_writeSrcCfg (a0 : Nat) (a1 : Word) (h : s.orderly t) : s.orderly (t.writeSrcCfg a0 a1) := State.orderly_steady h (State.steady_writeSrcCfg _ _ (State.steady_refl _))

theorem State.orderly_assignTarget (a0 : Word) (h : s.orderly t) : s.orderly (t.assignTarget a0) := State.orderly_steady h (State.steady_assignTarget _ (State.steady_refl _))

theorem State.orderly_claimRead (a0 : Nat) (a1 : Nat) (h : s.orderly t) : s.orderly (t.claimRead a0 a1).2 := State.orderly_steady h (State.steady_claimRead _ _ (State.steady_refl _))

theorem State.orderly_completeWrite (a0 : Nat) (a1 : Nat) (a2 : Nat) (h : s.orderly t) : s.orderly (t.completeWrite a0 a1 a2) := State.orderly_steady h (State.steady_completeWrite _ _ _ (State.steady_refl _))

theorem State.orderly_writeThresh (a0 : Nat) (a1 : Nat) (a2 : BitVec 5) (h : s.orderly t) : s.orderly (t.writeThresh a0 a1 a2) := State.orderly_steady h (State.steady_writeThresh _ _ _ (State.steady_refl _))

theorem State.orderly_movFlag (a0 : Nat) (a1 : Nat) (h : s.orderly t) : s.orderly (t.movFlag a0 a1) := State.orderly_steady h (State.steady_movFlag _ _ (State.steady_refl _))

theorem State.orderly_writeArea (a0 : Word) (h : s.orderly t) : s.orderly (t.writeArea a0) := State.orderly_steady h (State.steady_writeArea _ (State.steady_refl _))

theorem State.orderly_scrubStart (a0 : Word) (h : s.orderly t) : s.orderly (t.scrubStart a0) := State.orderly_steady h (State.steady_scrubStart _ (State.steady_refl _))

theorem State.orderly_repairLoad (a0 : Word) (h : s.orderly t) : s.orderly (t.repairLoad a0) := State.orderly_steady h (State.steady_repairLoad _ (State.steady_refl _))

theorem State.orderly_storeCommand (a0 : Word) (h : s.orderly t) : s.orderly (t.storeCommand a0) := State.orderly_steady h (State.steady_storeCommand _ (State.steady_refl _))

theorem State.orderly_onPageCounters (a0 : Nat) (a1 : PageCounters → PageCounters) (h : s.orderly t) : s.orderly (t.onPageCounters a0 a1) := by
  unfold State.onPageCounters
  repeat' first
    | with_reducible assumption
    | ((with_reducible show State.orderly _ (State.onGlb _ _)); refine State.orderly_onGlb _ ?_)

theorem State.orderly_clearPage (a0 : Nat) (h : s.orderly t) : s.orderly (t.clearPage a0) := by
  unfold State.clearPage
  repeat' first
    | with_reducible assumption
    | with_reducible refine State.orderly_onPageCounters _ _ ?_

theorem State.orderly_clearAll  (h : s.orderly t) : s.orderly (t.clearAll) := by
  unfold State.clearAll
  repeat' first
    | with_reducible assumption
    | with_reducible refine State.orderly_clearPage _ ?_
    | with_reducible refine State.orderly_foldl _ _ ?_ ?_
    | (intro _ _ _; try dsimp only)

theorem State.orderly_traceClear  (h : s.orderly t) : s.orderly (t.traceClear) := by
  unfold State.traceClear
  repeat' first
    | with_reducible assumption
    | ((with_reducible show State.orderly _ (State.onGlb _ _)); refine State.orderly_onGlb _ ?_)

theorem State.orderly_writeSticky (a0 : Nat) (a1 : Nat) (a2 : Word) (h : s.orderly t) : s.orderly (t.writeSticky a0 a1 a2) := by
  unfold State.writeSticky
  repeat' first
    | with_reducible assumption
    | with_reducible refine State.orderly_setView _ _ _ ?_

theorem counter_orderly (a0 : Nat) (a1 : Counts → Word) (a2 : PageCounters → Word → PageCounters) : (counter a0 a1 a2).orderly := by
  refine Reg.orderly_mk (fun _ _ _ _ _ h => h) fun s t fn m h => ?_
  split
  · exact State.orderly_onPageCounters _ _ h
  · exact h

theorem progress_orderly (a0 : Counts → Word) (a1 : PageCounters → Word → PageCounters) : (progress a0 a1).orderly := by
  refine Reg.orderly_mk (fun _ _ _ _ _ h => h) fun s t fn m h => ?_
  dsimp only
  repeat' first
    | with_reducible assumption
    | with_reducible refine State.orderly_onPageCounters _ _ ?_
    | with_reducible refine State.orderly_draw ?_
    | split

theorem ctl_orderly (a0 : Nat) : (ctl a0).orderly := by
  unfold ctl
  repeat' first
    | with_reducible assumption
    | with_reducible refine State.orderly_clearPage _ ?_
    | with_reducible refine State.orderly_onPageCounters _ _ ?_
    | (intro _ _ _ _ _ _; try dsimp only)
    | (intro _ _ _ _ _; try dsimp only)
    | (with_reducible refine Reg.orderly_mk ?_ ?_)
    | split

theorem stickyFirst_orderly (a0 : Nat) : (stickyFirst a0).orderly := by
  unfold stickyFirst
  repeat' first
    | with_reducible assumption
    | with_reducible refine State.orderly_setView _ _ _ ?_
    | (intro _ _ _ _ _ _; try dsimp only)
    | (intro _ _ _ _ _; try dsimp only)
    | (with_reducible refine Reg.orderly_mk ?_ ?_)
    | split

theorem header_orderly {a0 : Nat} {a1 : Nat} {r : Reg} (e : header a0 a1 = some r) : r.orderly := by
  unfold header at e
  repeat' first
    | (with_reducible cases e; done)
    | (injection e with e; subst e)
    | (split at e)
    | with_reducible assumption
    | ((with_reducible show Reg.orderly (ite _ _ _)); split)
    | with_reducible exact ctl_orderly _ 
    | with_reducible exact stickyFirst_orderly _ 
    | with_reducible exact counter_orderly _ _ _ 
    | with_reducible exact progress_orderly _ _ 
    | with_reducible refine ro_orderly _ 
    | with_reducible refine rw_orderly _ _ _ ?_
    | with_reducible refine rc_orderly _ _ ?_
    | with_reducible refine w1c_orderly _ _ ?_
    | with_reducible refine State.orderly_writeSticky _ _ _ ?_
    | with_reducible refine State.orderly_setView _ _ _ ?_
    | (intro _ _ _ _ _; try dsimp only)

theorem bootCtl_orderly  : (bootCtl ).orderly := by
  unfold bootCtl
  repeat' first
    | with_reducible assumption
    | with_reducible refine State.orderly_bootClose ?_
    | ((with_reducible show State.orderly _ (State.onPwr _ _)); refine State.orderly_onPwr _ ?_)
    | (intro _ _ _ _ _ _; try dsimp only)
    | (intro _ _ _ _ _; try dsimp only)
    | (with_reducible refine Reg.orderly_mk ?_ ?_)
    | split

theorem regsGLB_orderly {a0 : Nat} {r : Reg} (e : regsGLB a0 = some r) : r.orderly := by
  unfold regsGLB at e
  repeat' first
    | (with_reducible cases e; done)
    | (injection e with e; subst e)
    | (split at e)
    | with_reducible assumption
    | with_reducible exact bootCtl_orderly 
    | with_reducible refine ro_orderly _ 
    | with_reducible refine rw_orderly _ _ _ ?_
    | with_reducible refine wo_orderly _ _ ?_
    | with_reducible refine State.orderly_warmReset _ ?_
    | with_reducible refine State.orderly_bootDoorbell ?_
    | ((with_reducible show State.orderly _ (State.onPwr _ _)); refine State.orderly_onPwr _ ?_)
    | (intro _ _ _ _ _; try dsimp only)

theorem regsCTX_orderly {a0 : Nat} {r : Reg} (e : regsCTX a0 = some r) : r.orderly := by
  unfold regsCTX at e
  repeat' first
    | (with_reducible cases e; done)
    | (injection e with e; subst e)
    | (split at e)
    | with_reducible assumption
    | with_reducible refine ro_orderly _ 
    | with_reducible refine rc_orderly _ _ ?_
    | ((with_reducible show State.orderly _ (State.onGlb _ _)); refine State.orderly_onGlb _ ?_)
    | (intro _ _ _ _ _; try dsimp only)

theorem dbgCtl_orderly  : (dbgCtl ).orderly := by
  unfold dbgCtl
  repeat' first
    | with_reducible assumption
    | with_reducible refine State.orderly_clearAll ?_
    | ((with_reducible show State.orderly _ (State.onGlb _ _)); refine State.orderly_onGlb _ ?_)
    | (intro _ _ _ _ _ _; try dsimp only)
    | (intro _ _ _ _ _; try dsimp only)
    | (with_reducible refine Reg.orderly_mk ?_ ?_)
    | split

theorem regsDBG_orderly {a0 : Nat} {r : Reg} (e : regsDBG a0 = some r) : r.orderly := by
  unfold regsDBG at e
  repeat' first
    | (with_reducible cases e; done)
    | (injection e with e; subst e)
    | (split at e)
    | with_reducible assumption
    | with_reducible exact dbgCtl_orderly 
    | with_reducible refine ro_orderly _ 
    | with_reducible refine rw_orderly _ _ _ ?_
    | with_reducible refine rc_orderly _ _ ?_
    | with_reducible refine wo_orderly _ _ ?_
    | with_reducible refine State.orderly_traceClear ?_
    | ((with_reducible show State.orderly _ (State.onGlb _ _)); refine State.orderly_onGlb _ ?_)
    | (intro _ _ _ _ _; try dsimp only)
    | split

theorem regsHLK_orderly {a0 : Nat} {r : Reg} (e : regsHLK a0 = some r) : r.orderly := by
  unfold regsHLK at e
  repeat' first
    | (with_reducible cases e; done)
    | (injection e with e; subst e)
    | (split at e)
    | with_reducible assumption
    | with_reducible refine ro_orderly _ 
    | with_reducible refine rw_orderly _ _ _ ?_
    | with_reducible refine rc_orderly _ _ ?_
    | with_reducible refine State.orderly_hlkRemap _ _ ?_
    | ((with_reducible show State.orderly _ (State.onHlk _ _)); refine State.orderly_onHlk _ ?_)
    | (intro _ _ _ _ _; try dsimp only)

theorem regsEPF_orderly {a0 : Nat} {r : Reg} (e : regsEPF a0 = some r) : r.orderly := by
  unfold regsEPF at e
  repeat' first
    | (with_reducible cases e; done)
    | (injection e with e; subst e)
    | (split at e)
    | with_reducible assumption
    | with_reducible refine ro_orderly _ 
    | with_reducible refine rw_orderly _ _ _ ?_
    | ((with_reducible show State.orderly _ (State.onHlk _ _)); refine State.orderly_onHlk _ ?_)
    | (intro _ _ _ _ _; try dsimp only)

theorem regsDBL_orderly {a0 : Nat} {r : Reg} (e : regsDBL a0 = some r) : r.orderly := by
  unfold regsDBL at e
  repeat' first
    | (with_reducible cases e; done)
    | (injection e with e; subst e)
    | (split at e)
    | with_reducible assumption
    | with_reducible refine ro_orderly _ 
    | with_reducible refine rw_orderly _ _ _ ?_
    | with_reducible refine wo_orderly _ _ ?_
    | with_reducible refine State.orderly_mgmtSubmit _ _ ?_
    | with_reducible refine State.orderly_onMgmt _ _ ?_
    | (intro _ _ _ _ _; try dsimp only)

theorem State.orderly_writeProfile (a0 : Nat) (a1 : Profile → Profile) (h : s.orderly t) : s.orderly (t.writeProfile a0 a1) := by
  unfold State.writeProfile
  repeat' first
    | with_reducible assumption
    | with_reducible refine State.orderly_flag _ _ _ _ _ ?_
    | ((with_reducible show State.orderly _ (State.onXlt _ _)); refine State.orderly_onXlt _ ?_)
    | split

theorem profileReg_orderly {a0 : Nat} {a1 : Nat} {r : Reg} (e : profileReg a0 a1 = some r) : r.orderly := by
  unfold profileReg at e
  repeat' first
    | (with_reducible cases e; done)
    | (injection e with e; subst e)
    | (split at e)
    | with_reducible assumption
    | with_reducible refine rw_orderly _ _ _ ?_
    | with_reducible refine State.orderly_writeProfile _ _ ?_
    | (intro _ _ _ _ _; try dsimp only)

theorem State.orderly_bindCmd (a0 : Nat) (a1 : Word) (h : s.orderly t) : s.orderly (t.bindCmd a0 a1) := by
  unfold State.bindCmd
  repeat' first
    | with_reducible assumption
    | with_reducible refine State.orderly_xltFlag _ _ ?_
    | with_reducible refine State.orderly_bindAsid _ _ ?_
    | with_reducible refine State.orderly_unbindAsid _ _ ?_
    | split

theorem regsXLT_orderly {a0 : Nat} {r : Reg} (e : regsXLT a0 = some r) : r.orderly := by
  unfold regsXLT at e
  repeat' first
    | (injection e with e; subst e)
    | (split at e)
    | with_reducible assumption
    | with_reducible exact profileReg_orderly (by with_reducible assumption)
    | with_reducible refine ro_orderly _ 
    | with_reducible refine rw_orderly _ _ _ ?_
    | with_reducible refine rc_orderly _ _ ?_
    | with_reducible refine wo_orderly _ _ ?_
    | with_reducible refine State.orderly_writePrange _ _ ?_
    | with_reducible refine State.orderly_onBind _ _ ?_
    | with_reducible refine State.orderly_bindCmd _ _ ?_
    | with_reducible refine State.orderly_writeBase _ _ _ _ ?_
    | with_reducible refine State.orderly_writeHead _ _ _ ?_
    | with_reducible refine State.orderly_invSubmit _ _ ?_
    | ((with_reducible show State.orderly _ (State.onXlt _ _)); refine State.orderly_onXlt _ ?_)
    | (intro _ _ _ _ _; try dsimp only)

theorem State.orderly_writePool (a0 : SkkPart → SkkPart) (h : s.orderly t) : s.orderly (t.writePool a0) := by
  unfold State.writePool
  repeat' first
    | with_reducible assumption
    | with_reducible refine State.orderly_onSkkPart _ _ ?_
    | with_reducible refine State.orderly_judgePool _ ?_

theorem State.orderly_skkReq (fn : Nat) (v : Word) (h : s.orderly t) : s.orderly (t.skkReq fn v) := by
  unfold State.skkReq
  split
  · exact State.orderly_accept _ _ h
  · exact State.orderly_decline _ _ h
  · exact State.orderly_recall _ _ h
  · exact State.orderly_steady h (State.steady_release _ _ (State.steady_refl _))
  · exact h

theorem regsSKK_orderly {a0 : Nat} {r : Reg} (e : regsSKK a0 = some r) : r.orderly := by
  unfold regsSKK at e
  repeat' first
    | (with_reducible cases e; done)
    | (injection e with e; subst e)
    | (split at e)
    | with_reducible assumption
    | with_reducible refine ro_orderly _ 
    | with_reducible refine rw_orderly _ _ _ ?_
    | with_reducible refine rc_orderly _ _ ?_
    | with_reducible refine wo_orderly _ _ ?_
    | with_reducible refine State.orderly_onSkkPart _ _ ?_
    | with_reducible refine State.orderly_writePool _ ?_
    | with_reducible refine State.orderly_writeBase _ _ _ _ ?_
    | with_reducible refine State.orderly_writeHead _ _ _ ?_
    | with_reducible refine State.orderly_skkReq _ _ ?_
    | ((with_reducible show State.orderly _ (State.onSkk _ _)); refine State.orderly_onSkk _ ?_)
    | (intro _ _ _ _ _; try dsimp only)

theorem chanShare_orderly  : (chanShare ).orderly := by
  unfold chanShare
  repeat' first
    | with_reducible assumption
    | with_reducible refine State.orderly_onChan _ _ ?_
    | with_reducible refine State.orderly_movFlag _ _ ?_
    | (intro _ _ _ _ _ _; try dsimp only)
    | (intro _ _ _ _ _; try dsimp only)
    | (with_reducible refine Reg.orderly_mk ?_ ?_)
    | split

theorem regsMOV_orderly {a0 : Nat} {r : Reg} (e : regsMOV a0 = some r) : r.orderly := by
  unfold regsMOV at e
  repeat' first
    | (with_reducible cases e; done)
    | (injection e with e; subst e)
    | (split at e)
    | with_reducible assumption
    | with_reducible exact chanShare_orderly 
    | with_reducible refine ro_orderly _ 
    | with_reducible refine rw_orderly _ _ _ ?_
    | with_reducible refine rc_orderly _ _ ?_
    | with_reducible refine State.orderly_writeArea _ ?_
    | with_reducible refine State.orderly_draw ?_
    | with_reducible refine State.orderly_onMovView _ _ ?_
    | ((with_reducible show State.orderly _ (State.onMov _ _)); refine State.orderly_onMov _ ?_)
    | (intro _ _ _ _ _ _; try dsimp only)
    | (intro _ _ _ _ _; try dsimp only)
    | (with_reducible refine Reg.orderly_mk ?_ ?_)
    | split

theorem ccuCounter_orderly (a0 : CcuCount → BitVec 48) (a1 : CcuCount → BitVec 48 → CcuCount) : (ccuCounter a0 a1).orderly := by
  unfold ccuCounter
  repeat' first
    | with_reducible assumption
    | with_reducible refine rc_orderly _ _ ?_
    | with_reducible refine State.orderly_onCcuCount _ _ ?_
    | (intro _ _ _ _ _; try dsimp only)

theorem regsCCU_orderly {a0 : Nat} {r : Reg} (e : regsCCU a0 = some r) : r.orderly := by
  unfold regsCCU at e
  repeat' first
    | (with_reducible cases e; done)
    | (injection e with e; subst e)
    | (split at e)
    | with_reducible assumption
    | with_reducible exact ccuCounter_orderly _ _ 
    | with_reducible refine ro_orderly _ 
    | with_reducible refine rw_orderly _ _ _ ?_
    | with_reducible refine State.orderly_seed _ ?_
    | (intro _ _ _ _ _; try dsimp only)

theorem State.orderly_writeAgentCfg (a0 : Word) (h : s.orderly t) : s.orderly (t.writeAgentCfg a0) := by
  unfold State.writeAgentCfg
  repeat' first
    | with_reducible assumption
    | ((with_reducible show State.orderly _ (State.onHome _ _)); refine State.orderly_onHome _ ?_)

theorem State.orderly_writeHold (v : BitVec 9) (h : s.orderly t) : s.orderly (t.writeHold v) := by
  unfold State.writeHold
  exact State.orderly_emit _ (State.orderly_onHome _ h)

theorem cohCounter_orderly (f : Home → BitVec 32) (g : Home → BitVec 32 → Home)
    (hg : ∀ h v, (g h v).line = h.line := by exact fun _ _ => rfl) : (cohCounter f g).orderly := by
  refine rc_orderly _ _ fun s t fn v h => State.orderly_onHome _ h (h2 := fun w => ?_)
  simpa only [Home.wf, hg] using w

theorem regsCOH_orderly {a0 : Nat} {r : Reg} (e : regsCOH a0 = some r) : r.orderly := by
  unfold regsCOH at e
  repeat' first
    | (with_reducible cases e; done)
    | (injection e with e; subst e)
    | (split at e)
    | with_reducible assumption
    | with_reducible exact cohCounter_orderly _ _ 
    | with_reducible refine ro_orderly _ 
    | with_reducible refine rw_orderly _ _ _ ?_
    | with_reducible refine State.orderly_writeAgentCfg _ ?_
    | with_reducible refine State.orderly_writeHold _ ?_
    | ((with_reducible show State.orderly _ (State.onHome _ _)); refine State.orderly_onHome _ ?_)
    | (intro _ _ _ _ _; try dsimp only)

theorem winReg_orderly (a0 : Bool) (a1 : Nat) : (winReg a0 a1).orderly := by
  unfold winReg
  repeat' first
    | with_reducible assumption
    | with_reducible refine State.orderly_writeIwin _ _ _ ?_
    | with_reducible refine State.orderly_writeOwin _ _ _ ?_
    | with_reducible refine State.orderly_pwnFlag _ _ ?_
    | (intro _ _ _ _ _ _; try dsimp only)
    | (intro _ _ _ _ _; try dsimp only)
    | (with_reducible refine Reg.orderly_mk ?_ ?_)
    | split

theorem iwinStatus_orderly  : (iwinStatus ).orderly := by
  unfold iwinStatus
  repeat' first
    | with_reducible assumption
    | with_reducible refine State.orderly_pwnFlag _ _ ?_
    | (intro _ _ _ _ _ _; try dsimp only)
    | (intro _ _ _ _ _; try dsimp only)
    | (with_reducible refine Reg.orderly_mk ?_ ?_)
    | split

theorem State.orderly_onPwnView (a0 : Nat) (a1 : PwnView → PwnView) (h : s.orderly t) : s.orderly (t.onPwnView a0 a1) := by
  unfold State.onPwnView
  repeat' first
    | with_reducible assumption
    | ((with_reducible show State.orderly _ (State.onPeer _ _)); refine State.orderly_onPeer _ ?_)

theorem regsPWN_orderly {a0 : Nat} {r : Reg} (e : regsPWN a0 = some r) : r.orderly := by
  unfold regsPWN at e
  repeat' first
    | (with_reducible cases e; done)
    | (injection e with e; subst e)
    | (split at e)
    | with_reducible assumption
    | with_reducible exact winReg_orderly _ _ 
    | with_reducible exact iwinStatus_orderly 
    | with_reducible refine rw_orderly _ _ _ ?_
    | with_reducible refine State.orderly_writeAllot _ _ ?_
    | with_reducible refine State.orderly_onPwnView _ _ ?_
    | ((with_reducible show State.orderly _ (State.onPeer _ _)); refine State.orderly_onPeer _ ?_)
    | (intro _ _ _ _ _; try dsimp only)

theorem regsPXP_orderly {a0 : Nat} {r : Reg} (e : regsPXP a0 = some r) : r.orderly := by
  unfold regsPXP at e
  repeat' first
    | (with_reducible cases e; done)
    | (injection e with e; subst e)
    | (split at e)
    | with_reducible assumption
    | with_reducible refine ro_orderly _ 
    | with_reducible refine rw_orderly _ _ _ ?_
    | with_reducible refine rc_orderly _ _ ?_
    | with_reducible refine State.orderly_writeRoute _ ?_
    | ((with_reducible show State.orderly _ (State.onPeer _ _)); refine State.orderly_onPeer _ ?_)
    | (intro _ _ _ _ _; try dsimp only)

theorem State.orderly_objCmd (a0 : Nat) (a1 : Word) (h : s.orderly t) : s.orderly (t.objCmd a0 a1) := by
  unfold State.objCmd
  repeat' first
    | with_reducible assumption
    | with_reducible refine State.orderly_flag _ _ _ _ _ ?_
    | with_reducible refine State.orderly_objCreate _ _ _ ?_
    | with_reducible refine State.orderly_objDestroy _ _ ?_
    | with_reducible refine State.orderly_objRead _ _ ?_
    | split

theorem synCounter_orderly (a0 : SynView → BitVec 32) (a1 : SynView → BitVec 32 → SynView) : (synCounter a0 a1).orderly := by
  unfold synCounter
  repeat' first
    | with_reducible assumption
    | with_reducible refine rc_orderly _ _ ?_
    | with_reducible refine State.orderly_onSynView _ _ ?_
    | (intro _ _ _ _ _; try dsimp only)

theorem regsSYN_orderly {a0 : Nat} {r : Reg} (e : regsSYN a0 = some r) : r.orderly := by
  unfold regsSYN at e
  repeat' first
    | (with_reducible cases e; done)
    | (injection e with e; subst e)
    | (split at e)
    | with_reducible assumption
    | with_reducible exact synCounter_orderly _ _ 
    | with_reducible refine ro_orderly _ 
    | with_reducible refine rw_orderly _ _ _ ?_
    | with_reducible refine wo_orderly _ _ ?_
    | with_reducible refine State.orderly_onSynView _ _ ?_
    | with_reducible refine State.orderly_objCmd _ _ ?_
    | ((with_reducible show State.orderly _ (State.onSyn _ _)); refine State.orderly_onSyn _ ?_)
    | (intro _ _ _ _ _; try dsimp only)

theorem State.orderly_loadCmd (a0 : Nat) (a1 : Word) (h : s.orderly t) : s.orderly (t.loadCmd a0 a1) := by
  unfold State.loadCmd
  repeat' first
    | with_reducible assumption
    | with_reducible refine State.orderly_chtFlag _ _ _ _ ?_
    | with_reducible refine State.orderly_planLoad _ ?_
    | with_reducible refine State.orderly_planFree _ _ _ ?_
    | split

theorem chtCounter_orderly (a0 : ChtView → BitVec 32) (a1 : ChtView → BitVec 32 → ChtView) : (chtCounter a0 a1).orderly := by
  unfold chtCounter
  repeat' first
    | with_reducible assumption
    | with_reducible refine rc_orderly _ _ ?_
    | with_reducible refine State.orderly_onChtView _ _ ?_
    | (intro _ _ _ _ _; try dsimp only)

theorem regsCHT0_orderly {a0 : Nat} {r : Reg} (e : regsCHT0 a0 = some r) : r.orderly := by
  unfold regsCHT0 at e
  repeat' first
    | (with_reducible cases e; done)
    | (injection e with e; subst e)
    | (split at e)
    | with_reducible assumption
    | with_reducible refine ro_orderly _ 
    | with_reducible refine rw_orderly _ _ _ ?_
    | with_reducible refine rc_orderly _ _ ?_
    | with_reducible refine wo_orderly _ _ ?_
    | with_reducible refine State.orderly_writeDroneCfg _ ?_
    | with_reducible refine State.orderly_droneSet _ ?_
    | with_reducible refine State.orderly_rebase ?_
    | with_reducible refine State.orderly_writeRsvMax _ ?_
    | ((with_reducible show State.orderly _ (State.onCht _ _)); refine State.orderly_onCht _ ?_)
    | (intro _ _ _ _ _; try dsimp only)
    | split

theorem regsCHT_orderly {a0 : Nat} {r : Reg} (e : regsCHT a0 = some r) : r.orderly := by
  unfold regsCHT at e
  repeat' first
    | (injection e with e; subst e)
    | (split at e)
    | with_reducible assumption
    | with_reducible exact chtCounter_orderly _ _ 
    | with_reducible exact regsCHT0_orderly (by with_reducible assumption)
    | with_reducible refine ro_orderly _ 
    | with_reducible refine rw_orderly _ _ _ ?_
    | with_reducible refine wo_orderly _ _ ?_
    | with_reducible refine State.orderly_onChtView _ _ ?_
    | with_reducible refine State.orderly_loadCmd _ _ ?_
    | (intro _ _ _ _ _; try dsimp only)

theorem evcSrcCfg_orderly  : (evcSrcCfg ).orderly := by
  unfold evcSrcCfg
  repeat' first
    | with_reducible assumption
    | with_reducible refine State.orderly_writeSrcCfg _ _ ?_
    | with_reducible refine State.orderly_evcFlag _ _ ?_
    | (intro _ _ _ _ _ _; try dsimp only)
    | (intro _ _ _ _ _; try dsimp only)
    | (with_reducible refine Reg.orderly_mk ?_ ?_)
    | split

theorem evcTarget_orderly {a0 : Nat} {a1 : Nat} {r : Reg} (e : evcTarget a0 a1 = some r) : r.orderly := by
  unfold evcTarget at e
  repeat' first
    | (with_reducible cases e; done)
    | (injection e with e; subst e)
    | (split at e)
    | with_reducible assumption
    | with_reducible refine State.orderly_onHeldId _ _ ?_
    | with_reducible refine State.orderly_writeThresh _ _ _ ?_
    | with_reducible refine State.orderly_claimRead _ _ ?_
    | with_reducible refine State.orderly_completeWrite _ _ _ ?_
    | (intro _ _ _ _ _ _; try dsimp only)
    | (intro _ _ _ _ _; try dsimp only)
    | (with_reducible refine Reg.orderly_mk ?_ ?_)
    | split

theorem regsEVC_orderly {a0 : Nat} {r : Reg} (e : regsEVC a0 = some r) : r.orderly := by
  unfold regsEVC at e
  repeat' first
    | (with_reducible cases e; done)
    | (injection e with e; subst e)
    | (split at e)
    | with_reducible assumption
    | with_reducible exact evcSrcCfg_orderly 
    | with_reducible exact evcTarget_orderly (by with_reducible assumption)
    | with_reducible refine rw_orderly _ _ _ ?_
    | with_reducible refine rc_orderly _ _ ?_
    | with_reducible refine wo_orderly _ _ ?_
    | with_reducible refine State.orderly_assignTarget _ ?_
    | with_reducible refine State.orderly_writeSrcSel _ _ ?_
    | with_reducible refine State.orderly_raiseSource _ _ ?_
    | with_reducible refine State.orderly_clearSource _ _ ?_
    | ((with_reducible show State.orderly _ (State.onEvc _ _)); refine State.orderly_onEvc _ ?_)
    | (intro _ _ _ _ _; try dsimp only)

theorem arbCounter_orderly (a0 : ArbReq → BitVec 32) (a1 : ArbReq → BitVec 32 → ArbReq) : (arbCounter a0 a1).orderly := by
  unfold arbCounter
  repeat' first
    | with_reducible assumption
    | with_reducible refine rc_orderly _ _ ?_
    | with_reducible refine State.orderly_onAreq _ _ _ ?_
    | (intro _ _ _ _ _; try dsimp only)
    | split

theorem arbPrio_orderly  : (arbPrio ).orderly := by
  unfold arbPrio
  repeat' first
    | with_reducible assumption
    | with_reducible refine State.orderly_chanPrio _ _ ?_
    | with_reducible refine State.orderly_flag _ _ _ _ _ ?_
    | (intro _ _ _ _ _ _; try dsimp only)
    | (intro _ _ _ _ _; try dsimp only)
    | (with_reducible refine Reg.orderly_mk ?_ ?_)
    | split

theorem regsARB_orderly {a0 : Nat} {r : Reg} (e : regsARB a0 = some r) : r.orderly := by
  unfold regsARB at e
  repeat' first
    | (with_reducible cases e; done)
    | (injection e with e; subst e)
    | (split at e)
    | with_reducible assumption
    | with_reducible exact arbCounter_orderly _ _ 
    | with_reducible exact arbPrio_orderly 
    | with_reducible refine rw_orderly _ _ _ ?_
    | with_reducible refine rc_orderly _ _ ?_
    | with_reducible refine w1c_orderly _ _ ?_
    | with_reducible refine State.orderly_onAreq _ _ _ ?_
    | with_reducible refine State.orderly_onArbiter _ _ ?_
    | ((with_reducible show State.orderly _ (State.onArb _ _)); refine State.orderly_onArb _ ?_)
    | (intro _ _ _ _ _; try dsimp only)
    | split

theorem regsRAS_orderly {a0 : Nat} {r : Reg} (e : regsRAS a0 = some r) : r.orderly := by
  unfold regsRAS at e
  repeat' first
    | (with_reducible cases e; done)
    | (injection e with e; subst e)
    | (split at e)
    | with_reducible assumption
    | with_reducible refine ro_orderly _ 
    | with_reducible refine rw_orderly _ _ _ ?_
    | with_reducible refine rc_orderly _ _ ?_
    | with_reducible refine wo_orderly _ _ ?_
    | with_reducible refine State.orderly_writeStore _ ?_
    | with_reducible refine State.orderly_storeCommand _ ?_
    | with_reducible refine State.orderly_scrubStart _ ?_
    | with_reducible refine State.orderly_repairLoad _ ?_
    | ((with_reducible show State.orderly _ (State.onRas _ _)); refine State.orderly_onRas _ ?_)
    | (intro _ _ _ _ _; try dsimp only)
    | split

theorem State.orderly_writeMode (a0 : Word) (h : s.orderly t) : s.orderly (t.writeMode a0) := by
  unfold State.writeMode
  repeat' first
    | with_reducible assumption
    | with_reducible refine State.orderly_writeShared ?_
    | with_reducible refine State.orderly_writeSolo _ ?_
    | split

theorem State.orderly_twinCtl (a0 : Word) (h : s.orderly t) : s.orderly (t.twinCtl a0) := by
  unfold State.twinCtl
  repeat' first
    | with_reducible assumption
    | with_reducible refine State.orderly_resetEngine _ ?_
    | dsimp only
    | split

theorem regsTWN_orderly {a0 : Nat} {r : Reg} (e : regsTWN a0 = some r) : r.orderly := by
  unfold regsTWN at e
  repeat' first
    | (with_reducible cases e; done)
    | (injection e with e; subst e)
    | (split at e)
    | with_reducible assumption
    | with_reducible refine ro_orderly _ 
    | with_reducible refine rw_orderly _ _ _ ?_
    | with_reducible refine wo_orderly _ _ ?_
    | with_reducible refine State.orderly_writeMode _ ?_
    | with_reducible refine State.orderly_twinCtl _ ?_
    | ((with_reducible show State.orderly _ (State.onTwn _ _)); refine State.orderly_onTwn _ ?_)
    | (intro _ _ _ _ _ _; try dsimp only)
    | (intro _ _ _ _ _; try dsimp only)
    | (with_reducible refine Reg.orderly_mk ?_ ?_)
    | split

theorem State.orderly_partCtl (a0 : Word) (h : s.orderly t) : s.orderly (t.partCtl a0) := by
  unfold State.partCtl
  repeat' first
    | with_reducible assumption
    | with_reducible refine State.orderly_enablePart ?_
    | with_reducible refine State.orderly_disablePart ?_
    | split

theorem quotaReg_orderly (a0 : Word) (a1 : Quota) : (quotaReg a0 a1).orderly := by
  unfold quotaReg
  repeat' first
    | with_reducible assumption
    | with_reducible refine rw_orderly _ _ _ ?_
    | with_reducible refine State.orderly_writeQuota _ _ ?_
    | (intro _ _ _ _ _; try dsimp only)

theorem regsPRT_orderly {a0 : Nat} {r : Reg} (e : regsPRT a0 = some r) : r.orderly := by
  unfold regsPRT at e
  repeat' first
    | (with_reducible cases e; done)
    | (injection e with e; subst e)
    | (split at e)
    | with_reducible assumption
    | with_reducible exact quotaReg_orderly _ _ 
    | with_reducible refine ro_orderly _ 
    | with_reducible refine rw_orderly _ _ _ ?_
    | with_reducible refine wo_orderly _ _ ?_
    | with_reducible refine State.orderly_partCtl _ ?_
    | ((with_reducible show State.orderly _ (State.onPrt _ _)); refine State.orderly_onPrt _ ?_)
    | (intro _ _ _ _ _; try dsimp only)

theorem regsPWR_orderly {a0 : Nat} {r : Reg} (e : regsPWR a0 = some r) : r.orderly := by
  unfold regsPWR at e
  repeat' first
    | (with_reducible cases e; done)
    | (injection e with e; subst e)
    | (split at e)
    | with_reducible assumption
    | with_reducible refine ro_orderly _ 
    | with_reducible refine rw_orderly _ _ _ ?_
    | with_reducible refine rc_orderly _ _ ?_
    | with_reducible refine State.orderly_writeWlb _ _ ?_
    | ((with_reducible show State.orderly _ (State.onPwr _ _)); refine State.orderly_onPwr _ ?_)
    | (intro _ _ _ _ _; try dsimp only)

theorem pageRegs_orderly {a0 : Nat} {a1 : Nat} {r : Reg} (e : pageRegs a0 a1 = some r) : r.orderly := by
  unfold pageRegs at e
  repeat' first
    | (with_reducible cases e; done)
    | (split at e)
    | with_reducible exact regsGLB_orderly (by with_reducible assumption)
    | with_reducible exact regsHLK_orderly (by with_reducible assumption)
    | with_reducible exact regsEPF_orderly (by with_reducible assumption)
    | with_reducible exact regsDBL_orderly (by with_reducible assumption)
    | with_reducible exact regsCTX_orderly (by with_reducible assumption)
    | with_reducible exact regsXLT_orderly (by with_reducible assumption)
    | with_reducible exact regsSKK_orderly (by with_reducible assumption)
    | with_reducible exact regsMOV_orderly (by with_reducible assumption)
    | with_reducible exact regsCCU_orderly (by with_reducible assumption)
    | with_reducible exact regsCOH_orderly (by with_reducible assumption)
    | with_reducible exact regsPWN_orderly (by with_reducible assumption)
    | with_reducible exact regsPXP_orderly (by with_reducible assumption)
    | with_reducible exact regsSYN_orderly (by with_reducible assumption)
    | with_reducible exact regsCHT_orderly (by with_reducible assumption)
    | with_reducible exact regsEVC_orderly (by with_reducible assumption)
    | with_reducible exact regsARB_orderly (by with_reducible assumption)
    | with_reducible exact regsRAS_orderly (by with_reducible assumption)
    | with_reducible exact regsTWN_orderly (by with_reducible assumption)
    | with_reducible exact regsPWR_orderly (by with_reducible assumption)
    | with_reducible exact regsPRT_orderly (by with_reducible assumption)
    | with_reducible exact regsDBG_orderly (by with_reducible assumption)

theorem regAt_orderly {a0 : Nat} {a1 : Nat} {a2 : Nat} {r : Reg} (e : regAt a0 a1 a2 = some r) : r.orderly := by
  unfold regAt at e
  repeat' first
    | (with_reducible cases e; done)
    | (split at e)
    | with_reducible exact header_orderly (by with_reducible assumption)
    | with_reducible exact pageRegs_orderly (by with_reducible assumption)

/-- Every register of the map keeps the order, read or written. -/
theorem State.orderly_readReg (fn pg off : Nat) (m : Word) (h : s.orderly t) : s.orderly (t.readReg fn pg off m).2 := by
  unfold State.readReg
  split
  · exact h
  · split
    · exact h
    · next r e => exact (regAt_orderly e).2 _ _ _ _ h

theorem State.orderly_writeReg (fn pg off : Nat) (v m : Word) (h : s.orderly t) : s.orderly (t.writeReg fn pg off v m) := by
  unfold State.writeReg
  split
  · exact h
  · split
    · exact h
    · next r e => exact (regAt_orderly e).1 _ _ _ _ _ h

end Sys2Proof.Machine
end

