-- ==== Sys2Proof/Laws/OrderlyBars.lean ====
section
/-! SUPPORT. Every access of the host and of the die keeps GLB_TIME, the queue and the form of the tables. -/

-- One proof at a time: hundreds of proofs started together would each wait on the same lemma on a thread of its own.
set_option Elab.async false

namespace Sys2Proof.Machine

set_option linter.unusedTactic false
set_option linter.unreachableTactic false
set_option linter.unusedVariables false

variable {s t u : State}

theorem State.orderly_send (a0 : Out) (h : s.orderly t) : s.orderly (t.send a0) := State.orderly_steady h (State.steady_send _ (State.steady_refl _))

theorem State.orderly_answer (a0 : HomeReq) (a1 : Nat) (a2 : Code) (a3 : Bool) (a4 : Granule) (h : s.orderly t) : s.orderly (t.answer a0 a1 a2 a3 a4) := State.orderly_steady h (State.steady_answer _ _ _ _ _ (State.steady_refl _))

theorem State.orderly_tailWrite (a0 : Nat) (a1 : Nat) (h : s.orderly t) : s.orderly (t.tailWrite a0 a1).2 := State.orderly_steady h (State.steady_tailWrite _ _ (State.steady_refl _))

theorem State.orderly_haltChan (a0 : Nat) (h : s.orderly t) : s.orderly (t.haltChan a0) := State.orderly_steady h (State.steady_haltChan _ (State.steady_refl _))

theorem State.orderly_stopChan (a0 : Nat) (h : s.orderly t) : s.orderly (t.stopChan a0) := State.orderly_steady h (State.steady_stopChan _ (State.steady_refl _))

theorem State.orderly_resumeChan (a0 : Nat) (h : s.orderly t) : s.orderly (t.resumeChan a0) := State.orderly_steady h (State.steady_resumeChan _ (State.steady_refl _))

theorem State.orderly_inlineWrite (a0 : Nat) (a1 : Nat) (a2 : Nat) (a3 : Nat) (a4 : Bool) (a5 : List Granule) (h : s.orderly t) : s.orderly (t.inlineWrite a0 a1 a2 a3 a4 a5) := State.orderly_steady h (State.steady_inlineWrite _ _ _ _ _ _ (State.steady_refl _))

theorem State.orderly_bar4Write (a0 : Nat) (a1 : Nat) (a2 : Nat) (a3 : List (Option Byte)) (h : s.orderly t) : s.orderly (t.bar4Write a0 a1 a2 a3) := State.orderly_steady h (State.steady_bar4Write _ _ _ _ (State.steady_refl _))

theorem State.orderly_bar4Read (a0 : Nat) (h : s.orderly t) : s.orderly (t.bar4Read a0) := State.orderly_steady h (State.steady_bar4Read _ (State.steady_refl _))

theorem State.orderly_onMsix (a b : Nat) (f : MsixEntry → MsixEntry) (h : s.orderly t) : s.orderly (t.onMsix a b f) :=
  State.orderly_steady h (State.steady_onMsix _ _ _ (State.steady_refl _))

theorem State.orderly_msixWrite (fn off : Nat) (v m : Word) (h : s.orderly t) : s.orderly (t.msixWrite fn off v m) := by
  unfold State.msixWrite
  generalize (t.msixWord fn off &&& ~~~m) ||| (v &&& m) = w
  split
  · exact State.orderly_steady (State.orderly_onMsix _ _ _ h) (State.steady_msixRetry _ (State.steady_refl _))
  · exact h

theorem State.orderly_bar0Read (a0 : Nat) (a1 : Nat) (a2 : Nat) (h : s.orderly t) : s.orderly (t.bar0Read a0 a1 a2).2 := by
  unfold State.bar0Read
  repeat' first
    | with_reducible assumption
    | with_reducible refine State.orderly_readReg _ _ _ _ ?_
    | dsimp only
    | split

theorem State.orderly_bar0Write (a0 : Nat) (a1 : Nat) (a2 : Nat) (a3 : Word) (h : s.orderly t) : s.orderly (t.bar0Write a0 a1 a2 a3) := by
  unfold State.bar0Write
  repeat' first
    | with_reducible assumption
    | with_reducible refine State.orderly_writeReg _ _ _ _ _ ?_
    | with_reducible refine State.orderly_msixWrite _ _ _ _ ?_
    | dsimp only
    | split

theorem State.orderly_bar2Read (a0 : Nat) (a1 : Nat) (a2 : Nat) (h : s.orderly t) : s.orderly (t.bar2Read a0 a1 a2).2 := by
  unfold State.bar2Read
  repeat' first
    | with_reducible assumption
    | with_reducible refine State.orderly_dblFlag _ _ _ _ ?_
    | dsimp only
    | split

theorem State.orderly_bar2Write (a0 : Nat) (a1 : Nat) (a2 : Nat) (a3 : Word) (h : s.orderly t) : s.orderly (t.bar2Write a0 a1 a2 a3) := by
  unfold State.bar2Write
  repeat' first
    | with_reducible assumption
    | with_reducible refine State.orderly_dblFlag _ _ _ _ ?_
    | with_reducible refine State.orderly_inlineWrite _ _ _ _ _ _ ?_
    | with_reducible refine State.orderly_doorbell _ _ _ _ ?_ ?_
    | with_reducible refine State.orderly_tailWrite _ _ ?_
    | with_reducible refine State.orderly_stopChan _ ?_
    | with_reducible refine State.orderly_haltChan _ ?_
    | with_reducible refine State.orderly_resumeChan _ ?_
    | with_reducible refine State.orderly_dbCtl _ _ _ _ ?_ ?_
    | dsimp only
    | split

theorem State.orderly_badAccess (a0 : Nat) (a1 : Nat) (h : s.orderly t) : s.orderly (t.badAccess a0 a1) := by
  unfold State.badAccess
  repeat' first
    | with_reducible assumption
    | with_reducible refine State.orderly_flag _ _ _ _ _ ?_

theorem State.orderly_hostBarWrite (a0 : Nat) (a1 : Nat) (a2 : Nat) (a3 : Nat) (a4 : Nat) (a5 : Word) (h : s.orderly t) : s.orderly (t.hostBarWrite a0 a1 a2 a3 a4 a5) := by
  unfold State.hostBarWrite
  repeat' first
    | with_reducible assumption
    | with_reducible refine State.orderly_badAccess _ _ ?_
    | with_reducible refine State.orderly_bar0Write _ _ _ _ ?_
    | with_reducible refine State.orderly_bar2Write _ _ _ _ ?_
    | with_reducible refine State.orderly_bar4Write _ _ _ _ ?_
    | split

theorem State.orderly_barWrite (x : HeldWrite) (h : s.orderly t) : s.orderly (t.barWrite x) := by
  unfold State.barWrite
  split
  · exact State.orderly_onPwr _ h
  · exact State.orderly_hostBarWrite _ _ _ _ _ _ h

/-- The writes held for a bootstrap write, judged again, keep what any access keeps. -/
theorem State.orderly_replay (h : s.orderly t) : s.orderly t.replay := by
  unfold State.replay
  refine State.orderly_foldl _ _ (State.orderly_onPwr _ h) fun t x h => ?_
  split
  · exact h
  · exact State.orderly_barWrite x h

/-! ## Configuration space -/

theorem State.orderly_aerAt (a0 a1 : Nat) (a2 : AerErr) (a3 : Bool) (h : s.orderly t) : s.orderly (t.aerAt a0 a1 a2 a3) :=
  State.orderly_steady h (State.steady_aerAt _ _ _ _ (State.steady_refl _))

theorem State.orderly_msixRetry (a0 : Nat) (h : s.orderly t) : s.orderly (t.msixRetry a0) :=
  State.orderly_steady h (State.steady_msixRetry _ (State.steady_refl _))

theorem State.orderly_cacheWbInv (h : s.orderly t) : s.orderly t.cacheWbInv := State.orderly_steady h (State.steady_cacheWbInv (State.steady_refl _))

theorem State.orderly_unsupported (a0 a1 : Nat) (a2 : Bool) (h : s.orderly t) : s.orderly (t.unsupported a0 a1 a2) := by
  unfold State.unsupported
  repeat' first
    | with_reducible assumption
    | with_reducible refine State.orderly_emit _ ?_
    | with_reducible refine State.orderly_aerAt _ _ _ _ ?_
    | dsimp only
    | split

theorem State.orderly_setInst (a0 a1 : Nat) (f : Inst → Inst) (h : s.orderly t) : s.orderly (t.setInst a0 a1 f) :=
  State.orderly_reconfig _ h fun _ h => State.orderly_onInst _ _ _ h

theorem State.orderly_writeCommand (a0 a1 : Nat) (w m : BitVec 32) (h : s.orderly t) : s.orderly (t.writeCommand a0 a1 w m) :=
  State.orderly_setInst _ _ _ h

theorem State.orderly_writePmcsr (a0 : Nat) (w m : BitVec 32) (h : s.orderly t) : s.orderly (t.writePmcsr a0 w m) := by
  unfold State.writePmcsr
  repeat' first
    | with_reducible assumption
    | with_reducible refine State.orderly_writePm _ _ _ _ ?_
    | with_reducible refine State.orderly_d0Return _ _ _ ?_
    | with_reducible refine State.orderly_d3hot _ _ _ ?_
    | dsimp only
    | split

theorem State.orderly_writeDevCtl (a0 a1 : Nat) (w m : BitVec 32) (h : s.orderly t) : s.orderly (t.writeDevCtl a0 a1 w m) := by
  unfold State.writeDevCtl
  repeat' first
    | with_reducible assumption
    | with_reducible refine State.orderly_pfFlr _ ?_
    | with_reducible refine State.orderly_vfFlr _ _ ?_
    | ((with_reducible show State.orderly _ (State.onInst _ _ _ _)); refine State.orderly_onInst _ _ _ ?_)
    | dsimp only
    | split

theorem State.orderly_writeDevCtl2 (a0 a1 : Nat) (w m : BitVec 32) (h : s.orderly t) : s.orderly (t.writeDevCtl2 a0 a1 w m) :=
  State.orderly_onInst _ _ _ h

theorem State.orderly_writeMsixCtl (a0 a1 : Nat) (w m : BitVec 32) (h : s.orderly t) : s.orderly (t.writeMsixCtl a0 a1 w m) :=
  State.orderly_msixRetry _ (State.orderly_onInst _ _ _ h)

theorem State.orderly_writeSriov (a0 : Nat) (w m : BitVec 32) (h : s.orderly t) : s.orderly (t.writeSriov a0 w m) := by
  unfold State.writeSriov
  repeat' first
    | with_reducible assumption
    | with_reducible refine State.orderly_vfEnable _ _ ?_
    | with_reducible refine State.orderly_vfDisable _ _ ?_
    | ((with_reducible show State.orderly _ (State.onInst _ _ _ _)); refine State.orderly_onInst _ _ _ ?_)
    | with_reducible refine State.orderly_foldl _ _ ?_ ?_
    | (intro _ _ _; try dsimp only)
    | dsimp only
    | split

theorem State.orderly_writeCxl (a0 a1 : Nat) (w m : BitVec 32) (h : s.orderly t) : s.orderly (t.writeCxl a0 a1 w m) := by
  unfold State.writeCxl
  repeat' first
    | with_reducible assumption
    | with_reducible refine State.orderly_cacheOn _ ?_
    | with_reducible refine State.orderly_cacheOff _ ?_
    | with_reducible refine State.orderly_cacheWbInv ?_
    | split

theorem State.orderly_confWrite (a0 a1 a2 a3 : Nat) (v : Word) (h : s.orderly t) : s.orderly (t.confWrite a0 a1 a2 a3 v) := by
  unfold State.confWrite
  extract_lets o m w s1
  have h1 : s.orderly s1 := by
    unfold s1; split
    · exact h
    · exact State.orderly_onInst _ _ _ h
  clear_value s1 w m o
  repeat' first
    | with_reducible assumption
    | with_reducible refine State.orderly_writeCommand _ _ _ _ ?_
    | with_reducible refine State.orderly_writeDevCtl _ _ _ _ ?_
    | with_reducible refine State.orderly_writeDevCtl2 _ _ _ _ ?_
    | with_reducible refine State.orderly_writeMsixCtl _ _ _ _ ?_
    | with_reducible refine State.orderly_onAer _ _ _ ?_
    | with_reducible refine State.orderly_writePmcsr _ _ _ ?_
    | with_reducible refine State.orderly_writeSriov _ _ _ ?_
    | with_reducible refine State.orderly_writeCxl _ _ _ _ ?_
    | split

theorem State.orderly_confAnswer (a0 a1 a2 a3 : Nat) (h : s.orderly t) : s.orderly (t.confAnswer a0 a1 a2 a3) := by
  unfold State.confAnswer
  repeat' first
    | with_reducible assumption
    | with_reducible refine State.orderly_emit _ ?_
    | split

theorem State.orderly_tlpError (a0 a1 : Nat) (a2 : TlpForm) (a3 : State → State) (h : s.orderly t) (ha3 : ∀ (x0 : State), s.orderly x0 → s.orderly (a3 x0)) : s.orderly (t.tlpError a0 a1 a2 a3) := by
  unfold State.tlpError
  repeat' first
    | with_reducible assumption
    | with_reducible refine State.orderly_aerAt _ _ _ _ ?_
    | (with_reducible refine ha3 _ ?_)
    | split

theorem State.orderly_memWrite (a0 a1 a2 a3 a4 : Nat) (v : Word) (h : s.orderly t) : s.orderly (t.memWrite a0 a1 a2 a3 a4 v) := by
  unfold State.memWrite
  repeat' first
    | with_reducible assumption
    | with_reducible refine State.orderly_unsupported _ _ _ ?_
    | with_reducible refine State.orderly_barWrite _ ?_
    | split

theorem State.orderly_hostWrite (a0 a1 : Nat) (a2 : BarAt) (a3 a4 : Nat) (a5 : Word) (h : s.orderly t) : s.orderly (t.hostWrite a0 a1 a2 a3 a4 a5) := by
  unfold State.hostWrite
  repeat' first
    | with_reducible assumption
    | with_reducible refine State.orderly_act _ ?_ ?_
    | with_reducible refine State.orderly_arrives _ ?_ ?_
    | with_reducible refine State.orderly_configured _ _ _ ?_ ?_
    | with_reducible refine State.orderly_confWrite _ _ _ _ _ ?_
    | with_reducible refine State.orderly_unsupported _ _ _ ?_
    | with_reducible refine State.orderly_tlpError _ _ _ _ ?_ ?_
    | with_reducible refine State.orderly_runOn ?_
    | with_reducible refine State.orderly_memWrite _ _ _ _ _ _ ?_
    | with_reducible refine State.orderly_tlp ?_
    | (intro _ _; try dsimp only)
    | dsimp only
    | split

theorem State.orderly_hostBarRead (a0 : Nat) (a1 : Nat) (a2 : Nat) (a3 : Nat) (a4 : Nat) (h : s.orderly t) : s.orderly (t.hostBarRead a0 a1 a2 a3 a4).2 := by
  unfold State.hostBarRead
  repeat' first
    | with_reducible assumption
    | with_reducible refine State.orderly_badAccess _ _ ?_
    | with_reducible refine State.orderly_bar0Read _ _ _ ?_
    | with_reducible refine State.orderly_bar2Read _ _ _ ?_
    | with_reducible refine State.orderly_bar4Read _ ?_
    | dsimp only
    | split

theorem State.orderly_memRead (a0 a1 a2 a3 a4 : Nat) (h : s.orderly t) : s.orderly (t.memRead a0 a1 a2 a3 a4) := by
  unfold State.memRead
  repeat' first
    | with_reducible assumption
    | with_reducible refine State.orderly_unsupported _ _ _ ?_
    | with_reducible refine State.orderly_runOn ?_
    | with_reducible refine State.orderly_emit _ ?_
    | with_reducible refine State.orderly_hostBarRead _ _ _ _ _ ?_
    | dsimp only
    | split

theorem State.orderly_hostRead (a0 a1 : Nat) (a2 : BarAt) (a3 a4 : Nat) (h : s.orderly t) : s.orderly (t.hostRead a0 a1 a2 a3 a4) := by
  unfold State.hostRead
  repeat' first
    | with_reducible assumption
    | with_reducible refine State.orderly_inner _ ?_ ?_
    | with_reducible refine State.orderly_act _ ?_ ?_
    | with_reducible refine State.orderly_arrives _ ?_ ?_
    | with_reducible refine State.orderly_configured _ _ _ ?_ ?_
    | with_reducible refine State.orderly_confAnswer _ _ _ _ ?_
    | with_reducible refine State.orderly_unsupported _ _ _ ?_
    | with_reducible refine State.orderly_tlpError _ _ _ _ ?_ ?_
    | with_reducible refine State.orderly_memRead _ _ _ _ _ ?_
    | with_reducible refine State.orderly_tlp ?_
    | (intro _ _; try dsimp only)
    | dsimp only
    | split

theorem State.orderly_nocIn (a0 : Nat) (a1 : NocClass) (a2 : State → State) (h : s.orderly t)
    (ha2 : ∀ (x0 : State), s.orderly x0 → s.orderly (a2 x0)) : s.orderly (t.nocIn a0 a1 a2) := by
  unfold State.nocIn
  split
  · exact ha2 _ (State.orderly_steady h (State.steady_spend _ (State.steady_refl _)))
  · exact State.orderly_steady h (State.steady_portProtocol _ (State.steady_refl _))

theorem State.orderly_coreRead (a0 : Nat) (a1 : Nat) (a2 : Nat) (a3 : Nat) (h : s.orderly t) : s.orderly (t.coreRead a0 a1 a2 a3) := by
  unfold State.coreRead
  repeat' first
    | with_reducible assumption
    | with_reducible refine State.orderly_send _ ?_
    | with_reducible refine State.orderly_badAccess _ _ ?_
    | with_reducible refine State.orderly_bar0Read _ _ _ ?_
    | with_reducible refine State.orderly_runOn ?_
    | with_reducible refine State.orderly_inner _ ?_ ?_
    | with_reducible refine State.orderly_act _ ?_ ?_
    | with_reducible refine State.orderly_nocIn _ _ _ ?_ ?_
    | (intro _ _; try dsimp only)
    | dsimp only
    | split

theorem State.orderly_coreWrite (a0 : Nat) (a1 : Nat) (a2 : Nat) (a3 : Nat) (a4 : Word) (h : s.orderly t) : s.orderly (t.coreWrite a0 a1 a2 a3 a4) := by
  unfold State.coreWrite
  repeat' first
    | with_reducible assumption
    | with_reducible refine State.orderly_act _ ?_ ?_
    | with_reducible refine State.orderly_nocIn _ _ _ ?_ ?_
    | with_reducible refine State.orderly_badAccess _ _ ?_
    | with_reducible refine State.orderly_send _ ?_
    | with_reducible refine State.orderly_bar0Write _ _ _ _ ?_
    | with_reducible refine State.orderly_runOn ?_
    | (intro _ _; try dsimp only)
    | split

end Sys2Proof.Machine
end

