-- ==== Sys2Proof/Laws/Reports.lean ====
section
/-! SUPPORT. What reporting may change: ports, counters, events and sticky bits, each said once; and how these claims join. -/

-- One proof at a time: hundreds of proofs started together would each wait on the same lemma on a thread of its own.
set_option Elab.async false

namespace Sys2Proof.Machine

variable {s t u : State}

/-! ## The relations join -/

/-- Bits that two changes in turn keep. -/
theorem or_lost {w : Nat} {a b c : BitVec w} (h1 : a &&& ~~~b = 0) (h2 : b &&& ~~~c = 0) : a &&& ~~~c = 0 := by
  apply BitVec.eq_of_getLsbD_eq
  intro i hi
  have e1 := congrArg (fun x => BitVec.getLsbD x i) h1
  have e2 := congrArg (fun x => BitVec.getLsbD x i) h2
  simp [hi] at e1 e2 ⊢
  intro h
  exact e2 (e1 h)

/-- A wait that has ended ends no more. -/
theorem ArbReq.ended_ended (x : ArbReq) (c : Bool) (n m : Word) : (x.ended c n).ended c m = x.ended c n := by
  simp [ArbReq.ended, ArbReq.waited]

theorem State.kept_refl (s : State) (r : Region) : s.kept s r := by cases r <;> simp [State.kept]

theorem State.kept_trans {r : Region} (h1 : s.kept t r) (h2 : t.kept u r) : s.kept u r := by
  cases r <;> simp only [State.kept] at h1 h2 ⊢ <;> try (rw [h2, h1])
  · obtain ⟨a1, b1, c1⟩ := h1
    obtain ⟨a2, b2, c2⟩ := h2
    refine ⟨by rw [a2, a1], fun n => ⟨?_, fun h => (b2 n).2 ((b1 n).2 h)⟩, fun n => ?_⟩
    · rw [← (b1 n).1, ← (b2 n).1]
    · rw [← c1 n, ← c2 n]
  · obtain ⟨a1, d1, b1, c1⟩ := h1
    obtain ⟨a2, d2, b2, c2⟩ := h2
    refine ⟨by rw [a2, a1], fun l f => ?_, fun f v => ?_, fun l f => ?_⟩
    · obtain ⟨x1, y1, z1⟩ := d1 l f
      obtain ⟨x2, y2, z2⟩ := d2 l f
      refine ⟨?_, or_lost y1 y2, or_lost z1 z2⟩
      rw [x2] at x1
      exact x1
    · rw [← b1 f v, ← b2 f v]
    · rw [← c1 l f, ← c2 l f]
  · obtain ⟨a1, b1⟩ := h1
    obtain ⟨a2, b2⟩ := h2
    refine ⟨by rw [a2, a1], fun a i hi => ?_⟩
    rcases b1 a i hi with e | ⟨n, e⟩ <;> rcases b2 a i hi with e' | ⟨n', e'⟩
    · exact .inl (e'.trans e)
    · exact .inr ⟨n', by rw [e', e]⟩
    · exact .inr ⟨n, e'.trans e⟩
    · exact .inr ⟨n, by rw [e', e, ArbReq.ended_ended]⟩

theorem State.sticks_refl (s : State) : s.sticks s [] := by intro pg v b _ _; simp

theorem State.sticks_trans {l1 l2 : List (Nat × Nat × Nat)} (h1 : s.sticks t l1) (h2 : t.sticks u l2) : s.sticks u (l1 ++ l2) := by
  intro pg v b hv hb
  rw [h2 pg v b hv hb, h1 pg v b hv hb, List.contains_append, Bool.or_assoc]

theorem State.onlyChanges_refl (s : State) : s.onlyChanges s [] :=
  ⟨rfl, List.prefix_refl _, s.sticks_refl, fun r => .inr (s.kept_refl r)⟩

theorem State.onlyChanges_trans {r1 r2 : List Region} {l1 l2 : List (Nat × Nat × Nat)} (h1 : s.onlyChanges t r1 l1)
    (h2 : t.onlyChanges u r2 l2) : s.onlyChanges u (r1 ++ r2) (l1 ++ l2) := by
  obtain ⟨a1, b1, c1, d1⟩ := h1
  obtain ⟨a2, b2, c2, d2⟩ := h2
  refine ⟨a2.trans a1, b1.trans b2, s.sticks_trans c1 c2, fun r => ?_⟩
  rcases d1 r with h | h
  · exact .inl (List.mem_append_left _ h)
  · rcases d2 r with h' | h'
    · exact .inl (List.mem_append_right _ h')
    · exact .inr (State.kept_trans h h')

/-- A claim that lists more parts says less. -/
theorem State.onlyChanges_mono {r1 r2 : List Region} {l : List (Nat × Nat × Nat)} (h : s.onlyChanges t r1 l)
    (hr : ∀ r ∈ r1, r ∈ r2) : s.onlyChanges t r2 l :=
  ⟨h.1, h.2.1, h.2.2.1, fun r => (h.2.2.2 r).imp (hr r) id⟩

/-- What a change that keeps the tables' form and only reports does. -/
def State.reports (s t : State) (l : List (Nat × Nat × Nat) := []) : Prop := s.wf = true → t.wf = true ∧ s.onlyChanges t [] l

theorem State.reports_refl (s : State) : s.reports s := fun h => ⟨h, s.onlyChanges_refl⟩

theorem State.reports_trans {l1 l2 : List (Nat × Nat × Nat)} (h1 : s.reports t l1) (h2 : t.reports u l2) : s.reports u (l1 ++ l2) :=
  fun h => ⟨(h2 (h1 h).1).1, State.onlyChanges_trans (h1 h).2 (h2 (h1 h).1).2⟩

/-- A report that sets nothing, then another. -/
theorem State.reports_then {l : List (Nat × Nat × Nat)} (h1 : s.reports t) (h2 : t.reports u l) : s.reports u l :=
  State.reports_trans (l1 := []) h1 h2

/-- A report, then another that sets nothing. -/
theorem State.reports_after {l : List (Nat × Nat × Nat)} (h1 : s.reports t l) (h2 : t.reports u) : s.reports u l := by
  have := State.reports_trans h1 h2
  rwa [List.append_nil] at this

theorem State.reports_foldl {β : Type} (f : State → β → State) (hf : ∀ (s : State) (b : β), s.reports (f s b)) (l : List β) (s : State) :
    s.reports (l.foldl f s) := by
  induction l generalizing s with
  | nil => exact s.reports_refl
  | cons b r ih => exact State.reports_then (hf s b) (ih _)

/-! ## Ports and counters -/

/-- Counters of the pages change. -/
theorem State.reports_onBlocks (s : State) (f : Tab PageCounters → Tab PageCounters)
    (hf : ∀ b, tabWf (fun _ => ({} : PageCounters)) b = true → tabWf (fun _ => ({} : PageCounters)) (f b) = true) :
    s.reports (s.onGlb fun g => { g with blocks := f g.blocks }) := by
  intro h
  refine ⟨?_, rfl, List.prefix_refl _, fun _ _ _ _ _ => by simp [State.sticky], fun r => .inr ?_⟩
  · simp only [State.wf, Glb.wf, Bool.and_eq_true] at h ⊢; simp_all
  · cases r <;> simp [State.kept, State.src, State.tgt, State.msixEntry, State.inst, State.aerOf, State.areq]

theorem State.reports_onCount (s : State) (pg : Nat) (f : PageCounters → PageCounters) : s.reports (s.onCount pg f) := by
  unfold State.onCount
  split
  · exact s.reports_onBlocks (fun b => tabMod (fun _ => {}) b pg fun c => c.counted s.glb.time f) fun b h => tabWf_tabMod _ h _ _
  · exact s.reports_refl

theorem State.reports_ops (s : State) (pg n : Nat) : s.reports (s.ops pg n) := s.reports_onCount pg _

theorem State.reports_bytes (s : State) (pg n : Nat) : s.reports (s.bytes pg n) := s.reports_onCount pg _

theorem State.reports_emit (s : State) (o : Out) : s.reports (s.emit o) := by
  have key (t : State) : t.reports { t with out := t.out ++ [o] } := by
    intro h
    refine ⟨h, rfl, List.prefix_append _ _, fun _ _ _ _ _ => by simp [State.sticky], fun r => .inr ?_⟩
    cases r <;> simp [State.kept, State.src, State.tgt, State.msixEntry, State.inst, State.aerOf, State.areq]
  unfold State.emit
  split
  · exact key s
  · exact State.reports_then (s.reports_bytes _ _) (key _)

theorem State.reports_tlp (s : State) : s.reports s.tlp := s.reports_ops _ _

theorem State.reports_retire (s : State) (pg : Nat) : s.reports (s.retire pg) :=
  State.reports_then (s.reports_onCount pg fun c => { c with retired := satInc c.retired })
    (State.reports_onBlocks _ (fun b => tabMod (fun _ => {}) b pg fun c => { c with degraded := true })
      fun _ h => tabWf_tabMod _ h _ _)

/-- NoC credits and messages that wait change. -/
theorem State.reports_onNoc (s : State) (f : Noc → Noc) (h1 : (f s.noc).reqs = s.noc.reqs)
    (h2 : (f s.noc).nextTag = s.noc.nextTag) (h3 : s.noc.wf = true → (f s.noc).wf = true) : s.reports (s.onNoc f) := by
  intro h
  refine ⟨?_, rfl, List.prefix_refl _, fun _ _ _ _ _ => by simp [State.sticky], fun r => .inr ?_⟩
  · simp only [State.wf, Bool.and_eq_true] at h ⊢; simp_all
  · cases r <;> simp [State.kept, State.src, State.tgt, State.msixEntry, State.inst, State.aerOf, State.areq]
    rw [← h1, ← h2]

theorem State.reports_nocTry (s : State) (o : Out) : s.reports (s.nocTry o) := by
  unfold State.nocTry
  split
  · exact s.reports_emit o
  · split
    · exact s.reports_onNoc _ rfl rfl id
    · refine State.reports_then (s.reports_onNoc _ rfl rfl ?_) (State.reports_emit _ _)
      intro h; simp only [Noc.wf, Bool.and_eq_true] at h ⊢; exact ⟨tabWf_tabMod _ h.1 _ _, h.2⟩

theorem State.reports_send (s : State) (o : Out) : s.reports (s.send o) := by
  unfold State.send
  split
  · exact s.reports_onNoc _ rfl rfl id
  · exact s.reports_nocTry o

/-! ## Events -/

theorem State.reports_onMsixPending (s : State) (f v : Nat) (b : Bool) : s.reports (s.onMsix f v fun x => { x with pending := b }) := by
  intro h
  simp only [State.wf, Hlk.wf, Bool.and_eq_true] at h
  refine ⟨?_, rfl, List.prefix_refl _, fun _ _ _ _ _ => by simp [State.sticky], fun r => .inr ?_⟩
  · simp only [State.wf, Hlk.wf, Bool.and_eq_true]; simp_all [State.onMsix]
  · cases r <;> simp [State.kept, State.src, State.tgt, State.inst, State.aerOf, State.areq]
    refine ⟨by simp [State.onMsix], fun i j => by simp [State.onMsix], fun i j => ?_, fun i j => by simp [State.onMsix]⟩
    rw [State.msixEntry_onMsix (by simp_all)]
    split
    · next e => simp only [State.msixEntry, e]
    · rfl

theorem State.reports_msix (s : State) (f v : Nat) : s.reports (s.msix f v) := by
  unfold State.msix
  dsimp only
  by_cases h : ((s.msixEntry f v).mask || !s.busMaster f) = true
  · rw [if_pos h]; exact s.reports_onMsixPending f v true
  · rw [if_neg h]
    cases s.ioLink f (s.msixEntry f v).addr with
    | none => exact s.reports_onMsixPending f v true
    | some l =>
      dsimp only
      by_cases h : (!(s.inst l f).msixEn || (s.inst l f).msixMask) = true
      · rw [if_pos h]; exact s.reports_onMsixPending f v true
      · rw [if_neg h]; exact State.reports_then (s.reports_onMsixPending f v false) (State.reports_emit _ _)

theorem State.reports_pmeEdge (s : State) (f : Nat) : s.reports (s.pmeEdge f) := by
  unfold State.pmeEdge
  simp only
  split
  · exact s.reports_refl
  · split
    · exact s.reports_refl
    · next l _ _ =>
      refine State.reports_then ?_ (State.reports_emit _ _)
      intro h
      simp only [State.wf, Hlk.wf, Pwr.wf, Bool.and_eq_true] at h
      refine ⟨?_, rfl, List.prefix_refl _, fun _ _ _ _ _ => by simp [State.sticky], fun r => .inr ?_⟩
      · simp only [State.wf, Hlk.wf, Pwr.wf, Bool.and_eq_true]; simp_all [State.onInst]
      · cases r <;> simp [State.kept, State.src, State.tgt, State.msixEntry, State.aerOf, State.areq]
        refine ⟨by simp [State.onInst], fun i j => by simp [State.onInst], fun i j => ?_, fun i j => ?_⟩
        · simp [State.onInst]
        · have e := State.inst_onInst (s := s) (by simp_all) l f i j (fun x => { x with pmeStatus := true })
          show ({ (s.onInst l f _).inst i j with pmeStatus := _ } : Inst) = _
          rw [e]
          split
          · next e => simp only [State.inst, e]
          · rfl

theorem State.reports_deliver (s : State) (i : Nat) : s.reports (s.deliver i) := by
  unfold State.deliver
  simp only
  split
  · exact State.reports_then (s.reports_pmeEdge _) (State.reports_msix _ _ _)
  · split
    · exact s.reports_refl
    · exact s.reports_send _

theorem State.reports_onTgtReq (s : State) (i : Nat) (b : Bool) : s.reports (s.onTgt i fun g => { g with req := b }) := by
  intro h
  simp only [State.wf, Evc.wf, Bool.and_eq_true] at h
  refine ⟨?_, rfl, List.prefix_refl _, fun _ _ _ _ _ => by simp [State.sticky], fun r => .inr ?_⟩
  · simp only [State.wf, Evc.wf, Bool.and_eq_true]; simp_all [State.onTgt]
  · cases r <;> simp [State.kept, State.msixEntry, State.inst, State.aerOf, State.areq]
    refine ⟨by simp [State.onTgt], fun n => by simp [State.src, State.onTgt], fun n => ?_⟩
    rw [State.tgt_onTgt (by simp_all)]
    split <;> simp_all

theorem State.reports_evtOut (s : State) (i : Nat) (b c : Bool) : s.reports (if c then s.emit (.evtOut i b) else s) := by
  cases c
  · exact s.reports_refl
  · exact s.reports_emit _

theorem State.refresh_eq (s : State) (i : Nat) : s.refresh i =
    let s2 := if decide (192 ≤ i ∧ (s.best i).isSome ≠ (s.tgt i).req) then
        (s.onTgt i fun g => { g with req := (s.best i).isSome }).emit (.evtOut (i - 192) (s.best i).isSome)
      else s.onTgt i fun g => { g with req := (s.best i).isSome }
    if (s.best i).isSome && !(s.tgt i).req then s2.deliver i else s2 := by
  simp only [State.refresh, decide_eq_true_eq]

theorem State.reports_refresh (s : State) (i : Nat) : s.reports (s.refresh i) := by
  have h1 := s.reports_onTgtReq i (s.best i).isSome
  have h2 := State.reports_then h1 (State.reports_evtOut _ (i - 192) (s.best i).isSome (decide (192 ≤ i ∧ (s.best i).isSome ≠ (s.tgt i).req)))
  rw [State.refresh_eq]
  cases (s.best i).isSome && !(s.tgt i).req
  · exact h2
  · exact State.reports_then h2 (State.reports_deliver _ _)

theorem State.reports_merge (s : State) (p : Nat) : s.reports (s.merge p) := by
  intro h
  simp only [State.wf, Evc.wf, Bool.and_eq_true] at h
  refine ⟨?_, rfl, List.prefix_refl _, fun _ _ _ _ _ => by simp [State.sticky, State.merge], fun r => .inr ?_⟩
  · simp only [State.wf, Evc.wf, Bool.and_eq_true]; simp_all [State.merge]
  · cases r <;> simp [State.kept, State.msixEntry, State.inst, State.merge, State.src, State.tgt, State.aerOf, State.areq]

/-- PENDING of a source, or the time of its last edge, changes; PENDING is not cleared. -/
theorem State.reports_onSrc (s : State) (n : Nat) (f : Source → Source)
    (hf : ∀ x : Source, { f x with pending := x.pending, edgeAt := x.edgeAt } = x)
    (hp : (s.src n).pending = true → (f (s.src n)).pending = true) : s.reports (s.onSrc n f) := by
  intro h
  simp only [State.wf, Evc.wf, Bool.and_eq_true] at h
  refine ⟨?_, rfl, List.prefix_refl _, fun _ _ _ _ _ => by simp [State.sticky], fun r => .inr ?_⟩
  · simp only [State.wf, Evc.wf, Bool.and_eq_true]; simp_all [State.onSrc]
  · cases r <;> simp [State.kept, State.msixEntry, State.inst, State.aerOf, State.areq]
    refine ⟨by simp [State.onSrc], fun j => ?_, fun n => by simp [State.tgt, State.onSrc]⟩
    rw [State.src_onSrc (by simp_all)]
    split
    · next e => subst e; exact ⟨hf _, hp⟩
    · exact ⟨rfl, id⟩

theorem State.src_merge (s : State) (p n : Nat) : (s.merge p).src n = s.src n := by simp [State.merge, State.src]

theorem State.edge_eq (s : State) (n : Nat) : s.edge n =
    bif !(s.src n).en || neverRaised n then s
    else bif (s.src n).pending then (s.merge (srcPart n)).onSrc n fun y => { y with edgeAt := some s.glb.time }
    else (s.onSrc n fun y => { y with pending := true, edgeAt := none }).refresh (s.src n).target.toNat := by
  simp only [State.edge, cond_eq_ite]

theorem State.reports_edge (s : State) (n : Nat) : s.reports (s.edge n) := by
  rw [State.edge_eq]
  cases (!(s.src n).en || neverRaised n)
  · cases (s.src n).pending
    · have h := s.reports_onSrc n (fun y => { y with pending := true, edgeAt := none }) (fun _ => rfl) fun _ => rfl
      exact State.reports_then h (State.reports_refresh _ _)
    · have h := (s.merge (srcPart n)).reports_onSrc n (fun y => { y with edgeAt := some s.glb.time }) (fun _ => rfl) fun h => h
      exact State.reports_then (s.reports_merge _) h
  · exact s.reports_refl

/-! ## Sticky bits -/

/-- A view's sticky registers are set, with its bit among them. -/
theorem State.reports_setView (s : State) (pg view b : Nat) (k : Sticky) (hv : pg < 32)
    (hk : ∀ i, bit k.bits i = (bit (s.sticky pg view).bits i || decide (i = b))) : s.reports (s.setView pg view k) [(pg, view, b)] := by
  have key : s.reports (s.onGlb fun g => { g with sticky := tabPut stickyDflt g.sticky (view * 32 + pg) k }) [(pg, view, b)] := by
    intro h
    simp only [State.wf, Glb.wf, Bool.and_eq_true] at h
    refine ⟨?_, rfl, List.prefix_refl _, ?_, fun r => .inr ?_⟩
    · simp only [State.wf, Glb.wf, Bool.and_eq_true]; simp_all
    · intro pg' v' b' hv' _
      have e := tabGet_tabPut stickyDflt (t := s.glb.sticky) (by simp_all) (view * 32 + pg) k (v' * 32 + pg')
      show bit (tabGet stickyDflt (tabPut stickyDflt s.glb.sticky (view * 32 + pg) k) (v' * 32 + pg')).bits b' = _
      rw [e]
      split
      · next e1 =>
        obtain ⟨rfl, rfl⟩ : pg' = pg ∧ v' = view := by omega
        simp [hk, State.sticky]
      · next e1 =>
        have : (pg', v', b') ≠ (pg, view, b) := by rintro ⟨⟩; exact e1 rfl
        simp [State.sticky, this]
    · cases r <;> simp [State.kept, State.src, State.tgt, State.msixEntry, State.inst, State.aerOf, State.areq]
  unfold State.setView
  simp only
  split
  · exact State.reports_after key (State.reports_edge _ _)
  · exact key

theorem bit_or_place (x : Word) (b i : Nat) (hb : b < 64) : bit (x ||| place 1 b) i = (bit x i || decide (i = b)) := by
  have e : bit (place 1 b) i = decide (i = b) := by
    simp only [bit, place, BitVec.getLsbD_ofNat, Nat.one_shiftLeft, Nat.testBit_two_pow]
    by_cases h : i = b
    · subst h; simp [hb]
    · simp [h, Ne.symm h]
  rw [← e]
  simp only [bit, BitVec.getLsbD_or]

theorem State.reports_stick (s : State) (pg view b : Nat) (code : Code) (i : Nat) (hv : pg < 32) (hb : b < 64) :
    s.reports (s.stick pg view b code i) [(pg, view, b)] := by
  apply State.reports_setView _ _ _ _ _ hv
  intro j
  simp only [capture]
  exact bit_or_place _ _ _ hb

/-- DBG's TRACE_LOST is outside what `sticks` says. -/
theorem State.reports_traceLost (h : s.reports t [(pgDBG, 0, 1)]) : s.reports t := by
  intro w
  obtain ⟨h1, h2, h3, h4, h5⟩ := h w
  refine ⟨h1, h2, h3, fun pg v b hv hb => ?_, h5⟩
  rw [h4 pg v b hv hb]
  simp [hb]

theorem State.reports_trace (s : State) (pg view b : Nat) (code : Code) (i : Nat) : s.reports (s.trace pg view b code i) := by
  unfold State.trace
  simp only
  split
  · exact s.reports_refl
  · generalize (if s.glb.traceAt = s.glb.time then s.glb.traceNow else 0) = n
    split
    · apply State.reports_then (t := State.onGlb s _) ?_ (State.reports_ops _ _ _)
      intro h
      refine ⟨?_, rfl, List.prefix_refl _, fun _ _ _ _ _ => by simp [State.sticky], fun r => .inr ?_⟩
      · simp only [State.wf, Glb.wf, Bool.and_eq_true] at h ⊢; simp_all
      · cases r <;> simp [State.kept, State.src, State.tgt, State.msixEntry, State.inst, State.aerOf, State.areq]
    · have k : s.reports (s.onGlb fun g => { g with traceLost := satInc g.traceLost }) := by
        intro h
        refine ⟨?_, rfl, List.prefix_refl _, fun _ _ _ _ _ => by simp [State.sticky], fun r => .inr ?_⟩
        · simp only [State.wf, Glb.wf, Bool.and_eq_true] at h ⊢; simp_all
        · cases r <;> simp [State.kept, State.src, State.tgt, State.msixEntry, State.inst, State.aerOf, State.areq]
      have k2 := (s.onGlb fun g => { g with traceLost := satInc g.traceLost }).reports_stick 0x14 0 1 0 0 (by decide) (by decide)
      exact State.reports_traceLost (State.reports_then k k2)

/-- A sticky bit is set: that bit, and what reporting it changes. -/
theorem State.reports_flag (s : State) (pg view b : Nat) (code : Code) (i : Nat) (hv : pg < 32) (hb : b < 64) :
    s.reports (s.flag pg view b code i) [(pg, view, b)] :=
  State.reports_after (s.reports_stick _ _ _ _ _ hv hb) (State.reports_trace _ _ _ _ _ _)

end Sys2Proof.Machine
end

