-- ==== Sys2Proof/Laws/Rest.lean ====
section
/-! SUPPORT. A hub at rest: its units pass nothing between them, so that each form of a meaning is the command's own effect. -/

-- One proof at a time: hundreds of proofs started together would each wait on the same lemma on a thread of its own.
set_option Elab.async false

namespace Sys2Proof.Machine

variable {s t : State}

/-- What being settled says, part by part. -/
theorem State.settled_parts (h : s.settled = true) :
    (s.home.answers = [] ∧ s.home.woken = [] ∧ s.xlt.inbound = [] ∧ s.peer.loop = []) ∧
    (∀ e ∈ s.dbl.chan, e.2.fencing = false ∧ e.2.settling = false) ∧
    (∀ e ∈ s.prt.part, e.2.closing = .none ∨ e.2.closing = .last) ∧ s.hlk.cacheDrain = false ∧ s.pwr.entering = false ∧
    (∀ e ∈ s.peer.flow, e.2.wait.filter e.2.dead = []) ∧ (∀ e ∈ s.cht.view, e.2.loaded = none) ∧ s.strays = [] := by
  simp only [State.settled, Bool.and_eq_true, decide_eq_true_eq, List.all_eq_true, Bool.not_eq_true', Bool.or_eq_true, List.isEmpty_iff,
    Option.isNone_iff_eq_none] at h
  obtain ⟨⟨⟨⟨⟨⟨⟨⟨⟨⟨⟨h1, h2⟩, h3⟩, h4⟩, h5⟩, h6⟩, h7⟩, h8⟩, h9⟩, h10⟩, h11⟩, h12⟩ := h
  exact ⟨⟨h1, h2, h3, h4⟩, fun e he => ⟨h5 e he, h9 e he⟩, h6, h7, h8, h10, h11, h12⟩

theorem State.flowFor_settled (h : s.settled = true) : ∀ n, s.flowFor n = s
  | 0 => rfl
  | n + 1 => by
    obtain ⟨⟨h1, h2, h3, h4⟩, -⟩ := State.settled_parts h
    unfold State.flowFor
    have : s.flowOnce = none := by simp [State.flowOnce, State.nextAnswer, h1, h2, h3, h4]
    rw [this]

theorem State.settleFetches_settled (h : s.settled = true) : s.settleFetches = s := by
  have : (s.dbl.chan.filter fun (e : Nat × Chan) => e.2.settling) = [] := by
    rw [List.filter_eq_nil_iff]
    intro e he
    simp [((State.settled_parts h).2.1 e he).2]
  unfold State.settleFetches
  rw [this]; rfl

theorem State.pumpFences_settled (h : s.settled = true) : s.pumpFences = s := by
  have : (s.dbl.chan.filter fun (e : Nat × Chan) => e.2.fencing) = [] := by
    rw [List.filter_eq_nil_iff]
    intro e he
    simp [((State.settled_parts h).2.1 e he).1]
  unfold State.pumpFences
  rw [this]; rfl

theorem State.pumpFlows_settled (h : s.settled = true) : s.pumpFlows = s := by
  have hd (chip : Nat) : s.failDead chip = s := by
    have : (s.flow chip).wait.filter (s.flow chip).dead = [] := by
      rcases tabGet_listed (fun _ => ({} : Flow)) s.peer.flow chip with e | e
      · unfold State.flow; rw [e]; rfl
      · exact (State.settled_parts h).2.2.2.2.2.1 _ e
    unfold State.failDead
    simp only [this]
  exact foldl_keeps (fun t => t = s) _ (fun t b ht => by rw [ht]; exact hd _) _ _ rfl

theorem State.pumpLoads_settled (h : s.settled = true) : s.pumpLoads = s := by
  have : (s.cht.view.filter fun (e : Nat × ChtView) => e.2.loaded.isSome) = [] := by
    rw [List.filter_eq_nil_iff]
    intro e he
    simp [(State.settled_parts h).2.2.2.2.2.2.1 e he]
  unfold State.pumpLoads
  rw [this]; rfl

theorem State.pumpStrays_settled (h : s.settled = true) : s.pumpStrays = s := by
  unfold State.pumpStrays
  rw [(State.settled_parts h).2.2.2.2.2.2.2]; rfl

theorem State.pumpParts_settled (h : s.settled = true) : s.pumpParts = s := by
  have : (s.prt.part.filter fun (e : Nat × Part) => e.2.closing ≠ .none && e.2.closing ≠ .last) = [] := by
    rw [List.filter_eq_nil_iff]
    intro e he
    have := (State.settled_parts h).2.2.1 e he
    simp
    tauto
  unfold State.pumpParts
  rw [this]; rfl

theorem State.pumpDrain_settled (h : s.settled = true) : s.pumpDrain = s := by
  simp [State.pumpDrain, (State.settled_parts h).2.2.2.1]

theorem State.pumpPower_run (h : s.settled = true) (hp : s.pwr.st = .run) : s.pumpPower = s := by
  simp [State.pumpPower, hp, PwrSt.num, (State.settled_parts h).2.2.2.2.1]

theorem State.pumpPower_asleep (h : s.settled = true) (hp : s.pwr.st.num ≤ s.limit) : s.pumpPower = s := by
  simp [State.pumpPower, (State.settled_parts h).2.2.2.2.1]
  intro h'; omega

/-- Nothing moves between the units of a settled hub in Run; requests that have dropped lose their wait. -/
theorem State.runOn_settled (h : s.settled = true) (hp : s.pwr.st = .run) : s.runOn = s.settleArbs := by
  unfold State.runOn
  rw [State.flowFor_settled h, State.settleFetches_settled h, State.flowFor_settled h, State.pumpFlows_settled h,
    State.pumpFences_settled h, State.pumpLoads_settled h, State.pumpStrays_settled h, State.pumpParts_settled h,
    State.pumpDrain_settled h, State.pumpPower_run h hp]

/-- A hub deep enough asleep, and no deeper than its limit, stays so when nothing moves. -/
theorem State.runOn_asleep (h : s.settled = true) (hp : s.pwr.st.num ≤ s.limit) : s.runOn = s.settleArbs := by
  unfold State.runOn
  rw [State.flowFor_settled h, State.settleFetches_settled h, State.flowFor_settled h, State.pumpFlows_settled h,
    State.pumpFences_settled h, State.pumpLoads_settled h, State.pumpStrays_settled h, State.pumpParts_settled h,
    State.pumpDrain_settled h, State.pumpPower_asleep h hp]

/-! ## Requests that drop (17_arbiters.md R359) -/

/-- What the end of waits does: nothing but waits changes, each as before or ended. -/
theorem State.reports_ended (s : State) (a i : Nat) (hi : i < 16384) (now : Word) :
    s.reports (s.onAreq a i fun x => x.ended (decide (4 ≤ a)) now) := by
  intro h
  have hw : tabWf (fun _ => ({} : ArbReq)) s.arb.req = true := by
    simp only [State.wf, Arb.wf, Bool.and_eq_true] at h; simp_all
  refine ⟨?_, rfl, List.prefix_refl _, fun _ _ _ _ _ => by simp [State.sticky], fun r => .inr ?_⟩
  · simp only [State.wf, Arb.wf, Bool.and_eq_true] at h ⊢; simp_all [State.onAreq, State.onArb]
  · have key (b j : Nat) (hj : j < 16384) : (s.onAreq a i fun x => x.ended (decide (4 ≤ a)) now).areq b j = s.areq b j ∨
        ∃ n, (s.onAreq a i fun x => x.ended (decide (4 ≤ a)) now).areq b j = (s.areq b j).ended (decide (4 ≤ b)) n := by
      have e := tabGet_tabMod (fun _ => ({} : ArbReq)) hw (a * 16384 + i) (fun x => x.ended (decide (4 ≤ a)) now) (b * 16384 + j)
      unfold State.onAreq State.onArb State.areq
      simp only [e]
      split
      · next e =>
        have : b = a ∧ j = i := by omega
        obtain ⟨rfl, rfl⟩ := this
        exact .inr ⟨now, rfl⟩
      · exact .inl rfl
    cases r
    case arb => exact ⟨rfl, key⟩
    all_goals simp [State.kept, State.onAreq, State.onArb, State.src, State.tgt, State.msixEntry, State.inst, State.aerOf]

theorem State.reports_dropRequests (s : State) (a : Nat) (reqs : List (Nat × Bool)) : s.reports (s.dropRequests a reqs) :=
  State.reports_foldl _ (fun s e => s.reports_ended a _ (Nat.mod_lt _ (by decide)) _) _ _

/-- The end of dropped waits reports: parts listed as changed or kept stay so. -/
theorem State.reports_settleArbs (s : State) : s.reports s.settleArbs :=
  State.reports_foldl _ (fun s a => s.reports_dropRequests a _) _ _

/-- An arbiter all of whose waits are requested drops none. -/
theorem State.settleArbs_settled (h : s.arbsSettled = true) (hw : s.wf = true) : s.settleArbs = s := by
  have hw : tabWf (fun _ => ({} : ArbReq)) s.arb.req = true := by
    simp only [State.wf, Arb.wf, Bool.and_eq_true] at hw; simp_all
  have one (a k : Nat) (hk : k / 16384 = a) (hr : (s.requests a).any (fun r => r.1 = k % 16384) = false) (now : Word) :
      (s.onAreq a (k % 16384) fun x => x.ended (decide (4 ≤ a)) now) = s := by
    have e : a * 16384 + k % 16384 = k := by omega
    have hz : (tabGet (fun _ => ({} : ArbReq)) s.arb.req k).ended (decide (4 ≤ a)) now = tabGet (fun _ => ({} : ArbReq)) s.arb.req k := by
      rcases tabGet_listed (fun _ => ({} : ArbReq)) s.arb.req k with e | e
      · rw [e]; simp [ArbReq.ended, ArbReq.waited]
      · have := List.all_eq_true.1 h _ e
        generalize tabGet (fun _ => ({} : ArbReq)) s.arb.req k = x at this ⊢
        simp only [hk, hr, Bool.or_false, Bool.and_eq_true, decide_eq_true_eq, Option.isNone_iff_eq_none, Bool.not_eq_true'] at this
        obtain ⟨⟨⟨h1, h2⟩, h3⟩, h4⟩ := this
        obtain ⟨x1, x2, x3, x4, x5, x6, x7, x8⟩ := x
        simp only at h1 h2 h3 h4
        subst h1 h2 h3 h4
        simp [ArbReq.ended, ArbReq.waited]
    have hm := tabMod_same (fun _ => ({} : ArbReq)) hw (f := fun x => x.ended (decide (4 ≤ a)) now) hz
    unfold State.onAreq State.onArb
    simp only [e, hm]
  unfold State.settleArbs
  refine foldl_keeps (fun t => t = s) _ (fun t a ht => ?_) _ _ rfl
  rw [ht]
  unfold State.dropRequests
  have : ∀ l : List (Nat × ArbReq), (∀ e ∈ l, e.1 / 16384 = a ∧ (s.requests a).any (fun r => r.1 = e.1 % 16384) = false) →
      l.foldl (fun t e => t.onAreq a (e.1 % 16384) fun x => x.ended (decide (4 ≤ a)) t.glb.time) s = s := by
    intro l
    induction l with
    | nil => exact fun _ => rfl
    | cons e l ih =>
      intro hl
      obtain ⟨h1, h2⟩ := hl e (by simp)
      rw [List.foldl_cons, one a e.1 h1 h2]
      exact ih fun x hx => hl x (by simp [hx])
  refine this _ fun e he => ?_
  have := (List.mem_filter.1 he).2
  simpa using this

theorem State.atRest_on (h : s.atRest = true) : s.on = true := by simp only [State.atRest, Bool.and_eq_true] at h; exact h.1.1.1.1
theorem State.atRest_settled (h : s.atRest = true) : s.settled = true := by simp only [State.atRest, Bool.and_eq_true] at h; exact h.1.1.1.2
theorem State.atRest_wf (h : s.atRest = true) : s.wf = true := by simp only [State.atRest, Bool.and_eq_true] at h; exact h.1.1.2
theorem State.atRest_run (h : s.atRest = true) : s.pwr.st = .run := by simp only [State.atRest, Bool.and_eq_true] at h; simpa using h.1.2
theorem State.atRest_arbs (h : s.atRest = true) : s.arbsSettled = true := by simp only [State.atRest, Bool.and_eq_true] at h; exact h.2

theorem State.awake_run (h : s.pwr.st = .run) : s.awake = s := by simp [State.awake, h]

/-! ## The forms of a meaning, from rest into a settled state -/

theorem State.within_rest (h : s.atRest = true) (f : State → State) (h1 : (f s).settled = true) (h2 : (f s).pwr.st = .run) :
    s.within f = (f s).settleArbs := by
  have ho := State.atRest_on h
  unfold State.on at ho
  unfold State.within State.inner
  rw [if_pos ho]
  exact State.runOn_settled h1 h2

theorem State.act_rest (h : s.atRest = true) (f : State → State) : s.act f = f s := by
  have ho := State.atRest_on h
  unfold State.on at ho
  unfold State.act State.inner
  rw [if_pos ho]
  show f s.awake = f s
  rw [State.awake_run (State.atRest_run h)]

theorem State.arrives_rest (h : s.atRest = true) (f : State → State) (h1 : (f s).settled = true) (h2 : (f s).pwr.st = .run) :
    s.arrives f = (f s).settleArbs := by
  unfold State.arrives
  rw [State.act_rest h]
  exact State.runOn_settled h1 h2

theorem State.answered_rest (h : s.atRest = true) (f : State → State) (h1 : (f s).settled = true) (h2 : (f s).pwr.st = .run) :
    s.answered f = (f s).settleArbs := by
  unfold State.answered State.actAnswer
  rw [(State.settled_parts (State.atRest_settled h)).2.2.2.2.1, if_neg (by simp), State.act_rest h]
  exact State.runOn_settled h1 h2

theorem State.onPage_rest {fn : Nat} (h : s.hostOpen fn = true) (f : State → State) (h1 : (f s.tlp).settled = true)
    (h2 : (f s.tlp).pwr.st = .run) : s.onPage fn f = (f s.tlp).settleArbs := by
  simp only [State.hostOpen, Bool.and_eq_true, Bool.not_eq_true'] at h
  unfold State.onPage State.paged
  rw [State.act_rest h.1, h.2, if_neg (by simp)]
  exact State.runOn_settled h1 h2

theorem State.configured_rest {fn : Nat} (h : s.hostOpen fn = true) (link : Option Nat) (f : State → State)
    (h1 : (f (s.tlp.ops pgEPF 1)).settled = true) (h2 : (f (s.tlp.ops pgEPF 1)).pwr.st = .run) :
    s.configured fn link f = (f (s.tlp.ops pgEPF 1)).settleArbs := by
  simp only [State.hostOpen, Bool.and_eq_true, Bool.not_eq_true'] at h
  unfold State.configured
  rw [State.act_rest h.1, h.2, if_neg (by simp)]
  exact State.runOn_settled h1 h2

/-- What a report leaves of the premises of rest. -/
theorem State.settled_kept {rs : List Region} {l : List (Nat × Nat × Nat)} (h : s.onlyChanges t rs l)
    (hr : ∀ r ∈ [Region.home, .xlt, .peer, .dbl, .prt, .hlk, .pwr, .cht, .mov], r ∉ rs) :
    t.settled = s.settled ∧ t.pwr.st = s.pwr.st := by
  have k (r : Region) (hr' : r ∈ [Region.home, .xlt, .peer, .dbl, .prt, .hlk, .pwr, .cht, .mov]) : s.kept t r :=
    (h.2.2.2 r).resolve_left (hr r hr')
  have k1 := k .home (by simp)
  have k2 := k .xlt (by simp)
  have k3 := k .peer (by simp)
  have k4 := k .dbl (by simp)
  have k5 := k .prt (by simp)
  have k6 := (k .hlk (by simp)).1
  have k7 := k .pwr (by simp)
  have k8 := k .cht (by simp)
  have k9 := k .mov (by simp)
  simp only [State.kept] at k1 k2 k3 k4 k5 k6 k7 k8 k9
  have e6 : t.hlk.cacheDrain = s.hlk.cacheDrain := by rw [k6]
  have e7 : t.pwr.entering = s.pwr.entering := by rw [k7]
  exact ⟨by simp only [State.settled, State.strays, k1, k2, k3, k4, k5, k8, k9, e6, e7], by rw [k7]⟩

end Sys2Proof.Machine
end

