-- ==== Sys2Proof/WellFormed.lean ====
section
/-! DEFINITION. Which commands are well formed: the checks their types do not make. -/

namespace Sys2Proof

/-- A list whose numbers are all distinct. -/
def distinct : List Nat → Bool
  | [] => true
  | a :: r => !r.contains a && distinct r

/-- The blocks of a packet: distinct numbers, 1 to 256 bytes each (12_peer_windows_and_transport.md R268). -/
def blocksOk (bs : List Block) : Bool :=
  distinct (bs.map (·.k.val)) && bs.all fun b => decide (0 < b.bytes.length) && decide (b.bytes.length ≤ 256)

/-- A command is well formed. -/
def Instr.wellFormed : Instr → Bool
  | .dbInline _ _ _ _ _ data => decide (data.length ≤ 64)
  | .bar4Write _ _ bs _ _ => decide (bs.length = 64)
  | .packetData h bs => blocksOk bs && decide (bs.length ≤ h.blocks.toNat)
  | .packetReduce h bs => blocksOk bs && decide (bs.length ≤ h.blocks.toNat)
  | .rcRead _ _ _ _ size => decide (0 < size) && decide (size ≤ 4096)
  | .registerWrite _ _ _ _ size _ => decide (0 < size) && decide (size ≤ 4096)
  | _ => true

end Sys2Proof
end

