-- ==== Sys2Proof/Tests/Slice0.lean ====
section
/-! SUPPORT. The model's own tests: a term each well-formedness check refuses, and for each statement small states that meet the
hypotheses of its clauses, with what the command does there. -/

-- One proof at a time: hundreds of proofs started together would each wait on the same lemma on a thread of its own.
set_option Elab.async false

open Sys2Proof Sys2Proof.Machine

namespace Sys2Proof.Tests

-- one theorem at a time: many kernel evaluations at once would each hold a thread's stack
set_option Elab.async false

/-! ## Helpers -/

/-- The command answers a next state that passes. -/
def does (i : Instr) (s : State) (p : State → Bool) : Bool :=
  match exec i s with
  | .next t => p t
  | _ => false

/-- The command leaves the state as it is. -/
def idles (i : Instr) (s : State) : Bool := does i s fun t => decide (t = s)

/-- Keys of two tables. -/
def keys {α : Type} (a b : Tab α) : List Nat := a.map (·.1) ++ b.map (·.1)

/-- `State.kept`, read on the entries the tables list. -/
def keptB (s t : State) : Region → Bool
  | .glb => decide (t.glb = { s.glb with
      sticky := t.glb.sticky, blocks := t.glb.blocks, tracePtr := t.glb.tracePtr, traceWrapped := t.glb.traceWrapped
      trace := t.glb.trace, traceLost := t.glb.traceLost, traceAt := t.glb.traceAt, traceNow := t.glb.traceNow })
  | .evc => decide (t.evc = { s.evc with src := t.evc.src, tgt := t.evc.tgt, merge := t.evc.merge }) &&
      (keys s.evc.src t.evc.src).all (fun n => decide ({ t.src n with pending := (s.src n).pending, edgeAt := (s.src n).edgeAt } = s.src n)) &&
      (keys s.evc.tgt t.evc.tgt).all fun n => decide ({ t.tgt n with req := (s.tgt n).req } = s.tgt n)
  | .hlk => decide ({ t.hlk with msix := [], inst := [], aer := [], headers := 0 } = { s.hlk with msix := [], inst := [], aer := [], headers := 0 }) &&
      (keys s.hlk.aer t.hlk.aer).all (fun k =>
        let x := tabGet (fun _ => ({} : Aer)) s.hlk.aer k
        let y := tabGet (fun _ => ({} : Aer)) t.hlk.aer k
        decide (x = { y with unc := x.unc, cor := x.cor, first := x.first, header := x.header }) && decide (x.unc &&& ~~~y.unc = 0) &&
          decide (x.cor &&& ~~~y.cor = 0)) &&
      (keys s.hlk.msix t.hlk.msix).all (fun k =>
        decide ({ tabGet (fun _ => ({} : MsixEntry)) t.hlk.msix k with
          pending := (tabGet (fun _ => ({} : MsixEntry)) s.hlk.msix k).pending } = tabGet (fun _ => ({} : MsixEntry)) s.hlk.msix k)) &&
      (keys s.hlk.inst t.hlk.inst).all fun k =>
        decide ({ tabGet (fun _ => ({} : Inst)) t.hlk.inst k with
          pmeStatus := (tabGet (fun _ => ({} : Inst)) s.hlk.inst k).pmeStatus } = tabGet (fun _ => ({} : Inst)) s.hlk.inst k)
  | .noc => decide (t.noc = { s.noc with credit := t.noc.credit, wait := t.noc.wait, inAt := t.noc.inAt, inUse := t.noc.inUse })
  | .dbl => decide (t.dbl = s.dbl)
  | .xlt => decide (t.xlt = s.xlt)
  | .skk => decide (t.skk = s.skk)
  | .mov => decide (t.mov = s.mov)
  | .ccu => decide (t.ccu = s.ccu)
  | .syn => decide (t.syn = s.syn)
  | .cht => decide (t.cht = s.cht)
  | .home => decide (t.home = s.home)
  | .peer => decide (t.peer = s.peer)
  | .prt => decide (t.prt = s.prt)
  | .twn => decide (t.twn = s.twn)
  | .arb => decide (t.arb = { s.arb with req := t.arb.req }) && (keys s.arb.req t.arb.req).all fun k =>
      let x := tabGet (fun _ => ({} : ArbReq)) s.arb.req k
      let y := tabGet (fun _ => ({} : ArbReq)) t.arb.req k
      decide (y = x) || decide (y = x.ended (decide (4 ≤ k / 16384)) s.glb.time)
  | .ras => decide (t.ras = s.ras)
  | .pwr => decide (t.pwr = { s.pwr with pmeSent := t.pwr.pmeSent })
  | .free => decide (t.free = s.free)

/-- The parts of the state. -/
def regions : List Region :=
  [.glb, .evc, .hlk, .noc, .dbl, .xlt, .skk, .mov, .ccu, .syn, .cht, .home, .peer, .prt, .twn, .arb, .ras, .pwr, .free]

/-- `State.sticks`, read on the views the tables list. -/
def sticksB (s t : State) (l : List (Nat × Nat × Nat)) : Bool :=
  (keys s.glb.sticky t.glb.sticky).all (fun k =>
    let mask := l.foldl (fun (m : Word) x => if x.2.1 * 32 + x.1 = k then m ||| place 1 x.2.2 else m) 0
    k % 32 = pgDBG || decide ((tabGet stickyDflt t.glb.sticky k).bits = ((tabGet stickyDflt s.glb.sticky k).bits ||| mask))) &&
    l.all fun x => bit (t.sticky x.1 x.2.1).bits x.2.2

/-- `State.kept` of every part but some. -/
def framed (s t : State) (rs : List Region) : Bool :=
  decide (t.pending = s.pending) && s.out.isPrefixOf t.out && regions.all fun r => rs.contains r || keptB s t r

/-- `State.onlyChanges`, read on the entries the tables list. -/
def only (s t : State) (rs : List Region) (l : List (Nat × Nat × Nat) := []) : Bool := framed s t rs && sticksB s t l

/-- The state after reset. -/
def R : State := State.reset

/-- A link up, in 256-byte flit mode, with CXL.cache on, and PF0 a bus master whose BARs respond: the base of the tests that use the host. -/
def H : State := (R.onLink 0 fun l => { l with up := true, flit256 := true, cacheEn := true }).onInst 0 0 fun i => { i with bme := true, mse := true }

/-- Partition 1 enabled, with quotas. -/
def P1 : State := H.onPart 1 fun p => { p with
  st := .enabled, qChan := 4, qWalk := 2, qMov := 2, qWays := 2, qSync := 4, qEntries := 8, qRows := 4, qEvt := 4 }

/-! ## Well-formedness: one ill-formed term for each check -/

/-- The header with its CRC. -/
def sealHdr (h : PktHdr) : PktHdr := { h with hcrc := crc32c (headerBytes h) }

/-- A header of a packet from chip 1 to this chip, its CRC not formed. -/
def rawHdr (kind : BitVec 4) (blocks : BitVec 5) (psn : BitVec 24) : PktHdr :=
  { hcrc := 0, kind := kind, last := false, resend := false, route := 0, blocks := blocks, mask := 0, srcChip := 1, dstChip := 0
    psn := psn, window := 0, tag := 0, body := 0, arg := 0 }

/-- A header of a packet from chip 1 to this chip. -/
def hdr (kind : BitVec 4) (blocks : BitVec 5) (psn : BitVec 24) : PktHdr := sealHdr (rawHdr kind blocks psn)

/-- Too many bytes, too few entries, numbers twice, blocks without bytes, sizes of 0: each is refused. -/
theorem smoke_ill_formed :
    (Instr.dbInline 0 0 0 64 false (List.replicate 65 0)).wellFormed = false ∧ (Instr.bar4Write 0 0 (List.replicate 63 none) 0 false).wellFormed = false ∧
    (Instr.packetData (hdr 1 1 0) [⟨0, 0, []⟩]).wellFormed = false ∧
    (Instr.packetReduce (hdr 2 2 0) [⟨0, 0, [1]⟩, ⟨0, 0, [2]⟩]).wellFormed = false ∧
    (Instr.rcRead 0 0 ⟨0, .memory⟩ 0 0).wellFormed = false ∧
    (Instr.registerWrite 0 0 ⟨0, .memory⟩ 0 4097 0).wellFormed = false := by decide +kernel

/-! ## The block as a whole, resets and power -/

theorem witness_StepRunsFront : step { R with pending := [.supplyLow, .wake] } = exec .supplyLow { R with pending := [.wake] } := rfl

theorem witness_IdleStepIsOneCycle : R.pending = [] ∧ R.on = true ∧ R.counting pgHLK = true ∧
    (match step R with | .next t => decide (t.glb.time = 1) | _ => false) = true := by decide +kernel

theorem witness_NothingActsWhileNotReady :
    (R.onGlb fun g => { g with ready := false }).on = false ∧ idles .supplyLow (R.onGlb fun g => { g with ready := false }) = true := by
  decide +kernel

theorem witness_TimeIsKept : does .coldReset (R.onGlb fun g => { g with time := 9 }) (fun t => t.glb.time = 0) = true ∧
    does .supplyLow (R.onGlb fun g => { g with time := 9 }) (fun t => t.glb.time = 9) = true := by decide +kernel

theorem witness_StepKeepsForm : R.wf = true ∧
    (match step { R with pending := [.ccuSrSeed 5] } with | .next t => t.wf | _ => false) = true := by decide +kernel

theorem witness_SettingsAreKept : R.wf = true ∧ setsSettings .supplyLow = false ∧ does .supplyLow R (fun t => only R t [] [(pgGLB, 0, 3)]) = true := by
  decide +kernel

theorem witness_ResetHoldsNothing : does .coldReset H (fun t => t.glb.ready = false ∧ t.hlk = { links := t.hlk.links, inst := t.hlk.inst }) = true := by
  decide +kernel

theorem witness_WholeHubResets :
    does .coldReset H (fun t => does .hubReady t fun u => decide (u = { State.reset with pwr := { wakeCause := 0, resetCause := 0 } })) = true ∧
    idles .coldReset (R.onGlb fun g => { g with ready := false }) = true ∧
    does (.warmReset 0x5752) (H.onGlb fun g => { g with time := 7 }) (fun t => !t.glb.ready && does .hubReady t fun u =>
      decide (u = { State.reset with glb := { time := 7 }, hlk := { links := H.hlk.links, inst := H.hlk.inst }
                                     pwr := { wakeCause := 0, resetCause := 2 }, out := t.out })) = true ∧
    idles (.warmReset 0x5753) H = true := by decide +kernel

/-- PF0 in D3hot with PME_En. -/
def Deep : State := (H.onInst 0 0 fun i => { i with dstate := 3, pmeEn := true }).onPwr fun p => { p with wakeEn := 1 }
/-- The hub in D3cold. -/
def Cold : State := match exec (.perst 0) Deep with | .next t => t | _ => R

theorem witness_PerstAndDeepSleep :
    Deep.glb.ready = true ∧ (Deep.inst 0 0).dstate = 3 ∧ (Deep.inst 0 0).pmeEn = true ∧ Cold.pwr.d3cold = true ∧ Cold.glb = { ready := false } ∧
    does (.perst 0) H (fun t => t.pwr = { resetCause := 1 } ∧ t.glb = { ready := false }) = true ∧
    (∀ w, w ∈ [WakeCond.fabric, .dronePin, .thermal] → does (.wakeReq w) Cold (fun t => t.pwr.wakeReq = Cold.pwr.wakeEn.getLsbD (wakeBit w)) = true) ∧
    (∀ w, w ∈ [WakeCond.fabric, .dronePin, .thermal] → idles (.wakeReq w) R = true) ∧
    does .hubReady Cold (fun t => t.on ∧ t.pwr.resetCause = 4) = true ∧
    (let s := H.onInst 1 3 fun i => { i with en := true }
     s.atRest = true ∧ s.home = {} ∧ s.hlk.np = [] ∧ s.xlt.walk = [] ∧ (s.link 1).up = false ∧
       does (.perst 1) s (fun t => decide (t.inst 1 3 = {}) && only s t [.hlk] [(pgHLK, 0, 5)]) = true) := by decide +kernel

/-- The hub idle with an unbounded budget, in a power state. -/
def Idle (st : PwrSt) : State := (R.onPwr fun p => { p with st := st, wlb := [(0, 0xFFFFFFFF)] })

theorem witness_PowerStatesChange :
    (Idle .run).idle = true ∧ (Idle .run).limit = 3 ∧
    does .dozeEntry (Idle .run) (fun t => decide (t.pwr.st = .doze) && only (Idle .run) t [.pwr]) = true ∧
    R.limit = 1 ∧ idles .dozeEntry (Idle .run |>.onPwr fun p => { p with forceRun := true }) = true ∧
    does .napEntry (Idle .doze) (fun t => decide (t.pwr.st = .nap) && framed (Idle .doze) t [.pwr, .xlt, .skk]) = true ∧
    (Idle .nap).homeEmpty = true ∧
    does .hibernateEntry ((Idle .nap).onChan 3 fun c => { c with cached := true }) (fun t => t.pwr.st = .hibernate ∧ (t.chan 3).cached = false) = true ∧
    does .wake (Idle .nap) (fun t => decide (t.pwr.wakeCount = 1 ∧ t.pwr.st = .run) && only (Idle .nap) t [.pwr]) = true := by decide +kernel

/-- A bootstrap write awaits its response. -/
def Boot : State := R.onPwr fun p => { p with bootOpen := true, bootOut := 1 }

theorem witness_BudgetsStickiesAndBoot :
    R.hostOpen 63 = true ∧ does (.pwrWlb 63 0x1FFFFFFFF) R (fun t => decide (t.wlb 63 = 0xFFFFFFFF) && only R t [.pwr]) = true ∧
    does (.pwrWlb 0 100) (H.onInst 0 0 fun i => { i with ltrEn := true }) (fun t => t.out = [.ltr 0 (some 100)]) = true ∧
    does (.pwrWlb 0 100) H (fun t => t.out = []) = true ∧
    does .supplyLow R (fun t => only R t [] [(pgGLB, 0, 3)]) = true ∧ does .clkOffNominal R (fun t => only R t [] [(pgGLB, 0, 2)]) = true ∧
    does .bootClose (Boot.onPwr fun p => { p with bootOut := 0, bootHeld := 2 }) (fun t => t.out = [.bootGo, .bootGo] ∧ t.pwr.bootOpen = false) = true ∧
    does (.bootDoorbell 1) R (fun t => decide (t.out = [.bootGo]) && only R t [.pwr]) = true ∧
    Boot.hostOpen 0 = true ∧ does .bootClose Boot (fun t => t.pwr = { Boot.pwr with closing := true }) = true ∧
    does (.bootDoorbell 1) Boot (fun t => decide (t.pwr = { Boot.pwr with bootHeld := 1 }) && only Boot t [.pwr]) = true := by decide +kernel

/-- An FLR of a VF runs. -/
def Flr : State := P1.onHlk fun h => { h with flr := [1] }

/-- The control fields a configuration write carries. -/
def Ctl : FnCtl := { mse := true, mps := 2, cto := 6, ro := true, tag14 := true, ltrEn := true }

theorem witness_FunctionsEnabled :
    H.confRead 1 0 0 = none ∧ P1.confRead 0 1 0 = none ∧ Flr.confRead 0 1 0 = none ∧ H.confRead 0 0 0x34 = some 0x40 ∧ H.confRead 0 0 0x3A8 = some 0x10 ∧
    (H.confRead 0 0 0x20).map (·.setWidth 4) = some (0xC : BitVec 4) ∧ H.confRead 0 0 0x308 = some 0x430000 ∧ H.confRead 0 0 0x30 = some 0 ∧
    (P1.onInst 0 1 fun i => { i with en := true }).confRead 0 1 0x34 = some 0x50 ∧ (P1.onInst 0 1 fun i => { i with en := true }).confRead 0 1 0x3A8 = some 0x110 ∧
    P1.hostOpen 0 = true ∧ P1.busMaster 1 = false ∧
    does (.vfEnable 1 0) P1 (fun t => t.fnOn 1 0 && only P1 t [.hlk]) = true ∧
    does (.vfEnable 1 0) Flr (fun t => decide (t.hlk = { Flr.hlk with heldEnable := [(0, 1)] }) && only Flr t [.hlk]) = true ∧
    does (.vfDisable 1 0) (P1.onInst 0 1 fun i => { i with en := true }) (fun t => !t.fnOn 1 0 && decide (t.hlk.flr = [1])) = true ∧
    does (.busMasterEnable 1 2 Ctl) P1 (fun t => t.inst 2 1 = ({} : Inst).enable Ctl) = true ∧ does (.busMasterDisable 0 0) H (fun t => !(t.inst 0 0).bme) = true := by
  decide +kernel

/-- The FLR of VF 1 is down to its end. -/
def FlrEnds : State := (R.onHlk fun h => { h with flr := [1] }).onPart 1 fun p => { p with closing := .last }
/-- The FLR of PF0 is down to its end. -/
def PfEnds : State := { R with
  glb := { time := 4 }, hlk := { flr := [0] }
  prt := { part := (List.range 64).map fun p => (p, { partDflt p with closing := .last }) } }

theorem witness_FunctionResets :
    does (.vfFlr 1 0) P1 (fun t => t.inFlr 1) = true ∧ P1.on = true ∧ P1.wf = true ∧
    Flr.inFlr 1 = true ∧ Flr.atRest = true ∧ does (.vfFlr 1 0) Flr (fun t => decide (t.out = [.retry (some 0) 1]) && only Flr t []) = true ∧
    (R.onHlk fun h => { h with flr := [0] }).atRest = true ∧ P1.inFlr 1 = false ∧ P1.inFlr 0 = false ∧
    does (.pwrWlb 1 5) Flr (fun t => only Flr t []) = true ∧ does (.dbTail 1 0 5) Flr (fun t => only Flr t []) = true ∧
    FlrEnds.atRest = true ∧ (FlrEnds.part 1).disables = false ∧ FlrEnds.homeWorks 1 = false ∧
    does (.flrComplete 1) FlrEnds (fun t => !t.inFlr 1 && only FlrEnds t [.hlk, .prt]) = true ∧
    (functions.all fun p => (PfEnds.part p).closing = .last && !PfEnds.homeWorks p) = true ∧
    does (.flrComplete 0) PfEnds (fun t => t.prt = {} ∧ t.evc = {} ∧ t.xlt = {} ∧ t.arb = {} ∧ t.twn = {} ∧ t.pwr.resetCause = 3 ∧
      t.glb.time = 4 ∧ t.out = []) = true := by decide +kernel

/-! ## Events, registers, links, partitions -/

/-- Sources 0x40 and 0x900 are pending; 0x900 is routed to target 1, of partition 2, whose stack holds 0x901. -/
def Ev : State := ((R.onSrc 0x40 fun x => { x with pending := true }).onSrc 0x8C1 fun x => { x with en := true, level := 3, target := 1 }).onTgt 1
  fun t => { t with valid := true, part := 2, stack := [(0x8C2, 2)] }

theorem witness_EventDefaults : R.on = true ∧
    does (.warmReset 0x5752) Ev (fun t => does .hubReady t fun u => u.tgt 0 = {valid := true} ∧ (u.src 0x57F).level = 31 ∧ !(u.src 0x580).en) = true := by
  decide +kernel

theorem witness_SourcesRaiseAndClear :
    Ev.atRest = true ∧ realSource 0x57F = true ∧
    neverRaised 0x183 = false ∧
    does (.sourceEdge 0x183) Ev (fun t => (t.src 0x183).pending && only Ev t []) = true ∧
    neverRaised 0x57F = true ∧ does (.sourceEdge 0x57F) Ev (fun t => decide (t.evc = Ev.evc) && only Ev t []) = true ∧
    does (.sourceEdge 0x40) Ev (fun t => tabGet (fun _ => 0) t.evc.merge 0 = 1 && decide ((t.src 0x40).edgeAt = some 0) && only Ev t []) = true ∧
    does (.sourceEdge 0x900) Ev (fun t => decide (t.evc = Ev.evc) && only Ev t []) = true ∧
    realSource 0x680 = false ∧ idles (.sourceEdge 0x680) Ev = true ∧
    softSource 0x8C1 = true ∧ srcPart 0x8C1 = 2 ∧ does (.evcSrcRaise 2 0x8C1) Ev (fun t => (t.src 0x8C1).pending && (t.tgt 1).req && only Ev t []) = true ∧
    does (.evcSrcRaise 0 0x40) Ev (fun t => only Ev t [] [(pgEVC, 0, 3)]) = true ∧
    ownSource 0 0x40 = true ∧ does (.evcSrcClear 0 0x40) Ev (fun t => !(t.src 0x40).pending && !(t.tgt 0).req && only Ev t [.evc]) = true ∧
    ownSource 1 0x40 = false ∧ does (.evcSrcClear 1 0x40) Ev (fun t => only Ev t [] [(pgEVC, 1, 3)]) = true := by decide +kernel

/-- PF0 has selected source 0x7F of partition 63, and target 255. -/
def Route : State := R.onEvc fun e => { e with srcSel := [(0, 0x40)], tsel := 255 }

theorem witness_SourcesRoutedTargetsAssigned :
    Route.ras.lostCap = [] ∧ ownSource 0 (Route.srcSelOf 0) = true ∧ Route.holdsTarget 0 0 = true ∧
    does (.evcSrcCfg 0 0x1001F) Route (fun t => (t.src 0x40).en && only Route t [.evc]) = true ∧
    does (.evcSrcCfg 0 0x1F) Route (fun t => !(t.src 0x40).en && only Route t [.evc]) = true ∧
    ownSource 1 (R.srcSelOf 1) = false ∧ does (.evcSrcCfg 1 0) R (fun t => only R t [] [(pgEVC, 1, 3)]) = true ∧
    Route.holdsTarget 0 5 = false ∧ does (.evcSrcCfg 0 0x500) Route (fun t => only Route t [] [(pgEVC, 0, 1)]) = true ∧
    does (.evcTgtAssign 0x8000000000000007) Route (fun t => (t.tgt 255).valid && decide ((t.tgt 255).vector = 7) && only Route t [.evc]) = true ∧
    (Route.part 1).qEvt = 0 ∧ does (.evcTgtAssign 0x8001000000000000) Route (fun t => only Route t [] [(pgEVC, 0, 5)]) = true := by decide +kernel

/-- A source that no table entry gives PENDING is not eligible. -/
theorem eligible_needs_pending (t : Target) (i : Nat) (x : Source) (h : x.pending = false) : eligible t i x = false := by simp [eligible, h]

theorem witness_ClaimTakesTheHighest :
    Ev.hostOpen 0 = true ∧ Ev.holdsTarget 0 0 = true ∧ eligible (Ev.tgt 0) 0 (Ev.src 0x40) = true ∧
    does (.evcClaim 0 0) Ev (fun t => decide (t.out = [.cpl none 0 (31 * 65536 + 0x40)] ∧ running (t.tgt 0) = 31) && only Ev t [.evc]) = true ∧
    (let s := Ev.onSrc 0x40 fun x => { x with edgeAt := some 0 }
     s.hostOpen 0 = true ∧ does (.evcClaim 0 0) s (fun t => (t.src 0x40).pending && decide ((t.src 0x40).edgeAt = none)) = true) ∧
    (let s := (Ev.onSrc 0x40 fun x => { x with target := 200 }).onTgt 200 fun t => { t with valid := true, req := true }
     s.hostOpen 0 = true ∧ s.holdsTarget 0 200 = true ∧
     does (.evcClaim 0 200) s (fun t => decide (t.out = [.evtOut 8 false, .cpl none 0 (31 * 65536 + 0x40)]) && only s t [.evc]) = true) ∧
    does (.evcClaim 0 0) R (fun t => decide (t.out = [.cpl none 0 0]) && only R t []) = true ∧
    R.holdsTarget 0 255 = false ∧ does (.evcClaim 0 255) R (fun t => only R t [] [(pgEVC, 0, 4)]) = true := by decide +kernel

theorem witness_ClaimTakesTheHighest_order (m : Nat) (h : eligible (Ev.tgt 0) 0 (Ev.src m) = true) :
    (Ev.src m).level < (Ev.src 0x40).level ∨ ((Ev.src m).level = (Ev.src 0x40).level ∧ 0x40 ≤ m) := by
  by_cases e : m = 0x40
  · subst e; exact Or.inr ⟨rfl, Nat.le_refl _⟩
  · exfalso
    have hp : (Ev.src m).pending = false := by
      by_cases e2 : m = 0x8C1
      · subst e2; decide +kernel
      · have ht : Ev.evc.src = [(0x40, { srcDflt 0x40 with pending := true }), (0x8C1, { srcDflt 0x8C1 with en := true, level := 3, target := 1 })] := by
          decide +kernel
        simp only [State.src, ht, tabGet, e, e2, if_false]
        split <;> (try split) <;> (simp only [srcDflt]; try split) <;> rfl
    rw [eligible_needs_pending _ _ _ hp] at h
    exact Bool.noConfusion h

theorem witness_CompletePopsItsEntry :
    Ev.hostOpen 2 = true ∧ Ev.holdsTarget 2 1 = true ∧
    does (.evcComplete 2 1 0x8C2) Ev (fun t => decide ((t.tgt 1).stack = []) && only Ev t [.evc]) = true ∧
    does (.evcComplete 2 1 0x8C3) Ev (fun t => only Ev t [] [(pgEVC, 2, 2)]) = true ∧
    does (.evcComplete 0 1 0x8C2) Ev (fun t => only Ev t [] [(pgEVC, 0, 4)]) = true := by decide +kernel

theorem witness_PlainRegistersHoldWhatIsWritten : H.viewOpen 0 = true ∧ H.barOn 0 0 = true ∧ H.creditsSpent 4 .req < 64 ∧ H.bootWaits 0 = false ∧
    does (.registerWrite 0 0 ⟨0, .memory⟩ 0x290110 8 0x123456789) H (fun t => decide (t.home.hostLimit = 0x456789) && only H t [.home]) = true ∧
    does (.registerWrite 0 0 ⟨0, .memory⟩ 0x290110 4 0x5) H (fun t => decide (t.home.hostLimit = 5) && only H t [.home]) = true ∧
    does (.rcRead 0 0 ⟨0, .memory⟩ 0x290110 8) H (fun t => decide (t.out = [.cpl (some 0) 0 0x2710]) && only H t []) = true ∧
    does (.regWr 0 1 0x290110 true 7) H (fun t => decide (t.home.hostLimit = 7) && only H t [.home]) = true ∧
    does (.regRd 0 1 0x290110 true) H (fun t => decide (t.noc.wait = [.p4 (.regRsp 0 1 0 0x2710)]) && only H t []) = true := by decide +kernel

theorem witness_BadAndEmptyAccesses :
    H.hostOpen 0 = true ∧ H.barOn 0 0 = true ∧ H.bootWaits 0 = false ∧ inBar0 0 0x200001 = true ∧ blockPage 0x200001 ≠ none ∧ goodAccess 0x200001 4 = false ∧
    does (.registerWrite 0 0 ⟨0, .memory⟩ 0x200001 4 5) H (fun t => only H t [] [(pgGLB, 0, 1)]) = true ∧
    does (.rcRead 0 0 ⟨0, .memory⟩ 0x200004 8) H (fun t => decide (t.out.getLast? = some (.cpl (some 0) 0 0)) && only H t [] [(pgGLB, 0, 1)]) = true ∧
    does (.regWr 0 1 0x200002 false 7) H (fun t => only H t [] [(pgGLB, 0, 1)]) = true ∧
    does (.regRd 0 1 0x200004 true) H (fun t => only H t [] [(pgGLB, 0, 1)]) = true ∧
    blockPage 0x20FFF8 = some 0 ∧ regAt 0 0 0xFFF8 = none ∧
    does (.registerWrite 0 0 ⟨0, .memory⟩ 0x20FFF8 8 7) H (fun t => only H t []) = true ∧
    does (.rcRead 0 0 ⟨0, .memory⟩ 0x20FFF8 8) H (fun t => decide (t.out = [.cpl (some 0) 0 0]) && only H t []) = true ∧
    Flr.inFlr 1 = true ∧ does (.registerWrite 1 0 ⟨0, .memory⟩ 0x200200 8 7) Flr (fun t => only Flr t []) = true ∧
    does (.rcRead 1 0 ⟨0, .memory⟩ 0x200200 8) Flr (fun t => decide (t.out = [.cpl (some 0) 1 0]) && only Flr t []) = true ∧
    -- a bootstrap write is outstanding on the link, and the write is held
    (let s := H.onNoc fun n => { n with reqs := [{ port := 0, agent := 7, tag := 3, for_ := .boot 0 }] }
     s.hostOpen 0 = true ∧ s.barOn 0 0 = true ∧ s.bootWaits 0 = true ∧
     does (.registerWrite 0 0 ⟨0, .memory⟩ 0x290110 8 7) s (fun t => decide (t.pwr = { s.pwr with regHeld := [⟨0, 0, 0, 0x290110, 8, 7⟩] }) &&
       only s t [.pwr]) = true) ∧
    -- the BARs do not respond
    (let s := H.onInst 0 0 fun i => { i with mse := false }
     s.hostOpen 0 = true ∧ s.barOn 0 0 = false ∧
     does (.registerWrite 0 0 ⟨0, .memory⟩ 0x290110 8 7) s (fun t => bit32 (t.aerOf 0 0).unc 20 && only s t []) = true ∧
     does (.rcRead 0 0 ⟨0, .memory⟩ 0x290110 8) s (fun t => bit32 (t.aerOf 0 0).unc 20 && decide (.unsupported 0 0 ∈ t.out) && only s t []) = true) ∧
    ([TlpForm.atomicOp, .locked, .io].all fun f =>
      does (.registerWrite 0 0 ⟨0, f⟩ 0x290110 8 7) H (fun t => bit32 (t.aerOf 0 0).unc 20 && decide (.unsupported 0 0 ∈ t.out) && only H t []) &&
      does (.rcRead 0 0 ⟨0, f⟩ 0x290110 8) H (fun t => bit32 (t.aerOf 0 0).unc 20 && decide (.unsupported 0 0 ∈ t.out) && only H t [])) = true ∧
    ([true, false].all fun p =>
      does (.registerWrite 0 0 ⟨0, if p then .poisoned else .malformed⟩ 0 8 7) H (fun t => bit32 (t.aerOf 0 0).unc (if p then 12 else 18) && only H t []) &&
      does (.rcRead 0 0 ⟨0, if p then .poisoned else .malformed⟩ 0 8) H (fun t => bit32 (t.aerOf 0 0).unc (if p then 12 else 18) && only H t [])) = true ∧
    does (.rcRead 0 0 ⟨0, .config⟩ 0x37C 4) H (fun t => decide (t.out = [.cpl (some 0) 0 0x20100]) && only H t []) = true ∧
    does (.rcRead 1 0 ⟨0, .config⟩ 0 4) H (fun t => decide (t.out = [.unsupported 0 1]) && only H t []) = true ∧
    does (.rcRead 1 0 ⟨0, .config⟩ 0 4) Flr (fun t => decide (t.out = [.retry (some 0) 1]) && only Flr t []) = true := by decide +kernel

theorem witness_CountersAndTraceCleared :
    does .clearAll ((R.onCount 20 fun c => { c with ops := 3 }).onGlb fun g => { g with time := 5 })
      (fun t => (t.page 20).toCounts = {} ∧ (t.page pgHLK).ops = 1) = true ∧
    does (.cntClear 20) ((R.onCount 20 fun c => { c with ops := 3, freeze := true }).onGlb fun g => { g with time := 5 })
      (fun t => (t.page 20).toCounts = {} ∧ (t.page 20).freeze ∧ (t.page pgHLK).ops = 1) = true ∧
    does (.cntClear 20) (R.onCount 20 fun c => { c with ops := 3 }) (fun t => (t.page 20).ops = 3) = true ∧
    does .dbgTraceClear (R.onGlb fun g => { g with tracePtr := 5, traceWrapped := true }) (fun t => t.glb.tracePtr = 0 ∧ !t.glb.traceWrapped) = true := by
  decide +kernel

/-- The NoC has spent every credit of port 3's RSP class and of port 4's REQ class in this hub cycle. -/
def Spent : State := R.onNoc fun n => { n with inAt := 0, inUse := [(11, 96), (12, 64)] }

theorem witness_CreditsAndStrayResponses_held :
    R.noc.wait = [] ∧ creditExists 4 .rsp 0 = true ∧ creditExists 4 .snp 0 = false ∧ creditExists 3 .snp 1 = true ∧ 0 < allotted 4 2 0 := by
  refine ⟨by decide, by decide, by decide, by decide, by unfold allotted; omega⟩

theorem witness_CreditsAndStrayResponses :
    does (.nocCreditReturn 4 .snp false) R (fun t => only R t [] [(pgGLB, 0, 5)]) = true ∧
    ([NocStray.signalAck 3, .undefinedOpc 4 .req 0xFF, .wrongClass 0 .rsp 0x40].all fun x =>
      does (.signalAck x) R (fun t => only R t [] [(pgGLB, 0, 5)])) = true ∧ R.findReq 3 5 6 = none ∧
    does (.memRdData 3 5 6 false 0) R (fun t => only R t [] [(pgGLB, 0, 5)]) = true ∧
    does (.memWrAck 3 5 6 0) R (fun t => only R t [] [(pgGLB, 0, 5)]) = true ∧
    does (.memAtomicAck 3 5 6 0 1) R (fun t => only R t [] [(pgGLB, 0, 5)]) = true ∧
    Spent.atRest = true ∧ hubCredits 3 .rsp ≤ Spent.creditsSpent 3 .rsp ∧ 64 ≤ Spent.creditsSpent 4 .req ∧
    ([Instr.memRdData 3 5 6 false 0, .memWrAck 3 5 6 0, .memAtomicAck 3 5 6 0 1, .regWr 0 1 0x290110 true 7, .regRd 0 1 0x290110 true].all fun i =>
      does i Spent (fun t => only Spent t [] [(pgGLB, 0, 5)])) = true := by decide +kernel

/-- A zero-length read of a holder is outstanding on link 0. -/
def Np (late : Bool) (h : NpHolder) : State := (H.onChan 2 fun c => { c with st := .active, cmds := [{ num := 1, op := 8, slots := [], fenceOut := 1, fenceSent := true, st := .dispatched }] }).onHlk
  fun x => { x with np := [{ link := 0, tag := 3, fn := 0, late := late, holder := h }] }

theorem witness_LinksChange :
    does (.linkUp 3 true 5 16) H (fun t => (t.link 3).up && only H t [.hlk]) = true ∧
    does (.linkDown 0) (H.onLink 1 fun l => { l with up := true }) (fun t => !(t.link 0).up && bit (t.sticky pgHLK 0).bits 5 && !t.inFlr 0) = true ∧
    idles (.linkDown 3) H = true ∧ does (.cacheEnableSet 3) R (fun t => (t.link 3).cacheEn && only R t [.hlk]) = true ∧
    does (.cacheEnableClear 0) H (fun t => !(t.link 0).cacheEn && only H t [.hlk]) = true ∧ H.home = {} ∧
    does (.cacheWritebackInvalidate 0) H (fun t => (t.link 0).cacheInvalid && (t.link 3).cacheInvalid && only H t [.hlk]) = true := by decide +kernel

theorem witness_ZeroLengthReadsEnd :
    R.npReq 3 0x3FFF = none ∧ does (.cxlioCompletion 3 0x3FFF true false) R (fun t => only R t [.hlk] [(pgHLK, 0, 2)]) = true ∧
    idles (.completionTimeout 3 0x3FFF) R = true ∧
    does (.cxlioCompletion 0 3 true false) (Np true .gone) (fun t => decide (t.hlk.lateCpl = 1) && only (Np true .gone) t [.hlk]) = true ∧
    does (.completionTimeout 0 3) (Np true .gone) (fun t => decide (t.hlk.np = []) && only (Np true .gone) t [.hlk]) = true ∧
    (Np false (.fence 2 1)).atRest = true ∧
    does (.cxlioCompletion 0 3 true false) (Np false (.fence 2 1)) (fun t => ((t.chan 2).cmds.all fun c => c.fenceOut = 0) &&
      only (Np false (.fence 2 1)) t [.hlk, .dbl]) = true ∧
    does (.completionTimeout 0 3) (Np false .gone) (fun t => decide ((.aer 0 0 .cplTimeout .nonFatal) ∈ t.out) && bit32 (t.aerOf 0 0).unc 14 &&
      only (Np false .gone) t [.hlk] [(pgHLK, 0, 1)]) = true ∧
    does (.cxlioCompletion 0 3 false false) (Np false .gone) (fun t => decide (t.hlk.np = []) &&
      only (Np false .gone) t [.hlk] [(pgHLK, 0, 1)]) = true := by decide +kernel

/-- A write of the map is held. -/
def Held : State := H.onHlk fun h => { h with remap := some { reg := .groupMap, sel := 0, v := 0x81 } }

theorem witness_RemapsAndDStates :
    does (.hlkRemap .rangeLimit 5) Held (fun t => only Held t [] [(pgHLK, 0, 7)]) = true ∧
    (let s := H.onHlk fun h => { h with ranges := [(1, { base := 1, limit := 0xFFFFF000 })] }
     (s.setMap .rangeBase 0 1).rangeMeets 0 = true ∧ does (.hlkRemap .rangeBase 1) s (fun t => only s t [] [(pgHLK, 0, 6)]) = true) ∧
    (H.setMap .rangeBase 0 0xFFFFFFFFFFFFF031).rangeMeets 0 = false ∧ H.home = {} ∧
    does (.hlkRemap .rangeBase 0xFFFFFFFFFFFFFFFF) H (fun t => only H t [.hlk]) = true ∧
    does (.hlkRemap .groupMap 0xFFFFFFFF) H (fun t => only H t [.hlk]) = true ∧
    does .remapDone Held (fun t => t.hlk.remap = none ∧ t.hlk.groupMap = 0x81) = true ∧ idles .remapDone H = true ∧
    does (.d3hot 63 true false) H (fun t => (t.inst 3 63).dstate = 3 && (t.inst 3 63).pmeEn) = true ∧ does (.d0Return 0 false true) Deep (fun t => (t.inst 0 0).dstate = 0) = true := by
  decide +kernel

/-- Partition `p` is selected. -/
def Sel (s : State) (p : BitVec 6) : State := s.onPrt fun x => { x with psel := p }
/-- Partition 1 in a state. -/
def P1In (st : PartSt) : State := (Sel P1 1).onPart 1 fun p => { p with st := st }

theorem witness_PartitionControl :
    does .enable (Sel P1 0) (fun t => only (Sel P1 0) t [] [(pgPRT, 0, 2)]) = true ∧ does .disable (Sel P1 0) (fun t => only (Sel P1 0) t [] [(pgPRT, 0, 2)]) = true ∧
    links4.any ((Sel P1 63).fnOn 63) = false ∧ does .enable (Sel P1 63) (fun t => only (Sel P1 63) t [] [(pgPRT, 0, 1)]) = true ∧
    (let s := (P1In .disabled).onInst 0 1 fun i => { i with en := true }
     links4.any (s.fnOn 1) = true ∧ does .enable s (fun t => decide ((t.part 1).st = .enabled) && only s t [.prt]) = true) ∧
    does .disable (P1In .enablePending) (fun t => decide ((t.part 1).st = .disabling) && only (P1In .enablePending) t [.prt]) = true ∧
    does .disable (P1In .enabled) (fun t => (t.part 1).st = .disabling) = true := by decide +kernel

/-- Partition 1 holds target 9, over a quota of 0, and drains its targets. -/
def Over : State := (Sel P1 1).onTgt 9 (fun t => { t with valid := true, part := 1 }) |>.onPart 1 fun p => { p with qEvt := 0, drainAt := [(.targets, 0)] }

theorem witness_QuotasAndDrains :
    (let s := (P1In .disabling).onPart 1 fun p => { p with closing := .last }
     (s.part 1).disables = true ∧ does (.disableComplete 1) s (fun t => decide ((t.part 1).st = .disabled) && only s t [.prt]) = true) ∧
    (let s := (P1In .disabling).onPart 1 fun p => { p with closing := .last, held := [(.evt, 5)] }
     s.hostOpen 0 = true ∧ (s.part s.prt.psel.toNat).disables = true ∧
     does (.quotaWrite .evt 9) s (fun t => decide ((t.part 1).held = [(.evt, 5), (.evt, 9)] ∧ (t.part 1).qEvt = (s.part 1).qEvt) && only s t [.prt]) = true ∧
     does (.disableComplete 1) s (fun t => decide ((t.part 1).st = .disabled ∧ (t.part 1).qEvt = 5 ∧ (t.part 1).held = [])) = true) ∧
    (let s := (P1In .enablePending).onPart 1 fun p => { p with closing := .last }
     (s.part 1).disables = true ∧
     does (.disableComplete 1) s (fun t => decide ((t.part 1).st = .enabled ∧ t.partCredit 1 0 = reedDepth (s.partShare 1 0) 0)) = true) ∧
    (R.part 63).disables = false ∧ idles (.disableComplete 63) R = true ∧
    does (.quotaWrite .evt 0x1FF) (Sel P1 1) (fun t => decide ((t.part 1).qEvt = 511) && only (Sel P1 1) t [.prt]) = true ∧
    (let s := ((Sel P1 1).onTgt 9 fun t => { t with valid := true, part := 1 }).onTgt 8 fun t => { t with valid := true, part := 1 }
     does (.quotaWrite .evt 1) s (fun t => (t.draining 1).contains (.targets, 0)) = true ∧
     does (.quotaWrite .evt 4) s (fun t => decide (t.draining 1 = [])) = true) ∧
    does (.quotaWrite .chan 0x7FFF) (Sel P1 1) (fun t => decide ((t.part 1).qChan = 32767) && only (Sel P1 1) t [.prt]) = true ∧
    (R.draining 63).any (·.1 = .plan) = false ∧ idles (.prtDrainExpired 63 .plan) R = true ∧
    Over.atRest = true ∧ (Over.draining 1).any (·.1 = .targets) = true ∧
    does (.prtDrainExpired 1 .targets) Over (fun t => t.targetsOf 1 = [] ∧ bit (t.sticky pgPRT 0).bits 3) = true := by decide +kernel

/-- The engines in some states. -/
def Eng (m : TwinMode) (a b : EngineSt) : State := R.onTwn fun x => { x with mode := m, stA := a, stB := b }

theorem witness_TwinModesAndResets :
    does .soloA R (fun t => decide (t.twn.withdrawing = some .B) && only R t [.twn]) = true ∧
    does .shared (Eng .soloA .serving .ready) (fun t => t.twn.mode = .shared ∧ t.twn.stB = .serving) = true ∧
    does .shared (Eng .soloB .ready .serving) (fun t => t.twn.mode = .shared ∧ t.twn.stA = .serving) = true ∧
    does .shared (Eng .soloA .serving .failed) (fun t => only (Eng .soloA .serving .failed) t [] [(pgTWN, 0, 4)]) = true ∧
    does .shared R (fun t => only R t []) = true ∧
    does .resetB (Eng .soloA .serving .failed) (fun t => decide (t.twn.stB = .resetting) && only (Eng .soloA .serving .failed) t [.twn, .mov]) = true ∧
    does .resetA (Eng .soloA .serving .failed) (fun t => only (Eng .soloA .serving .failed) t [] [(pgTWN, 0, 5)]) = true ∧
    does .resetB (Eng .soloA .serving .resetting) (fun t => only (Eng .soloA .serving .resetting) t []) = true ∧
    does (.engineReady .B false) (Eng .soloA .serving .resetting) (fun t => t.twn.stB = .failed) = true ∧ idles (.engineReady .A true) R = true ∧
    does (.twinPortError .B) R (fun t => only R t [] [(pgTWN, 0, 3)]) = true := by decide +kernel

/-- Engine B has failed; a channel of it waits for adoption, and another behind it. -/
def Adopt : State := ((R.onTwn fun x => { x with mode := .soloA, stB := .failed, failedEngine := .B, failover := .adopt, queue := [1, 3] }).onChan 1
  fun c => { c with st := .parked, owner := .B, orphan := true }).onChan 3 fun c => { c with st := .parked, owner := .B, orphan := true }
/-- Engine B has failed and the quiesce runs. -/
def Quiet : State := (R.onTwn fun x => { x with mode := .soloA, stB := .failed, failedEngine := .B, failover := .quiesce }).onChan 1
  fun c => { c with st := .parked, owner := .B }

theorem witness_FailureAndAdoption :
    R.xlt.walk = [] ∧ does (.failureDeclared .B) R (fun t => decide (t.twn.failover = .quiesce) && only R t [.twn] [(pgTWN, 0, 2)]) = true ∧
    does .engineWithdrawn (R.onTwn fun x => { x with withdrawing := some .A }) (fun t => t.twn.stA = .failed) = true ∧ idles .engineWithdrawn R = true ∧
    does (.failureDeclared .A) (Eng .soloA .serving .failed) (fun t => t.glb.fatal && only (Eng .soloA .serving .failed) t [.twn, .glb]
      [(pgTWN, 0, 1), (pgGLB, 0, 4)]) = true ∧
    Quiet.atRest = true ∧ does .quiesceLimitExpired Quiet (fun t => only Quiet t [.twn]) = true ∧ idles .quiesceDone R = true ∧
    does .quiesceDone Quiet (fun t => (t.chan 1).orphan && decide (t.twn.queue = [1]) && only Quiet t [.twn, .dbl]) = true ∧
    Adopt.atRest = true ∧ does .channelAdopt Adopt (fun t => decide ((t.chan 1).owner = .A) && only Adopt t [.twn, .dbl]) = true := by decide +kernel

/-! ## Channels and their commands -/

/-- VF 1 is a bus master. -/
def V1 : State := P1.onInst 0 1 fun i => { i with en := true, bme := true, mse := true }
/-- A granule of fields: byte offset and value. -/
def gran (l : List (Nat × Nat)) : Granule := l.foldl (fun g x => g ||| BitVec.ofNat 512 (x.2 <<< (8 * x.1))) 0
/-- VF 1 has a descriptor at 0x1000 in hand, and awaits its read. -/
def Mg (s : State) : State := s.onMgmt 1 fun m => { m with addr := 0x1000, await := some 2 }
/-- A management descriptor with an OP and a handle, of a ring at an address, of a length and an ASID. -/
def md (op : Nat) (h : BitVec 32) (ring : Nat := 0x10000) (w18 : Nat := 0x306) : Granule := gran [(0, op), (8, h.toNat), (0x10, ring), (0x18, w18)]
/-- Channel 4 of partition 1 in a state. -/
def C4 (st : ChState) : State := V1.onChan 4 fun c => { c with gen := 2, st := st, part := 1, ringBase := 0x10000, ringLog2 := 6, asid := 3, cached := true }
/-- The handle of that channel. -/
def h4 : BitVec 32 := chanHandle 2 1 4
/-- The request for the translation of the RESULT word of the descriptor at 0x1000. -/
def mreq (step : Nat) (a : Word) : XReq := { who := .mgmt 1 step, part := 1, asid := 0, access := if step = 0 then 0 else 1, va := a }
/-- The command runs with the descriptor read. -/
def acts (i : Instr) (s : State) (g : Granule) (p : State → Bool) (code : Code := 0) : Bool := does i ((Mg s).withAnswer (.mgmtRead 1) code g) p
/-- The descriptor in hand is answered with a word, and nothing but the parts named changed. -/
def answers (s t : State) (w : Word) (rs : List Region) : Bool :=
  decide (t.mgmt 1 = { (Mg s).mgmt 1 with busy := some false, owes := false, word := w, await := some 3 } ∧ t.xlt.lookups = [mreq 2 0x1038]) &&
    decide (t.out = []) && only (Mg s) t rs
/-- The RESULT word of the descriptor in hand is written. -/
def Written (b : Bool) : State := V1.onMgmt 1 fun m => { m with addr := 0x1000, busy := some b, await := some 4 }

theorem witness_ManagementQueue :
    V1.viewOpen 1 = true ∧
    does (.mgmtSubmit 1 0x1003) V1 (fun t => decide (t.mgmt 1 = { addr := 0x1000, await := some 0 } ∧ t.xlt.lookups = [mreq 0 0x1000]) &&
      only V1 t [.dbl, .xlt]) = true ∧
    does (.mgmtSubmit 1 0x2003) (Mg V1) (fun t => decide (t.mgmt 1 = { (Mg V1).mgmt 1 with queue := [0x2000] }) && only (Mg V1) t [.dbl]) = true ∧
    (let s := V1.onMgmt 1 fun m => { m with queue := List.replicate 64 0 }
     does (.mgmtSubmit 1 0) s (fun t => only s t [] [(pgDBL, 1, 7)]) = true) ∧
    P1.masterEnabled 1 = false ∧ P1.viewOpen 1 = true ∧
    does (.mgmtSubmit 1 0x1003) P1 (fun t => decide (t.mgmt 1 = { addr := 0x1000 }) && only P1 t [.dbl] [(pgDBL, 1, 8)]) = true ∧
    (Mg V1).atRest = true ∧ (Mg V1).masterEnabled 1 = true ∧
    ([Instr.create 1, .destroy 1, .reset 1, .kill 1, .modify 1, .badOp 1].all fun i =>
      acts i V1 0 (fun t => decide (t.mgmt 1 = { addr := 0x1000 }) && only (Mg V1) t [.dbl] [(pgDBL, 1, 8)]) 0xC1) = true ∧
    acts (.badOp 1) V1 (md 6 7) (fun t => answers V1 t (resultWord false 5 0 7) [.dbl, .xlt]) = true ∧
    acts (.badOp 1) V1 (md 0 7) (fun t => answers V1 t (resultWord false 5 0 7) [.dbl, .xlt]) = true ∧
    (Mg V1).mgmtChan 1 5 = none ∧
    ([(2, Instr.destroy 1), (3, .reset 1), (4, .kill 1), (5, .modify 1)].all fun (x : Nat × Instr) =>
      acts x.2 V1 (md x.1 5) fun t => answers V1 t (resultWord false 1 0x0A 5) [.dbl, .xlt]) = true ∧
    ([ChState.retiring, .free].all fun st => decide ((Mg (C4 st)).mgmtChan 1 h4 = some 4) &&
      [(2, Instr.destroy 1), (3, .reset 1), (4, .kill 1), (5, .modify 1)].all fun (x : Nat × Instr) =>
        acts x.2 (C4 st) (md x.1 h4) fun t => answers (C4 st) t (resultWord false 4 0 h4) [.dbl, .xlt]) = true ∧
    acts (.kill 1) (C4 .killed) (md 4 h4) (fun t => answers (C4 .killed) t (resultWord false 4 0 h4) [.dbl, .xlt]) = true ∧
    acts (.destroy 1) (C4 .creating) (md 2 h4) (fun t => answers (C4 .creating) t (resultWord false 4 0 h4) [.dbl, .xlt]) = true := by
  decide +kernel

/-- The end of a descriptor: its RESULT is in memory, or lost, and the next is taken. -/
theorem witness_ManagementQueue_ends :
    (Written true).atRest = true ∧
    does (.mgmtResultObserved 1) ((Written true).withAnswer (.mgmtResult 1) 0 0) (fun t => decide (t.mgmt 1 = { addr := 0x1000 }) &&
      (t.src 0x601).pending == ((Written true).src 0x601).en && only (Written true) t [.dbl]) = true ∧
    (let s := (Written false).onMgmt 1 fun m => { m with queue := [0x2000] }
     does (.mgmtResultObserved 1) (s.withAnswer (.mgmtResult 1) 0 0) (fun t => decide (t.mgmt 1 = { addr := 0x2000, await := some 0 } ∧
       t.xlt.lookups = [mreq 0 0x2000]) && only s t [.dbl, .xlt]) = true) ∧
    does (.mgmtResultObserved 1) ((Written true).withAnswer (.mgmtResult 1) 0xC1 0) (fun t => only (Written true) t [.dbl] [(pgDBL, 1, 8)]) = true ∧
    idles (.mgmtResultObserved 1) (Written true) = true ∧
    -- a MODIFY that has been answered holds from then on
    (let s := (C4 .active).onMgmt 1 fun m => { m with addr := 0x1000, busy := some true, await := some 4, modify := some (4, 2, true, 7) }
     s.atRest = true ∧ s.masterEnabled 1 = true ∧ (s.chan 4).gen = 2 ∧
     does (.mgmtResultObserved 1) (s.withAnswer (.mgmtResult 1) 0 0) (fun t => decide (t.mgmt 1 = { addr := 0x1000 } ∧
       t.chan 4 = { s.chan 4 with urgent := true, prio := 7 }) && only s t [.dbl]) = true) := by decide +kernel

theorem witness_ChannelsAreMade :
    (Mg V1).atRest = true ∧ (V1.part 1).st = .enabled ∧ (Mg V1).chooseSlot 1 (descOf (md 1 0)) = some 0 ∧ V1.chanCount 1 = 0 ∧
    acts (.create 1) V1 (md 1 0) (fun t => decide ({ t.chan 0 with used := 0 } =
        { gen := 1, st := .creating, part := 1, ringBase := 0x10000, ringLog2 := 6, asid := 3, cached := true
          owed := some { fn := 1, event := false, handle := chanHandle 1 1 0 }, born := 1 } ∧
      t.mgmt 1 = { addr := 0x1000, owes := true }) && (t.out.filter fun o => match o with | .hubStore true _ => true | _ => false).length = 16 && framed (Mg V1) t [.dbl, .ras, .glb]) = true ∧
    acts (.create 1) V1 (md 1 0 0x10000 5) (fun t => answers V1 t (resultWord false 1 5 0) [.dbl, .xlt]) = true ∧
    acts (.create 1) V1 (md 1 0 0x10000 17) (fun t => answers V1 t (resultWord false 1 5 0) [.dbl, .xlt]) = true ∧
    acts (.create 1) V1 (md 1 0 0x10040 16) (fun t => answers V1 t (resultWord false 1 3 0) [.dbl, .xlt]) = true ∧
    (let s := (C4 .active).onPart 1 fun p => { p with qChan := 1 }
     acts (.create 1) s (md 1 0) (fun t => answers s t (resultWord false 2 0 0) [.dbl, .xlt]) = true) ∧
    (let s := V1.onPart 1 fun p => { p with st := .disabled }
     acts (.create 1) s (md 1 0) (fun t => answers s t (resultWord false 6 0 0) [.dbl, .xlt]) = true) := by
  decide +kernel

/-- Channel 4 is being created. -/
def Creating : State := ((C4 .creating).onChan 4 fun c => { c with owed := some { fn := 1, event := true, handle := h4 } }).onMgmt 1
  fun m => { m with addr := 0x1000, owes := true }
/-- Channel 4 waits for its context, with two slots announced. -/
def Loading : State := (C4 .active).onChan 4 fun c => { c with ta := 2, cached := false, loadWait := true }

theorem witness_ChannelsAreMade_contexts :
    Creating.atRest = true ∧ Creating.masterEnabled 1 = true ∧
    does (.contextWritten 4 true) Creating (fun t => decide ((t.chan 4).st = .parked ∧ (t.chan 4).owed = none ∧
      t.mgmt 1 = { addr := 0x1000, busy := some true, word := resultWord true 0 0 h4, await := some 3 } ∧ t.xlt.lookups = [mreq 2 0x1038]) &&
      only Creating t [.dbl, .xlt]) = true ∧
    does (.contextWritten 4 false) Creating (fun t => decide (t.chan 4 = { gen := 2 } ∧ (t.mgmt 1).word = resultWord false 1 0xC1 0) &&
      only Creating t [.dbl, .xlt]) = true ∧
    idles (.contextWritten 4 true) (C4 .active) = true ∧
    Loading.atRest = true ∧ Loading.canPlace = true ∧ (Loading.chan 4).avail = 2 ∧
    (List.range 16).all (fun i => !Loading.ras.valid.contains (Config.contextBlock 4 + i)) = true ∧ Loading.copyGood (Config.contextBlock 4) [] 0 = true ∧
    does (.contextLoad 4 []) Loading (fun t => decide ((t.chan 4).want = [0, 1] ∧ (t.chan 4).cached = true ∧
      t.xlt.lookups = [(t.chan 4).ringReq 4 0, (t.chan 4).ringReq 4 1]) && framed Loading t [.dbl, .xlt, .ras, .glb]) = true ∧
    (let s := Loading.onChan 4 fun c => { c with ctxLost := true }
     does (.contextLoad 4 []) s (fun t => decide ((t.chan 4).st = .error ∧ (t.chan 4).code = 0xC1 ∧ (t.chan 4).ctxLost = true) &&
       only s t [.dbl, .xlt, .ras] [(pgCTX, 1, 1)]) = true) := by
  decide +kernel

/-- The first blocks of both copies of channel 4's context are written, and three slots are lost. -/
def CtxBad : State := Loading.onRas fun r => { r with
  lost := [0, 1, 2], valid := [Config.contextBlock 4, Config.contextBlock 4 + 4 * (1 + Config.ctxCopy % 3)] }
/-- The bank of the context cache that holds channel 4's context is being copied. -/
def CtxCopied : State := Loading.onRas fun r => { r with copying := [(0x0A, Config.ctxBank 4)] }

theorem witness_ChannelsAreMade_lost :
    CtxBad.atRest = true ∧ (CtxBad.chan 4).loadWait = true ∧ CtxBad.canPlace = true ∧ (CtxBad.chan 4).st = .active := by decide +kernel

/-- With three slots lost a written block is no good. -/
theorem copyGood_lost (at_ : Nat) (h : CtxBad.ras.valid.contains (Config.contextBlock 4 + at_) = true) :
    CtxBad.copyGood (Config.contextBlock 4) [] at_ = false := by
  have hl : 3 ≤ (CtxBad.erasedSlots (Config.contextBlock 4 + at_)).length := by
    have e : CtxBad.ras.lost = [0, 1, 2] := by decide +kernel
    simp only [State.erasedSlots, e, show List.range 4 = [0, 1, 2, 3] from rfl, List.filter_cons, List.contains_cons]
    simp
  unfold State.copyGood
  rw [List.all_eq_false]
  refine ⟨0, by simp, ?_⟩
  simp only [Nat.add_zero, h, Bool.not_true, Bool.false_or]
  unfold State.storeOutcome
  simp only [if_pos hl]
  simp

theorem witness_ChannelsAreMade_bad :
    CtxBad.copyGood (Config.contextBlock 4) [] 0 = false ∧ CtxBad.copyGood (Config.contextBlock 4) [] (4 * (1 + Config.ctxCopy % 3)) = false := by
  constructor <;> refine copyGood_lost _ ?_ <;> simp [CtxBad, State.onRas]

theorem witness_ChannelsAreMade_waits : CtxCopied.atRest = true ∧ CtxCopied.bankCopies 0x0A (Config.ctxBank 4) = true := by
  refine ⟨by decide +kernel, ?_⟩
  simp [State.bankCopies, CtxCopied, State.onRas]

/-- Channel 4 holds a command not dispatched, a ring read, and a slot announced. -/
def Work4 : State := (C4 .active).onChan 4 fun c => { c with
  ta := 5, f := 3, reads := [3], faultSeq := 9, nextNum := 2
  cmds := [{ num := 0, op := 0x0A, pos := 1, slots := [0], st := .dispatched }, { num := 1, op := 0, pos := 2, slots := [0] }] }

theorem witness_ChannelsEnd :
    (Mg Work4).mgmtChan 1 h4 = some 4 ∧ (Work4.chan 4).live = true ∧
    acts (.kill 1) Work4 (md 4 h4) (fun t => decide ((t.chan 4).st = .killed ∧ (t.chan 4).code = 0 ∧ (t.chan 4).cmds.all (·.st = .ended) ∧
      (t.chan 4).reads = [] ∧ (t.chan 4).f = 3 ∧ (t.chan 4).ta = 5) && answers Work4 t (resultWord true 0 0 h4) [.dbl, .syn, .xlt, .mov]) = true ∧
    acts (.reset 1) Work4 (md 3 h4) (fun t => decide ((t.chan 4).st = .parked ∧ (t.chan 4).faultSeq = 0 ∧ (t.chan 4).ta = 3 ∧
      (t.chan 4).cmds.all (·.st = .ended) ∧ (t.chan 4).f = 3) && answers Work4 t (resultWord true 0 0 h4) [.dbl, .syn, .xlt, .mov]) = true ∧
    (let s := Work4.onChan 4 fun c => { c with st := .halted, moved := some 0 }
     acts (.reset 1) s (md 3 h4) (fun t => decide (t.chan 4 = s.chan 4) && answers s t (resultWord true 0 0 h4) [.dbl, .syn, .xlt, .mov]) = true) ∧
    acts (.destroy 1) Work4 (md 2 h4) (fun t => decide ((t.chan 4).st = .retiring ∧ (t.chan 4).cmds = [] ∧ t.out = [] ∧
      t.mgmt 1 = { addr := 0x1000, owes := true }) && only (Mg Work4) t [.dbl, .syn, .xlt, .mov]) = true ∧
    Work4.xlt.invs = [] ∧
    acts (.modify 1) Work4 (md 5 h4 0 0x7F00000000) (fun t => decide (t.chan 4 = Work4.chan 4 ∧ t.mgmt 1 = { (Mg Work4).mgmt 1 with
      busy := some false, word := resultWord true 0 0 h4, await := some 3, modify := some (4, 2, true, 7) } ∧ t.xlt.lookups = [mreq 2 0x1038]) &&
      only (Mg Work4) t [.dbl, .xlt]) = true := by decide +kernel

theorem witness_ChannelsEnd_free (i : Nat) : (Work4.obj i).st ≠ .live ∧ (Work4.entry i).owner ≠ Work4.handleOf 4 := by
  have ho : Work4.syn.obj = [] := by decide +kernel
  have he : Work4.cht.entry = [] := by decide +kernel
  have hh : Work4.handleOf 4 = h4 := by decide +kernel
  refine ⟨by simp [State.obj, ho, tabGet], ?_⟩
  have hd : ({} : Entry).owner ≠ h4 := by decide +kernel
  rw [State.entry, he, hh]
  exact hd

/-- Channel 4 retires, and owes a RESULT. -/
def Retiring (cmds : List Cmd) : State := ((C4 .retiring).onChan 4 fun c => { c with
  cmds := cmds, owed := some { fn := 1, event := false, handle := h4 } }).onMgmt 1 fun m => { m with addr := 0x1000, owes := true }

theorem witness_ChannelsEnd_retired :
    (Retiring []).atRest = true ∧ ((Retiring []).chan 4).inflight = 0 ∧
    does (.retireDrained 4) (Retiring []) (fun t => decide (t.chan 4 = { gen := 2, fetchNo := 2 } ∧
      t.mgmt 1 = { addr := 0x1000, busy := some false, word := resultWord true 0 0 h4, await := some 3 } ∧ t.xlt.lookups = [mreq 2 0x1038]) &&
      only (Retiring []) t [.dbl, .syn, .xlt, .mov]) = true ∧
    (let s := Retiring [{ num := 0, op := 1, slots := [0], st := .ended }]
     (s.chan 4).inflight = 1 ∧ idles (.retireDrained 4) s = true ∧
       does (.retireLimitExpired 4) s (fun t => decide (t.chan 4 = { gen := 2, fetchNo := 2 })) = true) ∧
    idles (.retireLimitExpired 4) (C4 .active) = true := by decide +kernel

/-- A doorbell value of generation 2. -/
def bell (tail : Word) : Word := 0x02000000 + tail

theorem witness_DoorbellsRing :
    (C4 .active).viewOpen 1 = true ∧ does (.dbTail 1 5 (bell 1)) (C4 .active) (fun t => only (C4 .active) t [] [(pgDBL, 1, 4)]) = true ∧
    does (.halt 0 4 2) (C4 .active) (fun t => only (C4 .active) t [] [(pgDBL, 0, 1)]) = true ∧
    does (.stop 1 4 3) (C4 .active) (fun t => only (C4 .active) t [] [(pgDBL, 1, 2)]) = true ∧
    does (.resume 1 4 2) (C4 .killed) (fun t => only (C4 .killed) t [] [(pgDBL, 1, 4)]) = true ∧
    does (.dbTail 1 4 (bell 128)) (C4 .active) (fun t => only (C4 .active) t [] [(pgDBL, 1, 3)]) = true ∧
    does (.dbTail 1 4 (bell 65)) (C4 .active) (fun t => only (C4 .active) t [] [(pgDBL, 1, 3)]) = true ∧
    does (.dbTail 1 4 (bell 0)) (C4 .active) (fun t => only (C4 .active) t []) = true ∧
    does (.dbTail 1 4 (bell 64)) (C4 .halted) (fun t => decide ((t.chan 4).ta = 64) && only (C4 .halted) t [.dbl]) = true ∧
    does (.dbTail 1 4 (bell 64)) (C4 .parked) (fun t => decide ((t.chan 4).st = .active ∧ (t.chan 4).want.length = 16 ∧
      t.xlt.lookups.length = 16) && only (C4 .parked) t [.dbl, .xlt]) = true ∧
    -- an inline command was accepted in this hub cycle
    (let s := (C4 .active).onChan 4 fun c => { c with cmds := [{ num := 0, op := 0x0F, inl := true, slots := [0x0F] }], nextNum := 1, inlFrom := some (0, 0) }
     s.atRest = true ∧ (s.chan 4).cmds.any ((s.chan 4).isLate s.glb.time) = true ∧ s.xlt.invs = [] ∧
     [Instr.halt 1 4 2, .stop 1 4 2].all (fun i => does i s fun t => decide ((t.chan 4).st = .error ∧ (t.chan 4).code = 5 ∧ (t.chan 4).cmds = [] ∧
       (t.chan 4).faultInline = true) && only s t [.dbl, .syn, .xlt, .mov] [(pgDBL, 1, 6)]) = true) ∧
    -- the channel's engine does not serve
    (let s := (C4 .parked).onTwn fun x => { x with mode := .soloB, stA := .failed, stB := .serving, failover := .quiesce }
     s.atRest = true ∧ s.served 4 = false ∧ does (.dbTail 1 4 (bell 2)) s (fun t => decide ((t.chan 4).st = .active ∧ (t.chan 4).want = []) &&
       only s t [.dbl]) = true) ∧
    (let s := (C4 .parked).onChan 4 fun c => { c with code := 8, ta := 2 }
     does (.dbTail 1 4 (bell 2)) s (fun t => decide ((t.chan 4).st = .active ∧ (t.chan 4).want = [0, 1] ∧ (t.chan 4).code = 0) &&
       only s t [.dbl, .xlt]) = true) ∧
    does (.halt 1 4 2) Work4 (fun t => decide (t.chan 4 = { Work4.chan 4 with st := .halted, moved := some 0, codeWas := 0, reads := [], fetchNo := 1 }) &&
      only Work4 t [.dbl, .xlt]) = true ∧
    does (.stop 1 4 2) Work4 (fun t => decide ((t.chan 4).st = .halted ∧ (t.chan 4).cmds = [] ∧ (t.chan 4).stopped = true ∧ (t.chan 4).ta = 5) &&
      only Work4 t [.dbl, .syn, .xlt, .mov]) = true ∧
    does (.resume 1 4 2) Work4 (fun t => only Work4 t []) = true ∧
    does (.stop 1 4 2) (C4 .error) (fun t => only (C4 .error) t []) = true ∧
    (let s := Work4.onChan 4 fun c => { c with st := .halted, reads := [] }
     (s.chan 4).inflight = 1 ∧ does (.resume 1 4 2) s (fun t => (t.chan 4).resumeHeld && only s t [.dbl]) = true) ∧
    (let s := (C4 .error).onChan 4 fun c => { c with moved := some 0 }
     does (.resume 1 4 2) s (fun t => only s t []) = true) ∧
    (let s := (C4 .parked).onChan 4 fun c => { c with cached := false }
     s.canPlace = true ∧ does (.dbTail 1 4 (bell 2)) s (fun t => (t.chan 4).loadWait && decide ((t.chan 4).st = .active) && only s t [.dbl]) = true) ∧
    does (.resume 1 4 2) (C4 .error) (fun t => decide ((t.chan 4).st = .parked) && only (C4 .error) t [.dbl]) = true ∧
    (let s := (C4 .halted).onChan 4 fun c => { c with ta := 2 }
     does (.resume 1 4 2) s (fun t => decide ((t.chan 4).st = .active ∧ (t.chan 4).want = [0, 1]) && only s t [.dbl, .xlt]) = true) := by
  decide +kernel

/-- A NOP slot: its SEQ. -/
def nop (hi : BitVec 512) : Granule := (hi <<< 16) ||| 0x0F
/-- The home answers the fetch of a slot of channel 4. -/
def ringAns (s : State) (p : BitVec 32) (code : Code) (g : Granule) : State := s.withAnswer (.ringRead .A 4 p 0) code g
/-- Channel 4 has read slots `0` and `1` of two announced. -/
def Slots (n : BitVec 17) (rs : List (BitVec 32)) : State := (C4 .active).onChan 4 fun c => { c with ta := n, reads := rs }

theorem witness_SlotsAreTaken :
    (C4 .active).acceptCode 1 [nop 0x200] = 0 ∧ hdrOp (nop 0x200) = 0x0F ∧ (hdrSeq (nop 0x200)).extractLsb' 8 8 = 2 ∧
    does (.dbInline 1 4 0x1C0 64 true [nop 0x200]) (C4 .active) (fun t => decide ((t.chan 4).cmds = [{ num := 0, op := 0x0F, seq := hdrSeq (nop 0x200), inl := true, slots := [nop 0x200] }]) &&
      only (C4 .active) t [.dbl]) = true ∧
    does (.dbInline 1 4 0x100 64 true [nop 0x200]) (C4 .parked) (fun t => decide ((t.chan 4).st = .parked ∧ (t.chan 4).cmds.length = 1) &&
      only (C4 .parked) t [.dbl]) = true ∧
    (C4 .active).acceptCode 1 [nop 0x200 ||| 0x70] = 4 ∧
    does (.dbInline 1 4 0x100 64 true [nop 0x200 ||| 0x70]) (C4 .active) (fun t => decide ((t.chan 4).st = .error ∧ (t.chan 4).code = 4 ∧
      (t.chan 4).faultInline = true) && only (C4 .active) t [.dbl, .xlt]) = true ∧
    does (.dbInline 1 4 0x200 64 true [nop 0x200]) (C4 .active) (fun t => decide ((t.chan 4).st = .error ∧ (t.chan 4).code = 5) &&
      only (C4 .active) t [.dbl, .xlt] [(pgDBL, 1, 6)]) = true ∧
    does (.dbInline 1 4 0x100 64 true [nop 0x200]) (C4 .error) (fun t => only (C4 .error) t [] [(pgDBL, 1, 6)]) = true ∧
    idles (.ringSlotReturn 4 0) (C4 .active) = true ∧ idles (.ringReadFail 4 0) (C4 .active) = true ∧
    does (.ringSlotReturn 4 1) (ringAns (Slots 2 [0, 1]) 1 0 (nop 1)) (fun t => decide ((t.chan 4).hand = [{ pos := 1, data := nop 1 }] ∧
      (t.chan 4).reads = [0]) && only (Slots 2 [0, 1]) t [.dbl]) = true ∧
    ((Slots 1 [0]).chan 4).fresh 0 (nop 0) true = false ∧ ((Slots 1 [0]).chan 4).fresh 0 0x800F true = true ∧
    (Slots 1 [0]).acceptCode 1 [0x800F] = 0 ∧
    does (.ringSlotReturn 4 0) (ringAns (Slots 1 [0]) 0 0 0x800F) (fun t => decide ((t.chan 4).st = .parked ∧ (t.chan 4).f = 1 ∧
      (t.chan 4).cmds = [{ num := 0, op := 0x0F, seq := hdrSeq 0x800F, slots := [0x800F] }]) && only (Slots 1 [0]) t [.dbl]) = true ∧
    (let s := (Slots 1 []).onChan 4 fun c => { c with stale := some 0 }
     does (.ringReread 4) s (fun t => decide ((t.chan 4).rereads = 1 ∧ (t.chan 4).want = [0]) && only s t [.dbl, .xlt]) = true) ∧
    idles (.ringReread 4) (C4 .active) = true ∧
    -- the channel's engine does not serve
    (let s := ((Slots 1 [0]).onTwn fun x => { x with mode := .soloB, stA := .failed, stB := .serving, failover := .quiesce })
     s.atRest = true ∧ s.served 4 = false ∧
     does (.ringSlotReturn 4 0) (ringAns s 0 0 0x800F) (fun t => decide ((t.chan 4).reads = [] ∧ (t.chan 4).hand = []) && only s t [.dbl]) = true ∧
     (let s := s.onChan 4 fun c => { c with stale := some 0 }
      idles (.ringReread 4) s = true)) ∧
    -- a command before the rejected one is dispatched first
    (let s := (C4 .active).onChan 4 fun c => { c with cmds := [{ num := 5, op := 0x0F, slots := [0x800F] }], nextNum := 9 }
     s.readyCmd 4 = some { num := 5, op := 0x0F, slots := [0x800F] } ∧ s.acceptCode 1 [nop 0x200 ||| 0x70] = 4 ∧
     does (.dbInline 1 4 0x100 64 true [nop 0x200 ||| 0x70]) s (fun t => decide ((t.chan 4).st = .error ∧ (t.chan 4).code = 4 ∧
       (t.chan 4).faultInline = true ∧ (t.chan 4).cmds = [])) = true) ∧
    does (.ringReadFail 4 0) (ringAns (Slots 1 [0]) 0 0x45 0) (fun t => decide ((t.chan 4).st = .error ∧ (t.chan 4).code = 0x45) &&
      only (Slots 1 [0]) t [.dbl, .xlt]) = true ∧
    (let s := (Slots 1 [0]).onChan 4 fun c => { c with f := 1, ta := 2, reads := [1], cmds := [{ num := 0, op := 0x0F, slots := [0x800F] }], nextNum := 1 }
     (s.chan 4).before = true ∧
     does (.ringReadFail 4 1) (ringAns s 1 0x45 0) (fun t => decide ((t.chan 4).st = .active ∧ (t.chan 4).hand = [{ pos := 1, data := 0, fail := 0x45 }]) &&
       only s t [.dbl]) = true) := by decide +kernel

/-! ## Dispatch, movers and segments -/

/-- Channel 4, active, with commands. -/
def Cmds (l : List Cmd) : State := (C4 .active).onChan 4 fun c => { c with cmds := l, nextNum := 9 }
/-- A command of number 5, waiting or dispatched, with the slot of some fields. -/
def cmd5 (op : Nat) (l : List (Nat × Nat)) (st : CmdSt := .waiting) : Cmd := { num := 5, op := op, slots := [gran ((0, op) :: l)], st := st }
/-- A COPY of 64 KiB plus one granule, between addresses of one 2 MiB page. -/
def copy5 : Cmd := cmd5 1 [(0x10, 0x400000), (0x18, 0x600000), (0x20, 0x10040)]
/-- An object of partition 1 at index 7, and its handle. -/
def Obj7 (s : State) (o : Obj) : State := s.onObj 7 fun _ => o
/-- A counter. -/
def counter7 (v : BitVec 32) : Obj := { gen := 1, st := .live, part := 1, value := v }
/-- Its handle. -/
def h7 : Nat := (objHandle 1 1 0 7).toNat
/-- Outbound window 2 of partition 1, to chip 3, reached by route slot 1. -/
def Peer (s : State) : State := s.onPeer fun p => { p with
  oAllot := [(1, { base := 2, count := 1 })], route := [(3, 0x850E0000)],
  owin := [(2, { w0 := 0x8000000000000003, w1 := 0x600000, w2 := 0x7FF000, w3 := 0x420003 })] }

theorem witness_CommandsAreDispatched :
    idles (.copy 4) (C4 .active) = true ∧
    ((C4 .active).judgeDest 1 3 copy5.data).1 = 0 ∧ copy5.data.segments = 2 ∧
    ([(1, Instr.copy 4), (2, .copyConvert 4), (3, .fill 4), (4, .inlineWrite 4), (5, .reducePut 4), (0x11, .timestamp 4)].all fun (x : Nat × Instr) =>
      let s := Cmds [{ copy5 with op := x.1, slots := [gran [(0, x.1), (0x10, 0x400000), (0x18, 0x600000), (0x20, 64)], 0] }]
      does x.2 s fun t => (t.chan 4).inflight = 1 && only s t [.dbl]) = true ∧
    does (.copy 4) (Cmds [copy5]) (fun t => decide ((t.chan 4).cmds = [{ copy5 with st := .dispatched, segs := 2 }]) && only (Cmds [copy5]) t [.dbl]) = true ∧
    (let s := Peer (Cmds [cmd5 1 [(0x10, 0x400000), (0x18, 0x5FFFC0), (0x20, 128)]])
     does (.copy 4) s (fun t => decide ((t.chan 4).st = .error ∧ (t.chan 4).code = 0x81 ∧ (t.chan 4).cmds = []) && only s t [.dbl, .xlt]) = true) ∧
    does (.atomic 4) (Cmds [cmd5 0x0B []]) (fun t => (t.chan 4).inflight = 1 && only (Cmds [cmd5 0x0B []]) t [.dbl]) = true ∧
    does (.fence 4) (Cmds [cmd5 8 []]) (fun t => ((t.chan 4).cmds.all fun x => x.fenceSent) && only (Cmds [cmd5 8 []]) t [.dbl]) = true ∧
    does (.signal 4) (Cmds [cmd5 9 [(0x10, h7), (0x18, 3)]]) (fun t => decide (t.syn.acts =
      [{ from_ := .chan 4 5, handle := BitVec.ofNat 32 h7, action := 0, value := 3 }]) && only (Cmds [cmd5 9 [(0x10, h7), (0x18, 3)]]) t [.dbl, .syn]) = true ∧
    does (.signal 4) (Cmds [cmd5 9 [(4, 0x10), (0x14, 2)]]) (fun t => decide ((t.chan 4).code = 0x81) &&
      only (Cmds [cmd5 9 [(4, 0x10), (0x14, 2)]]) t [.dbl, .xlt]) = true ∧
    (let s := Peer (Cmds [cmd5 9 [(4, 0x10), (0x10, 0x55), (0x14, 2)]])
     does (.signal 4) s (fun t => (t.chan 4).inflight = 1 && only s t [.dbl, .peer] && match t.out with
       | [.fabric 5 14 p] => decide (p.h.kind = 3 ∧ p.h.body = 0x55 ∧ p.h.dstChip = 3 ∧ p.h.window = 0x42 ∧ p.blocks = [])
       | _ => false) = true) := by decide +kernel

/-- An entry of a plan of partition 1, of KIND 1, held at index 9. -/
def Plan9 (s : State) : State := s.onEntry 9 fun e => { e with gen := 1, held := true, part := 1, body := 1 }
/-- Its handle. -/
def h9 : Nat := (objHandle 1 1 3 9).toNat

theorem witness_CommandsAreDispatched_complete :
    (let s := Obj7 (Cmds [cmd5 0x0A [(0x10, h7), (0x14, 2)]]) (counter7 0)
     does (.wait 4) s (fun t => (t.chan 4).inflight = 1 && decide ((t.obj 7).waiters = [0] ∧ (t.wrec 0).map (·.deadline) = some 128) &&
       only s t [.dbl, .syn]) = true) ∧
    (let s := Obj7 (Cmds [cmd5 0x0A [(0x10, h7)]]) (counter7 3)
     does (.wait 4) s (fun t => decide ((t.chan 4).cmds = [] ∧ (t.obj 7).value = 2) && only s t [.dbl, .syn, .cht]) = true) ∧
    does (.nop 4) (Cmds [cmd5 0x0F [(8, 2), (0x0C, h7)]]) (fun t => decide ((t.chan 4).cmds = [] ∧
      t.syn.acts = [{ from_ := .pulse .A, handle := BitVec.ofNat 32 h7, action := 0, value := 1 }]) &&
      only (Cmds [cmd5 0x0F [(8, 2), (0x0C, h7)]]) t [.dbl, .syn, .cht]) = true ∧
    does (.migrateHint 4) (Cmds [cmd5 0x10 [(0x10, 0x50000), (0x18, 2)]]) (fun t => decide ((t.chan 4).cmds = [] ∧
      t.skk.hints.map (·.va) = [0x50000, 0x60000]) && only (Cmds [cmd5 0x10 [(0x10, 0x50000), (0x18, 2)]]) t [.dbl, .syn, .cht, .skk]) = true ∧
    (let s := Plan9 (Cmds [cmd5 0x12 [(0x10, h9), (0x14, 1), (0x18, 6)]])
     planRange (cmd5 0x12 [(0x10, h9), (0x14, 1), (0x18, 6)]).slots = [9] ∧
     does (.planArm 4) s (fun t => decide ((t.chan 4).cmds = [] ∧ (t.entry 9).arms = [(6, true)]) && only s t [.dbl, .syn, .cht]) = true) ∧
    (let s := (Cmds [cmd5 0x0F []]).onChan 4 fun c => { c with f := 7, ta := 8, hand := [{ pos := 7, data := 0, fail := 0x45 }] }
     (s.chan 4).failedAt = 0x45 ∧ s.nextCmd 4 0x0F = some (cmd5 0x0F []) ∧
     does (.nop 4) s (fun t => decide ((t.chan 4).st = .error ∧ (t.chan 4).code = 0x45 ∧ (t.chan 4).faultSeq = 7) && only s t [.dbl, .syn, .cht, .xlt]) = true) ∧
    -- a translation fault of the slot that F comes to kills the channel
    (let s := (Cmds [cmd5 0x0F []]).onChan 4 fun c => { c with f := 7, ta := 8, hand := [{ pos := 7, data := 0, fail := 0x21 }] }
     s.atRest = true ∧ kills (s.chan 4).failedAt = true ∧ (s.chan 4).faulted = false ∧
     does (.nop 4) s (fun t => decide ((t.chan 4).st = .killed ∧ (t.chan 4).faulted = true ∧ (t.chan 4).code = 0x21)) = true) ∧
    -- a wait linked in the same cycle as one of a later rank goes before it
    (let s := (Obj7 (Cmds [cmd5 0x0A [(0x10, h7), (0x14, 2)]]) { counter7 0 with waiters := [9] }).onSyn fun y => { y with
       rec_ := [(9, some { who := .client 3 1 0, handle := BitVec.ofNat 32 h7, cond := 0, timeout := 2, linked := 0, deadline := 128 })] }
     s.atRest = true ∧ s.linkedAfter (s.waiterRank (.chan 4 5)) 9 = true ∧
     does (.wait 4) s (fun t => decide ((t.obj 7).waiters = [0, 9]) && only s t [.dbl, .syn]) = true) := by
  decide +kernel

/-- A COPY of 192 bytes, dispatched. -/
def copy3 : Cmd := { cmd5 1 [(0x10, 0x400000), (0x18, 0x600000), (0x20, 192)] .dispatched with urgent := true }
/-- Mover 0 has both pages: device memory, under epoch 1. -/
def Eft (s : State) : State :=
  let page (va : Word) : Page := { asid := 3, va := va, size := 21, device := true, addr := va, r := true, w := true, at_ := true,
                                   dirty := true, migratable := false, epoch := 1 }
  s.onXlt fun x => { x with
    eft := [(0, { page := some (page 0x400000), ref := true }), (1, { page := some (page 0x600000) })]
    binds := [{ asid := 3, part := 1, root := 0x1000000, prof := 0, sup := true, epoch := 1 }] }
/-- Command 5 of channel 4 runs in a context of mover 0. -/
def Runs (u : Bool) (c : Cmd) (j : Job) : State := (Eft (Cmds [c])).onJob 0 u fun _ => { j with work := some (.chan 4 5) }

theorem witness_SegmentsRun :
    (Cmds [copy3]).urgentMover .A = some 0 ∧ (Cmds [copy3]).plannedSeg .A = none ∧
    ((Cmds [copy3]).waitingSeg 4 true).map (·.2) = some 0 ∧ (Cmds [copy3]).atRest = true ∧ (Cmds [copy3]).engineSt .A = .serving ∧
    does (.segmentDispatch .A true) (Cmds [copy3]) (fun t => decide ((t.job 0 true).st = .running ∧ (t.job 0 true).total = 3 ∧
      (t.chan 4).cmds = [{ copy3 with next := 1 }] ∧ (t.arbiter 2).holder = none) && only (Cmds [copy3]) t [.mov, .dbl, .arb]) = true ∧
    (let s := Cmds [{ copy3 with urgent := false }]
     s.bulkMover .A = some 0 ∧ does (.segmentDispatch .A false) s (fun t => decide ((t.job 0 false).st = .running) && only s t [.mov, .dbl, .arb]) = true) ∧
    (let s := (Plan9 (C4 .active)).onEntry 9 fun e => { e with body := gran [(0, 1), (4, h4.toNat)], run := some copy3 }
     (s.plannedSeg .A).map (·.1) = some 9 ∧
       does (.segmentDispatch .A true) s (fun t => decide ((t.job 0 true).work = some (.plan 9) ∧ (t.job 0 true).planned = true) &&
         only s t [.mov, .cht]) = true) ∧
    idles (.segmentDispatch .B true) (Eng .soloA .serving .failed) = true ∧
    (let s := Runs true copy3 { st := .running, total := 3 }
     (s.locate 0 (.chan 4 5) copy3 { access := 0, va := 0x400000, own := true }).isSome = true ∧ s.mayStart 4 1 true [(8, 64), (9, 64)] = true ∧
       does (.burstStart 0 true) s (fun t => decide ((t.job 0 true).nextG = 1 ∧ (t.job 0 true).reads.map (·.sent) = [false] ∧ t.chanCredit 4 8 =
         s.chanCredit 4 8 - 64) && only s t [.mov, .xlt]) = true) := by decide +kernel

/-- A request of mover 0's Bulk context is outstanding on port 0. -/
def Asked (c : Cmd) (j : Job) (f : NocFor) : State := (Runs false c j).onNoc fun n => { n with reqs := [{ port := 0, agent := 1280, tag := 7, for_ := f }] }
/-- An ATOMIC without RETURN, dispatched. -/
def atomic5 : Cmd := cmd5 0x0B [(0x10, 0x400000)] .dispatched

theorem witness_SegmentsRun_returns :
    (let s := Asked copy3 { st := .completing, total := 3, used := 3, rb := .out } (.readback 0 false)
     s.readsRemoved 0 = false ∧ s.creditsSpent 0 .rsp < 96 ∧
     does (.memRdData 0 1280 7 false 0) s (fun t => decide ((t.job 0 false).rb = .back ∧ t.noc.reqs = []) && only s t [.mov, .noc]) = true) ∧
    -- a second link's zero-length read is still out
    (let s := Asked copy3 { st := .completing, total := 3, used := 3, rb := .out, rbs := 2 } (.readback 0 false)
     does (.memRdData 0 1280 7 false 0) s (fun t => decide ((t.job 0 false).rb = .out ∧ (t.job 0 false).rbs = 1 ∧ t.noc.reqs = []) && only s t [.mov, .noc]) = true) ∧
    (let s := Asked copy3 { st := .running, total := 3, reads := [{ kind := .src, idx := 0 }, { kind := .src, idx := 1 }] } (.read 0 false .src 1)
     does (.memRdData 0 1280 7 false 5) s (fun t => decide ((t.job 0 false).reads = [{ kind := .src, idx := 0 }, { kind := .src, idx := 1, data := some 5 }]) &&
       only s t [.mov, .noc]) = true) ∧
    (let s := Asked copy3 { st := .draining, writes := [(false, 1)] } (.write 0 false 1)
     does (.memWrAck 0 1280 7 0x41) s (fun t => decide ((t.job 0 false).writes = []) && only s t [.mov, .noc]) = true) ∧
    (let s := Asked copy3 { st := .running, total := 3, used := 1, reads := [{ kind := .src, idx := 1 }], writes := [(false, 1)] } (.write 0 false 1)
     does (.memWrAck 0 1280 7 0) s (fun t => decide ((t.job 0 false).writes = []) && only s t [.mov, .noc]) = true) ∧
    (let s := Asked atomic5 { st := .running, total := 1, nextG := 1, issued := 1, writes := [(false, 1)] } (.atomic 0 false 1)
     does (.memAtomicAck 0 1280 7 0 9) s (fun t => decide ((t.job 0 false).rb = .back ∧ (t.job 0 false).performed = true) &&
       only s t [.mov, .noc, .dbl]) = true) := by decide +kernel

/-- A COPY_CONVERT that writes its CRC word, dispatched. -/
def crc5 : Cmd := { cmd5 2 [] .dispatched with slots := [gran [(0, 2), (0x20, 64)], gran [(4, 0x10)]] }

theorem witness_SegmentsEnd :
    (let s := Runs false { copy3 with segs := 2 } { st := .completing, rb := .back }
     does (.segmentComplete 0 false) s (fun t => decide (t.job 0 false = {} ∧ ((t.chan 4).cmds.map (·.done)) = [[0]]) && (t.out.filter fun o => match o with | .hubStore true _ => true | _ => false).length = 1 &&
       only s t [.mov, .dbl, .ras]) = true) ∧
    crc5.data.crc = 1 ∧
    (let s := Runs false crc5 { st := .completing, rb := .back }
     does (.segmentComplete 0 false) s (fun t => decide ((t.job 0 false).crcPhase = true) && only s t [.mov, .dbl, .ras]) = true) ∧
    (let s := Runs false { copy3 with slots := [gran [(0, 1), (8, 3), (0x0C, h9)]] } { st := .completing, rb := .back }
     does (.segmentComplete 0 false) s (fun t => decide (t.job 0 false = {} ∧ (t.chan 4).cmds = [] ∧ t.cht.pulses = [BitVec.ofNat 32 h9]) &&
       only s t [.mov, .dbl, .syn, .cht, .ras]) = true) ∧
    idles (.segmentComplete 0 false) (Runs false copy3 { st := .running }) = true ∧
    (let s := Runs false copy3 { st := .running }
     does (.segmentFail 0 false .poison) s (fun t => decide ((t.chan 4).st = .error ∧ (t.chan 4).code = 0xC1 ∧ (t.job 0 false).st = .draining ∧
       (t.chan 4).cmds.map (·.st) = [.ended]) && only s t [.mov, .dbl, .xlt]) = true) ∧
    idles (.segmentFail 0 false .timeout) (Runs false copy3 { st := .draining }) = true ∧
    (let s := Asked copy3 { st := .draining, writes := [(false, 1)] } (.write 0 false 1)
     does (.segmentFail 0 false .timeout) s (fun t => decide ((t.job 0 false).writes = [] ∧ t.noc.reqs = []) && only s t [.mov, .noc]) = true ∧
       idles (.segmentFail 0 false .poison) s = true) ∧
    (let s := Runs false { copy3 with st := .ended } { st := .draining }
     (s.job 0 false).quiet = true ∧
     does (.stoppedContextIdle 0 false) s (fun t => decide (t.job 0 false = { stopped := true } ∧ (t.chan 4).cmds = []) && only s t [.mov, .dbl]) = true) ∧
    idles (.stoppedContextIdle 0 false) R = true ∧
    (let s := Cmds [{ cmd5 8 [] .dispatched with fenceSent := true }]
     does (.fenceHeld 4) s (fun t => decide ((t.chan 4).cmds = []) && only s t [.dbl, .syn, .cht]) = true) ∧
    idles (.fenceHeld 4) (Cmds [{ cmd5 8 [] .dispatched with fenceSent := true, fenceOut := 1 }]) = true := by decide +kernel

theorem witness_ReedGrows :
    (let s := (R.onMov fun v => { v with chanCredit := [(4 * 23 + 8, some 0)], partShare := [(23, 128)], slotBytes := [(8, 64)] })
     let s := s.onChan 5 fun c => { c with share := 1 }
     s.atRest = true ∧ does .reedSlotBoundary s (fun t => decide (t.chanCredit 4 8 = 131072 ∧ (t.chan 5).shareNow = 1 ∧ t.partCredit 1 0 = 16384 ∧
       t.mov.partNow = [(23, 128)] ∧ t.mov.slotBytes = []) && only s t [.mov, .dbl]) = true) := by decide +kernel

/-- The credits that a lost macro held stay 0. -/
theorem witness_ReedGrows_lost :
    let s := R.onRas fun r => { r with lostCap := [(0x10, Config.entryMacro 0x10 (chanCreditKey (4 * 23 + 8))), (0x10, Config.entryMacro 0x10 (partCreditKey (1 * 23 + 8)))] }
    let t := s.onMov fun v => { v with chanCredit := [(4 * 23 + 8, some 0)], partCredit := [(1 * 23 + 8, some 0)] }
    t.macroLost 0x10 (chanCreditKey (4 * 23 + 8)) = true ∧ t.chanCredit 4 8 = 0 ∧ t.macroLost 0x10 (partCreditKey (1 * 23 + 8)) = true ∧ t.partCredit 1 8 = 0 := by
  refine ⟨by simp [State.macroLost, State.onRas, State.onMov], by decide +kernel, by simp [State.macroLost, State.onRas, State.onMov], by decide +kernel⟩

/-! ## Translation and invalidation -/

/-- Partition 1 has bound ASID 3 under profile 0, and may use all host addresses; client 9 is its. -/
def X : State := (C4 .active).onXlt fun x => { x with
  binds := [{ asid := 3, part := 1, root := 0x1000000, prof := 0, sup := true, epoch := 1 }], asidMax := [(1, 2)],
  client := [(9, { part := 1 })], range := [(16, { base := 1, limit := 0xFFFFFFFFF000 })] }
/-- A read by client 9. -/
def xr : XReq := { who := .client 9 5, part := 1, asid := 3, access := 0, va := 0x12345678 }
/-- The same as an operand. -/
def xo : Instr := .xltReq 9 5 3 0 0x12345678
/-- Partition 1's page there: host memory. -/
def pg : Page := { asid := 3, va := 0x12345000, size := 12, device := false, addr := 0x5000, r := true, w := false, at_ := false
                   dirty := false, migratable := false, epoch := 1 }
/-- A walk for it, at a level. -/
def wk (level : Nat) : Walk :=
  { req := xr, part := 1, level := level, table := 0x2000000, epoch := 1, at_ := .line, ranges := X.rangesOf 1 0 ++ X.rangesOf 1 1 }
/-- `X` with lookups. -/
def Lk (l : List XReq) : State := X.onXlt fun x => { x with lookups := l }
/-- `X` with walker 2 at work. -/
def Wk (w : Walk) : State := X.onXlt fun x => { x with walk := [(2, some w)] }
/-- The home answers the read of a line of walker 2. -/
def lineAns (s : State) (code : Code) (g : Granule) : State := s.withAnswer (.walkLine 2 0) code g
/-- The message went out, or waits for a credit. -/
def sent (t : State) (m : P4Msg) : Bool := t.out.contains (.p4 m) || t.noc.wait.contains (.p4 m)
/-- A failure of client 9's request. -/
def failed (code : Code) : P4Msg := .xltAns 9 5 code false 0 0 0

theorem witness_TranslationsAreServed :
    X.atRest = true ∧ does (.xltReq 9 5 3 3 0) X (fun t => only X t [] [(pgGLB, 0, 5)]) = true ∧
    does xo X (fun t => decide (t.xlt.lookups = [xr]) && only X t [.xlt]) = true ∧
    (let s := X.onXlt fun x => { x with client := [(9, { en := false, part := 1 })] }
     does xo s (fun t => sent t (failed 0x25) && only s t [.xlt] [(pgXLT, 1, 1)]) = true) ∧
    idles (.l2tLookup 0) X = true ∧
    (let s := (Lk [xr]).onXlt fun x => { x with binds := [] }
     s.atRest = true ∧ s.xlt.lookups[0]? = some xr ∧ s.binding? 3 = none ∧ s.canWrite false 1 = false) ∧
    (let y : XReq := { xr with who := .ring 4 0 }
     let s := (Lk [y]).onChan 4 fun c => { c with want := [0] }
     y.l2tIndex = none ∧ s.atRest = true ∧ s.wanted y = true ∧ s.l2tFind 3 0x12345678 = none ∧ canonical (X.profile 0).vaBits 0x12345678 = true ∧
     s.walkFor y = none ∧
     does (.l2tLookup 0) s (fun t => decide (t.xlt.missA = [y] ∧ t.xlt.lookups = []) && only s t [.xlt]) = true) ∧
    idles (.walkerAllocate .B) X = true ∧
    -- Engine A fences its misses, and goes past one whose partition has no walker to spare
    (let s := (X.onXlt fun x => { x with missA := [xr] }).onTwn fun t => { t with stA := .failed }
     s.engineSt .A ≠ .serving ∧ idles (.walkerAllocate .A) s = true) ∧
    (let y : XReq := { xr with part := 2 }
     let s := X.onXlt fun x => { x with missB := [y, xr] }
     s.freeWalker .B 2 none = none ∧ s.walkFor y = none ∧ s.freeWalker .B 1 none = some 32 ∧
     does (.walkerAllocate .B) s (fun t => decide ((t.walker 32).map (·.level) = some 3 ∧ t.xlt.missB = [y]) && only s t [.xlt, .home]) = true) ∧
    (let s := X.onXlt fun x => { x with missB := [xr] }
     s.freeWalker .B 1 none = some 32 ∧ s.walkFind 3 0x12345678 (fun _ => true) = none ∧ s.walkFor xr = none ∧ s.home = {} ∧
       (s.cacheLink 0x1000000).isSome = true ∧
       does (.walkerAllocate .B) s (fun t => decide ((t.walker 32).map (·.level) = some 3 ∧ t.xlt.missB = [] ∧
         t.out = [.d2hReq 0 "RdShared" 0x1000000]) && (t.line 0x40000).asks (.walkLine 32 1) && only s t [.xlt, .home]) = true) ∧
    idles (.entryLineReturn 2) X = true ∧ (Wk (wk 0)).atRest = true ∧
    does (.entryLineReturn 2) (lineAns (Wk (wk 0)) 0xC1 0) (fun t => sent t (failed 0x26) && only (Wk (wk 0)) t [.xlt] [(pgXLT, 1, 1)]) = true ∧
    does (.entryLineReturn 2) (lineAns (Wk (wk 0)) 0x44 0) (fun t => sent t (failed 0x44) && only (Wk (wk 0)) t [.xlt]) = true ∧
    (X.profile 0).judge { asid := 3, part := 1, root := 0x1000000, prof := 0, sup := true, epoch := 1 } 0x12345678 0xC00001 1 = .table 0x3000000 ∧
    does (.entryLineReturn 2) (lineAns (Wk (wk 1)) 0 (gran [(8, 0xC00001)])) (fun t => decide ((t.walker 2).map (·.table) = some 0x3000000 ∧
      t.out = [.d2hReq 0 "RdShared" 0x3000A00]) && (t.line 0xC0028).asks (.walkLine 2 1) && only (Wk (wk 1)) t [.xlt, .home]) = true ∧
    does (.entryLineReturn 2) (lineAns (Wk (wk 0)) 0 (gran [(40, 0x14C3)])) (fun t => decide ((t.walker 2) = none) &&
      sent t (.xltAns 9 5 0 false 0 1 0x5000) && only (Wk (wk 0)) t [.xlt]) = true ∧
    does (.entryLineReturn 2) (lineAns (Wk (wk 0)) 0 (gran [(40, 0x0800000000001400)])) (fun t =>
      decide ((t.walker 2) = none ∧ t.xlt.locks.length = 1) && only (Wk (wk 0)) t [.xlt]) = true ∧
    (let s := Wk { wk 0 with at_ := .locked }
     s.inPlace.length = 1 ∧ s.xlt.locks = [] ∧
     does (.lockRetry 0) s (fun t => decide (t.out = [.d2hReq 0 "RdShared" 0x2000A00]) && only s t [.xlt, .home]) = true ∧
     does (.lockLimit 0) s (fun t => decide (t.walker 2 = none) && sent t (failed 0x29) && only s t [.xlt] [(pgXLT, 1, 1)]) = true) ∧
    idles (.lockRetry 0) X = true ∧
    (let s := X.onXlt fun x => { x with locks := [{ req := xr, line := 0x2000A00, entry := 0, entryAddr := 0x2000A28, level := 0 }] }
     does (.lockRetry 0) s (fun t => decide (t.xlt.locks = [] ∧ t.xlt.lookups = [xr]) && only s t [.xlt]) = true ∧
       does (.lockLimit 0) s (fun t => decide (t.xlt.locks = []) && sent t (failed 0x29) && only s t [.xlt] [(pgXLT, 1, 1)]) = true) ∧
    -- one that joined later waits on
    (let y : XReq := { xr with who := .client 9 6, since := some 8 }
     let s := (X.onGlb fun g => { g with time := 10 }).onXlt fun x => { x with
       locks := [{ req := { xr with since := some 2 }, joiners := [y], line := 0x2000A00, entry := 0, entryAddr := 0x2000A28, level := 0 }] }
     s.atRest = true ∧ (s.glb.time - 8).toNat < (s.glb.time - 2).toNat ∧
       does (.lockLimit 0) s (fun t => decide (t.xlt.locks.map (fun l => (l.req, l.joiners)) = [(y, [])]) && sent t (failed 0x29) &&
         only s t [.xlt] [(pgXLT, 1, 1)]) = true) := by
  decide +kernel

/-- `X` with lookups, every bank of the L2T granted to an index. -/
def Gr (i : Nat) (l : List XReq) : State := (List.range 8).foldl (fun s b => s.onArbiter (0x1B + b) fun x => { x with holder := some i }) (Lk l)

/-- The same read by mover 0's Eft. -/
def mr : XReq := { xr with who := .mover 0 false }

/-- A bank that client 9 holds serves its lookup; one that mover 0 holds, and asks for, does not. -/
theorem witness_TranslationsAreServed_granted :
    (Gr 48 [xr]).atRest = true ∧ (∀ i, xr.l2tIndex = some i → ((Gr 48 [xr]).arbiter (0x1B + l2tBankOf xr.asid xr.va)).holder = some i) ∧
    (Gr 48 [xr]).l2tFind 3 0x12345678 = none ∧ (Gr 48 [xr]).wanted xr = true ∧ (Gr 48 [xr]).walkFor xr = none ∧
    (let s := Gr 0 [mr, xr]
     let b := l2tBankOf xr.asid xr.va
     s.xlt.lookups[1]? = some xr ∧ xr.l2tIndex = some 48 ∧ (s.arbiter (0x1B + b)).holder = some 0 ∧
       ((s.arbCycle (0x1B + b) (s.l2tRequests b) (s.l2tRequests b)).arbiter (0x1B + b)).holder = some 0) := by
  have all (P : Nat → Prop) [DecidablePred P] (h : (List.range 8).all (fun b => P b) = true) : P (l2tBankOf xr.asid xr.va) := by
    have hb : l2tBankOf xr.asid xr.va < 8 := Nat.mod_lt _ (by decide)
    simpa using List.all_eq_true.mp h _ (List.mem_range.mpr hb)
  have hl : (Gr 0 [mr, xr]).xlt.lookups = [mr, xr] := by decide +kernel
  refine ⟨by decide +kernel, fun i hi => ?_, ?_, by decide +kernel, by decide +kernel, by decide +kernel, by decide +kernel,
    all (fun b => ((Gr 0 [mr, xr]).arbiter (0x1B + b)).holder = some 0) (by decide +kernel), ?_⟩
  · obtain rfl : 48 = i := by simpa [XReq.l2tIndex, xr] using hi
    exact all (fun b => ((Gr 48 [xr]).arbiter (0x1B + b)).holder = some 48) (by decide +kernel)
  · have ht : (Gr 48 [xr]).xlt.l2t = [] := by decide +kernel
    simp [State.l2tFind, State.l2tWay, ht, tabGet]
  · have hr : (Gr 0 [mr, xr]).l2tRequests (l2tBankOf xr.asid xr.va) = [(0, false), (48, false)] := by
      have h0 : l2tBankOf mr.asid mr.va = l2tBankOf xr.asid xr.va := rfl
      simp only [State.l2tRequests, hl, List.filter, h0, decide_true]
      decide
    simp only [hr]
    exact all (fun b => ((((Gr 0 [mr, xr]).arbCycle (0x1B + b) [(0, false), (48, false)]
      [(0, false), (48, false)]).arbiter (0x1B + b)).holder = some 0)) (by decide +kernel)

/-- The set of the page. -/
def pgSet : Nat := l2tSetOf 12 3 0x12345678

/-- A lookup of a request, of the client or of channel 4's slot 0, with the page in its set. -/
def Hit (r : XReq) : State := ((Lk [r]).onChan 4 fun c => { c with want := [0] }).onXlt fun x => { x with l2t := [(pgSet * 16, some pg)] }

theorem witness_TranslationsAreServed_hit (who : Who) :
    (Hit { xr with who := who }).l2tFind xr.asid xr.va = some (pgSet, 0, pg) ∧ pg.serves xr.access = true ∧
    (0 : BitVec 32) ∈ ((Hit { xr with who := .ring 4 0 }).chan 4).want ∧
    ((Hit { xr with who := .ring 4 0 }).cacheLink (pg.at xr.va)).isSome = true := by
  refine ⟨?_, by decide +kernel⟩
  have hc : pg.covers xr.asid xr.va = true := by decide +kernel
  have hs : l2tSetOf 12 xr.asid xr.va = pgSet := rfl
  have ht : (Hit { xr with who := who }).xlt.l2t = [(pgSet * 16, some pg)] := rfl
  simp [State.l2tFind, State.l2tWay, ht, hs, List.range_succ_eq_map, tabGet, hc, show pg.size = 12 from rfl]

/-- A record with a code. -/
def rec5 : Record := { words := [0, 0, 0, 0, 0, 0, 0, 0], code := 5, time := 0 }
/-- A queue of partition 1. -/
def Qu (notice : Bool) (q : Queue) : State := X.onQueue notice 1 fun _ => q

/-- The home answers the write of the record partition 1's queue has in flight. -/
def recAns (notice : Bool) (code : Code) (s : State) : State := s.withAnswer (.record notice 1) code 0

theorem witness_BindingsAndQueues :
    (let s := X.onBind 1 fun b => { b with root := 0x2000000 }
     s.viewOpen 1 = true ∧ (s.profile 0).valid = true ∧ s.inRange 1 0 0x2000000 4096 = true ∧
       does (.bind 1 7) s (fun t => decide ((t.binding? 7).map (·.epoch) = some 1 ∧ (t.bindRegs 1).result = 0) && only s t [.xlt]) = true ∧
       does (.bind 1 3) s (fun t => decide ((t.bindRegs 1).result = 1) && only s t [.xlt]) = true ∧
       does (.bind 1 7) (s.onBind 1 fun b => { b with root := 0x2000700 }) (fun t => (t.bindRegs 1).result = 4) = true ∧
       does (.bind 1 7) (s.onBind 1 fun b => { b with root := 0xFFFFFFFFFF000 }) (fun t => (t.bindRegs 1).result = 5) = true ∧
       does (.bind 1 7) (s.onXlt fun x => { x with asidMax := [(1, 1)] }) (fun t => (t.bindRegs 1).result = 6) = true ∧
       does (.bind 1 7) (s.onPart 1 fun p => { p with st := .disabling }) (fun t => (t.bindRegs 1).result = 7) = true ∧
       does (.unbind 1 7) s (fun t => decide ((t.bindRegs 1).result = 2) && only s t [.xlt]) = true ∧
       does (.unbind 1 3) s (fun t => decide ((t.bindRegs 1).result = 1) && only s t [.xlt]) = true) ∧
    (let s := X.onBind 1 fun b => { b with busy := true }
     does (.bind 1 7) s (fun t => only s t [] [(pgXLT, 1, 5)]) = true ∧ does (.unbind 1 3) s (fun t => only s t [] [(pgXLT, 1, 5)]) = true) ∧
    (let s := X.onChan 4 fun _ => {}
     does (.unbind 1 3) s (fun t => decide ((t.binding? 3).map (·.epoch) = some 2 ∧ (t.bindRegs 1).busy = true ∧
       t.xlt.invs.map (·.clients) = [[9]]) && framed s t [.xlt, .noc]) = true) ∧
    (let s := X.onXlt fun x => { x with invs := [{ id := 6, from_ := .unbind 1, begun := true, asids := [(3, 1)] }] }
     (s.drainedFrom (.unbind 1)).isSome = true ∧ does (.unbindComplete 1) s (fun t => decide (t.xlt.binds = [] ∧ t.xlt.invs = []) && only s t [.xlt]) = true) ∧
    idles (.unbindComplete 1) X = true ∧
    (let s := X.onXlt fun x => { x with psel := 0x70002 }
     does (.xltPrange true 0x12345FFF) s (fun t => decide (tabGet prangeDflt t.xlt.range 39 = { limit := 0x12345000 }) && only s t [.xlt, .skk] [(pgXLT, 2, 4), (pgSKK, 2, 2)]) = true) ∧
    -- a device range's write judges the pool, and no queue
    (let s := (X.onXlt fun x => { x with psel := 0x70101 }).onSkkPart 1 fun k => { k with poolBase := 1 }
     does (.xltPrange true 0x12345FFF) s (fun t => decide (tabGet prangeDflt t.xlt.range 31 = { limit := 0x12345000 }) && (t.skkPart 1).poolBad &&
       only s t [.xlt, .skk] [(pgSKK, 0, 6)]) = true) ∧
    X.mov.stray = [] ∧
    (let s := (X.onChan 4 fun _ => {}).onMov fun m => { m with stray := [{ link := 0, fn := 1, addr := 0x5000, asid := 3, epoch := 1, asked := true }] }
     (∀ x ∈ s.mov.stray, x.asked = true) ∧ does (.unbind 1 3) s (fun t => (t.bindRegs 1).busy) = true) := by
  decide +kernel

theorem witness_BindingsAndQueues_records :
    (let q : Queue := { base := 0x10001, tail := 3, flight := some rec5 }
     does (.xltFqHead 1 2) (Qu false q) (fun t => decide (t.queue false 1 = { q with head := 2 }) && only (Qu false q) t [.xlt]) = true ∧
       does (.xltFqHead 1 4) (Qu false q) (fun t => only (Qu false q) t [] [(pgXLT, 1, 3)]) = true ∧
       does (.skkNqHead 1 512) (Qu true q) (fun t => only (Qu true q) t [] [(pgSKK, 1, 3)]) = true ∧
       does (.faultRecordObserved 1) (recAns false 0 (Qu false q)) (fun t => decide (t.queue false 1 = { q with flight := none, tail := 4 }) && only (Qu false q) t [.xlt]) = true ∧
       does (.skinkNoticeObserved 1) (recAns true 0 (Qu true q)) (fun t => decide (t.queue true 1 = { q with flight := none, tail := 4 }) && only (Qu true q) t [.skk]) = true) ∧
    does (.xltFqBase 1 false 0x20FFF) X (fun t => decide (t.queue false 1 = { base := 0x20001 }) && only X t [.xlt]) = true ∧
    does (.skkNqBase 1 false 0x1000000000001) X (fun t => decide (t.queue true 1 = { base := 0x1000000000000 }) && only X t [.skk] [(pgSKK, 1, 2)]) = true ∧
    does (.xltFqBase 1 true 9) X (fun t => decide (t.queue false 1 = { size := 9 }) && only X t [.xlt]) = true ∧
    idles (.faultRecordObserved 1) X = true ∧ idles (.faultRecordWriteFail 1 true) X = true ∧
    does (.faultRecordWriteFail 1 false) (recAns false 0x41 (Qu false { flight := some rec5 })) (fun t => decide (t.queue false 1 = { overflow := 1, firstCode := 5, lastCode := 5 }) &&
      only (Qu false { flight := some rec5 }) t [.xlt] [(pgXLT, 1, 1), (pgXLT, 1, 2)]) = true := by decide +kernel

/-- An invalidation whose descriptor is awaited. -/
def Inv6 : State := X.onXlt fun x => { x with invs := [{ id := 6, from_ := .desc 1 0x9000 false, part := 1 }] }
/-- An invalidation that waits for client 9. -/
def Begun6 (clients : List Nat) : State := X.onXlt fun x => { x with
  invs := [{ id := 6, from_ := .desc 1 0x9000 true, part := 1, begun := true, asids := [(3, 1)], clients := clients }] }
/-- Its RESULT is written through the home, to the line of the descriptor. -/
def resulted (t : State) (w : Word) : Bool :=
  decide (t.out = [.d2hReq 0 "ItoMWr" 0x9000]) && (match (t.line 0x240).txn with
    | some { cause := .req r, .. } => decide (r.be = enables 0x38 8 ∧ r.data = granOfWords [w] <<< (8 * 0x38))
    | _ => false)
/-- A descriptor's command runs with the descriptor read. -/
def invs (i : Instr) (g : Granule) (p : State → Bool) (code : Code := 0) : Bool := does i (Inv6.withAnswer (.invRead 6) code g) p

theorem witness_InvalidationsRun :
    does (.xltInvSubmit 1 0x903F) X (fun t => decide (t.xlt.invQueue = [(1, 0x9000)]) && only X t [.xlt]) = true ∧
    (let s := X.onXlt fun x => { x with invQueue := List.replicate 16 (1, 0) }
     s.invQueued 1 = 16 ∧ does (.xltInvSubmit 1 0) s (fun t => only s t [] [(pgXLT, 1, 7)]) = true) ∧
    idles .invBegin X = true ∧
    (let s := X.onXlt fun x => { x with invQueue := [(1, 0x9000)] }
     s.masterEnabled 1 = true ∧ s.inRanges 1 0 0x9000 64 = true ∧ s.home = {} ∧ s.hlk.remap = none ∧ (s.cacheLink 0x9000).isSome = true ∧
     does .invBegin s (fun t => decide (t.xlt.invs = [{ id := 0, from_ := .desc 1 0x9000 false, part := 1 }] ∧ t.out = [.d2hReq 0 "RdCurr" 0x9000]) &&
       only s t [.xlt, .home]) = true) ∧
    (let s := X.onXlt fun x => { x with invQueue := [(1, 0x9000)], range := [] }
     does .invBegin s (fun t => decide (t.xlt.invQueue = [] ∧ t.xlt.invs = []) && only s t [.xlt] [(pgXLT, 1, 8)]) = true) ∧
    (let s := X.onXlt fun x => { x with invQueue := [(1, 0x9000)], invs := List.replicate 64 { id := 1, from_ := .desc 1 0x9000 true, part := 1 } }
     idles .invBegin s = true) ∧
    Inv6.atRest = true ∧
    ([Instr.invRange 6, .invAsid 6, .invPartition 6, .badScope 6].all fun i => idles i Inv6 &&
      invs i 0 (fun t => decide (t.xlt.invs = []) && only Inv6 t [.xlt] [(pgXLT, 1, 8)]) 0xC1) = true ∧
    invs (.badScope 6) (gran [(0, 3)]) (fun t => decide (t.xlt.invs = []) && resulted t 0x8000020000000000 && only Inv6 t [.xlt, .home]) = true ∧
    invs (.invRange 6) (gran [(8, 3)]) (fun t => resulted t 0x8000030000000000 && only Inv6 t [.xlt, .home]) = true ∧
    invs (.invRange 6) (gran [(8, 4), (0x18, 1)]) (fun t => resulted t 0x8000010000000000 && only Inv6 t [.xlt, .home]) = true ∧
    invs (.invAsid 6) (gran [(0, 1), (8, 4)]) (fun t => resulted t 0x8000010000000000) = true ∧
    invs (.invRange 6) (gran [(8, 3), (0x10, 0x7123), (0x18, 2)]) (fun t => decide (t.xlt.invs.map (fun v => (v.begun, v.va, v.pages, v.clients)) =
      [(true, 0x7000, 2, [9])] ∧ (t.binding? 3).map (·.epoch) = some 2) && only Inv6 t [.xlt]) = true ∧
    invs (.invAsid 6) (gran [(0, 1), (8, 3)]) (fun t => decide ((t.binding? 3).map (·.epoch) = some 2) && only Inv6 t [.xlt]) = true ∧
    invs (.invPartition 6) (gran [(0, 2)]) (fun t => decide ((t.binding? 3).map (·.epoch) = some 2) && only Inv6 t [.xlt]) = true ∧
    does (.xltInvAck 8 6) (Begun6 [9]) (fun t => only (Begun6 [9]) t [] [(pgGLB, 0, 5)]) = true ∧
    does (.xltInvAck 9 6) (Begun6 [9]) (fun t => decide (t.xlt.invs.map (·.clients) = [[]]) && only (Begun6 [9]) t [.xlt]) = true ∧
    idles (.invDrainExpired 6) X = true ∧
    does (.invDrainExpired 6) (Begun6 [9]) (fun t => decide (!(t.client 9).en ∧ t.xlt.invs.map (fun v => (v.clients, v.ended, v.disabled)) = [([], true, 1)]) &&
      framed (Begun6 [9]) t [.xlt]) = true ∧
    (Begun6 []).xlt.invs.all (Begun6 []).drained = true ∧
    does (.invalidationComplete 6) (Begun6 []) (fun t => decide (t.xlt.invs = []) && resulted t 0xC000000000000000 &&
      only (Begun6 []) t [.xlt, .home]) = true ∧
    idles (.invalidationComplete 6) (Begun6 [9]) = true := by decide +kernel

/-! ## Skink -/

/-- Partition 1 has an open notice queue at 0x10000. -/
def Nq : State := X.onQueue true 1 fun _ => { base := 0x10001 }
/-- Placement 5, of partition 1's region 0x40000, in a state. -/
def Pend0 (st : PlaceSt) : Pending :=
  { ticket := 5, part := 1, asid := 3, va := 0x40000, frame := 9, entryAddr := 0x3000000, saved := List.replicate 16 0, st := st }
/-- It is pending, with more fields. -/
def Pend (st : PlaceSt) (f : Pending → Pending := id) : State := Nq.onSkk fun k => { k with pending := [f (Pend0 st)] }
/-- Frame 9 is placed, in a recall's state, with more fields. -/
def Placed9 (r : RecallSt) (f : Placed → Placed := id) : State := Nq.onSkk fun k => { k with
  placed := [f { frame := 9, part := 1, asid := 3, va := 0x40000, entryAddr := 0x3000000, saved := [], rcl := r }] }
/-- A notice of a kind and a reason goes out to partition 1's queue. -/
def noted (t : State) (kind reason : Nat) : Bool :=
  t.out.contains (.d2hReq 0 "ItoMWr" 0x10000) && match (t.queue true 1).flight with
    | some r => decide (field (r.words.headD 0) 7 4 = kind ∧ field (r.words.headD 0) 11 8 = reason)
    | none => false
/-- The home asks the host for a line. -/
def hosts (t : State) (op : String) (a : Word) : Bool := t.out.contains (.d2hReq 0 op a)
/-- The states of the pending placements, and of the recalls. -/
def sts (t : State) : List PlaceSt × List RecallSt := (t.skk.pending.map (·.st), t.skk.placed.map (·.rcl))
/-- An internal invalidation has drained. -/
def Drained (s : State) (f : InvFrom) : State := s.onXlt fun x => { x with invs := [{ id := 8, from_ := f, begun := true, asids := [(3, 1)] }] }
/-- A line of eight entries of one value. -/
def ents (v : Word) : Granule := granOfWords (List.replicate 8 v)
/-- Both lines of the entries have been read, with one value in each entry, or have failed. -/
def read2 (v : Word) (code : Code := 0) (e : Pending) : Pending := { e with lines := [(0, code, ents v), (1, 0, ents v)] }
/-- A hint of partition 1 waits. -/
def Hints (s : State) (kind : BitVec 2) (va : Word) : State := s.onSkk fun k => { k with hints := [⟨kind, 1, 3, va⟩] }

/-- The home serves Skink's accesses, and partition 1's notice queue is open. -/
theorem witness_PlacementsProceed_ready :
    Nq.home = {} ∧ Nq.hlk.remap = none ∧ Nq.canWrite true 1 = true ∧ Nq.masterEnabled 1 = true ∧ Nq.viewOpen 1 = true ∧ Nq.xlt.walk = [] ∧
    (Nq.cacheLink 0x10000).isSome = true ∧ (Nq.cacheLink 0x3000000).isSome = true ∧ (Nq.cacheLink 0x3000040).isSome = true ∧
    (Nq.skkPart 1).en = false ∧ (Nq.onSkk fun k => k).inPlace = [] := by decide +kernel

theorem witness_PlacementsProceed :
    (let s := R.onSkk fun k => { k with count := [(7, 5), (9, 1)] }
     does .halvingPass s (fun t => decide (t.skk.count = [(7, 2)]) && only s t [.skk]) = true) ∧
    idles .halvingPass (R.onSkk fun k => { k with count := [(7, 5)], decay := 0 }) = true ∧
    idles .hintProcess R = true ∧
    does .hintProcess (Hints (Placed9 .none) 1 0x40000) (fun t => decide (sts t = ([], [.locking]) ∧ t.skk.hints = []) && hosts t "RdOwn" 0x3000000 &&
      only (Hints (Placed9 .none) 1 0x40000) t [.skk, .home]) = true ∧
    does .hintProcess (Hints R 1 0x40000) (fun t => decide ((t.skkPart 1).hintDropped = 1) && only (Hints R 1 0x40000) t [.skk]) = true ∧
    does .hintProcess (Hints R 2 0x41000) (fun t => decide (t.skk.hints = [] ∧ t.skk.looks = [{ id := 65536, part := 1, asid := 3, va := 0x40000 }] ∧
      t.xlt.lookups.length = 1) && only (Hints R 2 0x41000) t [.skk, .xlt]) = true ∧
    does .hintProcess (Hints (Pend .asked) 0 0x41000) (fun t => decide ((t.skkPart 1).skipped = 1 ∧ sts t = ([.asked], [])) &&
      only (Hints (Pend .asked) 0 0x41000) t [.skk]) = true ∧
    (let s := (Hints Nq 0 0x41000).onSkkPart 1 fun p => { p with poolBase := 0x90001, poolLimit := 0x90000 }
     s.freeFrame 1 = (some 9, false) ∧
     does .hintProcess s (fun t => decide (t.skk.pending = [{ ticket := 1, part := 1, asid := 3, va := 0x40000, frame := 9, hinted := true }] ∧
       t.xlt.lookups = [{ who := .skink 1, part := 1, asid := 3, access := 0, va := 0x40000 }]) && only s t [.skk, .xlt]) = true) ∧
    idles (.skinkEntriesRead 5) (Pend .reading) = true ∧
    does (.skinkEntriesRead 5) (Pend .reading (read2 0x16C3 0xC1)) (fun t => decide ((t.skkPart 1).skipped = 1 ∧ (t.skkPart 1).hintDropped = 0 ∧ sts t = ([], [])) &&
      only (Pend .reading) t [.skk]) = true ∧
    does (.skinkEntriesRead 5) (Pend .reading fun e => { read2 0 0 e with hinted := true }) (fun t => decide ((t.skkPart 1).hintDropped = 1)) = true ∧
    (Nq.profile 0).placeable { asid := 3, part := 1, root := 0x1000000, prof := 0, sup := true, epoch := 1 } 0x40000 0x16C3 = true ∧
    does (.skinkEntriesRead 5) (Pend .reading (read2 0x16C3)) (fun t => decide (sts t = ([.asked], [])) &&
      noted t 1 0 && only (Pend .reading) t [.skk, .home]) = true ∧
    does (.accept 1 6) (Pend .asked) (fun t => only (Pend .asked) t [] [(pgSKK, 1, 4)]) = true ∧
    does (.decline 1 5) (Pend .draining) (fun t => only (Pend .draining) t [] [(pgSKK, 1, 4)]) = true ∧
    does (.accept 1 5) (Pend .asked) (fun t => decide (sts t = ([.draining], []) ∧ t.xlt.invs.map (·.from_) = [.migrate 5]) && only (Pend .asked) t [.skk, .xlt]) = true ∧
    does (.decline 1 5) (Pend .asked) (fun t => decide (sts t = ([], [])) && noted t 3 1 && only (Pend .asked) t [.skk, .home]) = true ∧
    idles (.ackLimitExpired 5) (Pend .draining) = true ∧
    does (.ackLimitExpired 5) (Pend .asked) (fun t => decide (sts t = ([], [])) && noted t 4 0 && only (Pend .asked) t [.skk, .home]) = true := by
  decide +kernel

theorem witness_PlacementsProceed_steps :
    (let s := Drained (Pend .draining) (.migrate 5)
     does (.migrationDrainDone 5) s (fun t => decide (sts t = ([.rereading], []) ∧ t.xlt.invs = []) && hosts t "RdCurr" 0x3000000 &&
       hosts t "RdCurr" 0x3000040 && only s t [.skk, .xlt, .home]) = true) ∧
    idles (.migrationDrainDone 5) (Pend .draining) = true ∧
    (Nq.profile 0).lockedOf 0 = 0x0800000000000000 ∧ (Nq.profile 0).hostGranule (List.replicate 16 0) 0 = 0 ∧ (Nq.cacheLink 0).isSome = true ∧
    does (.migrationRereadDone 5) (Pend .rereading (read2 0x0800000000000000)) (fun t => decide (sts t = ([.copying], []) ∧
      t.skk.pending.map (fun e => (e.at_, e.out, e.pages.length)) = [(0, some 1, 16)]) && hosts t "RdCurr" 0 && only (Pend .rereading) t [.skk, .home]) = true ∧
    does (.migrationRereadDone 5) (Pend .rereading (read2 0)) (fun t => decide (sts t = ([], [])) && noted t 3 2 &&
      only (Pend .rereading) t [.skk, .xlt, .home] [(pgSKK, 1, 7)]) = true ∧
    does (.migrationRereadDone 5) (Pend .rereading (read2 0 0xC1)) (fun t => decide (sts t = ([.undoing], []) ∧
      t.skk.pending.map (fun e => (e.cas.length, e.fail)) = [(16, some (3, 0xC1, 0))] ∧
      (t.skk.pending.headD (Pend0 .asked)).cas.head? = some (0, 0x0800000000000000, 0)) &&
      hosts t "RdOwn" 0x3000000 && only (Pend .rereading) t [.skk, .home]) = true ∧
    idles (.migrationRereadDone 5) (Pend .rereading) = true ∧
    does (.migrationCopyDone 5) (Pend .copying fun e => { e with at_ := 1024 }) (fun t => decide (sts t = ([.swapping], []) ∧
      t.skk.pending.map (fun e => e.cas.length) = [16]) && hosts t "RdOwn" 0x3000000 && only (Pend .copying) t [.skk, .home]) = true ∧
    does (.migrationCopyDone 5) (Pend .copying fun e => { e with at_ := 3, fail := some (3, 0xC1, 0) }) (fun t => decide (sts t = ([.undoing], [])) &&
      hosts t "RdOwn" 0x3000000 && only (Pend .copying) t [.skk, .home]) = true ∧
    idles (.migrationCopyDone 5) (Pend .copying fun e => { e with at_ := 1023 }) = true ∧
    does (.migrationCasDone 5) (Pend .swapping) (fun t => decide (sts t = ([], [.none])) && noted t 2 0 &&
      only (Pend .swapping) t [.skk, .xlt, .home, .ras]) = true ∧
    does (.migrationCasDone 5) (Pend .swapping fun e => { e with at_ := 2, fail := some (2, 0, 4) }) (fun t => decide (sts t = ([.undoing], []) ∧
      t.skk.pending.map (fun e => e.cas.length) = [2]) && hosts t "RdOwn" 0x3000000 && only (Pend .swapping) t [.skk, .home]) = true ∧
    does (.migrationCasDone 5) (Pend .swapping fun e => { e with fail := some (2, 0, 1) }) (fun t => decide (sts t = ([], [])) && noted t 3 2 &&
      only (Pend .swapping) t [.skk, .xlt, .home] [(pgSKK, 1, 7)]) = true ∧
    idles (.migrationCasDone 5) (Pend .swapping fun e => { e with cas := [(0, 0, 0)] }) = true := by decide +kernel

/-- One stack is under notice. -/
def Hot : State := R.onSkk fun k => { k with thermal := 4 }
/-- A channel of stack 7 is to be mapped out. -/
def MapReq (ack : Bool) : State := R.onSkk fun k => { k with mapReq := some (7, 3), mapAck := ack }
/-- A RELEASE of frame 9 has read one line of its entries, and its other line is on its way from the host. -/
def Releasing (v : Word) : State := (Placed9 .none fun e => { e with rel := 1, lines := [(0, 0, ents v)] }).onHome fun _ =>
  { line := [(0xC0001, { txn := some { cause := .req { who := .unit (.releaseRead 9 1), kind := .readNoAlloc, addr := 0x3000040 }, st := .curr } })] }

theorem witness_RecallsAndStacks :
    does (.recall 1 8) (Placed9 .none) (fun t => decide (sts t = ([], [.none])) && noted t 6 5 && only (Placed9 .none) t [.skk, .home] [(pgSKK, 1, 5)]) = true ∧
    does (.release 1 8) (Placed9 .none) (fun t => noted t 6 5 && only (Placed9 .none) t [.skk, .home] [(pgSKK, 1, 5)]) = true ∧
    does (.recall 1 9) (Placed9 .failed) (fun t => decide (sts t = ([], [.locking]) ∧ t.skk.placed.map (·.cas.length) = [16]) && hosts t "RdOwn" 0x3000000 &&
      only (Placed9 .failed) t [.skk, .home]) = true ∧
    does (.recall 1 9) (Placed9 .copying) (fun t => only (Placed9 .copying) t []) = true ∧
    does (.release 1 9) (Placed9 .copying) (fun t => decide (sts t = ([], [.copying]) ∧ t.skk.placed.map (·.rel) = [1]) && hosts t "RdCurr" 0x3000000 &&
      hosts t "RdCurr" 0x3000040 && only (Placed9 .copying) t [.skk, .home]) = true ∧
    (let s := Placed9 .none fun e => { e with rel := 1 }
     does (.release 1 9) s (fun t => decide (t.skk.placed.map (·.rel) = [2]) && only s t [.skk]) = true) ∧
    (Releasing 0).atRest = true ∧ lineAddr 0xC0001 = 0x3000040 ∧
    does (.hostData 0x3000040 false (ents 0)) (Releasing 0) (fun t => decide (sts t = ([], [])) && noted t 8 0 && only (Releasing 0) t [.skk, .home]) = true ∧
    ((Nq.profile 0).stillMaps 9 0x1000000000024000) = true ∧
    does (.hostData 0x3000040 false (ents 0)) (Releasing 0x1000000000024000) (fun t => decide (sts t = ([], [.none]) ∧ t.skk.placed.map (·.rel) = [0]) &&
      noted t 6 6 && only (Releasing 0x1000000000024000) t [.skk, .home]) = true ∧
    does (.recallLockDone 9) (Placed9 .locking fun e => { e with changed := 2 }) (fun t => decide (sts t = ([], [.draining]) ∧
      t.xlt.invs.map (·.from_) = [.recall 9] ∧ t.skk.placed.map (·.changed) = [2]) && only (Placed9 .locking) t [.skk, .xlt]) = true ∧
    does (.recallLockDone 9) (Placed9 .locking fun e => { e with fail := some (4, 0) }) (fun t => decide (sts t = ([], [.failed])) && noted t 6 4 &&
      only (Placed9 .locking) t [.skk, .home]) = true ∧
    (let s := Drained (Placed9 .draining) (.recall 9)
     does (.recallDrainDone 9) s (fun t => decide (sts t = ([], [.copying]) ∧ t.xlt.invs = [] ∧ t.noc.reqs.map (·.for_) = [.skinkRead 9 0]) &&
       framed s t [.skk, .xlt, .noc]) = true) ∧
    (let s := Drained Nq (.recall 9)
     does (.recallDrainDone 9) s (fun t => decide (t.xlt.invs = []) && only s t [.xlt]) = true) ∧
    idles (.recallDrainDone 9) (Placed9 .draining) = true ∧
    does (.recallCopyDone 9) (Placed9 .copying fun e => { e with at_ := 1024, changed := 2 }) (fun t => decide (sts t = ([], [.restoring]) ∧
      t.skk.placed.map (·.cas.length) = [15]) && hosts t "RdOwn" 0x3000000 && only (Placed9 .copying) t [.skk, .home]) = true ∧
    idles (.recallCopyDone 9) (Placed9 .copying fun e => { e with at_ := 1023 }) = true ∧
    does (.recallCopyDone 9) (Placed9 .copying fun e => { e with fail := some (4, 0xC1) }) (fun t => decide (sts t = ([], [.failed])) && noted t 6 4 &&
      only (Placed9 .copying) t [.skk, .xlt, .home] [(pgXLT, 1, 1)]) = true ∧
    does (.recallCasDone 9) (Placed9 .restoring fun e => { e with changed := 4 }) (fun t => decide (sts t = ([], [])) && noted t 5 2 &&
      only (Placed9 .restoring) t [.skk, .xlt, .home]) = true ∧
    does (.recallCasDone 9) (Placed9 .restoring fun e => { e with fail := some (4, 0) }) (fun t => decide (sts t = ([], [.failed])) && noted t 6 4 &&
      only (Placed9 .restoring) t [.skk, .home]) = true ∧
    idles (.recallCasDone 9) R = true ∧ idles (.recallLockDone 9) (Placed9 .locking fun e => { e with cas := [(0, 0, 0)] }) = true := by decide +kernel

theorem witness_RecallsAndStacks_stacks :
    idles (.thermalNotice 2) Hot = true ∧ idles (.thermalClear 3) Hot = true ∧
    R.isSelf R.cht.masterChip.toNat = true ∧
    (let s := R.onCht fun c => { c with masterChip := 3 }
     s.isSelf 3 = false ∧
     does (.thermalNotice 7) s (fun t => decide (t.skk.thermal = 0x80 ∧ t.peer.slipSent = true) && only s t [.skk, .peer, .syn] [(pgPXP, 0, 3)]) = true ∧
     does (.thermalClear 2) (s.onSkk fun k => { k with thermal := 4 }) (fun t => t.skk.thermal = 0 ∧ !t.peer.slipSent) = true) ∧
    idles (.mapoutRequest 1 2) (MapReq false) = true ∧ ((List.range 4).all fun i => R.slotStack i ≠ 7) = true ∧
    does (.mapoutRequest 7 31) R (fun t => decide (t.skk.mapReq = some (7, 31)) && only R t [.skk]) = true ∧
    idles .mapoutAck (MapReq true) = true ∧ (MapReq false).mapoutReady (7, 3) = true ∧
    does .mapoutAck (MapReq false) (fun t => decide (t.skk.mapAck = true ∧ t.skk.mapped = [(7, 3)]) && only (MapReq false) t [.skk]) = true ∧
    idles .mapoutReqFall R = true ∧
    does .mapoutReqFall (MapReq true) (fun t => decide (t.skk.mapReq = none ∧ t.out = [.mapoutAck false]) && only (MapReq true) t [.skk]) = true ∧
    does .mapoutReqFall (MapReq false) (fun t => decide (t.skk.mapEarly = [(7, 3)]) && only (MapReq false) t [.skk] [(pgGLB, 0, 7)]) = true := by
  decide +kernel

/-! ## Staging, the CCU, retired units, sync objects -/

/-- Partition 1 has staging units 2 and 3, which hold bytes of it. -/
def Stg : State := V1.onMov fun v => { v with
  psel := 1, area := [(0, { base := 8, size := 8 }), (1, { base := 2, size := 2 })], unitOwner := [(2, 1), (3, 1)], staging := [(0x20003, 7)] }
/-- 8 bytes of 5. -/
def fives : List (Option Byte) := List.replicate 8 (some 5)

theorem witness_StagingAndUnits :
    Stg.hostOpen 0 = true ∧
    does (.movStgArea 0x1010000) Stg (fun t => only Stg t [] [(pgMOV, 0, 8)]) = true ∧
    does (.movStgArea 0x10101) Stg (fun t => decide (t.area 1 = { base := 1, size := 1, clearing := true } ∧ t.stagingByte 0x20003 = 7)) = true ∧
    does (.movStgArea 0x10008) Stg (fun t => only Stg t [] [(pgMOV, 0, 5)]) = true ∧
    (let s := Stg.onMov fun v => { v with psel := 2, area := [(0, { size := 0 })] }
     does (.movStgArea 0x10002) s (fun t => decide (t.area 2 = { base := 2, size := 1, clearing := true } ∧ t.stagingByte 0x20003 = 0) && only s t [.mov]) = true) ∧
    does (.stagingClearDone 1) (Stg.onMov fun v => { v with area := [(1, { clearing := true })] }) (fun t => t.area 1 = {}) = true ∧
    does (.bar4Read 1) Stg (fun t => decide (t.out = [.cpl none 1 0]) && only Stg t [] [(pgMOV, 1, 1)]) = true ∧
    does (.bar4Write 1 0x1FFF8 fives 0 false) Stg (fun t => decide (t.stagingByte 0x3FFFF = 5 ∧ t.stagingByte 0x20003 = 7) && Memory.wf t.mov.staging && only Stg t [.mov]) = true ∧
    does (.bar4Write 1 0x20000 fives 0 false) Stg (fun t => only Stg t [] [(pgMOV, 1, 2)]) = true ∧
    does (.bar4Write 1 1 fives 0 false) Stg (fun t => only Stg t [] [(pgMOV, 1, 3)]) = true ∧
    does (.bar4Write 1 0x1FFF9 fives 0 false) Stg (fun t => only Stg t [] [(pgMOV, 1, 2), (pgMOV, 1, 3)]) = true ∧
    does (.bar4Write 1 0 fives 0 true) Stg (fun t => only Stg t [] [(pgGLB, 0, 5)]) = true ∧
    Stg.barOn 1 0 = true ∧
    -- the lanes keep their states for the beats of the write's own cycle, and take the seed's from the next
    does (.ccuSrSeed 9) Stg (fun t => decide (t.ccu = { Stg.ccu with seed := 9, seedAt := some 0, oldSeed := Stg.ccu.seed } ∧ t.laneState 5 = Stg.laneState 5) &&
      only Stg t [.ccu] && decide ((t.onGlb fun g => { g with time := 1 }).laneState 5 = seeded 9 5)) = true ∧
    (let s := Stg.onCcu fun c => { c with seedAt := some 0, lane := [(5, some 7)], oldSeed := 3, oldLane := [(5, some 6)] }
     s.laneState 5 = 6 ∧ does (.ccuSrSeed 9) s (fun t => decide (t.ccu = { s.ccu with seed := 9, lane := [] } ∧ t.laneState 5 = 6)) = true) ∧
    R.activeLanes.contains 63 = true ∧ R.activeLanes.contains 64 = false ∧
    does (.laneResidueError 63) R (fun t => decide (t.ccu.retired = [63]) && only R t [.ccu] [(pgRAS, 0, 5)]) = true ∧
    idles (.unitSelfCheckFail (.lane 65)) (R.onCcu fun c => { c with retired := [65] }) = true ∧
    does (.unitSelfCheckFail (.mover 47)) R (fun t => decide (t.mov.spareB = 1) && only R t [.mov] [(pgRAS, 0, 5)]) = true ∧
    -- the spare brings its own rows
    (let s := R.onRas fun a => { a with remapped := [(⟨2, 47, 0, 5⟩, 0), (⟨2, 46, 0, 5⟩, 0)] }
     does (.unitSelfCheckFail (.mover 47)) s (fun t => decide (t.ras.remapped = [(⟨2, 46, 0, 5⟩, 0)]) && only s t [.mov, .ras] [(pgRAS, 0, 5)]) = true) ∧
    (let s := R.onMov fun v => { v with spareA := 0 }
     does (.unitSelfCheckFail (.mover 0)) s (fun t => decide (t.mov.gone = [0]) && only s t [.mov] [(pgRAS, 0, 5)]) = true) ∧
    idles (.unitSelfCheckFail (.mover 3)) (R.onMov fun v => { v with gone := [3] }) = true ∧
    does (.unitSelfCheckFail (.walker 2)) (Wk (wk 1)) (fun t => decide (t.walker 2 = none ∧ t.xlt.lookups = [{ xr with root := true }]) &&
      only (Wk (wk 1)) t [.xlt, .ras] [(pgRAS, 0, 5)]) = true ∧
    idles (.unitSelfCheckFail (.walker 63)) (R.onRas fun a => { a with walkGone := [63] }) = true := by decide +kernel

/-- OBJ_CFG of partition 1. -/
def Cfg (v : Word) : State := V1.onSynView 1 fun x => { x with cfg := v }
/-- The handle of an object of a type at index 7. -/
def hOf (ty : BitVec 2) : BitVec 32 := objHandle 1 1 ty 7
/-- An object of a type, in a state. -/
def objOf (ty : BitVec 2) (v n : Nat) (st : ObjSt := .live) : Obj :=
  { gen := 1, st := st, type := ty, part := 1, value := BitVec.ofNat 32 v, n := BitVec.ofNat 16 n }
/-- An action of a core is at the front, for an object. -/
def Act (o : Obj) (action : BitVec 2) (value : BitVec 16) : State := (Obj7 V1 o).onSyn fun y => { y with
  acts := [{ from_ := .core 2 300 5, handle := hOf o.type, action := action, value := value }] }
/-- The core has its answer. -/
def ackd (t : State) (code : Code) : Bool := (t.out ++ t.noc.wait).contains (.noc 2 { opc := 0x53, agent := 300, tag := 5, status := code })

theorem witness_ObjectsAct :
    V1.viewOpen 1 = true ∧ V1.freeObj 0 9 = 0 ∧ V1.objBusy 1 = false ∧ V1.glb.time.toNat + Config.usCycles + 2 < 2 ^ 64 ∧
    (let s := V1.onSynView 1 fun x => { x with busyUntil := 1 }
     [Instr.objCreate 1 0 false, .objDestroy 1 5, .objRead 1 5].all (fun i => does i s fun t => only s t [] [(pgSYN, 1, 6)]) = true) ∧
    does (.objCreate 1 0 false) (Cfg 9) (fun t => decide (t.obj 0 = { gen := 1, st := .live, part := 1, value := 9 } ∧
      (t.synView 1).handle = objHandle 1 1 0 0 ∧ t.prt.objOrder = [0]) && only (Cfg 9) t [.syn, .prt, .free]) = true ∧
    does (.objCreate 1 1 true) (Cfg 6) (fun t => decide ((t.obj 0).value = 0 ∧ (t.obj 0).slip = true)) = true ∧
    does (.objCreate 1 2 false) (Cfg 0x10000) (fun t => decide ((t.synView 1).result = 3) && only (Cfg 0x10000) t [.syn, .free]) = true ∧
    does (.objCreate 1 3 false) (Cfg 9) (fun t => (t.synView 1).result = 3) = true ∧
    does (.objCreate 1 2 false) (Cfg 0x500000001) (fun t => decide ((t.synView 1).result = 2) && only (Cfg 0x500000001) t [.syn, .free]) = true ∧
    (let s := (Cfg 0).onPart 1 fun p => { p with qSync := 0 }
     does (.objCreate 1 0 false) s (fun t => decide ((t.synView 1).result = 4) && only s t [.syn, .free]) = true) ∧
    (let s := (Cfg 0).onPart 1 fun p => { p with st := .disabling }
     does (.objCreate 1 0 false) s (fun t => decide ((t.synView 1).result = 5) && only s t [.syn, .free]) = true) ∧
    does (.objDestroy 1 5) V1 (fun t => decide ((t.synView 1).result = 1) && only V1 t [.syn, .free]) = true ∧
    does (.objRead 1 5) V1 (fun t => decide ((t.synView 1).result = 1) && only V1 t [.syn, .free]) = true ∧
    does (.objDestroy 1 (hOf 0)) (Obj7 V1 (objOf 0 3 0)) (fun t => decide (t.obj 7 = { gen := 1 } ∧ (t.synView 1).result = 0) && only (Obj7 V1 (objOf 0 3 0)) t [.syn, .prt, .free]) = true ∧
    does (.objRead 1 (hOf 2)) (Obj7 V1 (objOf 2 3 9)) (fun t => decide ((t.synView 1).state = 3 ∧ (t.synView 1).info = 9) && only (Obj7 V1 (objOf 2 3 9)) t [.syn, .free]) = true ∧
    idles .syncActionApply V1 = true ∧
    -- an action waits for the copy of its object's bank
    (let s := (Act (objOf 0 0 0) 0 4).onRas fun r => { r with copying := [(0x0B, 0)] }
     s.atRest = true ∧ idles .syncActionApply s = true) ∧
    (let s := (Act (objOf 0 3 0) 0 1).onObj 7 fun o => { o with gen := 2 }
     does .syncActionApply s (fun t => ackd t 0x0A && only s t [.syn]) = true) ∧
    does .syncActionApply (Act (objOf 0 3 0 .abandoned) 0 1) (fun t => ackd t 0 && decide ((t.synView 1).hits = 1 ∧ (t.obj 7).value = 3) &&
      only (Act (objOf 0 3 0 .abandoned) 0 1) t [.syn] [(pgSYN, 1, 3)]) = true ∧
    does .syncActionApply (Act (objOf 0 0xFFFFFFFE 0) 0 1) (fun t => ackd t 0 && decide ((t.obj 7).value = 0xFFFFFFFF) && only (Act (objOf 0 0xFFFFFFFE 0) 0 1) t [.syn]) = true ∧
    does .syncActionApply (Act (objOf 0 0xFFFFFFFF 0) 0 1) (fun t => decide ((t.obj 7).value = 0xFFFFFFFF) && only (Act (objOf 0 0xFFFFFFFF 0) 0 1) t [.syn] [(pgSYN, 1, 4)]) = true ∧
    does .syncActionApply (Act (objOf 1 0 0) 1 0) (fun t => decide ((t.obj 7).value = 1) && only (Act (objOf 1 0 0) 1 0) t [.syn]) = true ∧
    does .syncActionApply (Act (objOf 2 3 9) 0 5) (fun t => decide ((t.obj 7).value = 8) && only (Act (objOf 2 3 9) 0 5) t [.syn]) = true ∧
    does .syncActionApply (Act (objOf 2 3 9) 0 6) (fun t => decide ((t.obj 7).value = 0 ∧ (t.obj 7).passed = true ∧ (t.obj 7).episode = 1) && only (Act (objOf 2 3 9) 0 6) t [.syn]) = true ∧
    does .syncActionApply (Act (objOf 2 3 9) 0 7) (fun t => (t.obj 7).passed && only (Act (objOf 2 3 9) 0 7) t [.syn] [(pgSYN, 1, 5)]) = true := by
  decide +kernel

/-- Client 9 is partition 1's, and an object is at index 7. -/
def Cl (o : Obj) : State := Obj7 X o
/-- A wait of client 9. -/
def waits (h timeout : BitVec 32) (cond : BitVec 2 := 0) : Instr := .waitReq 9 5 0 cond h timeout
/-- Its answer. -/
def answered (t : State) (h : BitVec 32) (code : Code) : Bool := (t.out ++ t.noc.wait).contains (.p4 (.waitAns 9 5 code h))
/-- Client 9 waits in record 0. -/
def Rec0 (o : Obj) : State := (Cl { o with waiters := [0] }).setWrec 0
  (some { who := .client 9 5 0, handle := hOf o.type, cond := 0, timeout := 2, linked := 0, deadline := 128 })

/-- An object that a client waits on is destroyed: the wait ends with 0x62. -/
theorem witness_ObjectsAct_waiter :
    ((Rec0 (objOf 0 0 0)).wrec 0).map (·.who) = some (.client 9 5 0) ∧ (Rec0 (objOf 0 0 0)).goodObj (hOf 0) 1 = true ∧
    (Rec0 (objOf 0 0 0)).canWrite false 1 = false ∧
    does (.objDestroy 1 (hOf 0)) (Rec0 (objOf 0 0 0)) (fun t => answered t (hOf 0) 0x62 && decide (t.obj 7 = { gen := 1 } ∧ t.wrec 0 = none) &&
      only (Rec0 (objOf 0 0 0)) t [.syn, .prt, .free, .xlt] [(pgSYN, 1, 2), (pgXLT, 1, 1)]) = true := by decide +kernel

theorem witness_WaitsEnd :
    does (.coreSignal 2 255 5 0 (hOf 0) 0 1) X (fun t => only X t [] [(pgGLB, 0, 5)]) = true ∧
    does (.coreSignal 2 1280 5 0 (hOf 0) 0 1) X (fun t => only X t [] [(pgGLB, 0, 5)]) = true ∧
    (let s := Cl (objOf 0 3 0)
     let go (h : BitVec 32) (action : BitVec 2) (v : BitVec 16) (p : State → Bool) : Bool := does (.coreSignal 2 265 5 0 h action v) s p
     let tells (t : State) (code : Code) : Bool :=
       (t.out ++ t.noc.wait).contains (.noc 2 { opc := 0x53, agent := 265, tag := 5, status := code }) && only s t []
     go (hOf 0) 1 0 (fun t => tells t 0x06) = true ∧ go (objHandle 2 1 0 7) 0 1 (fun t => tells t 0x0A) = true ∧
       go (hOf 0) 0 0 (fun t => tells t 0x05) = true ∧ go (hOf 0) 0 1 (fun t => decide (t.syn.acts.length = 1) && only s t [.syn]) = true) ∧
    does (waits (hOf 0) 2 1) (Cl (objOf 0 0 0)) (fun t => answered t (hOf 0) 0x06 && only (Cl (objOf 0 0 0)) t []) = true ∧
    does (waits 5 2) X (fun t => answered t 5 0x0A && only X t []) = true ∧
    does (waits (hOf 0) 0) (Cl (objOf 0 0 0)) (fun t => answered t (hOf 0) 0x05 && only (Cl (objOf 0 0 0)) t []) = true ∧
    does (waits (hOf 0) 2) (Cl (objOf 0 0 0 .abandoned)) (fun t => answered t (hOf 0) 0x62 && only (Cl (objOf 0 0 0 .abandoned)) t []) = true ∧
    does (waits (hOf 0) 2) (Cl (objOf 0 3 0)) (fun t => answered t (hOf 0) 0 && decide ((t.obj 7).value = 2) && only (Cl (objOf 0 3 0)) t [.syn]) = true ∧
    does (waits (hOf 0) 2) (Cl (objOf 0 0 0)) (fun t => decide ((t.obj 7).waiters = [0] ∧ (t.wrec 0).map (·.deadline) = some 128) && only (Cl (objOf 0 0 0)) t [.syn]) = true ∧
    (let s := (Rec0 (objOf 1 0 0)).onSyn fun y => { y with acts := [{ from_ := .pulse .A, handle := hOf 1, action := 1, value := 1 }] }
     does .syncActionApply s (fun t => answered t (hOf 1) 0 && decide (t.wrec 0 = none ∧ t.obj 7 = objOf 1 1 0) && only s t [.syn]) = true) ∧
    idles (.waitExpire 0) X = true ∧
    (let s := (Rec0 { objOf 0 0 0 with slip := true }).onSyn fun y => { y with slip := true, slipMax := 1 }
     idles (.waitExpire 0) s = true) ∧
    (let s := (Rec0 (objOf 1 0 0)).onSyn fun y => { y with acts := [{ from_ := .pulse .A, handle := hOf 1, action := 1, value := 1 }] }
     let s := s.onGlb fun g => { g with time := 128 }
     does (.waitExpire 0) s (fun t => answered t (hOf 1) 0 && decide (t.wrec 0 = none ∧ (t.synView 1).timeouts = 0) && only s t [.syn]) = true) ∧
    (let s := (Rec0 (objOf 1 0 0)).onSyn fun y => { y with acts := [{ from_ := .pulse .A, handle := hOf 1, action := 1, value := 1, at_ := 121 }] }
     let s := s.onGlb fun g => { g with time := 128 }
     does (.waitExpire 0) s (fun t => answered t (hOf 1) 0x61 && decide (t.wrec 0 = none) && only s t [.syn, .xlt] [(pgSYN, 1, 1), (pgXLT, 1, 1)]) = true) ∧
    (let s := (Cl (objOf 0 0 0)).onTwn fun x => { x with stA := .failed, stB := .failed }
     does (waits (hOf 0) 2) s (fun t => answered t (hOf 0) 0x63 && only s t []) = true) ∧
    (let s := (Cl (objOf 1 0 0)).onSyn fun y => { y with acts := [{ from_ := .core 0 300 1, handle := hOf 1, action := 1, value := 1, rank := 2 },
       { from_ := .core 3 301 1, handle := hOf 1, action := 1, value := 1, rank := 5 }] }
     does (.coreSignal 1 265 5 0 (hOf 1) 2 0) s (fun t => decide (t.syn.acts.map (·.rank) = [2, 3, 5]) && only s t [.syn]) = true) ∧
    does (.waitExpire 0) (Rec0 (objOf 0 0 0)) (fun t => answered t (hOf 0) 0x61 && decide (t.wrec 0 = none ∧ (t.synView 1).timeouts = 1) &&
      only (Rec0 (objOf 0 0 0)) t [.syn, .xlt] [(pgSYN, 1, 1), (pgXLT, 1, 1)]) = true ∧
    idles (.waitRecordLink .B) X = true ∧
    (let s := Obj7 ((Cmds [{ cmd5 0x0A [(0x10, h7), (0x14, 2)] with st := .dispatched }]).onSyn fun y => { y with stalled := [{ who := .chan 4 5, half := .B }] }) (counter7 0)
     s.freeRec .B = some 65536 ∧
     does (.waitRecordLink .B) s (fun t => decide (t.syn.stalled = [] ∧ (t.obj 7).waiters = [65536]) && only s t [.syn]) = true) := by decide +kernel

/-- A full half has no free record. -/
theorem witness_WaitsEnd_full (s : State) (e : Engine) (h : s.ras.lostCap = [])
    (hf : firstFree (fun (x : Option WRec) => x.isSome) s.syn.rec_ (halfBase e) = halfBase e + Config.halfRecords) : s.freeRec e = none := by
  simp [State.freeRec, h, hf]

/-! ## The Drone and Chanter -/

/-- No entry is loaded: the Drone crosses no window, wherever it goes. -/
theorem witness_quiet (s : State) (h : s.cht.entry = []) (b i k v : Nat) (hh : (s.entry i).held = true) (_ : (s.entry i).kind = 1)
    (_ : k % (s.entry i).period = (s.entry i).offset) (_ : v = k * 16777216 + (s.entry i).start ∨ v = k * 16777216 + (s.entry i).end_) :
    ¬ (s.cht.drone.toNat < v ∧ v ≤ b) := by
  simp [State.entry, h, tabGet] at hh

/-- The Drone stands at step 2, phase 0x5000. -/
def Dr (f : Cht → Cht) : State := H.onCht fun c => f { c with drone := 0x2005000 }
/-- A DRONE packet of the master. -/
def dp (u : Word) (f : PktHdr → PktHdr := id) : PktHdr := sealHdr (f { rawHdr 6 0 0 with body := u, srcChip := 7 })
/-- The Drone of a state. -/
def droneIs (u : Word) (t : State) : Bool := t.cht.drone = u

/-- Chips 3 and 4 are children; both have a route. -/
def Kids (f : Cht → Cht) : State := (Dr f).onPeer fun p => { p with child := 0x80048003, route := [(3, 0x850E0000), (4, 0x850E0000)] }

theorem witness_DroneFollowsItsSource :
    H.hostOpen 0 = true ∧ H.atRest = true ∧
    does (.chtDroneSet 0 0x2006000) (Dr id) (fun t => droneIs 0x2006000 t && decide (t.out = []) && only (Dr id) t [.cht]) = true ∧
    does (.chtDroneSet 0 0x2006000) (Dr fun c => { c with master := true, slipHolders := [3], lost := true })
      (fun t => droneIs 0x2005000 t && decide (t.cht.kept = some 0x2006000 ∧ t.cht.lost = false)) = true ∧
    -- both edges of one cycle are one update of the value before them
    (let s := Dr fun c => { c with src := 1, tickInc := 3 }
     does (.droneStep false) s (fun t => droneIs 0x3000000 t && only s t [.cht] && does (.droneTick false) t fun u => droneIs 0x3000003 u) = true ∧
     does (.droneTick false) s (fun t => droneIs 0x2005003 t && only s t [.cht] && does (.droneStep false) t fun u => droneIs 0x3000003 u &&
       decide (u.cht.pins = some { at_ := 0, step := true, tick := true, base := 0x2005000 })) = true) ∧
    (let s := Dr fun c => { c with src := 1, tickInc := 3, drone := 0x3000000, pins := some { at_ := 0, step := true, base := 0x2005000 } }
     does (.droneTick false) s (fun t => droneIs 0x3000003 t && only s t [.cht]) = true ∧
     does (.droneTick false) (s.onGlb fun g => { g with time := 1 }) (fun t => droneIs 0x3000003 t && decide ((t.cht.pins.map (·.base)) = some 0x3000000)) = true) ∧
    (let s := Dr fun c => { c with src := 1, tickInc := 0xFFFFFF }
     does (.droneTick false) s (fun t => droneIs 0x2FFFFFF t && decide (t.cht.pins = some { at_ := 0, tick := true, base := 0x2005000 })) = true) ∧
    does (.droneStep false) (Dr fun c => { c with src := 1, drone := 0xFFFFFFFFFFFFFFFF }) (fun t => droneIs 0xFFFFFFFFFFFFFFFF t && t.cht.held) = true ∧
    (let s := Dr fun c => { c with src := 2, masterChip := 7, lost := true, held := true }
     s.children = [] ∧ s.slipping = s.syn.slip ∧
     does (.drone (dp 0x2005000)) s (fun t => droneIs 0x2005000 t && decide (t.cht.held = false ∧ t.cht.lost = false) && only s t [.cht]) = true ∧
     does (.drone (dp 0x2004FFF)) s (fun t => decide (t.cht = { s.cht with latest := some 0x2004FFF, lagAt := some 0x2004FFF, lost := false }) && only s t [.cht]) = true) ∧
    does (.chtDroneSet 0 0x2004000) (Dr id) (fun t => decide (t.cht.lagAt = some 0x2004000 ∧ t.cht.held = false) && only (Dr id) t [.cht]) = true ∧
    does (.chtDroneSet 0 0x2003FFF) (Dr id) (fun t => droneIs 0x2005000 t && t.cht.held && only (Dr id) t [.cht, .xlt] [(pgCHT, 0, 9), (pgXLT, 0, 1)]) = true ∧
    (Kids id).children = [3, 4] ∧
    does (.chtDroneSet 0 0x3000000) (Kids fun c => { c with master := true }) (fun t => droneIs 0x3000000 t && decide (t.out.length = 2) &&
      (t.out.all fun o => match o with | .fabric 5 14 p => p.h.kind = 6 && p.h.body = 0x3000000 && p.h.arg = 0 | _ => false) &&
      only (Kids fun c => { c with master := true }) t [.cht, .peer]) = true ∧
    does (.chtDroneSet 0 0x2006000) (Kids fun c => { c with master := true }) (fun t => decide (t.out = [])) = true ∧
    does (.chtDroneSet 0 0x1FFFFFF) (Dr fun c => { c with regressTol := 0xFFFFFF }) (fun t => t.cht.held) = true ∧
    does (.chtDroneSet 1 0x2006000) (Dr id) (fun t => only (Dr id) t []) = true ∧
    does (.chtDroneSet 0 0x2006000) (Dr fun c => { c with src := 2 }) (fun t => only (Dr fun c => { c with src := 2 }) t []) = true ∧
    idles (.droneStep true) (Dr id) = true ∧ idles (.droneTick false) (Dr id) = true ∧
    idles (.droneInterpolate 9) (Dr id) = true ∧
    does (.droneInterpolate 3) (Dr fun c => { c with rate := 0x8000, frac := 0x8000 }) (fun t => droneIs 0x2005002 t && decide (t.cht.frac = 0)) = true ∧
    does (.droneInterpolate 0xFFFFFFFF) (Dr fun c => { c with rate := 0x18000 }) (fun t => droneIs 0x2FFFFFF t && decide (t.cht.frac = 0)) = true ∧
    does (.droneInterpolate 1) (Dr fun c => { c with rate := 0x10000, lagAt := some 0x2004FFF })
      (fun t => droneIs 0x2005000 t && decide (t.cht.lagAt = some 0x2005000)) = true ∧
    does (.droneInterpolate 2) (Dr fun c => { c with rate := 0x10000, lagAt := some 0x2004FFF })
      (fun t => droneIs 0x2005001 t && decide (t.cht.lagAt = none)) = true ∧
    idles .droneLost (Dr id) = true ∧
    does .droneLost (Dr fun c => { c with lossLimit := 9, lagAt := some 5 }) (fun t => decide (t.cht.lost = true ∧ t.cht.lagAt = none) &&
      only (Dr fun c => { c with lossLimit := 9, lagAt := some 5 }) t [.cht, .xlt] [(pgCHT, 0, 10), (pgXLT, 0, 1)]) = true := by decide +kernel

/-- What a glitched edge would make the Drone is an update of the pins; whether it counts is `Config.glitchCounts`, which nothing fixes. -/
theorem witness_DroneFollowsItsSource_glitch :
    (Config.glitchCounts (Dr fun c => { c with src := 1 }).free = false ∨ Config.glitchCounts (Dr fun c => { c with src := 1 }).free = true) ∧
    (Dr fun c => { c with src := 1 }).atRest = true ∧ (Dr fun c => { c with src := 1 }).cht.source = 1 ∧
    (Dr fun c => { c with src := 1 }).cht.entry = [] := by
  refine ⟨?_, by decide +kernel, by decide +kernel, by decide +kernel⟩
  cases Config.glitchCounts (Dr fun c => { c with src := 1 }).free <;> simp

theorem witness_DroneIsShared :
    does (.drone (dp 5 fun h => { h with cut := some 11 })) (Dr id) (fun t => only (Dr id) t [] [(pgGLB, 0, 5)]) = true ∧
    ([{ dp 5 with body := 4 }, dp 5 fun h => { h with early := true }, dp 5 fun h => { h with kind := 9 }, dp 5 fun h => { h with kind := 0 }].all fun h =>
      does (.drone h) (Dr id) (fun t => only (Dr id) t [] [(pgPXP, 0, 5)])) = true ∧ (dp 5).hcrcOk = true ∧ ({ dp 5 with body := 4 } : PktHdr).hcrcOk = false ∧
    does (.drone (dp 5 fun h => { h with dstChip := 1 })) (Dr id) (fun t => only (Dr id) t [] [(pgPXP, 0, 4)]) = true ∧
    does (.drone (dp 5)) (Dr fun c => { c with src := 2, masterChip := 6 }) (fun t => only (Dr fun c => { c with src := 2, masterChip := 6 }) t [] [(pgCHT, 0, 11)]) = true ∧
    (Kids id).children = [3, 4] ∧ (Kids id).isSelf 3 = false ∧ upSlots ((Kids id).route 3) = [1] ∧
    does (.drone (dp 5 fun h => { h with arg := 1 })) (Kids id) (fun t => t.cht.slipRx && t.syn.slip && decide (t.cht.drone = (Kids id).cht.drone ∧ t.out =
      [.fabric 5 14 { h := dp 5 fun h => { h with arg := 1, dstChip := 3, route := 1 } }, .fabric 5 14 { h := dp 5 fun h => { h with arg := 1, dstChip := 4, route := 1 } }]) &&
      only (Kids id) t [.cht, .peer, .syn]) = true ∧
    idles .droneBroadcast (Kids id) = true ∧
    does .droneBroadcast (Kids fun c => { c with master := true, slipHolders := [9] }) (fun t => decide (t.out.length = 2) &&
      (t.out.all fun o => match o with | .fabric _ _ p => p.h.body = 0x2005000 && p.h.arg = 1 | _ => false) &&
      only (Kids fun c => { c with master := true, slipHolders := [9] }) t [.peer]) = true ∧
    does (.rebase 0) (Dr id) (fun t => only (Dr id) t []) = true ∧
    does (.rebase 1) (Dr fun c => { c with latest := some 5 }) (fun t => only (Dr fun c => { c with latest := some 5 }) t []) = true ∧
    (let s := Plan9 (Dr fun c => { c with latest := some 5, held := true })
     let s := s.onEntry 9 fun e => { e with live := true, fired := true, step := 2 }
     does (.rebase 0) s (fun t => droneIs 5 t && decide (t.cht.held = false ∧ t.entry 9 = { s.entry 9 with live := false, fired := false, step := 0, occ := (t.entry 9).occ }) &&
       decide ((s.entry 9).occ < (t.entry 9).occ) &&
       only s t [.cht, .syn]) = true) ∧
    does (.chtDroneCfg 1 0x30012) (Dr id) (fun t => only (Dr id) t []) = true ∧
    does (.chtDroneCfg 0 0x30011) (Dr id) (fun t => decide (t.cht = { (Dr id).cht with masterChip := 3, src := 1, master := true }) && only (Dr id) t [.cht, .syn]) = true ∧
    does (.chtDroneCfg 0 0x30012) (Dr id) (fun t => decide (t.cht = { (Dr id).cht with masterChip := 3, src := 2 }) && only (Dr id) t [.cht, .syn] [(pgCHT, 0, 12)]) = true ∧
    (let s := (Plan9 (Dr id)).onEntry 9 fun e => { e with arms := [(0, true)] }
     s.anyArmed = true ∧
     does (.chtDroneCfg 0 1) s (fun t => decide (t.cht = s.cht) && only s t [.cht, .syn] [(pgCHT, 0, 12)]) = true ∧
     does (.chtDroneCfg 0 3) s (fun t => decide (t.cht.src = 3) && only s t [.cht, .syn] []) = true) := by decide +kernel

/-- No entry covers a step when none is loaded: the hypothesis of REBASE. -/
theorem witness_DroneIsShared_rebase : ∀ i, ((Dr fun c => { c with latest := some 5 }).entry i).covers (field (5 : Word) 63 24) = false := by
  intro i
  have h : (Dr fun c => { c with latest := some 5 }).entry i = {} := rfl
  rw [h]
  decide

/-- Entry 9 of partition 1 alone, armed, with a window 0x1000 to 0x2000 in every step. -/
def Ent (e : Entry) : Entry := { e with gen := 1, held := true, part := 1, arms := [(0, true)] }
/-- The bytes of an entry, with more fields. -/
def win9 (action need : Nat) (l : List (Nat × Nat) := []) : Granule :=
  gran ([(0, 1 + action * 16), (2, need), (4, h4.toNat), (8, 0x2000001000), (0x10, 1)] ++ l)
/-- A state whose only entry it is, with the Drone at step 2 and some phase. -/
def Win (e : Entry) (phase : Word) : State := (C4 .active).onCht fun c => { c with entry := [(9, e)], drone := 0x2000000 + phase }
/-- A RESERVE entry of row 3. -/
def rsv : Entry := Ent { body := win9 4 0 [(0x20, 3)] }
/-- Row 3 is enabled. -/
def rowOn (t : State) : Bool := (tabGet (fun _ => ({} : Row)) t.cht.row 3).enabled
/-- A slip packet of chip 7. -/
def sp (kind : BitVec 4) (psn : BitVec 24) : PktHdr := sealHdr { rawHdr kind 1 psn with srcChip := 7 }
/-- A state with a route to chip 7. -/
def Sl (f : Cht → Cht) : State := (Dr f).onPeer fun p => { p with route := [(7, 0x850E0000)] }
/-- The acknowledgement went out. -/
def acks (t : State) (mask : BitVec 16) : Bool := t.out.any fun o => match o with | .fabric 5 14 p => p.h.kind = 4 && p.h.mask = mask && p.h.dstChip = 7 | _ => false

theorem witness_WindowsPulsesSlips :
    (Win rsv 0x800).hostOpen 0 = true ∧ (Win rsv 0x800).droneStep = 2 ∧ rsv.kind = 1 ∧ rsv.action = 4 ∧ 2 % rsv.period = rsv.offset ∧
    rsv.start = 0x1000 ∧ rsv.end_ = 0x2000 ∧ rsv.covers 2 = true ∧ (Win rsv 0x800).macroLost 0x10 (5 * 65536 + 3) = false ∧
    does (.chtDroneSet 0 0x2001000) (Win rsv 0x800) (fun t => droneIs 0x2001000 t && rowOn t &&
      decide (t.entry 9 = { rsv with open_ := true, live := true, step := 2, done := true, occ := 1, last := some 2 }) && only (Win rsv 0x800) t [.cht]) = true ∧
    (let s := (Win rsv 0x800).onTwn fun x => { x with mode := .soloB, stA := .failed, failedEngine := .A, failover := .quiesce }
     s.atRest = true ∧ s.chanter rsv = none ∧ s.ownerKnown rsv = true ∧
     does (.chtDroneSet 0 0x2001000) s (fun t => droneIs 0x2001000 t && !rowOn t && decide (t.cht.due.map (fun w => (w.i, w.step, w.opens)) = [(9, 2, true)] ∧
       t.entry 9 = rsv) && only s t [.cht]) = true) ∧
    (let e := { rsv with open_ := true, live := true, step := 2 }
     let s := (Win e 0x1FFF).onCht fun c => { c with row := [(3, { held := true, part := 1, enabled := true })] }
     does (.chtDroneSet 0 0x2002000) s (fun t => droneIs 0x2002000 t && !rowOn t && decide (t.entry 9 = { e with open_ := false, live := false }) && only s t [.cht]) = true) ∧
    (let s := Win (Ent { body := win9 0 1, live := true }) 0
     does (.planPulse 5) s (fun t => decide ((t.chtView (hPart 5)).pulseDiscard = 1 ∧ t.cht.entry = s.cht.entry) && only s t [.cht]) = true) ∧
    (let s := Win (Ent { body := win9 0 2, live := true, count := 0 }) 0
     does (.planPulse (BitVec.ofNat 32 h9)) s (fun t => decide ((t.entry 9).count = 1 ∧ (t.entry 9).fired = false) && only s t [.cht]) = true) ∧
    (let s := (Win (Ent { body := win9 0 2, live := true, open_ := true, count := 254, step := 2 }) 0x1800).onCht fun c => { c with pulses := [BitVec.ofNat 32 h9] }
     does (.planPulse (BitVec.ofNat 32 h9)) s (fun t => decide ((t.entry 9).count = 253 ∧ (t.entry 9).done = true ∧ t.cht.pulses = []) && only s t [.cht]) = true) ∧
    (let s := Obj7 (Win (Ent { body := win9 3 1 [(0x20, h7), (0x26, 0), (0x28, 4)], live := true, open_ := true, step := 2, occ := 6 }) 0x1800) (counter7 0)
     does (.planPulse (BitVec.ofNat 32 h9)) s (fun t => decide ((t.entry 9).fired = true ∧ (t.entry 9).done = false ∧ t.syn.acts =
       [{ from_ := .plan 9 6, handle := BitVec.ofNat 32 h7, action := 0, value := 4 }]) && only s t [.cht, .syn]) = true) ∧
    does (.slip { sp 7 5 with cut := some 0 }) (Sl id) (fun t => only (Sl id) t [] [(pgGLB, 0, 5)]) = true ∧
    does (.slipEnd { sp 8 5 with cut := some 11 }) (Sl id) (fun t => only (Sl id) t [] [(pgGLB, 0, 5)]) = true ∧
    (let s := (Win (Ent { body := win9 0 1 }) 0).onEntry 9 fun e => { e with arms := [], live := true }
     does (.planPulse (BitVec.ofNat 32 h9)) s (fun t => decide ((t.chtView 1).pulseDiscard = 1 ∧ (t.entry 9).count = 0) && only s t [.cht]) = true) ∧
    (let s := (Sl id).onRx 7 fun x => { x with base := 9 }
     s.beforeWindow (sp 7 5) = true ∧ s.isSelf 7 = false ∧
     does (.slip (sp 7 5)) s (fun t => acks t 1 && t.peer.dup = 1 && only s t [.peer]) = true) ∧
    does (.slip (sp 7 5)) (Sl id) (fun t => acks t 1 && only (Sl id) t [.cht, .peer, .syn] && t.cht = (Sl id).cht &&
      does (.slipEnd (sp 8 5)) { t with out := [] } fun u => acks u 1 && u.peer.dup = 1 && only t { u with out := t.out } [.peer]) = true ∧
    does (.slip (sp 7 5)) (Sl fun c => { c with master := true }) (fun t => acks t 1 && t.syn.slip && decide (t.cht.slipHolders = [7] ∧ t.cht.slipHeld = 1)) = true ∧
    does (.slipEnd (sp 8 5)) (Sl fun c => { c with master := true, slipHolders := [3, 7] }) (fun t => acks t 1 && decide (t.cht.slipHolders = [3])) = true ∧
    does (.slipEnd (sp 8 5)) (Sl fun c => { c with master := true, slipHolders := [7], kept := some 0x2006000 })
      (fun t => acks t 1 && droneIs 0x2006000 t && decide (t.cht.slipHolders = [] ∧ t.cht.kept = none ∧ t.syn.slip = false)) = true ∧
    (let s := (Kids fun c => { c with master := true, slipHolders := [7], kept := some 0x3000000 }).onPeer fun p => { p with route := p.route ++ [(7, 0x850E0000)] }
     s.children = [3, 4] ∧
     does (.slipEnd (sp 8 5)) s (fun t => acks t 1 && droneIs 0x3000000 t && decide (t.out.length = 3)) = true) ∧
    idles .slipLimitExpired (Dr id) = true ∧
    does .slipLimitExpired (Dr fun c => { c with master := true, slipHolders := [7, 9], kept := some 0x2005000, held := true })
      (fun t => droneIs 0x2005000 t && t.cht.held && decide (t.cht.slipHolders = [] ∧ t.cht.kept = none)) = true ∧
    idles .slipExpired (Dr id) = true ∧
    (let s := (Rec0 { objOf 0 0 0 with slip := true }).onSyn fun y => { y with slip := true, slipMax := 1000 }
     let s := s.onGlb fun g => { g with time := 640 }
     does .slipExpired s (fun t => t.syn.slipOver && decide ((t.wrec 0).map (·.deadline) = some 768) && only s t [.syn] [(pgSYN, 0, 8)]) = true) ∧
    (let s := (Rec0 (objOf 0 0 0)).onSyn fun y => { y with slip := true, slipMax := 0 }
     does .slipExpired s (fun t => decide ((t.wrec 0).map (·.deadline) = some 128)) = true) := by decide +kernel

/-- Nothing is kept, so no update leaps. -/
theorem witness_WindowsPulsesSlips_noLeap : ∀ u, (Sl fun c => { c with master := true, slipHolders := [7] }).cht.kept = some u → False := by
  intro u h
  cases h

/-- Partition 1's function is open and may read host memory. -/
def Ld (f : ChtView → ChtView) : State := (((V1.onInst 1 0 fun i => { i with bme := true }).onXlt fun v => { v with
  range := [(16, { base := 1, limit := 0xFFFFF000 })] }).onChtView 1 f).onCht fun c => { c with rsvMax := [(23, 100)] }
/-- The bytes of an image of a RESERVE entry and its row, which reserves slots 0 and 1 of path 0. -/
def oneRow (bytes : Nat) (crc : Nat) (magic : Nat := 0x54504843) : List Granule :=
  [gran [(0, magic), (4, 1), (8, 1), (0x0C, 1), (0x10, 1), (0x14, crc)], gran [(0, 0x41), (4, 0), (8, 0x2000001000), (0x10, 1)],
   gran [(4, bytes)], gran [(0, 3)], 0]
/-- It has been read, with a handle for its one symbol; the CRC-32C of the bytes after the header was worked out apart from the model, from R164. -/
def Img (h : Nat) (bytes : Nat := 64) (crc : Nat := 0x664336FB) (magic : Nat := 0x54504843) : State :=
  (Ld fun v => { v with busy := true, handle := 8, readDone := true, lines := oneRow bytes crc magic, binds := [gran [(0, h)]] }).onChan 4
    fun c => { c with gen := 1, part := 1, st := .active }
/-- The handle of channel 4. -/
def own4 : Nat := (chanHandle 1 1 4).toNat
/-- Partition 1's load ends with a result, and changes nothing else. -/
def loadEnds (s t : State) (r : BitVec 3) : Bool :=
  decide (t.chtView 1 = { s.chtView 1 with busy := false, result := r, lines := [], binds := [], readDone := false, readBad := false }) && only s t [.cht]

set_option maxRecDepth 4000 in
theorem witness_PlansLoadAndFree :
    (Ld id).viewOpen 1 = true ∧ (Ld id).atRest = true ∧ (Ld id).masterEnabled 1 = true ∧
    does (.planLoad 1) (Ld fun v => { v with busy := true }) (fun t => only (Ld fun v => { v with busy := true }) t [] [(pgCHT, 1, 8)]) = true ∧
    (let s := (Ld id).onPart 1 fun p => { p with st := .disabling }
     does (.planLoad 1) s (fun t => decide ((t.chtView 1).result = 7) && only s t [.cht]) = true) ∧
    does (.planLoad 1) (Ld fun v => { v with image := 0x100000000 }) (fun t => decide ((t.chtView 1).result = 1 ∧ t.out = [])) = true ∧
    (Ld id).home = {} ∧ (Ld id).cacheLink 0x10040 = some 0 ∧
    does (.planLoad 1) (Ld fun v => { v with image := 0x1007F }) (fun t => (t.chtView 1).busy && decide (t.out = [.d2hReq 0 "RdCurr" 0x10040]) &&
      only (Ld fun v => { v with image := 0x1007F }) t [.cht, .home]) = true ∧
    (let s := (Ld fun v => { v with image := 0x10040, bindTab := 0x20000, busy := true }).onHome fun _ =>
       { line := [(0x401, { txn := some { cause := .req { who := .unit (.image 1 false 0), kind := .readNoAlloc, addr := 0x10040, part := 1 }, st := .curr } })] }
     let g := (oneRow 64 0).headD 0
     s.atRest = true ∧ does (.hostData 0x10040 false g) s (fun t => decide ((t.chtView 1).lines = [g] ∧ (t.chtView 1).readDone = false) &&
       t.out.contains (.d2hReq 0 "RdCurr" 0x10080) && only s t [.cht, .home]) = true) ∧
    idles (.imageReadDone 1) (Ld id) = true ∧ idles (.imageReadDone 1) (Ld fun v => { v with busy := true, lines := oneRow 64 0 }) = true ∧
    (let s := Img own4
     s.imageGood 1 (s.chtView 1).planImage = true ∧
     does (.imageReadDone 1) s (fun t => decide ((t.chtView 1).result = 0 ∧ (t.chtView 1).handle = objHandle 1 1 3 0 ∧
       { t.entry 0 with body := 0, resNo := 0 } = { gen := 1, held := true, part := 1, img := 1, occ := 1 } ∧ (t.entry 0).owner = s.handleOf 4 ∧
       tabGet (fun _ => ({} : Row)) t.cht.row 0 = { held := true, part := 1, img := 1, path := 0, bytes := 64, mask := 3 }) && only s t [.cht, .xlt]) = true) ∧
    (let s := (Img own4).onChtView 1 fun v => { v with readBad := true }
     does (.imageReadDone 1) s (fun t => loadEnds s t 1) = true) ∧
    does (.imageReadDone 1) (Img own4 64 0x664336FA) (fun t => loadEnds (Img own4 64 0x664336FA) t 2) = true ∧
    does (.imageReadDone 1) (Img own4 64 0x664336FB 0x54504844) (fun t => loadEnds (Img own4 64 0x664336FB 0x54504844) t 2) = true ∧
    does (.imageReadDone 1) (Img 4) (fun t => loadEnds (Img 4) t 3) = true ∧
    does (.imageReadDone 1) (Img own4 101 0xB5EE9FF5) (fun t => loadEnds (Img own4 101 0xB5EE9FF5) t 6) = true ∧
    (let s := (Img own4).onPart 1 fun p => { p with qEntries := 0 }
     does (.imageReadDone 1) s (fun t => loadEnds s t 4) = true) ∧
    (let s := (Img own4).onPart 1 fun p => { p with qRows := 0 }
     does (.imageReadDone 1) s (fun t => loadEnds s t 5) = true) ∧
    (let s := (Img own4).onPart 1 fun p => { p with st := .disabling }
     does (.imageReadDone 1) s (fun t => loadEnds s t 7) = true) ∧
    does (.planFree 1 5 1) (Ld fun v => { v with busy := true }) (fun t => only (Ld fun v => { v with busy := true }) t [] [(pgCHT, 1, 8)]) = true ∧
    does (.planFree 1 (BitVec.ofNat 32 h9) 0) (Plan9 (Ld id)) (fun t => decide ((t.chtView 1).result = 3)) = true ∧
    does (.planFree 1 (BitVec.ofNat 32 h9) 2) (Plan9 (Ld id)) (fun t => decide ((t.chtView 1).result = 3 ∧ t.entry 9 = (Plan9 (Ld id)).entry 9)) = true ∧
    (let s := (Plan9 (Ld id)).onCht fun c => { c with row := [(3, { held := true, part := 1 }), (4, { held := true, part := 1, img := 2 })] }
     let s := s.onEntry 12 fun e => { e with gen := 1, held := true, part := 1, img := 2 }
     does (.planFree 1 (BitVec.ofNat 32 h9) 1) s (fun t => decide ((t.chtView 1).result = 0 ∧ t.entry 9 = { gen := 1, occ := 1, resNo := 1 } ∧ t.entry 12 = s.entry 12 ∧
       (t.cht.row.map (·.1)) = [4]) && only s t [.cht, .syn]) = true) ∧
    (let s := (Plan9 (Ld id)).onEntry 9 fun e => { e with run := some (cmd5 1 []), open_ := true, live := true, count := 4 }
     does (.planFree 1 (BitVec.ofNat 32 h9) 1) s (fun t => decide (t.entry 9 = { s.entry 9 with held := false, count := 0, open_ := false, live := false, resNo := 1 })) = true) := by
  decide +kernel

/-! ## The coherence home -/

/-- Line 5 of host memory is as the home holds it. -/
def Ln (l : Line) : State := H.onLine 5 fun _ => l
/-- A request for line 5 by an agent, with tag 9, on port 2. -/
def rq (agent : BitVec 11) (a : Word := 0x140) : HReq := { agent := agent, tag := 9, port := 2, addr := a, onCredit := false }
/-- The answer to it. -/
def rsp (t : State) (agent : Nat) (opc : Nat) (st : Code) (d : Granule) (poison : Bool := false) (a : Word := 0x140) : Bool :=
  (t.out ++ t.noc.wait).contains (.noc 2 { opc := opc, agent := agent, tag := 9, addr := a, status := st, poison := poison, data := d })
/-- A snoop of line 5 to an agent, on the agent's port, which `Config.agentPort` gives. -/
def snooped (t : State) (agent opc : Nat) : Bool :=
  (t.out ++ t.noc.wait).any fun o => match o with | .noc _ m => m.opc = opc && m.agent = agent && m.addr = 0x140 | _ => false
/-- Held in M or E, in the device cache. -/
def held5 : Line := { entry := true, hm := true, dc := 1, data := 7 }
/-- Owned by agent 7. -/
def owned5 (d : DState := .m) : Line := { held5 with dc := 0, data := 0, dstate := d, ptrs := [7] }
/-- A request of agent 3 as the home holds it. -/
def hq (kind : ReqKind) (agent : Nat := 3) : HomeReq := { who := .agent agent 9 2, kind := kind, addr := 0x140 }
/-- A transaction for it. -/
def tx (kind : ReqKind) (st : Tran) (agent : Nat := 3) : Txn := { cause := .req (hq kind agent), st := st, entryBefore := true, goWait := true }
/-- Line 5 is so, and only the home changed. -/
def lineIs (s : State) (l : Line) (t : State) (sticky : List (Nat × Nat × Nat) := []) : Bool := decide (t.line 5 = l) && only s t [.home] sticky

/-- No line waits for a way when no line has a transaction. -/
theorem witness_open (s : State) (h : s.home.line = []) (m : Nat) (x : Txn) (hx : (s.line m).txn = some x) : x.st ≠ .way := by
  simp [State.line, h, tabGet] at hx

theorem witness_HomeServesRequests :
    (Ln held5).atRest = true ∧ (Ln held5).hlk.remap = none ∧ (Ln held5).home.flush = [] ∧ (Ln held5).home.todo = [] ∧ (Ln held5).xlt.locks = [] ∧
    (Ln held5).carries 0 = true ∧ lineOf 0x140 = 5 ∧ (Ln held5).cacheLink 0x140 = some 0 ∧ R.cacheLink 0x140 = none ∧
    does (.readShared (rq 255)) (Ln held5) (fun t => lineIs (Ln held5) (held5.own .e 255) t && rsp t 255 0x29 0 7) = true ∧
    does (.readShared (rq 3)) (Ln { held5 with dstate := .s, ptrs := [7] }) (fun t =>
      decide (t.line 5 = { held5 with dstate := .s, ptrs := [7, 3] }) && rsp t 3 0x28 0 7) = true ∧
    does (.readShared (rq 3)) (Ln { held5 with dstate := .s, ptrs := [7, 8, 15] }) (fun t =>
      decide (t.line 5 = { held5 with dstate := .s, coarse := true, vec := 3 }) && rsp t 3 0x28 0 7) = true ∧
    does (.readUnique (rq 3)) (Ln { held5 with dstate := .s, ptrs := [3] }) (fun t => lineIs (Ln { held5 with dstate := .s, ptrs := [3] }) (held5.own .m 3) t && rsp t 3 0x2A 0 7) = true ∧
    does (.readNoAlloc (rq 1279)) (Ln held5) (fun t => lineIs (Ln held5) held5 t && rsp t 1279 0x2B 0 7) = true ∧
    does (.readNoAlloc (rq 256)) (Ln { held5 with poison := true }) (fun t => rsp t 256 0x30 0xC1 0) = true ∧
    does (.readNoAlloc (rq 3)) (Ln { held5 with poison := true }) (fun t => rsp t 3 0x2B 0 7 true) = true ∧
    does (.writeNoAlloc (rq 256) 9) (Ln { held5 with poison := true }) (fun t => decide (t.line 5 = { held5 with dc := 2, data := 9 }) && rsp t 256 0x2C 0 0) = true ∧
    does (.atomicReq (rq 256 0x148) 2 0 9 1 0) (Ln held5) (fun t => decide ((t.line 5).txn.map (·.st) = some .atm ∧ (t.line 5).data = 7 ∧ t.out = []) && only (Ln held5) t [.home]) = true ∧
    does (.atomicReq (rq 256 0x148) 2 0 9 1 0) (Ln { held5 with poison := true }) (fun t => rsp t 256 0x30 0xC1 0 false 0x148) = true ∧
    ([(Instr.readShared (rq 3), 0x10), (.readUnique (rq 3), 0x11), (.readNoAlloc (rq 300), 0x12), (.writeNoAlloc (rq 300) 4, 0x11),
      (.atomicReq (rq 300) 2 1 8 1 0, 0x11)].all fun (x : Instr × Nat) =>
      does x.1 (Ln owned5) fun t => snooped t 7 x.2 && decide ((t.line 5).txn.map (·.waits) = some [7] ∧ (t.line 5).ptrs = [7]) &&
        framed (Ln owned5) t [.home, .noc]) = true ∧
    ([(Instr.readShared (rq 3), "RdShared", true), (.readUnique (rq 3), "RdOwn", true), (.readNoAlloc (rq 3), "RdCurr", false),
      (.writeNoAlloc (rq 300) 4, "ItoMWr", false), (.atomicReq (rq 300) 2 1 8 1 0, "RdOwn", true)].all fun (x : Instr × String × Bool) =>
      does x.1 H fun t => decide (t.out = [.d2hReq 0 x.2.1 0x140] ∧ (t.line 5).entry = x.2.2) && only H t [.home]) = true ∧
    (H.home.line.filter (·.2.entry)).length < H.dirWays 5 ∧
    does (.readShared (rq 3)) R (fun t => rsp t 3 0x30 0x44 0 && decide ((t.line 5).entry = false ∧ (t.line 5).txn = none) && only R t [.home] [(pgHLK, 0, 4)]) = true ∧
    (let s := Ln { held5 with txn := some (tx .readShared .oFwd) }
     does (.readUnique (rq 7)) s (fun t => rsp t 7 0x2E 0 0 && decide (t.home.retries = 1 ∧ (t.line 5).retry = [(7, 9)]) && only s t [.home]) = true) ∧
    (let s := Ln { held5 with txn := some (tx .atomic .atm 300) }
     does (.atomicReq (rq 301) 2 0 9 1 0) s (fun t => decide ((t.line 5).atomics.length = 1 ∧ t.out = []) && only s t [.home]) = true) ∧
    (let s := H.onHome fun h => { h with disabled := [300] }
     does (.readNoAlloc (rq 300)) s (fun t => rsp t 300 0x30 0x05 0 && only s t [] [(pgCOH, 0, 1)]) = true) ∧
    does (.readShared (rq 256)) H (fun t => only H t [] [(pgGLB, 0, 5)]) = true ∧
    does (.readNoAlloc (rq 1280)) H (fun t => only H t [] [(pgGLB, 0, 5)]) = true ∧
    does (.writeNoAlloc (rq 255) 0) H (fun t => only H t [] [(pgGLB, 0, 5)]) = true ∧
    does (.readShared { rq 3 with port := 4 }) H (fun t => only H t [] [(pgGLB, 0, 5)]) = true ∧
    (let s := ((Ln held5).onNoc fun c => { c with wait := [.noc 2 { opc := 0x2D, agent := 3, addr := 0x140 }] }).onLine 6 fun l => { l with
       entry := true, retry := [(3, 1), (3, 2)], credit := true, txn := some (tx .readShared .oFwd) }
     s.wbUnacked 5 3 = true ∧
     does (.readShared (rq 3)) s (fun t => (t.out ++ t.noc.wait).contains (.noc 2 { opc := 0x2E, agent := 3, tag := 9, addr := 0x140 }) &&
       decide ((t.line 5).txn = none) && only s t [.home]) = true) ∧
    does (.atomicReq (rq 300) 2 3 0 0 0) H (fun t => rsp t 300 0x30 0x06 0 && only H t []) = true ∧
    does (.atomicReq (rq 300 0x142) 2 0 8 0 0) H (fun t => rsp t 300 0x30 0x03 0 false 0x142 && only H t []) = true := by decide +kernel

/-- While a remap drains the home, a request is held. -/
theorem witness_HomeServesRequests_remap :
    let s := H.onHlk fun h => { h with remap := some ⟨.groupMap, 0, 0⟩ }
    s.atRest = true ∧ does (.readShared (rq 3)) s (fun t => decide (t.home.held = [hq .readShared] ∧ t.out = []) && only s t [.home]) = true := by
  decide +kernel

/-- Snoops of line 5 are out, each with its TAG, to a holder. -/
def Out (s : State) (l : List (Nat × Nat)) : State :=
  s.onHome fun h => { h with snps := l.map fun x => { tag := x.1, agent := x.2, flush := false, key := 5 } }
/-- The header of a holder's answer. -/
def sh (a : BitVec 8) (tag : BitVec 12 := 1) : SnpHdr := ⟨a, tag, false⟩
/-- A holder's answer has come on a port. -/
def answer (k : Ans) (d : Granule) (h : SnpHdr) (s : State) (port : Nat) : State :=
  s.answered fun s => s.nocIn port .rsp fun s => s.snoopAnswer h 0x140 k d
/-- The answer's command. -/
def answerCmd (k : Ans) (d : Granule) (h : SnpHdr) : Instr := match k with
  | .ackS => .ackS h 0x140 | .ackI => .ackI h 0x140 | .dataS => .dataS h 0x140 d | .dataI => .dataI h 0x140 d
  | .dataCur => .dataCur h 0x140 d | .miss => .miss h 0x140 | .wbPending => .wbPending h 0x140
/-- It leaves a state that passes, whichever data port the agent's answers come on. -/
def gives (k : Ans) (d : Granule) (h : SnpHdr) (s : State) (p : State → Bool) : Bool := (List.range 4).all fun port => p (answer k d h s port)

/-- What passes on every data port passes on the agent's, which nothing fixes. -/
theorem gives_does (k : Ans) (d : Granule) (h : SnpHdr) (s : State) (p : State → Bool) (hk : k = .dataS ∨ k = .dataI ∨ k = .dataCur ∨ d = 0)
    (hp : gives k d h s p = true) : does (answerCmd k d h) s p = true := by
  have hp := List.all_eq_true.mp hp (agentPort h.agent.toNat) (List.mem_range.mpr (Nat.mod_lt _ (by decide)))
  cases k <;> simp only [reduceCtorEq, false_or] at hk <;> first | exact hp | (subst hk; exact hp)
/-- Agent 7 was snooped for a request of agent 3. -/
def Sn (kind : ReqKind) (l : Line := owned5) (st : Tran := .oFwd) : State :=
  Out (Ln { l with txn := some { tx kind st with waits := [7], goWait := false } }) [(1, 7)]
/-- The home has asked the host for line 5. -/
def Go (kind : ReqKind) (st : Tran) (l : Line := {}) (agent : Nat := 3) : State := Ln { l with entry := true, txn := some (tx kind st agent) }

theorem witness_HomeTakesAnswers :
    (Sn .readShared).atRest = true ∧ (Go .readShared .isH).atRest = true ∧
    gives .ackS 0 (sh 7) (Sn .readShared { held5 with dstate := .e, ptrs := [7] }) (fun t =>
      lineIs (Sn .readShared { held5 with dstate := .e, ptrs := [7] }) { held5 with dstate := .s, ptrs := [7, 3] } t && rsp t 3 0x28 0 7) = true ∧
    gives .dataS 9 (sh 7) (Sn .readShared) (fun t => decide (t.line 5 = { held5 with dc := 2, data := 9, dstate := .s, ptrs := [7, 3] }) && rsp t 3 0x28 0 9) = true ∧
    gives .dataI 9 (sh 7) (Sn .readUnique) (fun t => lineIs (Sn .readUnique) { held5 with dc := 2, data := 9, dstate := .m, ptrs := [3] } t && rsp t 3 0x2A 0 9) = true ∧
    gives .dataCur 9 (sh 7) (Sn .readNoAlloc) (fun t => decide (t.line 5 = { owned5 with dc := 2, data := 9 }) && rsp t 3 0x2B 0 9) = true ∧
    gives .ackI 0 (sh 7) (Sn .readUnique (owned5 .e)) (fun t => decide (t.out = [.d2hReq 0 "RdCurr" 0x140] ∧ (t.line 5).txn.map (·.st) = some .curr) && only (Sn .readUnique (owned5 .e)) t [.home]) = true ∧
    (let s := Out (Ln { held5 with dstate := .s, ptrs := [7, 8], txn := some { tx .readUnique .sInv with waits := [7, 8], goWait := false } }) [(1, 7), (2, 8)]
     gives .ackI 0 (sh 7) s (fun t => decide ((t.line 5).ptrs = [8] ∧ (t.line 5).txn.map (·.waits) = some [8] ∧ t.out = []) && only s t [.home]) = true ∧
     gives .miss 0 (sh 8 2) s (fun t => decide ((t.line 5).ptrs = [7] ∧ t.home.stale = 1) && only s t [.home]) = true) ∧
    gives .wbPending 0 (sh 7) (Sn .readShared) (fun t => decide ((t.line 5).txn.map (·.st) = some .wbWait ∧ t.home.crosses = 1 ∧ t.out = []) && only (Sn .readShared) t [.home]) = true ∧
    -- no snoop is out to agent 8, or none under TAG 2
    ([sh 8, sh 7 2].all fun h => (Sn .readShared).home.snps.all fun x => x.tag ≠ h.tag.toNat || x.agent ≠ h.agent.toNat) = true ∧
    -- the answer comes after the transaction that asked has ended
    ([(Ans.ackI, (0 : Granule)), (.dataI, 9), (.miss, 0)].all fun k => gives k.1 k.2 (sh 7) (Out (Ln owned5) [(1, 7)]) fun t =>
      decide (t.home.snps = [] ∧ t.out = [] ∧ t.line 5 = owned5.unshare 7) && only (Out (Ln owned5) [(1, 7)]) t [.home]) = true ∧
    ([(Ans.ackS, (0 : Granule)), (.dataS, 9), (.dataCur, 9), (.wbPending, 0)].all fun k => gives k.1 k.2 (sh 7) (Out (Ln owned5) [(1, 7)]) fun t =>
      decide (t.home = { (Ln owned5).home with snps := [] } ∧ t.out = []) && only (Out (Ln owned5) [(1, 7)]) t [.home]) = true ∧
    -- poison goes on with the data
    gives .dataCur 9 ⟨7, 1, true⟩ (Sn .readNoAlloc) (fun t => decide (t.line 5 = { owned5 with dc := 2, data := 9, poison := true }) && rsp t 3 0x2B 0 9 true) = true ∧
    (let s := Ln owned5
     does (.writeBack (rq 7) 9) s (fun t => lineIs s { held5 with dc := 2, data := 9 } t &&
       (t.out ++ t.noc.wait).contains (.noc 2 { opc := 0x2D, agent := 7, tag := 9, addr := 0x140 })) = true ∧
     does (.writeBack (rq 8) 9) s (fun t => only s t [] [(pgCOH, 0, 6)]) = true ∧ does (.writeBack (rq 256) 9) s (fun t => only s t [] [(pgGLB, 0, 5)]) = true) ∧
    does (.writeBack (rq 7) 9) (Sn .readShared) (fun t => decide ((t.line 5).txn.map (·.wbGot) = some true ∧ (t.line 5).data = 9 ∧ (t.line 5).dstate = .i) &&
      only (Sn .readShared) t [.home]) = true ∧
    does (.goS 0x140 4) (Go .readShared .isH) (fun t => lineIs (Go .readShared .isH) { entry := true, dc := 1, data := 4, dstate := .s, ptrs := [3] } t && rsp t 3 0x28 0 4) = true ∧
    does (.goE 0x140 4) (Go .readShared .isH) (fun t => decide (t.line 5 = { entry := true, hm := true, dc := 1, data := 4, dstate := .e, ptrs := [3] }) && rsp t 3 0x29 0 4) = true ∧
    does (.goM 0x140 4) (Go .readUnique .imH) (fun t => decide ((t.line 5).dstate = .m) && rsp t 3 0x2A 0 4) = true ∧
    does (.goM 0x140 4) (Go .atomic .atmH {} 300) (fun t => decide ((t.line 5).txn.map (·.st) = some .atm ∧ t.out = []) && only (Go .atomic .atmH {} 300) t [.home]) = true ∧
    does (.goM 0x140 4) (Go .readShared .isH) (fun t => only (Go .readShared .isH) t [] [(pgGLB, 0, 5)]) = true ∧
    does (.goS 0x140 4) H (fun t => only H t [] [(pgGLB, 0, 5)]) = true ∧
    does (.goErr 0x140 4) (Go .readShared .isH) (fun t => lineIs (Go .readShared .isH) { entry := true, dc := 1, data := 4, poison := true, dstate := .s, ptrs := [3] } t
      [(pgCOH, 0, 4)] && rsp t 3 0x28 0 4 true) = true ∧
    does (.goErr 0x140 4) (Go .readNoAlloc .curr) (fun t => rsp t 3 0x30 0xC1 0 && decide (t.line 5 = { entry := true })) = true ∧
    (let q := { hq .writeNoAlloc 300 with data := 9 }
     let s := Ln { txn := some { cause := .req q, st := .write, entryBefore := true, goWait := true, link := 2 } }
     does (.goWritepull 0x140) s (fun t => rsp t 300 0x2C 0 0 && t.out.contains (.d2hData 2 0x140 false 0xFFFFFFFFFFFFFFFF 9) && lineIs s {} t) = true ∧
     does (.goI 0x140) s (fun t => only s t [] [(pgGLB, 0, 5)]) = true) ∧
    (let s := Ln { held5 with dc := 2, txn := some { cause := .recall, st := .evict, entryBefore := true, goWait := true } }
     does (.goWritepull 0x140) s (fun t => decide (t.out = [.d2hData 0 0x140 false 0xFFFFFFFFFFFFFFFF 7]) && lineIs s {} t) = true ∧
     does (.goI 0x140) s (fun t => decide (t.out = []) && lineIs s {} t) = true) ∧
    does (.hostData 0x140 false 4) (Go .readNoAlloc .curr) (fun t => lineIs (Go .readNoAlloc .curr) { entry := true } t && rsp t 3 0x2B 0 4) = true ∧
    does (.hostData 0x140 true 4) (Go .readNoAlloc .curr {} 300) (fun t => lineIs (Go .readNoAlloc .curr {} 300) { entry := true } t [(pgCOH, 0, 4)] && rsp t 300 0x30 0xC1 0) = true ∧
    does (.hostData 0x140 false 4) (Ln { held5 with drop := 2 }) (fun t => lineIs (Ln { held5 with drop := 2 }) { held5 with drop := 1 } t) = true ∧
    does (.hostData 0x140 false 4) H (fun t => only H t [] [(pgGLB, 0, 5)]) = true ∧
    idles (.homeAtomicDone 0x140) (Go .readShared .isH) = true ∧
    (let q : HomeReq := { who := .agent 300 9 2, kind := .atomic, addr := 0x148, op := ⟨0, 9, 5, 0⟩, part := 1 }
     let s := Ln { held5 with data := 7 <<< 64, txn := some { cause := .req q, st := .atm, entryBefore := true } }
     does (.homeAtomicDone 0x140) s (fun t => rsp t 300 0x2C 0 7 false 0x148 && decide (t.line 5 = { held5 with dc := 2, data := 12 <<< 64 } ∧
       (t.ccuCount 1).atomic = 1) && framed s t [.home, .ccu]) = true) := by decide +kernel

/-! ## Host snoops, limits and arbiters -/

theorem witness_HostSpeaksToHome :
    does (.snpInv 2 0x140) H (fun t => decide (t.out = [.d2hRsp 2 "RspIHitI" 0x140] ∧ t.home.snoops = 1) && only H t [.home]) = true ∧
    does (.snpInv 2 0x140) (Ln held5) (fun t => decide (t.out = [.d2hRsp 2 "RspIHitSE" 0x140]) && lineIs (Ln held5) {} t) = true ∧
    (let s := Ln { held5 with dc := 2, dstate := .s, ptrs := [7] }
     does (.snpData 2 0x140) s (fun t => decide (t.out = [.d2hRsp 2 "RspSFwdM" 0x140, .d2hData 2 0x140 false 0xFFFFFFFFFFFFFFFF 7]) &&
       lineIs s { held5 with hm := false, dc := 1, dstate := .s, ptrs := [7] } t) = true ∧
     does (.snpCur 2 0x140) s (fun t => decide (t.out = [.d2hRsp 2 "RspVFwdV" 0x140, .d2hData 2 0x140 false 0xFFFFFFFFFFFFFFFF 7]) && lineIs s (s.line 5) t) = true ∧
     does (.snpInv 2 0x140) s (fun t => snooped t 7 0x11 && decide ((t.line 5).txn.map (·.st) = some .rcl) && framed s t [.home, .noc]) = true) ∧
    does (.snpData 2 0x140) (Ln owned5) (fun t => snooped t 7 0x10 && decide ((t.line 5).txn.map (·.cause) = some (.host 1 2)) && framed (Ln owned5) t [.home, .noc]) = true ∧
    does (.snpCur 2 0x140) (Sn .readShared) (fun t => decide ((t.line 5).snoop = some (2, 2) ∧ t.out = []) && only (Sn .readShared) t [.home]) = true ∧
    (let s := (Sn .readShared).onLine 5 fun l => { l with snoop := some (1, 1) }
     does (.snpCur 2 0x140) s (fun t => only s t [] [(pgGLB, 0, 5)]) = true) ∧
    (let s := Ln { entry := true, txn := some { tx .readShared .isH with entryBefore := false } }
     does (.snpInv 2 0x140) s (fun t => decide (t.out = [.d2hRsp 2 "RspIHitI" 0x140]) && lineIs s (s.line 5) t) = true) ∧
    (let s := Ln { held5 with dc := 2, txn := some { cause := .recall, st := .evict, entryBefore := true, goWait := true } }
     does (.snpInv 2 0x140) s (fun t => decide (t.out = [.d2hRsp 2 "RspIFwdM" 0x140, .d2hData 2 0x140 false 0xFFFFFFFFFFFFFFFF 7] ∧ (t.line 5).dc = 1) && only s t [.home]) = true ∧
     does (.snpCur 2 0x140) s (fun t => decide ((t.line 5).dc = 2)) = true) ∧
    (let s := Ln { held5 with dstate := .s, ptrs := [3], txn := some { tx .readUnique .smH with entryBefore := true } }
     does (.snpInv 2 0x140) s (fun t => decide (t.out = [.d2hRsp 2 (snoopRsp 0 false) 0x140] ∧ t.home.snoops = 1 ∧ (t.line 5).dc = 0 ∧ (t.line 5).data = 0) &&
       only s t [.home]) = true ∧
     does (.snpCur 2 0x140) s (fun t => lineIs s (s.line 5) t) = true) ∧
    idles (.creditLimitExpired 0x140) (Ln held5) = true ∧
    (let s := Ln { held5 with credit := true, retry := [(3, 9)] }
     does (.creditLimitExpired 0x140) s (fun t => lineIs s held5 t [(pgCOH, 0, 5)]) = true) ∧
    idles (.snoopLimitExpired 3 0x140) (Sn .readShared) = true ∧
    (let s := Ln { held5 with dstate := .s, ptrs := [7, 8], txn := some { tx .readUnique .sInv with waits := [7, 8], goWait := false } }
     does (.snoopLimitExpired 7 0x140) s (fun t => decide (t.home.disabled = [7] ∧ t.home.dead = [7] ∧ (t.line 5).ptrs = [8] ∧ (t.line 5).txn.map (·.waits) = some [8]) &&
       only s t [.home] [(pgCOH, 0, 2)]) = true) ∧
    idles (.hostLimitExpired 0x140) (Sn .readShared) = true ∧
    does (.hostLimitExpired 0x140) (Go .readShared .isH) (fun t => rsp t 3 0x30 0x41 0 && lineIs (Go .readShared .isH) { entry := true } t [(pgCOH, 0, 3)]) = true ∧
    (let s := Ln { entry := true, txn := some { tx .readShared .isH with entryBefore := false } }
     does (.hostLimitExpired 0x140) s (fun t => rsp t 3 0x30 0x41 0 && lineIs s {} t [(pgCOH, 0, 3)]) = true) := by decide +kernel

/-- Arbiter 0x04 with what it holds of requesters. -/
def Ab (l : List (Nat × ArbReq)) (f : Arb → Arb := id) : State := H.onArb fun a => f { a with req := l.map fun x => (4 * 16384 + x.1, x.2) }
/-- Requester 1 has waited. -/
def w1 : Nat × ArbReq := (1, { age := 6, cls := 3 })
/-- Requester 2 has waited. -/
def w2 : Nat × ArbReq := (2, { age := 6 })
/-- Requester 2 has won, and withdrawn before it used its grant; it had 2 grants, and its rank's pointer stood at 1. -/
def undone2 (s : State) : State := (s.onArbiter 4 fun x => { x with holder := some 2, fresh := true, ptr := [(6, some 2)], undo := some (6, some 1, 2) }).onAreq 4 2
  fun x => { x with grants := 3 }

/-- Movers whose contexts, Urgent or not, wait for path 0, which arbiter 0x04 hands out, at a PRIORITY. -/
def Rq (l : List (Nat × Bool × BitVec 3)) (s : State) : State := l.foldl (fun t x => t.onJob x.1 x.2.1 fun j => { j with
  prio := x.2.2, reads := [{ kind := .src, idx := 0, path := 0, sent := false }] }) s
/-- Channels 4 and 6 with an Urgent segment each. -/
def Two : State := (Cmds [copy3]).onChan 6 fun c => { c with owner := ((Cmds [copy3]).chan 4).owner, st := .active, part := 1, cmds := [copy3] }
/-- A requester of arbiter 4 afterwards. -/
def ar (t : State) (i : Nat) : ArbReq := t.areq 4 i

theorem witness_ArbitersChoose :
    (let s := Rq [(1, false, 3), (2, false, 0), (3, false, 0)] (Ab [w1, w2])
     s.atRest = true ∧ s.requests 4 = [(1, false), (2, false), (3, false)] ∧ s.able 4 = s.requests 4 ∧
     does (.arbiterRound 4) s (fun t => decide ((t.arbiter 4).holder = some 1 ∧ (ar t 1).grants = 1 ∧ (ar t 1).age = 0 ∧
      (ar t 2).age = 7 ∧ (ar t 3).age = 1 ∧ (ar t 3).waits = 1 ∧ (ar t 2).since = some H.glb.time ∧ (t.arbiter 4).undo.isSome) && only s t [.arb]) = true) ∧
    does (.arbiterRound 4) (Rq [(1, false, 3), (3, true, 0)] (Ab [w1])) (fun t => decide ((t.arbiter 4).holder = some 3 ∧ (t.arbiter 4).urgent = true)) = true ∧
    (let s := Rq [(1, false, 0), (2, false, 0)] ((Ab [w1, w2]).onArbiter 4 fun x => { x with ptr := [(6, some 1)] })
     does (.arbiterRound 4) s (fun t => decide ((t.arbiter 4).holder = some 2 ∧ tabGet (fun _ => none) (t.arbiter 4).ptr 6 = some 2)) = true) ∧
    (let s := Rq [(1, false, 3), (2, false, 0)] (Ab [(1, { age := 7 }), (2, { lost := 2 })] fun a => { a with compat := true, waitMax := 2 })
     s.atRest = true ∧ does (.arbiterRound 4) s (fun t => decide ((t.arbiter 4).holder = some 2)) = true) ∧
    -- a winner that withdrew: its dead cycle, then the round
    (let s := undone2 (Rq [(3, false, 0)] (Ab []))
     s.atRest = true ∧ s.able 4 = [(3, false)] ∧ does (.arbiterRound 4) s (fun t => decide ((t.arbiter 4).holder = some 3 ∧ (t.arbiter 4).dead = 1 ∧
       tabGet (fun _ => none) (t.arbiter 4).ptr 6 = some 1 ∧ (ar t 2).grants = 2) && only s t [.arb]) = true) ∧
    (let s := (Ab []).onArbiter 4 fun x => { x with holder := some 2 }
     s.atRest = true ∧ does (.arbiterRound 4) s (fun t => decide ((t.arbiter 4).holder = none ∧ (t.arbiter 4).dead = 0) && only s t [.arb]) = true) ∧
    (let s := undone2 (Ab [])
     s.atRest = true ∧ s.requests 4 = [] ∧ does (.arbiterRound 4) s (fun t => decide ((t.arbiter 4).holder = none ∧ (t.arbiter 4).dead = 1 ∧
       tabGet (fun _ => none) (t.arbiter 4).ptr 6 = some 1 ∧ (ar t 2).grants = 2) && only s t [.arb]) = true) ∧
    -- a Bulk channel that may take a mover
    (let s := Cmds [{ copy3 with urgent := false }]
     s.requests 0 = [(4, false)] ∧ s.able 0 = [(4, false)] ∧ does (.arbiterRound 0) s (fun t => decide ((t.arbiter 0).holder = some 4) && only s t [.arb]) = true) ∧
    (let s := Two.onArbiter 2 fun x => { x with holder := some 6 }
     s.requests 2 = [(4, false), (6, false)] ∧ s.able 2 = s.requests 2 ∧
     does (.arbiterRound 2) s (fun t => decide ((t.arbiter 2).holder = some 6 ∧ (t.areq 2 4).since = some s.glb.time ∧ (t.areq 2 6).since = none) && only s t [.arb]) = true) ∧
    (let r : Rd := { kind := .src, idx := 0, epoch := some 1, sent := false, path := 8, addr := 0x400000 }
     let s := (Runs false { copy3 with urgent := false } { work := some (.chan 4 5), reads := [r], total := 3 }).onArbiter 12 fun x => { x with holder := some 0 }
     s.requests 12 = [(0, false)] ∧ s.sideTaken 0 8 = false ∧ s.engineSt (moverEngine 0) = .serving ∧ (s.job 0 false).used < (s.job 0 false).total ∧
     does (.arbiterRound 12) s (fun t => decide ((t.job 0 false).reads = [{ r with sent := true }] ∧ (t.arbiter 12).holder = none ∧
       t.noc.reqs.map (·.for_) = [.read 0 false .src 0]) && framed s t [.arb, .mov, .noc]) = true) ∧
    idles (.starveLimit 4 1) H = true ∧ idles (.starveLimit 4 1) (Ab [] fun a => { a with starveLimit := 5 }) = true ∧
    (let s := (Two.onArb fun a => { a with starveLimit := 5 }).onAreq 2 4 fun x => { x with since := some 0 }
     s.atRest = true ∧ (s.areq 2 4).since.isSome = true ∧
     does (.starveLimit 2 4) s (fun t => decide ((t.areq 2 4).flagged = true ∧ t.arb.starved = 4) && only s t [.arb] [(pgARB, 0, 1), (pgARB, (s.chan 4).part, 3)]) = true) ∧
    (let s := (C4 .active).onArb fun a => { a with chanSel := [(1, h4)] }
     does (.arbChanPrio 1 0xD) s (fun t => decide ((t.chan 4).prio = 5) && only s t [.dbl]) = true ∧
     does (.arbChanPrio 2 5) s (fun t => only s t [] [(pgARB, 2, 2)]) = true) := by decide +kernel

/-! ## Stored data -/

/-- A state of the stored-data registers. -/
def Rs (f : Ras → Ras) : State := H.onRas f
/-- A word of a structure as a scrub reads it, with a syndrome: 1 is a check bit's column, 0xFF no column. -/
def hit (str : Byte) (syndrome : Byte := 1) : ScrubHit := { struct_ := str, bank := 1, mac := 2, row := 3, index := 128, syndrome := syndrome }
/-- It has been read, with no whole-word write before. -/
def word (str : Byte) (syndrome : Byte := 1) : ScrubIn := .word (hit str syndrome) false
/-- A scrub of a structure from 128 to 200. -/
def scr (str : Nat) : Scrub := { str := str, at_ := 128, last := 200 }
/-- Slot k's piece of a block of bytes 0xA7. -/
def piece (k : Nat) : Option (BitVec 256) := some (BitVec.ofNat 256 (leNat (slotPiece k fun _ => 0xA7)))
/-- The block as read, slot 0's piece changed by a word. -/
def block (flip : BitVec 256 := 0) : ScrubIn := .block ⟨(piece 0).map (· ^^^ flip), piece 1, piece 2, piece 3⟩
/-- A scrub of structure 0x0F runs. -/
def Scr (f : Ras → Ras := id) : State := Rs fun r => f { r with scrub := some (scr 0x0F) }
/-- A scrub of the hub store runs, two blocks of it written. -/
def Blk (f : Ras → Ras := id) : State := Rs fun r => f { r with scrub := some (scr 0x20), valid := [5, 150] }

theorem witness_ScrubsRun :
    Scr.scrubNext (scr 0x0F) = some 128 ∧
    does (.scrubStart 0x0F01) Scr (fun t => only Scr t [] [(pgRAS, 0, 12)]) = true ∧
    does (.scrubStart 0x0F01) H (fun t => decide (t.ras.scrub = some { str := 0x0F, at_ := 0, last := 0 }) && only H t [.ras]) = true ∧
    does (.scrubStart 0x1201) H (fun t => only H t []) = true ∧ idles .scrubDone Scr = true ∧
    (let s := Rs fun r => { r with scrub := some { scr 0x20 with ce := 3, ue := 1, first := some 130 }, valid := [5, 201] }
     does .scrubDone s (fun t => decide (t.ras.scrub = none ∧ t.ras.scrubSum = 0x8000000100000003 ∧ t.ras.scrubFirst = 0x8000000000000082) &&
       only s t [.ras] [(pgRAS, 0, 9)]) = true) ∧
    idles (.rangeScrubBlock (word 0x0F)) H = true ∧ idles (.rangeScrubBlock (word 0x0E)) Scr = true ∧
    idles (.rangeScrubBlock block) (Blk fun r => { r with rebuild := some { slot := 1, target := 3, p := 6 } }) = true ∧
    (let s := Blk.onMov fun m => { m with slotBytes := [(8, pathCap 8)] }
     s.storePaced (s.scrubPaths block 150) = false ∧ idles (.rangeScrubBlock block) s = true) ∧
    Scr.atRest = true ∧
    does (.rangeScrubBlock (word 0x0F 0)) Scr (fun t => decide (t.ras.scrub = some { scr 0x0F with at_ := 129 } ∧ t.mov = Scr.mov) && only Scr t [.ras]) = true ∧
    does (.rangeScrubBlock (word 0x0F)) Scr (fun t => decide (t.ras.ce = 1 ∧ t.ras.ceRows = [(rowOf (hit 0x0F), Scr.glb.time)] ∧
      t.ras.scrub = some { scr 0x0F with at_ := 129, ce := 1 }) && only Scr t [.ras] [(pgRAS, 0, 1)]) = true ∧
    -- a whole-word write has reached a word marked lost
    (let s := Scr fun r => { r with lostMarks := [markKey (hit 0x0F)] }
     s.wordOutcome (hit 0x0F 0) = .uncorrectable (hit 0x0F 0xFF) ∧
     does (.rangeScrubBlock (.word (hit 0x0F 0) true)) s (fun t => decide (t.ras.lostMarks = [] ∧ t.ras.scrub = some { scr 0x0F with at_ := 129 })) = true) ∧
    H.wordOutcome (hit 0x0F 0) = .clean ∧ H.wordOutcome (hit 0x0F 0x80) = .corrected (hit 0x0F 0x80) ∧ H.wordOutcome (hit 0x0F 3) = .uncorrectable (hit 0x0F 3) ∧
    -- the row's second corrected error: in the window, and after it
    (let s := Scr fun r => { r with ceRows := [(rowOf (hit 0x0F), 0)] }
     s.canWrite false 0 = false ∧ s.ras.rowCopy = [] ∧ ¬ (s.ras.ceWindow.toNat * Config.usCycles < s.glb.time.toNat - (0 : Word).toNat) ∧
     (let s := s.onGlb fun g => { g with time := 0xFFFFFFFFFF }
      does (.rangeScrubBlock (word 0x0F)) s (fun t => decide (t.ras.ceRows = [(rowOf (hit 0x0F), 0xFFFFFFFFFF)] ∧ t.ras.remapped = [])) = true)) ∧
    Blk.storeOutcome 150 ⟨piece 0, piece 1, piece 2, piece 3⟩ = .clean ∧
    (let s := Blk fun r => { r with run := [(0, 7), (2, 3)] }
     does (.rangeScrubBlock block) s (fun t => decide (t.ras.scrub = some { scr 0x20 with at_ := 151 } ∧ tabGet (fun _ => 0) t.ras.run 0 = 0 ∧
       tabGet (fun _ => 0) t.ras.run 2 = 0 ∧ t.partCredit 0 8 = s.partCredit 0 8 - 128) && t.out.contains (.hubStore false 150) && only s t [.ras, .mov]) = true ∧
     does (.rangeScrubBlock (block 5)) s (fun t => decide (t.ras.scrub = some { scr 0x20 with at_ := 151, ce := 1 } ∧ tabGet (fun _ => 0) t.ras.run 0 = 8 ∧
       tabGet (fun _ => 0) t.ras.run 2 = 0 ∧ t.partCredit 0 9 = s.partCredit 0 9 - 32 ∧
       (.storePiece (s.slotStack 0) (s.storeAddr (s.slotStack 0) 4800) (slotPiece 0 fun _ => 0xA7)) ∈ t.out) && only s t [.ras, .mov] [(pgRAS, 0, 1)]) = true) ∧
    -- an uncorrectable block; `Config.storeUse`, which nothing fixes, says what it costs
    (let s := Blk fun r => { r with lost := [0, 1, 2] }
     (match s.storeOutcome 150 ⟨piece 0, piece 1, piece 2, piece 3⟩ with | .uncorrectable h => h.slots = 7 | _ => false) = true ∧
     s.scrubCan block 0x20 150 = true ∧ s.storePaced (s.scrubPaths block 150) = true ∧ s.canWrite false 0 = false) ∧
    idles (.backgroundScrub block) (Rs fun r => { r with bgEn := false }) = true := by decide +kernel

/-- The background walker at the first block of the store, and past its end. -/
def Bg (valid : List Nat) : State := Rs fun r => { r with bgAt := Config.arrayWords, valid := valid }

theorem witness_ScrubsRun_background :
    (Bg [150]).ras.bgEn = true ∧ (Bg [150]).bgHolds = false ∧ (Bg [150]).ras.bgAt < Config.arrayWords + (Bg [150]).ras.valid.length ∧
    (Bg [150]).ras.valid.getD ((Bg [150]).ras.bgAt - Config.arrayWords) 0 = 150 ∧ (Bg [150]).bgCan block 150 = true ∧
    (Bg [150]).bgCan (word 0x0F) 150 = false ∧ Config.arrayWords + (Bg []).ras.valid.length ≤ (Bg []).ras.bgAt ∧
    (0 < Config.arrayWords → (Rs fun r => { r with bgAt := Config.arrayWords - 1 }).bgCan (word 0x0F) 0 = true) := by
  have ha : (Bg [150]).ras.bgAt = Config.arrayWords := rfl
  have hv : (Bg [150]).ras.valid = [150] := rfl
  have hr : (Bg [150]).atRebuild 150 = false := by decide +kernel
  refine ⟨rfl, by decide +kernel, by simp [ha, hv], by simp [ha, hv], by simp [State.bgCan, block, ha, hv, hr], by simp [State.bgCan, word, ha],
    Nat.le_refl _, fun h => ?_⟩
  have hb : (Rs fun r => { r with bgAt := Config.arrayWords - 1 }).rowBusy (rowOf (hit 0x0F)) = false := by decide +kernel
  have hc : (Rs fun r => { r with bgAt := Config.arrayWords - 1 }).ras.bgAt = Config.arrayWords - 1 := rfl
  have hs : (Rs fun r => { r with bgAt := Config.arrayWords - 1 }).ras.bgStr = 0 := rfl
  have hd : structDefined (hit 0x0F).struct_.toNat = true := by decide
  have hn : (hit 0x0F).struct_.toNat ≠ hubStore := by decide
  simp only [State.bgCan, word, hb, hc, hs, hd, hn, ne_eq, not_false_eq_true, decide_true, Bool.and_true, Bool.not_false,
    decide_eq_true_eq, Nat.zero_le]
  omega

/-- R376's and R377's code on byte 0xA7, as 18_stored_data_protection.md works it: p1 = α^12·0xA + α^5·0x7 = 0xD, p0 = α^8·0xA + α^3·0x7 = 0x9; slots 0 to 3 hold 0x7, 0xA, 0x9 and
0xD; with 0x2 read in slot 0, S1 = 0x7 and S2 = 0xF, and 0x7 is restored at position 2. -/
theorem test_code :
    checkHigh 0xA 0x7 = 0xD ∧ checkLow 0xA 0x7 = 0x9 ∧ (List.range 4).map (fun k => codeNibble 0xA7 (slotPos k)) = [0x7, 0xA, 0x9, 0xD] ∧
    syndromes (mendNibble (codeNibble 0xA7) 2 0x2) = (0x7, 0xF) ∧ decodeByte [] (mendNibble (codeNibble 0xA7) 2 0x2) = some ([0], 0xA7) := by
  decide +kernel

/-- A load of one entry of the repair map, its line awaited or read. -/
def Map (e : Option Bool) (words : List Word := []) : State := (Rs fun r => { r with
  repairBusy := some 1, repairAt := 0x1000, repairEnd := e, repairLines := words.map fun w => granOfWords [w, 0, 0, 0, 0, 0, 0, 0]
  remapped := [(⟨0x0F, 1, 2, 3⟩, 0)] }).onHome fun _ => if e.isSome then {} else { line := [(0x40, { txn := some {
    cause := .req { who := .unit (.repair 0), kind := .readNoAlloc, addr := 0x1000 }, st := .curr } })] }

/-- While link 0 carries requests, every address has a link. -/
theorem witness_cacheLink (s : State) (h : s.carries 0 = true) (a : Word) : (s.cacheLink a).isSome = true := by
  have hf : (links4.find? s.carries).isSome = true := by
    rw [List.find?_isSome]; exact ⟨0, by decide, h⟩
  unfold State.cacheLink
  dsimp only
  split
  · exact hf
  · split
    · exact hf
    · rename_i hn
      rw [List.getElem?_eq_getElem (Nat.mod_lt _ (List.length_pos_iff.mpr hn))]; rfl

theorem witness_StoreIsRepaired :
    does (.declareLost 2) (Rs fun r => { r with lost := [2] }) (fun t => only (Rs fun r => { r with lost := [2] }) t []) = true ∧
    does (.declareLost 2) H (fun t => decide (t.ras = { H.ras with lost := [2], rebuild := some { slot := 2, target := 1 } }) &&
      bit (t.sticky pgRAS 0).bits 6 && framed H t [.ras, .xlt]) = true ∧
    does (.declareLost 2) (Rs fun r => { r with autoRebuild := false, lost := [1], run := [(2, 3)] }) (fun t => decide (t.ras.lost = [2, 1] ∧ t.ras.run = [] ∧ t.ras.rebuild = none) &&
      bit (t.sticky pgRAS 0).bits 7) = true ∧
    does (.rebuild 1) H (fun t => decide (t.ras.rebuild = some { slot := 1, target := 1 }) && only H t [.ras]) = true ∧
    does (.rebuild 1) (Rs fun r => { r with rebuild := some { slot := 2, target := 1 } }) (fun t => decide (t.ras.rebuildNext = [1])) = true ∧
    idles .rebuildBlock (Rs fun r => { r with rebuild := some { slot := 2, target := 1, p := 9 }, valid := [5] }) = true ∧
    (let s := Rs fun r => { r with rebuild := some { slot := 2, target := 1, p := 2 }, valid := [1, 5, 7], lost := [2] }
     does .rebuildBlock s (fun t => decide (t.ras.rebuild = some { slot := 2, target := 1, p := 6 } ∧ t.partCredit 0 8 = s.partCredit 0 8 - 96 ∧
       t.partCredit 0 9 = s.partCredit 0 9 - 32) && only s t [.ras, .mov]) = true ∧ idles .rebuildDone s = true) ∧
    (let s := (Rs fun r => { r with rebuild := some { slot := 2, target := 1, p := 2 }, valid := [5] }).onMov fun m => { m with slotBytes := [(9, pathCap 9)] }
     s.storePaced [(8, 32), (9, 32)] = false ∧ idles .rebuildBlock s = true) ∧
    -- a write of bytes 4 and 5 waited for the block
    (let s := Rs fun r => { r with rebuild := some { slot := 2, target := 1, p := 2 }, valid := [5], held := [(5, 4, [1, 2])] }
     does .rebuildBlock s (fun t => decide (t.ras.held = []) && t.out.contains (.storeCopy 2 1 (s.storeAddr 1 160)) &&
       (t.out.any fun o => match o with | .storePiece 1 a bs => decide (a = s.storeAddr 1 162 ∧ bs.length = 1) | _ => false) && only s t [.ras, .mov]) = true) ∧
    (let s := Rs fun r => { r with rebuild := some { slot := 1, target := 3, p := 9 }, valid := [5], lost := [1] }
     does .rebuildDone s (fun t => decide (t.ras = { s.ras with hsSlots := 0x06040300, retiredStacks := [2], lost := [], rebuild := none }) &&
       bit (t.sticky pgRAS 0).bits 8 && framed s t [.ras, .xlt]) = true) ∧
    does (.repairLoad 0x8000000000000002) (Rs fun r => { r with repairBase := 0x1000, repairSkip := 4 }) (fun t =>
      decide (t.ras.repairBusy = some 2 ∧ t.ras.repairSkip = 0 ∧ t.out = [.d2hReq 0 "RdCurr" 0x1000])) = true ∧
    does (.repairLoad 0x8000000000000002) R (fun t => t.ras.repairFail && only R t [.ras]) = true ∧
    does (.repairLoad 0x8000000000001001) H (fun t => only H t []) = true ∧
    (let s := Map none
     s.cacheLink 0x1040 = some 0 ∧
     does (.hostData 0x1000 false 7) s (fun t => decide (t.ras.repairLines = [7] ∧ t.ras.repairEnd = some true) && only s t [.ras, .home]) = true) ∧
    idles .repairReadDone H = true ∧ idles .repairReadDone (Map none) = true ∧
    does .repairReadDone (Map (some false)) (fun t => t.ras.repairFail && decide (t.ras.repairBusy = none) && only (Map (some false)) t [.ras]) = true ∧
    (Map (some true) [0x0F01000200040000]).ras.repairWords 1 = [0x0F01000200040000] ∧
    does .repairReadDone (Map (some true) [0x0F01000200030000]) (fun t => decide (t.ras.repairSkip = 1) && only (Map (some true) [0x0F01000200030000]) t [.ras] [(pgRAS, 0, 10)]) = true ∧
    does .repairReadDone (Map (some true) [0x1201000200030000]) (fun t => decide (t.ras.repairSkip = 1)) = true ∧
    does (.bankCopyDone 6) (Rs fun r => { r with copying := [(6, 1), (7, 0)] }) (fun t => decide (t.ras.copying = [(7, 0)]) &&
      only (Rs fun r => { r with copying := [(6, 1), (7, 0)] }) t [.ras]) = true := by decide +kernel

/-- Channel 4's context lies in a bank being copied; it is cached, and its fetch goes on when the copy is done. -/
theorem witness_StoreIsRepaired_copied :
    let s := (C4 .active).onRas fun r => { r with copying := [(0x0A, Config.ctxBank 4)] }
    s.bankCopies 0x0A (Config.ctxBank 4) = true ∧ (s.chan 4).st = .active ∧ (s.chan 4).cached = true ∧ (s.chan 4).hand = [] ∧ (s.chan 4).stale = none ∧
      s.masterEnabled (s.chan 4).part = true ∧ s.served 4 = true := by
  refine ⟨by simp [State.bankCopies, State.onRas], ?_⟩
  decide +kernel

/-! ## Windows and the transport -/

/-- Inbound window 5 of partition 1, of 64 KiB, open to every chip; chip 7 has routes 0 and 1. -/
def Iw (f : Machine.Peer → Machine.Peer) : State := V1.onPeer fun p => f { p with
  iAllot := [(0, {}), (1, { base := 4, count := 4 })], route := [(7, 0x850E8401)]
  iwin := [(5, { w0 := 0x8300000000000003, w1 := 0x600000, w2 := 0x10000, w3 := 0 })] }
/-- A packet of chip 7 for the window. -/
def ph (kind : BitVec 4) (psn : BitVec 24) (body : Word := 0) (arg : BitVec 32 := 256) (f : PktHdr → PktHdr := id) : PktHdr :=
  sealHdr (f { rawHdr kind 1 psn with srcChip := 7, window := 5, body := body, arg := arg })
/-- A block of 64 bytes, with its CRC or a wrong one. -/
def blk (ok : Bool := true) : Block := ⟨0, crc32c (List.replicate 64 9) + (if ok then 0 else 1), List.replicate 64 9⟩
/-- An answer went back to chip 7 on route slot 0. -/
def back (t : State) (kind : BitVec 4) (mask : BitVec 16) (arg : BitVec 32) : Bool :=
  t.out.any fun o => match o with | .fabric 4 1 p => p.h.kind = kind && p.h.mask = mask && p.h.arg = arg && p.h.dstChip = 7 | _ => false
/-- A packet of the window, being applied. -/
def rxp (h : PktHdr) : RxPkt := { psn := h.psn.toNat, h := h, part := 1, asid := 3, base := 0x600000, busy := 1 }
/-- One is there. -/
def Rx (h : PktHdr) : State := (Iw id).onRx 7 fun f => { f with pkts := [rxp h] }
/-- Chip 7 owes an answer. -/
def Ow (f : PktFor) (resends : Nat := 0) (blocks : List (Nat × List Byte) := []) : State := (Iw id).onFlow 7 fun x => { x with
  out := [{ p := { h := { ph 1 3 with dstChip := 7, blocks := BitVec.ofNat 5 blocks.length }, blocks := blocks }, for_ := f, resends := resends }] }

theorem witness_PacketsArrive :
    (Iw id).atRest = true ∧ upSlots ((Iw id).route 7) = [0, 1] ∧ slotPort ((Iw id).route 7) 0 = 4 ∧ (Iw id).isSelf 7 = false ∧
    (ph 1 3).hcrcOk = true ∧ ([{ ph 1 3 with tag := 5 }, ph 1 3 (f := fun h => { h with early := true }), ph 9 3, ph 0 3].all fun h =>
      does (.packetData h [blk]) (Iw id) (fun t => only (Iw id) t [] [(pgPXP, 0, 5)])) = true ∧
    (let p : Packet := { h := ph 1 3, blocks := [(0, [0x31, 0x32, 0x33, 0x34, 0x35, 0x36, 0x37, 0x38, 0x39])] }
     p.sealed.h.hcrcOk = true ∧ p.sealed.crcs = [0xE3069283]) ∧
    does (.packetData (ph 1 3 (f := fun h => { h with cut := some 4 })) [blk]) (Iw id) (fun t => only (Iw id) t [] [(pgGLB, 0, 5)]) = true ∧
    does (.packetAck (ph 4 3 (f := fun h => { h with cut := some 4 }))) (Ow .notice 0 [(0, [1])]) (fun t => only (Ow .notice 0 [(0, [1])]) t [] [(pgGLB, 0, 5)]) = true ∧
    does (.packetAck (ph 4 3 (f := fun h => { h with dstChip := 2 }))) (Iw id) (fun t => only (Iw id) t [] [(pgPXP, 0, 4)]) = true ∧
    (let s := (Iw id).onRx 7 fun f => { f with base := 9 }
     does (.packetData (ph 1 3) [blk]) s (fun t => back t 4 1 0 && decide (t.peer.dup = 1) && only s t [.peer]) = true) ∧
    does (.packetData (ph 1 3 (f := fun h => { h with window := 6 })) [blk]) (Iw id) (fun t => back t 5 1 1 && decide (t.peer.refused = 1) && framed (Iw id) t [.peer, .xlt]) = true ∧
    does (.packetData (ph 1 3 (f := fun h => { h with tag := 6 })) [blk]) (Iw id) (fun t => back t 5 1 2) = true ∧
    does (.packetData (ph 1 3 0xFF01) [blk]) (Iw id) (fun t => back t 5 1 5) = true ∧
    does (.packetSignal (ph 3 3 9)) (Iw id) (fun t => back t 5 1 0xA06) = true ∧
    does (.packetData (ph 1 3 0xFF00) [blk]) (Iw id) (fun t => decide (t.out = [] ∧ (t.rxPkt 7 3).map (·.busy) = some 1 ∧ (t.iwin 5).admitted = 1 ∧
      t.xlt.lookups.map (·.va) = [0x60FF00]) && only (Iw id) t [.peer, .xlt]) = true ∧
    does (.packetReduce (ph 2 3 4 0x88) [blk]) (Iw id) (fun t => decide ((t.rxPkt 7 3).map (·.busy) = some 1 ∧ t.xlt.lookups.map (·.va) = [0x600010]) &&
      framed (Iw id) t [.peer, .xlt, .ccu, .free]) = true ∧
    does (.packetData (ph 1 3) [blk false]) (Iw id) (fun t => back t 5 1 0 && decide (t.peer.crcFail = 1) && only (Iw id) t [.peer]) = true ∧
    (let s := (Iw id).onRx 7 fun f => { f with pkts := [{ rxp (ph 1 3) with mask := 1, busy := 0 }] }
     does (.packetData (ph 1 3) [blk]) s (fun t => back t 4 1 0 && decide (t.peer.dup = 1) && only s t [.peer]) = true) ∧
    (let s := Obj7 (Iw id) (counter7 0)
     does (.packetSignal (ph 3 3 (BitVec.ofNat 64 h7) 0x20000)) s (fun t => decide (t.syn.acts = [{ from_ := .peer 7 3, handle := BitVec.ofNat 32 h7, action := 0, value := 2, rank := 7 }]) &&
       only s t [.peer, .syn]) = true) ∧
    idles (.blockApplied 7 3 1) (Rx (ph 1 3)) = true ∧
    (let s := (Rx (ph 1 3)).onIwin 5 fun e => { e with admitted := 4 }
     does (.blockApplied 7 3 0) s (fun t => back t 4 1 0 && decide ((t.rxPkt 7 3).map (fun p => (p.mask, p.busy)) = some (1, 0) ∧ (t.iwin 5).admitted = 3 ∧ (t.iwin 5).applied = 1) &&
       only s t [.peer]) = true) ∧
    -- a packet with LAST, once its read-back is back
    (let p := { rxp (ph 1 3 (f := fun h => { h with last := true })) with back := .back }
     let s := ((Iw id).onRx 7 fun f => { f with pkts := [p] }).onIwin 5 fun e => { e with admitted := 1 }
     does (.blockApplied 7 3 0) s (fun t => back t 4 1 0 && decide ((t.rxPkt 7 3).map (fun p => (p.mask, p.busy)) = some (1, 0)) && only s t [.peer]) = true) ∧
    does (.packetAck (ph 4 3)) (Iw id) (fun t => only (Iw id) t []) = true ∧
    does (.packetAck (ph 4 3 (f := fun h => { h with mask := 1 }))) (Ow .notice 0 [(0, [1]), (1, [2])]) (fun t => decide ((t.flow 7).out.map (·.acked) = [1]) && only (Ow .notice 0 [(0, [1]), (1, [2])]) t [.peer]) = true ∧
    does (.packetAck (ph 4 3 (f := fun h => { h with mask := 1 }))) (Ow .notice 0 [(0, [1])]) (fun t => decide ((t.flow 7).out = []) && only (Ow .notice 0 [(0, [1])]) t [.peer]) = true ∧
    (let s := (Plan9 (Ow (.planSignal 9 0))).onEntry 9 fun e => { e with fired := true }
     does (.packetAck (ph 4 3)) s (fun t => decide ((t.entry 9).done = true ∧ (t.flow 7).out = []) && only s t [.peer, .cht]) = true ∧
     does (.packetNack (ph 5 3 0 1)) s (fun t => decide ((t.entry 9).code = 0x81 ∧ (t.flow 7).out = []) && only s t [.peer, .cht]) = true) ∧
    idles (.resendTimeout 7 3) (Iw id) = true ∧
    does (.packetNack (ph 5 3 0 0 fun h => { h with mask := 2 })) (Ow .notice 0 [(0, [1]), (1, [2])]) (fun t => decide ((t.flow 7).out.map (·.resends) = [1] ∧ t.peer.resendCount = 1) &&
      (t.out.any fun o => match o with | .fabric 4 1 p => decide (p.blocks = [(1, [2])]) && p.h.resend | _ => false) && only (Ow .notice 0 [(0, [1]), (1, [2])]) t [.peer]) = true ∧
    (let s := (Iw id).onFlow 7 fun x => { x with out := [{ p := { h := { rawHdr 1 1 3 with srcChip := 0, window := 5, dstChip := 7, blocks := 1 }, blocks := [(0, [1])] }, for_ := .notice, acked := 1 }] }
     does (.resendTimeout 7 3) s (fun t => decide (t.out = []) && only s t []) = true) ∧
    does (.resendTimeout 7 3) (Ow .notice 16) (fun t => decide (t.route 7 = 0x850E0401 ∧ (t.flow 7).out.map (·.resends) = [0] ∧ (t.flow 7).slot = 1) &&
      only (Ow .notice 16) t [.peer] [(pgPXP, 0, 1)]) = true ∧
    -- the last route fails, and the flow with it
    (let s := (Ow .notice 16).onPeer fun p => { p with route := [(7, 0x850E0000)] }
     upSlots (s.route 7) = [1] ∧ s.canWrite false 0 = false ∧ s.canWrite false 1 = false ∧
     does (.resendTimeout 7 3) s (fun t => decide (t.route 7 = 0x50E0000 ∧ (t.flow 7).out = [] ∧ (t.flow 7).fails = 1) && (t.flow 7).failed &&
       bit (t.sticky pgPXP 0).bits 1 && bit (t.sticky pgPXP 0).bits 2 && framed s t [.peer, .xlt]) = true) := by
  decide +kernel

/-- No flow has packets that wait. -/
theorem witness_PacketsArrive_wait (s : State) (h : s.peer.flow = []) (c : Nat) : (s.flow c).wait = [] := by
  simp [State.flow, h, tabGet]

/-- Word 0, an entry of 4 KiB at 0x600000, of ASID 3. -/
def ow0 : Word := 0x8000000000000003
/-- An outbound window of partition 1 at index 2, not enabled. -/
def Rw (f : Machine.Peer → Machine.Peer) : State := V1.onPeer fun p => f { p with
  oAllot := [(0, {}), (1, { base := 2, count := 2 })], iAllot := [(0, {}), (1, { base := 2, count := 2 })], owin := [(2, { w0 := 3, w1 := 0x600000, w2 := 0x7FF000, w3 := 0x420003 })]
  view := [(1, { owinSel := 2, iwinSel := 2 })], psel := 1 }

theorem witness_RoutesAndWindows :
    (Rw id).ras.lostCap = [] ∧ (Rw id).viewOpen 1 = true ∧ (Rw id).atRest = true ∧
    does (.fabricPortDown 3) (Iw id) (fun t => decide (t.peer.portDown = [3]) && only (Iw id) t [.peer]) = true ∧
    does (.fabricPortDown 4) (Iw id) (fun t => decide (t.route 7 = 0x850E0401 ∧ (t.flow 7).slot = 1) && only (Iw id) t [.peer] [(pgPXP, 0, 1)]) = true ∧
    -- the chip's own slot
    (let s := ((Iw id).onPeer fun p => { p with route := [(0, 0x8401)] }).onFlow 0 fun x => { x with out := [{ p := { h := ph 1 3 }, for_ := .notice, resends := 2 }] }
     s.isSelf 0 = true ∧ upSlots (s.route 0) = [0] ∧ slotPort (s.route 0) 0 = 4 ∧
     does (.fabricPortDown 4) s (fun t => decide (t.route 0 = 0x401 ∧ t.flow 0 = s.flow 0 ∧ t.out = []) && only s t [.peer] [(pgPXP, 0, 1)]) = true) ∧
    -- no slot is marked UP any more
    (let s := H.onPeer fun p => { p with routeSel := 7, route := [(7, 0x850E8401)] }
     s.isSelf 7 = false ∧ (s.flow 7).out = [] ∧ s.canWrite false 0 = false ∧
     does (.pxpRoute 0) s (fun t => decide (t.route 7 = 0 ∧ t.flow 7 = { s.flow 7 with failed := true, fails := 1 }) && bit (t.sticky pgPXP 0).bits 2) = true) ∧
    (let s := (H.onPeer fun p => { p with routeSel := 7, route := [(7, 0x850E8401)] }).onFlow 7 fun x => { x with
        failed := true, out := [{ p := { h := ph 1 3 }, for_ := .notice, resends := 2 }] }
     does (.pxpRoute 0x850E0000) s (fun t => decide ((t.flow 7).out.map (·.resends) = [0] ∧ (t.flow 7).slot = 1 ∧ (t.flow 7).failed = false) && only s t [.peer]) = true ∧
     does (.pxpRoute 0x850E8401) s (fun t => decide ((t.flow 7).out.map (·.resends) = [2] ∧ (t.flow 7).slot = 0) && only s t [.peer]) = true) ∧
    does (.pxpRoute 0xFFFF000000000000) H (fun t => decide (t.route 0 = 0x8FFF000000000000 ∧ (t.flow 0).slot = 3) && only H t [.peer]) = true ∧
    does (.pwnOwin 1 0 ow0) (V1.onPeer fun p => { p with view := [(1, { owinSel := 2 })] }) (fun t => only (V1.onPeer fun p => { p with view := [(1, { owinSel := 2 })] }) t [] [(pgPWN, 1, 5)]) = true ∧
    does (.pwnOwin 1 0 ow0) (Rw id) (fun t => decide ((t.owin 2).w0 = ow0) && only (Rw id) t [.peer]) = true ∧
    does (.pwnOwin 1 1 0x800FFF) (Rw id) (fun t => decide ((t.owin 2).w1 = 0x800000) && only (Rw id) t [.peer]) = true ∧
    does (.pwnOwin 1 0 ow0) (Rw fun p => { p with owin := [(2, { w0 := 3, w1 := 0x800000, w2 := 0x7FF000 })] }) (fun t => decide ((t.owin 2).w0 = 3) && bit (t.sticky pgPWN 1).bits 2) = true ∧
    does (.pwnOwin 1 0 ow0) (Rw fun p => { p with owin := [(2, { w0 := 3, w1 := 0x600000, w2 := 0x7FF000 }), (3, { w0 := ow0, w1 := 0x7FF000, w2 := 0x7FF000 })] })
      (fun t => decide ((t.owin 2).w0 = 3) && bit (t.sticky pgPWN 1).bits 1) = true ∧
    (let s := Rw fun p => { p with owin := [(2, { w0 := ow0, w1 := 0x600000, w2 := 0x7FF000 })] }
     does (.pwnOwin 1 0 3) s (fun t => decide ((t.owin 2).w0 = 3) && only s t [.peer]) = true ∧
     does (.pwnOwin 1 1 0) s (fun t => only s t [] [(pgPWN, 1, 3)]) = true ∧ does (.pwnOwin 1 0 ow0) s (fun t => only s t []) = true) ∧
    does (.pwnIwin 1 0 0xE000000000000003) (Rw id) (fun t => decide ((t.iwin 2).w0 = 0xE000000000000003) && only (Rw id) t [.peer]) = true ∧
    (let s := Rw fun p => { p with iwin := [(2, { w0 := ow0, admitted := 2 })] }
     does (.pwnIwin 1 0 3) s (fun t => decide ((t.iwin 2).busy = true ∧ (t.iwin 2).w0 = 3) && only s t [.peer]) = true ∧
     does (.pwnIwin 1 3 3) s (fun t => only s t [] [(pgPWN, 1, 4)]) = true) ∧
    idles (.iwinDrained 2) (Rw fun p => { p with iwin := [(2, { busy := true, admitted := 1 })] }) = true ∧
    does (.iwinDrained 2) (Rw fun p => { p with iwin := [(2, { busy := true })] }) (fun t => decide ((t.iwin 2).busy = false)) = true ∧
    (let s := Rw fun p => { p with owin := [(2, { w0 := ow0 })], oAllot := [(0, { base := 0, count := 1 }), (1, { base := 2, count := 2 })] }
     does (.windowAllotment false 0x10000) s (fun t => only s t [] [(pgPWN, 0, 6)]) = true ∧
     does (.windowAllotment false 0x7FFF3FFE) (s.onPeer fun p => { p with owin := [] }) (fun t => decide (t.allot false 1 = { base := 0x3FFE, count := 0x7FFF })) = true ∧
     does (.windowAllotment false 0x10003) s (fun t => only s t [] [(pgPWN, 0, 7)]) = true ∧
     does (.windowAllotment false 0x20001) s (fun t => decide (t.allot false 1 = { base := 1, count := 2 } ∧ t.allot true 1 = s.allot true 1) && only s t [.peer]) = true) := by
  decide +kernel

end Sys2Proof.Tests
end

section
/-! SUPPORT. PRT_CTL (13_partitions_and_twin_engines.md R285): what ENABLE and DISABLE make of the partition selected, of the Reed credits and
of the ports, from rest and in any state of the hub. -/

namespace Sys2Proof.Machine

variable {s t u v : State}

/-! ## Counters and waits -/

/-- The second state differs from the first in what reports change, and in none of the parts that PRT_CTL reads. -/
structure State.Quiet (s t : State) : Prop where
  reports : s.reports t
  out : t.out = s.out
  prt : t.prt = s.prt
  mov : t.mov = s.mov
  hlk : t.hlk = s.hlk
  pwr : t.pwr = s.pwr
  ras : t.ras = s.ras

theorem State.Quiet.refl (s : State) : s.Quiet s := ⟨s.reports_refl, rfl, rfl, rfl, rfl, rfl, rfl⟩

theorem State.Quiet.trans (h1 : s.Quiet t) (h2 : t.Quiet u) : s.Quiet u :=
  ⟨State.reports_then h1.reports h2.reports, h2.out.trans h1.out, h2.prt.trans h1.prt, h2.mov.trans h1.mov, h2.hlk.trans h1.hlk,
    h2.pwr.trans h1.pwr, h2.ras.trans h1.ras⟩

theorem State.quiet_ops (s : State) (pg n : Nat) : s.Quiet (s.ops pg n) := by
  refine ⟨s.reports_ops pg n, ?_, ?_, ?_, ?_, ?_, ?_⟩ <;> (unfold State.ops State.onCount; split <;> rfl)

theorem State.quiet_tlp (s : State) : s.Quiet s.tlp := s.quiet_ops _ _

theorem State.quiet_dropRequests (s : State) (a : Nat) (reqs : List (Nat × Bool)) : s.Quiet (s.dropRequests a reqs) :=
  foldl_keeps (s.Quiet ·) _ (fun t _ h => h.trans
    ⟨t.reports_ended a _ (Nat.mod_lt _ (by decide)) _, rfl, rfl, rfl, rfl, rfl, rfl⟩) _ _ (.refl s)

theorem State.quiet_settleArbs (s : State) : s.Quiet s.settleArbs :=
  foldl_keeps (s.Quiet ·) _ (fun t a h => h.trans (t.quiet_dropRequests a _)) _ _ (.refl s)

theorem State.Quiet.part (h : s.Quiet t) (k : Nat) : t.part k = s.part k := by simp only [State.part, h.prt]

theorem State.Quiet.fnOn (h : s.Quiet t) (f : Nat) : t.fnOn f = s.fnOn f := by
  funext l; simp only [State.fnOn, State.link, State.inst, h.hlk]

theorem State.Quiet.partShare (h : s.Quiet t) (p b : Nat) : t.partShare p b = s.partShare p b := by
  simp only [State.partShare, h.mov]

theorem State.Quiet.partCredit (h : s.Quiet t) (p b : Nat) : t.partCredit p b = s.partCredit p b := by
  simp only [State.partCredit, State.partShare, h.mov]

theorem State.Quiet.macroLost (h : s.Quiet t) (str e : Nat) : t.macroLost str e = s.macroLost str e := by
  simp only [State.macroLost, h.ras]

/-- Latency budgets rest on the partitions, the host links and PWR alone (19_power_reset_and_bringup.md R390). -/
theorem State.Quiet.latency (h : s.Quiet t) : t.latency = s.latency := by
  calc t.latency = { t with prt := s.prt, hlk := s.hlk, pwr := s.pwr }.latency := by rw [← h.prt, ← h.hlk, ← h.pwr]
    _ = s.latency := rfl

theorem State.Quiet.ltrs (h1 : s.Quiet u) (h2 : v.Quiet t) : s.ltrs t = u.ltrs v := by
  simp only [State.ltrs, h1.latency, h2.latency, State.link, State.inst, h2.hlk]

theorem State.Quiet.settled (h : s.Quiet t) (hw : s.wf = true) : t.settled = s.settled :=
  (State.settled_kept (h.reports hw).2 (by simp)).1

/-! ## The frame of one updater -/

theorem State.onlyChanges_onPrt (s : State) (f : Prt → Prt) : s.onlyChanges (s.onPrt f) [.prt] := by
  refine ⟨rfl, List.prefix_refl _, fun _ _ _ _ _ => by simp [State.sticky], fun r => ?_⟩
  cases r <;> simp [State.kept, State.src, State.tgt, State.msixEntry, State.inst, State.aerOf, State.areq]

theorem State.onlyChanges_onPart (s : State) (p : Nat) (f : Part → Part) : s.onlyChanges (s.onPart p f) [.prt] :=
  s.onlyChanges_onPrt _

theorem State.onlyChanges_onMov (s : State) (f : Mov → Mov) : s.onlyChanges (s.onMov f) [.mov] := by
  refine ⟨rfl, List.prefix_refl _, fun _ _ _ _ _ => by simp [State.sticky], fun r => ?_⟩
  cases r <;> simp [State.kept, State.src, State.tgt, State.msixEntry, State.inst, State.aerOf, State.areq]

theorem State.onlyChanges_ltrSince (s a : State) : s.onlyChanges (s.ltrSince a) [] := by
  refine ⟨rfl, List.prefix_append _ _, fun _ _ _ _ _ => by simp [State.sticky, State.ltrSince], fun r => .inr ?_⟩
  cases r <;> simp [State.kept, State.src, State.tgt, State.msixEntry, State.inst, State.aerOf, State.areq, State.ltrSince]

/-! ## A partition's entry -/

theorem State.wf_prt (h : s.wf = true) : tabWf partDflt s.prt.part = true := by
  simp only [State.wf, Prt.wf, Bool.and_eq_true] at h; simp_all

theorem State.wf_partCredit (h : s.wf = true) : tabWf (fun _ => (none : Option Int)) s.mov.partCredit = true := by
  simp only [State.wf, Mov.wf, Bool.and_eq_true] at h; simp_all

theorem State.wf_onPart (h : s.wf = true) (p : Nat) (f : Part → Part) : (s.onPart p f).wf = true :=
  (State.orderly_onPart p f s.orderly_refl).2.2 h

/-- An entry of a changed table is the changed one, or was listed. -/
theorem mem_tabMod {α : Type} [DecidableEq α] {d : Nat → α} {t : Tab α} {k : Nat} {f : α → α} {e : Nat × α} (h : e ∈ tabMod d t k f) :
    e = (k, f (tabGet d t k)) ∨ e ∈ t := by
  unfold tabMod tabPut at h
  split at h
  · exact .inr (mem_tabDel h)
  · exact mem_tabIns h

/-- In a settled hub no partition's shutdown goes on of its own accord. -/
theorem State.closing_settled (h : s.settled = true) (k : Nat) : (s.part k).closing = .none ∨ (s.part k).closing = .last := by
  rcases tabGet_listed partDflt s.prt.part k with e | e
  · left
    simp only [State.part, e, partDflt]
    split <;> rfl
  · exact (State.settled_parts h).2.2.1 _ e

theorem State.settled_onPart (h : s.settled = true) (k : Nat) (f : Part → Part) (hf : (f (s.part k)).closing = (s.part k).closing) :
    (s.onPart k f).settled = true := by
  have key : ∀ e ∈ (s.onPart k f).prt.part, e.2.closing = .none ∨ e.2.closing = .last := by
    intro e he
    rcases mem_tabMod he with rfl | he
    · rw [show (k, f (tabGet partDflt s.prt.part k)).2.closing = _ from hf]
      exact State.closing_settled h k
    · exact (State.settled_parts h).2.2.1 e he
  simp only [State.settled, Bool.and_eq_true, List.all_eq_true, Bool.or_eq_true, decide_eq_true_eq] at h ⊢
  obtain ⟨⟨⟨⟨⟨⟨⟨home, -⟩, drain⟩, entering⟩, settling⟩, flows⟩, loads⟩, strays⟩ := h
  exact ⟨⟨⟨⟨⟨⟨⟨home, key⟩, drain⟩, entering⟩, settling⟩, flows⟩, loads⟩, strays⟩

/-- L changes only with the set of ENABLED partitions (19_power_reset_and_bringup.md R390). -/
theorem State.latency_onPart (hw : s.wf = true) (p : Nat) (f : Part → Part)
    (hf : (f (s.part p)).st = .enabled ↔ (s.part p).st = .enabled) : (s.onPart p f).latency = s.latency := by
  have hb : (s.onPart p f).budgets = s.budgets := by
    unfold State.budgets
    congr 1
    refine List.filter_congr fun q _ => ?_
    rw [State.part_onPart (State.wf_prt hw)]
    split
    · next e => subst e; rw [decide_eq_decide.2 hf]; rfl
    · rfl
  rw [State.latency, State.latency, hb]

/-- Reading a table of which the entries of some indices were taken out. -/
theorem tabGet_filter {α : Type} [DecidableEq α] {d : Nat → α} {t : Tab α} (h : tabWf d t = true) (q : Nat → Bool) (k : Nat) :
    tabGet d (t.filter fun e => q e.1) k = if q k then tabGet d t k else d k := by
  induction t with
  | nil => simp [tabGet]
  | cons x r ih =>
    obtain ⟨i, a⟩ := x
    have ih := ih (tabWf_tail d h)
    have above := tabWf_above d h
    rw [List.filter_cons]
    by_cases hk : k = i
    · subst hk
      have : tabGet d (r.filter fun e => q e.1) k = d k := tabGet_below d fun e he => above e (List.mem_of_mem_filter he)
      split <;> simp_all [tabGet]
    · by_cases hlt : k < i
      · have : tabGet d (r.filter fun e => q e.1) k = d k :=
          tabGet_below d fun e he => hlt.trans (above e (List.mem_of_mem_filter he))
        split <;> simp [tabGet, hk, hlt, this]
      · split <;> simp [tabGet, hk, hlt, ih]

/-- A partition's credits at their depth, but for those that stored data has lost (06_movers.md R137; 18_stored_data_protection.md R370). -/
theorem State.partCredit_freshCredits (hw : s.wf = true) (p : Nat) {b : Nat} (hb : b < 23) :
    (s.freshCredits p).partCredit p b =
      if s.macroLost 0x10 (partCreditKey (p * 23 + b)) then s.partCredit p b else reedDepth (s.partShare p b) b := by
  have hd : (p * 23 + b) / 23 = p := by omega
  have e := tabGet_filter (State.wf_partCredit hw) (fun k => k / 23 ≠ p || s.macroLost 0x10 (partCreditKey k)) (p * 23 + b)
  rw [State.partCredit, State.freshCredits, State.onMov_mov, e]
  simp only [hd, ne_eq, not_true, decide_false, Bool.false_or]
  split <;> rfl

/-! ## What becomes of a partition -/

/-- The partition's state is the one given, no other partition and no quota changes, the LTR messages of the change go out, and only the parts
listed change. -/
def State.Becomes (s t : State) (p : Nat) (st : PartSt) (rs : List Region) : Prop :=
  t.part p = { s.part p with st := st } ∧ (∀ k, k ≠ p → t.part k = s.part k) ∧ t.prt = { s.prt with part := t.prt.part } ∧
    t.out = s.out ++ s.ltrs t ∧ s.onlyChanges t rs

theorem State.ltrs_same (h : t.latency = s.latency) : s.ltrs t = [] := by simp [State.ltrs, h]

/-- A partition that stays in its state. -/
theorem State.becomes_same (s : State) (p : Nat) : s.Becomes s p (s.part p).st [] :=
  ⟨rfl, fun _ _ => rfl, rfl, by simp [State.ltrs_same], s.onlyChanges_refl⟩

theorem State.Becomes.mono {p : Nat} {st : PartSt} {rs rs' : List Region} (h : s.Becomes t p st rs) (hr : ∀ r ∈ rs, r ∈ rs') :
    s.Becomes t p st rs' := by
  obtain ⟨h1, h2, h3, h4, h5⟩ := h
  exact ⟨h1, h2, h3, h4, State.onlyChanges_mono h5 hr⟩

/-- Counters and waits, before and after, take nothing from what becomes of a partition. -/
theorem State.Becomes.between {p : Nat} {st : PartSt} {rs : List Region} (h : u.Becomes v p st rs) (h1 : s.Quiet u) (h2 : v.Quiet t)
    (hs : s.wf = true) (hv : v.wf = true) : s.Becomes t p st rs := by
  obtain ⟨hp, hk, hprt, hout, hc⟩ := h
  refine ⟨?_, fun k e => ?_, ?_, ?_, ?_⟩
  · rw [h2.part, hp, h1.part]
  · rw [h2.part, hk k e, h1.part]
  · rw [h2.prt, hprt, h1.prt]
  · rw [h2.out, hout, h1.out, h1.ltrs h2]
  · simpa using State.onlyChanges_trans (State.onlyChanges_trans (h1.reports hs).2 hc) (h2.reports hv).2

/-- A partition that goes from one state to another, neither of them ENABLED. -/
theorem State.becomes_onPart (hw : s.wf = true) {p : Nat} {st : PartSt} (h1 : (s.part p).st ≠ .enabled) (h2 : st ≠ .enabled) :
    s.Becomes (s.onPart p fun q => { q with st := st }) p st [.prt] := by
  have hl : (s.onPart p fun q => { q with st := st }).latency = s.latency := State.latency_onPart hw p _ (by simp [h1, h2])
  refine ⟨?_, fun k e => ?_, rfl, by simp [State.ltrs_same hl], s.onlyChanges_onPart _ _⟩
  · rw [State.part_onPart (State.wf_prt hw), if_pos rfl]
  · rw [State.part_onPart (State.wf_prt hw), if_neg e]

/-- A partition comes from DISABLED to ENABLED: its credits stand at their depth, and a change of L is told to the hosts. -/
def State.withEnabled (s : State) (p : Nat) : State :=
  ((s.onPart p fun q => { q with st := .enabled }).freshCredits p).ltrSince s

theorem State.wf_withEnabled (hw : s.wf = true) (p : Nat) : (s.withEnabled p).wf = true :=
  (State.orderly_ltrSince s (State.orderly_freshCredits p (State.orderly_onPart p _ s.orderly_refl))).2.2 hw

theorem State.becomes_withEnabled (hw : s.wf = true) (p : Nat) : s.Becomes (s.withEnabled p) p .enabled [.prt, .mov] := by
  refine ⟨?_, fun k e => ?_, rfl, rfl, ?_⟩
  · exact (State.part_onPart (State.wf_prt hw) p p _).trans (if_pos rfl)
  · exact (State.part_onPart (State.wf_prt hw) p k _).trans (if_neg e)
  · exact State.onlyChanges_trans (State.onlyChanges_trans (s.onlyChanges_onPart p _) (State.onlyChanges_onMov _ _))
      (State.onlyChanges_ltrSince _ s)

/-! ## PRT_CTL, case by case (R285) -/

theorem State.psel_eq_zero (h : s.prt.psel.toNat = 0) : s.prt.psel = 0 := BitVec.eq_of_toNat_eq h

/-- The state an ENABLE leaves a partition in. -/
def PartSt.afterEnable : PartSt → PartSt
  | .disabled => .enabled | .enabled => .enabled | .disabling => .enablePending | .enablePending => .enablePending

/-- The state a DISABLE leaves a partition in. -/
def PartSt.afterDisable : PartSt → PartSt
  | .disabled => .disabled | _ => .disabling

theorem State.enablePart_part0 (h : s.prt.psel = 0) : s.enablePart = s.prtFlag 2 := by simp [State.enablePart, h]

theorem State.disablePart_part0 (h : s.prt.psel = 0) : s.disablePart = s.prtFlag 2 := by simp [State.disablePart, h]

theorem State.enablePart_noFunction (h : s.prt.psel ≠ 0) (hf : links4.any (s.fnOn s.prt.psel.toNat) = false) :
    s.enablePart = s.prtFlag 1 := by
  simp [State.enablePart, mt State.psel_eq_zero h, hf]

section
variable (h0 : s.prt.psel ≠ 0) (hf : links4.any (s.fnOn s.prt.psel.toNat) = true)
include h0

theorem State.disablePart_enabled (h : (s.part s.prt.psel.toNat).st = .enabled) : s.disablePart =
    (((s.onPart s.prt.psel.toNat fun q => { q with st := .disabling, drainAt := [] }).ltrSince s).ops pgPRT 1).startClose
      s.prt.psel.toNat := by
  simp [State.disablePart, mt State.psel_eq_zero h0, h]

theorem State.disablePart_enablePending (h : (s.part s.prt.psel.toNat).st = .enablePending) :
    s.disablePart = s.onPart s.prt.psel.toNat fun q => { q with st := .disabling } := by
  simp [State.disablePart, mt State.psel_eq_zero h0, h]

theorem State.disablePart_noEffect (h : (s.part s.prt.psel.toNat).st = .disabled ∨ (s.part s.prt.psel.toNat).st = .disabling) :
    s.disablePart = s := by
  rcases h with h | h <;> simp [State.disablePart, mt State.psel_eq_zero h0, h]

include hf

theorem State.enablePart_disabled (h : (s.part s.prt.psel.toNat).st = .disabled) : s.enablePart =
    (s.withEnabled s.prt.psel.toNat).ops pgPRT 1 := by
  simp [State.enablePart, State.withEnabled, mt State.psel_eq_zero h0, hf, h]

theorem State.enablePart_disabling (h : (s.part s.prt.psel.toNat).st = .disabling) :
    s.enablePart = s.onPart s.prt.psel.toNat fun q => { q with st := .enablePending } := by
  simp [State.enablePart, mt State.psel_eq_zero h0, hf, h]

theorem State.enablePart_noEffect (h : (s.part s.prt.psel.toNat).st = .enabled ∨ (s.part s.prt.psel.toNat).st = .enablePending) :
    s.enablePart = s := by
  rcases h with h | h <;> simp [State.enablePart, mt State.psel_eq_zero h0, hf, h]

end

theorem State.wf_enablePart (h : s.wf = true) : s.enablePart.wf = true := (State.orderly_enablePart s.orderly_refl).2.2 h

theorem State.wf_disablePart (h : s.wf = true) : s.disablePart.wf = true := (State.orderly_disablePart s.orderly_refl).2.2 h

/-- The parts that an ENABLE or a DISABLE of a partition in this state may change. -/
def PartSt.regions (st : PartSt) : List Region := if st = .disabled then [.prt, .mov] else [.prt]

theorem State.becomes_enablePart (hw : s.wf = true) (h0 : s.prt.psel ≠ 0) (hf : links4.any (s.fnOn s.prt.psel.toNat) = true) :
    s.Becomes s.enablePart s.prt.psel.toNat (s.part s.prt.psel.toNat).st.afterEnable (s.part s.prt.psel.toNat).st.regions := by
  have same := s.becomes_same s.prt.psel.toNat
  cases h : (s.part s.prt.psel.toNat).st with
  | disabled =>
    rw [State.enablePart_disabled h0 hf h]
    exact (State.becomes_withEnabled hw _).between (.refl s) (State.quiet_ops _ _ _) hw (State.wf_withEnabled hw _)
  | enabled =>
    rw [State.enablePart_noEffect h0 hf (.inl h)]
    rw [h] at same
    exact same.mono (by simp)
  | disabling =>
    rw [State.enablePart_disabling h0 hf h]
    exact State.becomes_onPart hw (by simp [h]) (by simp)
  | enablePending =>
    rw [State.enablePart_noEffect h0 hf (.inr h)]
    rw [h] at same
    exact same.mono (by simp)

theorem State.becomes_disablePart (hw : s.wf = true) (h0 : s.prt.psel ≠ 0) (he : (s.part s.prt.psel.toNat).st ≠ .enabled) :
    s.Becomes s.disablePart s.prt.psel.toNat (s.part s.prt.psel.toNat).st.afterDisable (s.part s.prt.psel.toNat).st.regions := by
  have same := s.becomes_same s.prt.psel.toNat
  cases h : (s.part s.prt.psel.toNat).st with
  | disabled =>
    rw [State.disablePart_noEffect h0 (.inl h)]
    rw [h] at same
    exact same.mono (by simp)
  | enabled => exact absurd h he
  | disabling =>
    rw [State.disablePart_noEffect h0 (.inr h)]
    rw [h] at same
    exact same.mono (by simp)
  | enablePending =>
    rw [State.disablePart_enablePending h0 h]
    exact State.becomes_onPart hw (by simp [h]) (by simp)

/-- An ENABLE that enables touches no part of the movers but the credits of partitions. -/
theorem State.mov_enablePart (h0 : s.prt.psel ≠ 0) (hf : links4.any (s.fnOn s.prt.psel.toNat) = true)
    (h : (s.part s.prt.psel.toNat).st = .disabled) : s.enablePart.mov = { s.mov with partCredit := s.enablePart.mov.partCredit } := by
  rw [State.enablePart_disabled h0 hf h, (State.quiet_ops _ _ _).mov]
  rfl

theorem State.partCredit_enablePart (hw : s.wf = true) (h0 : s.prt.psel ≠ 0) (hf : links4.any (s.fnOn s.prt.psel.toNat) = true)
    (h : (s.part s.prt.psel.toNat).st = .disabled) {b : Nat} (hb : b < 23) :
    s.enablePart.partCredit s.prt.psel.toNat b = if s.macroLost 0x10 (partCreditKey (s.prt.psel.toNat * 23 + b))
      then s.partCredit s.prt.psel.toNat b else reedDepth (s.partShare s.prt.psel.toNat b) b := by
  rw [State.enablePart_disabled h0 hf h, (State.quiet_ops _ _ _).partCredit]
  exact State.partCredit_freshCredits (State.wf_onPart hw _ _) _ hb

/-! ## From rest -/

theorem State.reports_prtFlag (s : State) {b : Nat} (hb : b < 64) : s.reports (s.prtFlag b) [(pgPRT, 0, b)] :=
  s.reports_flag pgPRT 0 b 0 0 (by decide) hb

/-- The hub is settled and in Run: nothing moves in it before the next command. -/
def State.Rests (s : State) : Prop := s.settled = true ∧ s.pwr.st = .run

theorem State.rests_prtFlag (h : s.Rests) (hw : s.wf = true) {b : Nat} (hb : b < 64) : (s.prtFlag b).Rests := by
  obtain ⟨e1, e2⟩ := State.settled_kept (s.reports_prtFlag hb hw).2 (by simp)
  exact ⟨e1.trans h.1, e2.trans h.2⟩

theorem State.Quiet.rests (q : s.Quiet t) (h : s.Rests) (hw : s.wf = true) : t.Rests :=
  ⟨(q.settled hw).trans h.1, by rw [q.pwr]; exact h.2⟩

theorem State.rests_onPart (h : s.Rests) (k : Nat) (f : Part → Part) (hf : (f (s.part k)).closing = (s.part k).closing) :
    (s.onPart k f).Rests :=
  ⟨State.settled_onPart h.1 k f hf, h.2⟩

theorem State.rests_enablePart (h : s.Rests) (hw : s.wf = true) (h0 : s.prt.psel ≠ 0)
    (hf : links4.any (s.fnOn s.prt.psel.toNat) = true) : s.enablePart.Rests := by
  cases e : (s.part s.prt.psel.toNat).st with
  | disabled =>
    rw [State.enablePart_disabled h0 hf e]
    refine (State.quiet_ops _ _ _).rests ?_ (State.wf_withEnabled hw _)
    exact State.rests_onPart h s.prt.psel.toNat (fun q => { q with st := .enabled }) rfl
  | enabled => rwa [State.enablePart_noEffect h0 hf (.inl e)]
  | disabling => rw [State.enablePart_disabling h0 hf e]; exact State.rests_onPart h _ _ rfl
  | enablePending => rwa [State.enablePart_noEffect h0 hf (.inr e)]

theorem State.rests_disablePart (h : s.Rests) (h0 : s.prt.psel ≠ 0) (he : (s.part s.prt.psel.toNat).st ≠ .enabled) :
    s.disablePart.Rests := by
  cases e : (s.part s.prt.psel.toNat).st with
  | disabled => rwa [State.disablePart_noEffect h0 (.inl e)]
  | enabled => exact absurd e he
  | disabling => rwa [State.disablePart_noEffect h0 (.inr e)]
  | enablePending => rw [State.disablePart_enablePending h0 e]; exact State.rests_onPart h _ _ rfl

section
variable (ho : s.hostOpen 0 = true)
include ho

theorem State.hostOpen_wf : s.wf = true := by
  simp only [State.hostOpen, Bool.and_eq_true] at ho; exact State.atRest_wf ho.1

theorem State.wf_tlp : s.tlp.wf = true := (s.quiet_tlp.reports (State.hostOpen_wf ho)).1

/-- A hub open to the host rests once it has counted the TLP. -/
theorem State.rests_tlp : s.tlp.Rests := by
  have hw := State.hostOpen_wf ho
  simp only [State.hostOpen, Bool.and_eq_true] at ho
  exact s.quiet_tlp.rests ⟨State.atRest_settled ho.1, State.atRest_run ho.1⟩ hw

theorem State.onPage_rests (f : State → State) (h : (f s.tlp).Rests) : s.onPage 0 f = (f s.tlp).settleArbs :=
  State.onPage_rest ho f h.1 h.2

/-- An access that sets a PRT sticky bit does nothing else. -/
theorem State.onPage_prtFlag (f : State → State) {b : Nat} (hb : b < 64) (h : f s.tlp = s.tlp.prtFlag b) :
    s.onlyChanges (s.onPage 0 f) [] [(pgPRT, 0, b)] := by
  rw [State.onPage_rests ho f (by rw [h]; exact State.rests_prtFlag (State.rests_tlp ho) (State.wf_tlp ho) hb), h]
  have r := State.reports_then s.quiet_tlp.reports (s.tlp.reports_prtFlag hb)
  exact (State.reports_after r (State.reports_settleArbs _) (State.hostOpen_wf ho)).2

end

/-- Both commands are accesses to PRT_CTL, a register of PF0 (R285, R303). -/
theorem exec_enable (s : State) : exec .enable s = .next (s.onPage 0 State.enablePart) := rfl

theorem exec_disable (s : State) : exec .disable s = .next (s.onPage 0 State.disablePart) := rfl

section
variable (ho : s.hostOpen 0 = true) (h0 : s.prt.psel ≠ 0)
include ho h0

theorem State.onPage_enablePart (hf : links4.any (s.fnOn s.prt.psel.toNat) = true) :
    s.onPage 0 State.enablePart = s.tlp.enablePart.settleArbs := by
  have q := s.quiet_tlp
  rw [← q.prt] at h0 hf
  rw [← q.fnOn] at hf
  exact State.onPage_rests ho _ (State.rests_enablePart (State.rests_tlp ho) (State.wf_tlp ho) h0 hf)

theorem State.becomes_enable (hf : links4.any (s.fnOn s.prt.psel.toNat) = true) : s.Becomes (s.onPage 0 State.enablePart)
    s.prt.psel.toNat (s.part s.prt.psel.toNat).st.afterEnable (s.part s.prt.psel.toNat).st.regions := by
  rw [State.onPage_enablePart ho h0 hf]
  have q := s.quiet_tlp
  have hw := State.wf_tlp ho
  rw [← q.prt] at h0 hf
  rw [← q.fnOn] at hf
  have b := State.becomes_enablePart hw h0 hf
  rw [q.part, q.prt] at b
  exact b.between q (State.quiet_settleArbs _) (State.hostOpen_wf ho) (State.wf_enablePart hw)

theorem State.credits_enable (hf : links4.any (s.fnOn s.prt.psel.toNat) = true) (h : (s.part s.prt.psel.toNat).st = .disabled) :
    (s.onPage 0 State.enablePart).mov = { s.mov with partCredit := (s.onPage 0 State.enablePart).mov.partCredit } ∧
      ∀ b, b < 23 → (s.onPage 0 State.enablePart).partCredit s.prt.psel.toNat b =
        if s.macroLost 0x10 (partCreditKey (s.prt.psel.toNat * 23 + b)) then s.partCredit s.prt.psel.toNat b
        else reedDepth (s.partShare s.prt.psel.toNat b) b := by
  rw [State.onPage_enablePart ho h0 hf]
  have q := s.quiet_tlp
  have q' := s.tlp.enablePart.quiet_settleArbs
  have hw := State.wf_tlp ho
  rw [← q.prt] at h0 hf h
  rw [← q.fnOn] at hf
  rw [← q.part] at h
  refine ⟨?_, fun b hb => ?_⟩
  · rw [q'.mov, ← q.mov]
    exact State.mov_enablePart h0 hf h
  · have e := State.partCredit_enablePart hw h0 hf h hb
    rw [q.prt, q.partCredit, q.macroLost, q.partShare] at e
    rw [q'.partCredit, e]

theorem State.becomes_disable (he : (s.part s.prt.psel.toNat).st ≠ .enabled) : s.Becomes (s.onPage 0 State.disablePart)
    s.prt.psel.toNat (s.part s.prt.psel.toNat).st.afterDisable (s.part s.prt.psel.toNat).st.regions := by
  have q := s.quiet_tlp
  have hw := State.wf_tlp ho
  rw [← q.prt] at h0 he
  rw [← q.part] at he
  have b := State.becomes_disablePart hw h0 he
  rw [State.onPage_rests ho _ (State.rests_disablePart (State.rests_tlp ho) h0 he)]
  rw [q.part, q.prt] at b
  exact b.between q (State.quiet_settleArbs _) (State.hostOpen_wf ho) (State.wf_disablePart hw)

end

/-! ## A DISABLE in any state of the hub -/

/-- The hub's own work moves on a partition's shutdown alone. -/
theorem State.steady_part (h : s.steady t) (hw : s.wf = true) (k : Nat) : { t.part k with closing := (s.part k).closing } = s.part k := by
  obtain ⟨-, -, -, -, -, -, -, -, -, -, -, ⟨-, -, hpart⟩, -⟩ := (h.2 hw).2.1
  exact hpart k

theorem State.steady_psel (h : s.steady t) (hw : s.wf = true) : t.prt.psel = s.prt.psel := by
  obtain ⟨-, -, -, -, -, -, -, -, -, -, -, ⟨hsel, -⟩, -⟩ := (h.2 hw).2.1
  exact hsel

theorem State.steady_inFlr (h : s.steady t) (hw : s.wf = true) (f : Nat) : t.inFlr f = s.inFlr f := by
  obtain ⟨-, -, ⟨-, -, -, -, -, hflr, -⟩, -⟩ := (h.2 hw).2.1
  simp only [State.inFlr, hflr]

/-- A hub that is on and in no FLR of PF0 takes the access, whatever it is doing. -/
theorem State.onPage_on (h : s.on = true) (hw : s.wf = true) (hf : s.inFlr 0 = false) (f : State → State) :
    s.onPage 0 f = (f s.awake.tlp).runOn := by
  unfold State.on at h
  simp only [State.onPage, State.paged, State.act, State.inner, h, if_true,
    State.steady_inFlr (State.steady_awake s.steady_refl) hw, hf, Bool.false_eq_true, if_false]

/-- After the partition has entered DISABLING, a DISABLE is the hub's own work: the disable sequence (R286). -/
theorem State.steady_disablePart (h0 : s.prt.psel ≠ 0) (he : (s.part s.prt.psel.toNat).st = .enabled) :
    (s.onPart s.prt.psel.toNat fun q => { q with st := .disabling, drainAt := [] }).steady s.disablePart := by
  rw [State.disablePart_enabled h0 he]
  exact State.steady_startClose _ (State.steady_ops _ _ (State.steady_ltrSince _ (State.steady_refl _)))

/-- Entries that agree but for the shutdown. -/
theorem Part.closing_congr {a b : Part} (h : { a with closing := b.closing } = b) (c : Closing) :
    { a with closing := c } = { b with closing := c } := by
  rw [← h]

theorem State.disable_enabled (h : s.on = true) (hw : s.wf = true) (hf : s.inFlr 0 = false) (h0 : s.prt.psel ≠ 0)
    (he : (s.part s.prt.psel.toNat).st = .enabled) :
    { (s.onPage 0 State.disablePart).part s.prt.psel.toNat with closing := .none } =
        { s.part s.prt.psel.toNat with st := .disabling, drainAt := [], closing := .none } ∧
      (∀ k, k ≠ s.prt.psel.toNat → { (s.onPage 0 State.disablePart).part k with closing := (s.part k).closing } = s.part k) ∧
      (s.onPage 0 State.disablePart).prt.psel = s.prt.psel ∧ (s.onPage 0 State.disablePart).glb.time = s.glb.time ∧
      (s.onPage 0 State.disablePart).pending = s.pending := by
  rw [State.onPage_on h hw hf]
  have h1 : s.steady s.awake.tlp := State.steady_tlp (State.steady_awake s.steady_refl)
  generalize s.awake.tlp = u at h1
  have hu : u.wf = true := (h1.2 hw).1
  have hsel := State.steady_psel h1 hw
  have hpart := State.steady_part h1 hw
  have heu : (u.part u.prt.psel.toNat).st = .enabled := by rw [hsel, ← he, ← hpart]
  rw [← hsel] at h0 ⊢
  have h2 := State.steady_runOn (State.steady_disablePart h0 heu)
  generalize u.disablePart.runOn = t at h2
  have hv := State.wf_onPart hu u.prt.psel.toNat fun q => { q with st := .disabling, drainAt := [] }
  have hsel' : t.prt.psel = u.prt.psel := State.steady_psel (s := u.onPart _ _) h2 hv
  have hpart' := State.steady_part h2 hv
  refine ⟨?_, fun k hk => ?_, hsel', h2.1.1.trans h1.1.1, h2.1.2.2.2.1.trans h1.1.2.2.2.1⟩
  · have e := Part.closing_congr (hpart' u.prt.psel.toNat) .none
    rw [State.part_onPart (State.wf_prt hu), if_pos rfl] at e
    rw [e, ← hpart]
  · have e := Part.closing_congr (hpart' k) (s.part k).closing
    rw [State.part_onPart (State.wf_prt hu), if_neg hk] at e
    rw [e, hpart]

/-- Settles O28: from rest PRT_CTL is its own effect between counters and waits; a DISABLE that disables is followed by the hub's own work, which
moves on shutdowns alone. -/
theorem partitionControl : Obligations.PartitionControl := by
  unfold Obligations.PartitionControl
  refine ⟨fun s ho h0 => ⟨⟨_, exec_enable s, ?_⟩, _, exec_disable s, ?_⟩, fun s ho h0 hf => ⟨_, exec_enable s, ?_⟩,
    fun s ho h0 hf => ⟨_, exec_enable s, State.becomes_enable ho h0 hf, State.credits_enable ho h0 hf⟩,
    fun s ho h0 he => ⟨_, exec_disable s, State.becomes_disable ho h0 he⟩,
    fun s h hw hf h0 he => ⟨_, exec_disable s, State.disable_enabled h hw hf h0 he⟩⟩
  · exact State.onPage_prtFlag ho _ (by decide) (State.enablePart_part0 (by rw [s.quiet_tlp.prt, h0]))
  · exact State.onPage_prtFlag ho _ (by decide) (State.disablePart_part0 (by rw [s.quiet_tlp.prt, h0]))
  · have q := s.quiet_tlp
    exact State.onPage_prtFlag ho _ (by decide) (State.enablePart_noFunction (by rwa [q.prt]) (by rw [q.prt, q.fnOn]; exact hf))

end Sys2Proof.Machine
end

section
/-! SUPPORT. The event concentrator (16_event_concentrator.md R349 to R356): the best source at a target, what a claim and a complete make of
sources, targets and ports, and an access to a register of a hub at rest. -/

namespace Sys2Proof.Machine

variable {s t u : State}

/-! ## Indices of a table -/

theorem tabGet_of_mem {α : Type} [DecidableEq α] {d : Nat → α} {l : Tab α} (h : tabWf d l = true) {e : Nat × α} (he : e ∈ l) :
    tabGet d l e.1 = e.2 := by
  induction l with
  | nil => simp at he
  | cons x r ih =>
    obtain ⟨i, a⟩ := x
    rcases List.mem_cons.1 he with rfl | he
    · simp [tabGet]
    · have above := tabWf_above d h e he
      simp only [tabGet, above.ne', above.not_gt, if_false]
      exact ih (tabWf_tail d h) he

theorem tabWf_pairwise {α : Type} [DecidableEq α] {d : Nat → α} {l : Tab α} (h : tabWf d l = true) :
    l.Pairwise fun a b => a.1 < b.1 := by
  induction l with
  | nil => exact .nil
  | cons x r ih => exact .cons (fun b hb => tabWf_above d h b hb) (ih (tabWf_tail d h))

theorem dropFirst_eq_eraseP {α : Type} (p : α → Bool) (l : List α) : dropFirst p l = l.eraseP p := by
  induction l with
  | nil => rfl
  | cons a r ih => rw [dropFirst, List.eraseP_cons, ih, cond_eq_ite]

/-! ## The best source at a target (R349, R351) -/

/-- A source is weighed against the best one before it: it must be eligible, and of a higher level. -/
def better (g : Target) (i : Nat) (b : Option (Nat × Source)) (e : Nat × Source) : Option (Nat × Source) :=
  if eligible g i e.2 then
    match b with
    | none => some e
    | some q => if q.2.level < e.2.level then some e else some q
  else b

theorem State.best_eq_foldl (s : State) (i : Nat) : s.best i = s.evc.src.foldl (better (s.tgt i) i) none := rfl

section
variable {g : Target} {i : Nat} {e : Nat × Source}

theorem better_of_ineligible (b : Option (Nat × Source)) (h : eligible g i e.2 = false) : better g i b e = b := by
  simp [better, h]

theorem better_of_le {q : Nat × Source} (h : eligible g i e.2 = true → e.2.level ≤ q.2.level) : better g i (some q) e = some q := by
  unfold better
  split
  · next he => exact if_neg (BitVec.not_lt.2 (h he))
  · rfl

theorem better_of_below (he : eligible g i e.2 = true) {b : Option (Nat × Source)} (h : ∀ q ∈ b, q.2.level < e.2.level) :
    better g i b e = some e := by
  cases b with
  | none => simp [better, he]
  | some q => simp only [better, he, if_true]; exact if_pos (h q rfl)

/-- Sources none of which is eligible leave the best one as it is. -/
theorem foldl_better_ineligible (l : List (Nat × Source)) (b : Option (Nat × Source)) (h : ∀ e ∈ l, eligible g i e.2 = false) :
    l.foldl (better g i) b = b :=
  List.foldlRecOn l (better g i) (motive := (· = b)) rfl fun c hc e he => by rw [hc]; exact better_of_ineligible b (h e he)

/-- Sources none of which is above it leave the best one as it is. -/
theorem foldl_better_le (l : List (Nat × Source)) (q : Nat × Source) (h : ∀ e ∈ l, eligible g i e.2 = true → e.2.level ≤ q.2.level) :
    l.foldl (better g i) (some q) = some q :=
  List.foldlRecOn l (better g i) (motive := (· = some q)) rfl fun c hc e he => by rw [hc]; exact better_of_le (h e he)

/-- The best of sources below a level is below it. -/
theorem foldl_better_below (l : List (Nat × Source)) (v : BitVec 5) (h : ∀ e ∈ l, eligible g i e.2 = true → e.2.level < v) :
    ∀ q ∈ l.foldl (better g i) none, q.2.level < v := by
  refine List.foldlRecOn l (better g i) (motive := fun b => ∀ q ∈ b, q.2.level < v) ?_ fun b hb e he => ?_
  · simp
  have he := h e he
  unfold better
  split
  · next hel =>
    cases b with
    | none => simpa using he hel
    | some q =>
      dsimp only
      split
      · simpa using he hel
      · exact hb
  · exact hb

/-- The first of the highest among the eligible sources of a list is the best. -/
theorem foldl_better_append (l1 l2 : List (Nat × Source)) (he : eligible g i e.2 = true)
    (h1 : ∀ x ∈ l1, eligible g i x.2 = true → x.2.level < e.2.level)
    (h2 : ∀ x ∈ l2, eligible g i x.2 = true → x.2.level ≤ e.2.level) : (l1 ++ e :: l2).foldl (better g i) none = some e := by
  rw [List.foldl_append, List.foldl_cons, better_of_below he (foldl_better_below l1 _ h1), foldl_better_le l2 e h2]

end

theorem State.wf_src (h : s.wf = true) : tabWf srcDflt s.evc.src = true := by
  simp only [State.wf, Evc.wf, Bool.and_eq_true] at h; simp_all

theorem State.wf_tgt (h : s.wf = true) : tabWf tgtDflt s.evc.tgt = true := by
  simp only [State.wf, Evc.wf, Bool.and_eq_true] at h; simp_all

theorem eligible_srcDflt (g : Target) (i n : Nat) : eligible g i (srcDflt n) = false := by
  unfold srcDflt eligible
  split <;> rfl

/-- Source `n` is eligible at target `i`, and no eligible source there is of a higher level, or of its level and of a lower number. -/
def State.Leads (s : State) (i n : Nat) : Prop :=
  eligible (s.tgt i) i (s.src n) = true ∧ ∀ m, eligible (s.tgt i) i (s.src m) = true →
    (s.src m).level < (s.src n).level ∨ ((s.src m).level = (s.src n).level ∧ n ≤ m)

theorem State.best_of_leads (hw : s.wf = true) {i n : Nat} (h : s.Leads i n) : s.best i = some (n, s.src n) := by
  obtain ⟨he, hl⟩ := h
  have hmem : (n, s.src n) ∈ s.evc.src := (tabGet_listed srcDflt s.evc.src n).resolve_left fun hd => by
    rw [State.src, hd, eligible_srcDflt] at he
    exact Bool.noConfusion he
  have hsrc : ∀ e ∈ s.evc.src, s.src e.1 = e.2 := fun e he => tabGet_of_mem (State.wf_src hw) he
  obtain ⟨l1, l2, hsplit⟩ := List.append_of_mem hmem
  have hlow : ∀ e ∈ l1, e.1 < n := fun e he =>
    (List.pairwise_append.1 (hsplit ▸ tabWf_pairwise (State.wf_src hw))).2.2 e he _ List.mem_cons_self
  have hlead : ∀ e ∈ l1 ++ (n, s.src n) :: l2, eligible (s.tgt i) i e.2 = true →
      e.2.level < (s.src n).level ∨ (e.2.level = (s.src n).level ∧ n ≤ e.1) := fun e hm hel => by
    rw [← hsplit] at hm
    rw [← hsrc e hm] at hel ⊢
    exact hl e.1 hel
  rw [State.best_eq_foldl, hsplit]
  refine foldl_better_append l1 l2 he (fun e hm hel => ?_) fun e hm hel => ?_
  · exact (hlead e (by simp [hm]) hel).resolve_right fun hr => absurd hr.2 (hlow e hm).not_ge
  · exact (hlead e (by simp [hm]) hel).elim BitVec.le_of_lt fun hr => hr.1 ▸ BitVec.le_refl _

theorem State.best_of_none (hw : s.wf = true) {i : Nat} (h : ∀ m, eligible (s.tgt i) i (s.src m) = false) : s.best i = none := by
  rw [State.best_eq_foldl]
  refine foldl_better_ineligible _ _ fun e he => ?_
  rw [← tabGet_of_mem (State.wf_src hw) he]
  exact h e.1

/-- The best source at a target rests on the sources, and on what makes them eligible there. -/
theorem State.best_congr {i : Nat} (hs : t.evc.src = s.evc.src) (he : eligible (t.tgt i) i = eligible (s.tgt i) i) :
    t.best i = s.best i := by
  simp only [State.best, hs, he]

/-- What a claim stack with one entry more leaves eligible was eligible before, and is above that entry. -/
theorem eligible_push {g : Target} {i n : Nat} {l : BitVec 5} {x : Source} (hl : running g < l)
    (h : eligible { g with stack := (n, l) :: g.stack } i x = true) : eligible g i x = true ∧ l < x.level := by
  simp only [eligible, Bool.and_eq_true, decide_eq_true_eq] at h ⊢
  obtain ⟨⟨⟨⟨hp, ht⟩, hv⟩, hth⟩, hrun⟩ := h
  exact ⟨⟨⟨⟨⟨hp, ht⟩, hv⟩, hth⟩, BitVec.lt_trans hl hrun⟩, hrun⟩

theorem running_lt_of_eligible {g : Target} {i : Nat} {x : Source} (h : eligible g i x = true) : running g < x.level := by
  simp only [eligible, Bool.and_eq_true, decide_eq_true_eq] at h
  exact h.2

/-! ## What leaves the concentrator, GLB_TIME and the ports alone -/

@[simp] theorem State.ops_evc (s : State) (pg n : Nat) : (s.ops pg n).evc = s.evc := by
  unfold State.ops State.onCount
  split <;> rfl

@[simp] theorem State.ops_time (s : State) (pg n : Nat) : (s.ops pg n).glb.time = s.glb.time := by
  unfold State.ops State.onCount
  split <;> rfl

@[simp] theorem State.tlp_evc (s : State) : s.tlp.evc = s.evc := s.ops_evc _ _

@[simp] theorem State.tlp_time (s : State) : s.tlp.glb.time = s.glb.time := s.ops_time _ _

@[simp] theorem State.emit_evc (s : State) (o : Out) : (s.emit o).evc = s.evc := by
  unfold State.emit State.bytes State.onCount
  split
  · rfl
  · split <;> rfl

@[simp] theorem State.emit_out (s : State) (o : Out) : (s.emit o).out = s.out ++ [o] := by
  unfold State.emit State.bytes State.onCount
  split
  · rfl
  · split <;> rfl

theorem State.dropRequests_evc (s : State) (a : Nat) (reqs : List (Nat × Bool)) : (s.dropRequests a reqs).evc = s.evc := by
  refine foldl_keeps (fun t => t.evc = s.evc) _ ?_ _ s rfl
  exact fun _ _ h => h

@[simp] theorem State.settleArbs_evc (s : State) : s.settleArbs.evc = s.evc :=
  foldl_keeps (fun t => t.evc = s.evc) _ (fun t a h => (t.dropRequests_evc a _).trans h) _ s rfl

theorem State.nocTry_evc (s : State) (o : Out) : (s.nocTry o).evc = s.evc := by
  unfold State.nocTry
  split
  · exact s.emit_evc o
  · split
    · rfl
    · exact State.emit_evc _ o

theorem State.send_evc (s : State) (o : Out) : (s.send o).evc = s.evc := by
  unfold State.send
  split
  · rfl
  · exact s.nocTry_evc o

theorem State.msix_evc (s : State) (f v : Nat) : (s.msix f v).evc = s.evc := by
  unfold State.msix
  dsimp only
  split
  · rfl
  · split
    · rfl
    · split
      · rfl
      · exact State.emit_evc _ _

theorem State.pmeEdge_evc (s : State) (f : Nat) : (s.pmeEdge f).evc = s.evc := by
  unfold State.pmeEdge
  dsimp only
  split
  · rfl
  · split
    · rfl
    · exact State.emit_evc _ _

theorem State.deliver_evc (s : State) (i : Nat) : (s.deliver i).evc = s.evc := by
  unfold State.deliver
  dsimp only
  split
  · exact (State.msix_evc _ _ _).trans (State.pmeEdge_evc _ _)
  · split
    · rfl
    · exact State.send_evc _ _

theorem State.src_congr (h : t.evc = s.evc) (n : Nat) : t.src n = s.src n := by simp only [State.src, h]

theorem State.tgt_congr (h : t.evc = s.evc) (n : Nat) : t.tgt n = s.tgt n := by simp only [State.tgt, h]

theorem State.src_onTgt (s : State) (i n : Nat) (f : Target → Target) : (s.onTgt i f).src n = s.src n := rfl

theorem State.tgt_onSrc (s : State) (n i : Nat) (f : Source → Source) : (s.onSrc n f).tgt i = s.tgt i := rfl

theorem State.holdsTarget_congr (h : t.evc = s.evc) (p n : Nat) : t.holdsTarget p n = s.holdsTarget p n := by
  simp only [State.holdsTarget, State.tgt_congr h]

/-! ## REQUEST follows the sources (R349, R350) -/

/-- Of the concentrator only REQUEST changes. -/
theorem State.refresh_evc (s : State) (i : Nat) : (s.refresh i).evc = (s.onTgt i fun g => { g with req := (s.best i).isSome }).evc := by
  rw [State.refresh_eq]
  dsimp only
  split <;> split <;> simp only [State.deliver_evc, State.emit_evc]

theorem State.refresh_src (s : State) (i n : Nat) : (s.refresh i).src n = s.src n := by
  simp only [State.src, s.refresh_evc]
  rfl

theorem State.refresh_tgt (hw : s.wf = true) (i j : Nat) :
    (s.refresh i).tgt j = if j = i then { s.tgt i with req := (s.best i).isSome } else s.tgt j :=
  (State.tgt_congr (s.refresh_evc i) j).trans (State.tgt_onTgt (State.wf_tgt hw) i j _)

theorem State.refresh_best (hw : s.wf = true) (i : Nat) : (s.refresh i).best i = s.best i := by
  refine State.best_congr (by rw [s.refresh_evc]; rfl) ?_
  rw [State.refresh_tgt hw, if_pos rfl]
  rfl

/-- With no eligible source nothing is delivered, and evt_out falls where it stood. -/
theorem State.refresh_out (s : State) {i : Nat} (h : s.best i = none) :
    (s.refresh i).out = s.out ++ if 192 ≤ i ∧ (s.tgt i).req = true then [.evtOut (i - 192) false] else [] := by
  have hfalls : false ≠ (s.tgt i).req ↔ (s.tgt i).req = true := by simp
  simp only [State.refresh_eq, h, Option.isSome_none, Bool.false_and, Bool.false_eq_true, if_false, decide_eq_true_eq, hfalls]
  by_cases hf : 192 ≤ i ∧ (s.tgt i).req = true
  · rw [if_pos hf, if_pos hf]
    exact State.emit_out _ _
  · rw [if_neg hf, if_neg hf]
    exact (List.append_nil _).symm

/-! ## Changes of listed parts that keep the tables' form -/

/-- The tables' form is kept, and only the parts and the sticky bits listed change. -/
def State.alters (s t : State) (rs : List Region) (l : List (Nat × Nat × Nat) := []) : Prop :=
  s.wf = true → t.wf = true ∧ s.onlyChanges t rs l

section
variable {r1 r2 rs : List Region} {l : List (Nat × Nat × Nat)}

theorem State.alters_of_reports (h : s.reports t l) : s.alters t [] l := h

theorem State.alters_then (h1 : s.alters t r1) (h2 : t.alters u r2 l) : s.alters u (r1 ++ r2) l :=
  fun hw => ⟨(h2 (h1 hw).1).1, State.onlyChanges_trans (l1 := []) (h1 hw).2 (h2 (h1 hw).1).2⟩

/-- A report after a change adds no part. -/
theorem State.alters_report (h1 : s.alters t rs l) (h2 : t.reports u) : s.alters u rs l :=
  fun hw => ⟨(h2 (h1 hw).1).1, by simpa using State.onlyChanges_trans (h1 hw).2 (h2 (h1 hw).1).2⟩

theorem State.alters_onEvc (s : State) (f : Evc → Evc) (hf : s.evc.wf = true → (f s.evc).wf = true) : s.alters (s.onEvc f) [.evc] := by
  intro h
  refine ⟨?_, rfl, List.prefix_refl _, fun _ _ _ _ _ => by simp [State.sticky], fun r => ?_⟩
  · simp only [State.wf, Bool.and_eq_true] at h ⊢; simp_all
  · cases r <;> simp [State.kept, State.msixEntry, State.inst, State.aerOf, State.areq]

theorem State.alters_onSrc (s : State) (n : Nat) (f : Source → Source) : s.alters (s.onSrc n f) [.evc] :=
  s.alters_onEvc _ fun h => by simp only [Evc.wf, Bool.and_eq_true] at h ⊢; simp_all

theorem State.alters_onTgt (s : State) (i : Nat) (f : Target → Target) : s.alters (s.onTgt i f) [.evc] :=
  s.alters_onEvc _ fun h => by simp only [Evc.wf, Bool.and_eq_true] at h ⊢; simp_all

/-! ## An access from rest that alters the concentrator alone -/

theorem State.hostOpen_atRest {fn : Nat} (h : s.hostOpen fn = true) : s.atRest = true := by
  simp only [State.hostOpen, Bool.and_eq_true] at h; exact h.1

theorem State.rests_of_atRest (h : s.atRest = true) : s.Rests := ⟨State.atRest_settled h, State.atRest_run h⟩

theorem State.alters_rests (h : s.alters t rs l) (hr : ∀ r ∈ rs, r = .evc) (hs : s.Rests) (hw : s.wf = true) : t.Rests := by
  obtain ⟨e1, e2⟩ := State.settled_kept (h hw).2 fun r hr' hm => by
    rw [hr r hm] at hr'
    simp at hr'
  exact ⟨e1.trans hs.1, e2.trans hs.2⟩

variable {fn : Nat} (ho : s.hostOpen fn = true) (hr : ∀ r ∈ rs, r = .evc)
include ho hr

theorem State.onPage_alters {f : State → State} (h : s.tlp.alters (f s.tlp) rs l) :
    s.onPage fn f = (f s.tlp).settleArbs ∧ s.onlyChanges (s.onPage fn f) rs l := by
  have hrest := State.hostOpen_atRest ho
  have hw := State.atRest_wf hrest
  have hall : s.alters (f s.tlp) rs l := State.alters_then (State.alters_of_reports s.reports_tlp) h
  obtain ⟨hset, hrun⟩ := State.alters_rests hall hr (State.rests_of_atRest hrest) hw
  have e := State.onPage_rest ho f hset hrun
  exact ⟨e, e ▸ (State.alters_report hall (State.reports_settleArbs _) hw).2⟩

theorem State.readPage_alters {f : State → Word × State} (h : s.tlp.alters (f s.tlp).2 rs l) :
    s.readPage fn f = ((f s.tlp).2.emit (.cpl none fn (f s.tlp).1)).settleArbs ∧ s.onlyChanges (s.readPage fn f) rs l := by
  have e : s.readPage fn f = s.onPage fn fun t => (f t).2.emit (.cpl none fn (f t).1) := by
    have hrest := State.hostOpen_atRest ho
    simp only [State.hostOpen, Bool.and_eq_true, Bool.not_eq_true'] at ho
    simp only [State.readPage, State.onPage, State.paged, State.act_rest hrest, ho.2, Bool.false_eq_true, if_false]
  rw [e]
  exact State.onPage_alters (f := fun t => (f t).2.emit (.cpl none fn (f t).1)) ho hr (State.alters_report h (State.reports_emit _ _))

end

/-- Counting the TLP leaves the source that leads as it is. -/
theorem State.leads_tlp {i n : Nat} (h : s.Leads i n) : s.tlp.Leads i n := by
  simpa only [State.Leads, State.src_congr s.tlp_evc, State.tgt_congr s.tlp_evc] using h

/-! ## A claim (R351, R353) -/

/-- The best source of a target is claimed: PENDING falls unless an edge came in this hub cycle, and the source stands on top of the stack. -/
def State.claimed (s : State) (i n : Nat) : State :=
  (((s.onSrc n fun y => { y with pending := y.edgeAt = some s.glb.time, edgeAt := none }).onTgt i
    fun g => { g with stack := (n, (s.src n).level) :: g.stack }).ops 0x0E 1)

theorem State.claim_none (s : State) {i : Nat} (h : s.best i = none) : s.claim i = (0, s) := by
  simp only [State.claim, h]

theorem State.claim_some (s : State) {i n : Nat} (h : s.best i = some (n, s.src n)) :
    s.claim i = (place (s.src n).level.toNat 16 ||| BitVec.ofNat 64 n, (s.claimed i n).refresh i) := by
  simp only [State.claim, h, State.claimed]

theorem State.alters_claimed (s : State) (i n : Nat) : s.alters (s.claimed i n) [.evc, .evc] :=
  State.alters_report (State.alters_then (s.alters_onSrc n _) (State.alters_onTgt _ i _)) (State.reports_ops _ _ _)

theorem State.claimed_out (s : State) (i n : Nat) : (s.claimed i n).out = s.out := (State.quiet_ops _ _ _).out

theorem State.claimed_src (hw : s.wf = true) (i n m : Nat) : (s.claimed i n).src m =
    if m = n then { s.src n with pending := decide ((s.src n).edgeAt = some s.glb.time), edgeAt := none } else s.src m := by
  rw [State.claimed, State.src_congr (State.ops_evc _ _ _), State.src_onTgt, State.src_onSrc (State.wf_src hw)]

theorem State.claimed_tgt (hw : s.wf = true) (i n j : Nat) : (s.claimed i n).tgt j =
    if j = i then { s.tgt i with stack := (n, (s.src n).level) :: (s.tgt i).stack } else s.tgt j := by
  rw [State.claimed, State.tgt_congr (State.ops_evc _ _ _), State.tgt_onTgt (State.wf_tgt (s.alters_onSrc n _ hw).1), State.tgt_onSrc,
    State.tgt_onSrc]

/-- No source is above the level just claimed. -/
theorem State.best_claimed (hw : s.wf = true) {i n : Nat} (h : s.Leads i n) : (s.claimed i n).best i = none := by
  refine State.best_of_none (s.alters_claimed i n hw).1 fun m => Bool.eq_false_iff.2 fun he => ?_
  rw [State.claimed_tgt hw, if_pos rfl, State.claimed_src hw] at he
  obtain ⟨hm, habove⟩ := eligible_push (running_lt_of_eligible h.1) he
  by_cases hmn : m = n
  · rw [if_pos hmn] at habove
    exact BitVec.lt_irrefl _ habove
  · rw [if_neg hmn] at hm habove
    rcases h.2 m hm with hlt | ⟨heq, -⟩
    · exact BitVec.lt_asymm habove hlt
    · exact BitVec.lt_irrefl _ (heq ▸ habove)

section
variable (hw : s.wf = true) {i n : Nat} (h : s.Leads i n)
include hw h

/-- The target after a claim: the source on top of its stack, and REQUEST 0. -/
theorem State.tgt_claim (j : Nat) : ((s.claimed i n).refresh i).tgt j =
    if j = i then { s.tgt i with stack := (n, (s.src n).level) :: (s.tgt i).stack, req := false } else s.tgt j := by
  rw [State.refresh_tgt (s.alters_claimed i n hw).1, State.best_claimed hw h]
  split
  · rw [State.claimed_tgt hw, if_pos rfl]
    rfl
  · next hj => rw [State.claimed_tgt hw, if_neg hj]

omit h in
theorem State.src_claim (m : Nat) : ((s.claimed i n).refresh i).src m =
    if m = n then { s.src n with pending := decide ((s.src n).edgeAt = some s.glb.time), edgeAt := none } else s.src m :=
  (State.refresh_src _ i m).trans (State.claimed_src hw i n m)

theorem State.out_claim : ((s.claimed i n).refresh i).out =
    s.out ++ if 192 ≤ i ∧ (s.tgt i).req = true then [.evtOut (i - 192) false] else [] := by
  rw [State.refresh_out _ (State.best_claimed hw h), State.claimed_out, State.claimed_tgt hw, if_pos rfl]

end

theorem State.evc_claim (s : State) (i n : Nat) : ((s.claimed i n).refresh i).evc =
    { s.evc with src := ((s.claimed i n).refresh i).evc.src, tgt := ((s.claimed i n).refresh i).evc.tgt } := by
  rw [State.refresh_evc, State.onTgt, State.onEvc_evc, State.claimed, State.ops_evc]
  rfl

theorem State.alters_claim (s : State) (i n : Nat) : s.alters ((s.claimed i n).refresh i) [.evc, .evc] :=
  State.alters_report (s.alters_claimed i n) (State.reports_refresh _ i)

/-! ## A complete (R352) -/

/-- An entry of a source is taken from the claim stack of a target. -/
def State.completed (s : State) (i n : Nat) : State := s.onTgt i fun g => { g with stack := g.stack.eraseP (·.1 = n) }

theorem State.alters_completed (s : State) (i n : Nat) : s.alters (s.completed i n) [.evc] := s.alters_onTgt i _

theorem State.tgt_complete (hw : s.wf = true) (i n j : Nat) : ((s.completed i n).refresh i).tgt j =
    if j = i then { s.tgt i with
      stack := (s.tgt i).stack.eraseP (·.1 = n), req := (((s.completed i n).refresh i).best i).isSome } else s.tgt j := by
  have hw' := (s.alters_completed i n hw).1
  have htgt := State.tgt_onTgt (State.wf_tgt hw) i (f := fun g => { g with stack := g.stack.eraseP (·.1 = n) })
  rw [State.refresh_tgt hw', State.refresh_best hw', State.completed]
  split
  · rw [htgt, if_pos rfl]
  · next hj => rw [htgt, if_neg hj]

theorem State.evc_complete (s : State) (i n : Nat) :
    ((s.completed i n).refresh i).evc = { s.evc with tgt := ((s.completed i n).refresh i).evc.tgt } := by
  rw [State.refresh_evc]
  rfl

section
variable {fn i n : Nat}

theorem State.completeWrite_onStack (hh : s.holdsTarget fn i = true) (h : (s.tgt i).stack.any (·.1 = n) = true) :
    s.completeWrite fn i n = (s.completed i n).refresh i := by
  simp only [State.completeWrite, State.onHeld, hh, h, if_true, State.completed, dropFirst_eq_eraseP]

theorem State.completeWrite_notOnStack (hh : s.holdsTarget fn i = true) (h : (s.tgt i).stack.any (·.1 = n) = false) :
    s.completeWrite fn i n = s.evcFlag fn 2 := by
  simp only [State.completeWrite, State.onHeld, hh, h, if_true, Bool.false_eq_true, if_false]

theorem State.completeWrite_foreign (hh : s.holdsTarget fn i = false) : s.completeWrite fn i n = s.evcFlag fn 4 := by
  simp only [State.completeWrite, State.onHeld, hh, Bool.false_eq_true, if_false]

theorem State.claimRead_held (hh : s.holdsTarget fn i = true) : s.claimRead fn i = s.claim i := if_pos hh

theorem State.claimRead_foreign (hh : s.holdsTarget fn i = false) : s.claimRead fn i = (0, s.evcFlag fn 4) := by
  simp only [State.claimRead, hh, Bool.false_eq_true, if_false]

end

theorem State.alters_evcFlag (s : State) (fn : Nat) {b : Nat} (hb : b < 64) : s.alters (s.evcFlag fn b) [] [(pgEVC, fn, b)] :=
  State.alters_of_reports (s.reports_flag pgEVC fn b 0 0 (by decide) hb)

/-- An access that only sets a sticky bit keeps every claim stack. -/
theorem State.stack_of_onlyChanges {l : List (Nat × Nat × Nat)} (h : s.onlyChanges t [] l) (i : Nat) :
    (t.tgt i).stack = (s.tgt i).stack := by
  obtain ⟨-, -, -, hkept⟩ := h
  obtain ⟨-, -, htgt⟩ := (hkept .evc).resolve_left (by simp)
  exact (congrArg Target.stack (htgt i) :)

/-! ## The statements -/

theorem exec_evcClaim (fn : Fn) (k : Byte) (s : State) :
    exec (.evcClaim fn k) s = .next (s.readPage fn.toNat fun s => s.claimRead fn.toNat k.toNat) := rfl

theorem exec_evcComplete (fn : Fn) (k : Byte) (v : Word) (s : State) :
    exec (.evcComplete fn k v) s = .next (s.onPage fn.toNat fun s => s.completeWrite fn.toNat k.toNat (field v 12 0)) := rfl

section
variable {fn i : Nat} (ho : s.hostOpen fn = true)
include ho

theorem State.hostOpen_wf_tlp : s.tlp.wf = true := (s.reports_tlp (State.atRest_wf (State.hostOpen_atRest ho))).1

theorem State.readPage_claim_foreign (hh : s.holdsTarget fn i = false) :
    (∃ os, (s.readPage fn fun s => s.claimRead fn i).out = s.out ++ os ++ [.cpl none fn 0]) ∧
      s.onlyChanges (s.readPage fn fun s => s.claimRead fn i) [] [(pgEVC, fn, 4)] := by
  have hc := State.claimRead_foreign ((State.holdsTarget_congr s.tlp_evc fn i).trans hh)
  have ha := s.tlp.alters_evcFlag fn (b := 4) (by decide)
  have hp := State.readPage_alters (f := fun s => s.claimRead fn i) ho (rs := []) (by simp) (by rw [hc]; exact ha)
  obtain ⟨os, hos⟩ := (ha (State.hostOpen_wf_tlp ho)).2.2.1
  refine ⟨⟨os, ?_⟩, hp.2⟩
  rw [hp.1, hc, (State.quiet_settleArbs _).out, State.emit_out, ← hos, s.quiet_tlp.out]

theorem State.readPage_claim_none (hh : s.holdsTarget fn i = true) (hn : ∀ m, eligible (s.tgt i) i (s.src m) = false) :
    (s.readPage fn fun s => s.claimRead fn i).out = s.out ++ [.cpl none fn 0] ∧
      (s.readPage fn fun s => s.claimRead fn i).evc = s.evc ∧ s.onlyChanges (s.readPage fn fun s => s.claimRead fn i) [] := by
  have hb : s.tlp.best i = none := State.best_of_none (State.hostOpen_wf_tlp ho) fun m => by
    rw [State.src_congr s.tlp_evc, State.tgt_congr s.tlp_evc]; exact hn m
  have hc := (State.claimRead_held ((State.holdsTarget_congr s.tlp_evc fn i).trans hh)).trans (s.tlp.claim_none hb)
  have hp := State.readPage_alters (f := fun s => s.claimRead fn i) ho (rs := []) (l := []) (by simp)
    (by rw [hc]; exact s.tlp.reports_refl)
  refine ⟨?_, ?_, hp.2⟩
  · rw [hp.1, hc, (State.quiet_settleArbs _).out, State.emit_out, s.quiet_tlp.out]
  · rw [hp.1, hc, State.settleArbs_evc, State.emit_evc, State.tlp_evc]

/-- A claim of a held target ends in the concentrator and on the ports as the claim left them, with the answer last. -/
theorem State.readPage_claim {n : Nat} (hh : s.holdsTarget fn i = true) (h : s.Leads i n) :
    (s.readPage fn fun s => s.claimRead fn i).out = ((s.tlp.claimed i n).refresh i).out ++
        [.cpl none fn (place (s.src n).level.toNat 16 ||| BitVec.ofNat 64 n)] ∧
      (s.readPage fn fun s => s.claimRead fn i).evc = ((s.tlp.claimed i n).refresh i).evc ∧
      s.onlyChanges (s.readPage fn fun s => s.claimRead fn i) [.evc] := by
  have hb := State.best_of_leads (State.hostOpen_wf_tlp ho) (State.leads_tlp h)
  have hc := (State.claimRead_held ((State.holdsTarget_congr s.tlp_evc fn i).trans hh)).trans (s.tlp.claim_some hb)
  have hp := State.readPage_alters (f := fun s => s.claimRead fn i) ho (rs := [.evc, .evc]) (l := []) (by simp)
    (by rw [hc]; exact s.tlp.alters_claim i n)
  refine ⟨?_, ?_, State.onlyChanges_mono hp.2 (by simp)⟩
  · rw [hp.1, hc, (State.quiet_settleArbs _).out, State.emit_out, State.src_congr s.tlp_evc]
  · rw [hp.1, hc, State.settleArbs_evc, State.emit_evc]

theorem State.onPage_complete {n : Nat} (hh : s.holdsTarget fn i = true) (h : (s.tgt i).stack.any (·.1 = n) = true) :
    (s.onPage fn fun s => s.completeWrite fn i n).evc = ((s.tlp.completed i n).refresh i).evc ∧
      s.onlyChanges (s.onPage fn fun s => s.completeWrite fn i n) [.evc] := by
  have hc := State.completeWrite_onStack ((State.holdsTarget_congr s.tlp_evc fn i).trans hh)
    (by rw [State.tgt_congr s.tlp_evc]; exact h)
  have hp := State.onPage_alters (f := fun s => s.completeWrite fn i n) ho (rs := [.evc]) (l := []) (by simp)
    (by rw [hc]; exact State.alters_report (s.tlp.alters_completed i n) (State.reports_refresh _ i))
  exact ⟨by rw [hp.1, hc, State.settleArbs_evc], hp.2⟩

/-- A complete that only sets a sticky bit. -/
theorem State.onPage_completeFlag {n b : Nat} (hb : b < 64) (hc : s.tlp.completeWrite fn i n = s.tlp.evcFlag fn b) :
    (∀ j, ((s.onPage fn fun s => s.completeWrite fn i n).tgt j).stack = (s.tgt j).stack) ∧
      s.onlyChanges (s.onPage fn fun s => s.completeWrite fn i n) [] [(pgEVC, fn, b)] := by
  have hp := State.onPage_alters (f := fun s => s.completeWrite fn i n) ho (rs := []) (by simp)
    (by rw [hc]; exact s.tlp.alters_evcFlag fn hb)
  exact ⟨State.stack_of_onlyChanges hp.2, hp.2⟩

end

/-- Settles O19: the fold over the sources finds the source that leads; once its level stands on the stack no source is eligible any more, so
that REQUEST falls and nothing is delivered. -/
theorem claimTakesTheHighest : Obligations.ClaimTakesTheHighest := by
  unfold Obligations.ClaimTakesTheHighest
  refine ⟨fun s fn k n ho hh he hl => ⟨_, exec_evcClaim fn k s, ?_⟩, fun s fn k ho hh hn => ⟨_, exec_evcClaim fn k s, ?_⟩,
    fun s fn k ho hh => ⟨_, exec_evcClaim fn k s, State.readPage_claim_foreign ho hh⟩⟩
  · have h : s.Leads k.toNat n := ⟨he, hl⟩
    obtain ⟨hout, hevc, hch⟩ := State.readPage_claim ho hh h
    generalize s.readPage fn.toNat (fun s => s.claimRead fn.toNat k.toNat) = t at hout hevc hch
    have hw := State.hostOpen_wf_tlp ho
    have hsrc (m : Nat) := (State.src_congr hevc m).trans (State.src_claim hw m)
    have htgt (j : Nat) := (State.tgt_congr hevc j).trans (State.tgt_claim hw (State.leads_tlp h) j)
    have hrest := s.tlp.evc_claim k.toNat n
    rw [State.out_claim hw (State.leads_tlp h)] at hout
    rw [← hevc] at hrest
    simp only [State.src_congr s.tlp_evc, State.tgt_congr s.tlp_evc, s.quiet_tlp.out, State.tlp_evc, State.tlp_time]
      at hout hsrc htgt hrest
    refine ⟨hout, ?_, fun m hm => ?_, ?_, ?_, ?_, fun i hi => ?_, hrest, hch⟩
    · rw [hsrc, if_pos rfl]
    · rw [hsrc, if_neg hm]
    · rw [htgt, if_pos rfl]
    · rw [htgt, if_pos rfl]; rfl
    · rw [htgt, if_pos rfl]
    · rw [htgt, if_neg hi]
  · exact State.readPage_claim_none ho hh hn

/-- Settles O20: a complete is the erasure of one entry and a refresh of REQUEST, which changes no source and no other target. -/
theorem completePopsItsEntry : Obligations.CompletePopsItsEntry := by
  unfold Obligations.CompletePopsItsEntry
  refine ⟨fun s fn k v ho hh h => ⟨_, exec_evcComplete fn k v s, ?_⟩, fun s fn k v ho hh h => ⟨_, exec_evcComplete fn k v s, ?_⟩,
    fun s fn k v ho hh => ⟨_, exec_evcComplete fn k v s, ?_⟩⟩
  · obtain ⟨hevc, hch⟩ := State.onPage_complete ho hh h
    generalize s.onPage fn.toNat (fun s => s.completeWrite fn.toNat k.toNat (field v 12 0)) = t at hevc hch
    have htgt (j : Nat) := (State.tgt_congr hevc j).trans (State.tgt_complete (State.hostOpen_wf_tlp ho) k.toNat (field v 12 0) j)
    have hbest := State.best_congr (i := k.toNat) (congrArg Evc.src hevc) (by rw [State.tgt_congr hevc])
    have hrest := s.tlp.evc_complete k.toNat (field v 12 0)
    rw [← hevc, State.tlp_evc] at hrest
    simp only [State.tgt_congr s.tlp_evc, ← hbest] at htgt
    have hk := (htgt k.toNat).trans (if_pos rfl)
    refine ⟨?_, ?_, ?_, ?_, ?_, fun i hi => ?_, hrest, hch⟩
    · rw [hk]
    · rw [hk, running]
      generalize List.eraseP _ _ = l
      cases l <;> rfl
    · rw [hk]
    · rw [hrest]
    · rw [hk]
    · rw [htgt, if_neg hi]
  · exact State.onPage_completeFlag ho (by decide) (State.completeWrite_notOnStack
      ((State.holdsTarget_congr s.tlp_evc _ _).trans hh) (by rw [State.tgt_congr s.tlp_evc]; exact h))
  · exact State.onPage_completeFlag ho (by decide) (State.completeWrite_foreign ((State.holdsTarget_congr s.tlp_evc _ _).trans hh))

/-! ## The defaults (R355) -/

/-- A source raised by a sticky register or by HUB_FATAL is enabled at level 31. -/
theorem srcDflt_sticky {n : Nat} (h : n = 1 ∨ (0x40 ≤ n ∧ n ≤ 0x57F)) : srcDflt n = { en := true, level := 31 } := if_pos h

theorem srcDflt_other {n : Nat} (h : ¬(n = 1 ∨ (0x40 ≤ n ∧ n ≤ 0x57F))) : srcDflt n = {} := if_neg h

theorem State.src_of_reset (h : s.evc = {}) (n : Nat) : s.src n = srcDflt n := by rw [State.src, h]; rfl

theorem State.tgt_of_reset (h : s.evc = {}) (k : Nat) : s.tgt k = tgtDflt k := by rw [State.tgt, h]; rfl

theorem exec_coldReset (s : State) : exec .coldReset s = .next s.coldReset := rfl

theorem exec_warmReset (v : Word) (s : State) : exec (.warmReset v) s = .next (s.act fun s => s.warmReset v) := rfl

theorem exec_hubReady (s : State) : exec .hubReady s = .next s.hubReady := rfl

/-- A hub that is on and is reset cold comes out of it with the concentrator at its defaults. -/
theorem State.evc_coldReset (h : s.on = true) : s.coldReset.hubReady.evc = {} := by
  simp only [State.on, Bool.and_eq_true, Bool.not_eq_true'] at h
  have e : s.coldReset = s.coldState 0 := by simp [State.coldReset, h]
  rw [e]
  rfl

/-- So does one whose warm reset is written, whatever power state it wakes from. -/
theorem State.evc_warmReset (h : s.on = true) : (s.act fun s => s.warmReset 0x5752).hubReady.evc = {} := by
  have e : (s.act fun s => s.warmReset 0x5752) = s.awake.warmState := by
    unfold State.on at h
    rw [State.act, State.inner, if_pos h]
    exact if_pos (by decide)
  rw [e]
  rfl

/-- Settles O16: either reset leaves the concentrator's tables empty, and what they do not list reads its default. -/
theorem eventDefaults : Obligations.EventDefaults := by
  unfold Obligations.EventDefaults
  intro defaults s h
  have hdef (u : State) (hu : u.evc = {}) : defaults u := by
    simp only [defaults, State.src_of_reset hu, State.tgt_of_reset hu]
    refine ⟨rfl, rfl, rfl, rfl, fun k hk => decide_eq_false hk, fun n hn => ?_, fun n hn => ?_, fun n h1 h2 => ?_⟩
    · rw [srcDflt_sticky hn]; exact ⟨rfl, rfl, rfl⟩
    · rw [srcDflt_other hn]; exact ⟨rfl, rfl, rfl⟩
    · rw [srcDflt_sticky (.inr ⟨h1, h2⟩)]; rfl
  exact ⟨⟨_, _, exec_coldReset s, exec_hubReady _, hdef _ (State.evc_coldReset h)⟩,
    _, _, exec_warmReset _ s, exec_hubReady _, hdef _ (State.evc_warmReset h)⟩

end Sys2Proof.Machine
end
